-- ==== Sys2Proof/Word.lean ====
section
/-! DEFINITION. Word types of the QX3 and the sparse map that every indexed piece of state uses.
Multi-byte values are little-endian everywhere (spec 00_scope.md, Notation). -/

namespace Sys2Proof

/-- One byte. -/
abbrev Byte := BitVec 8
/-- A 32-bit word. -/
abbrev W32 := BitVec 32
/-- A 64-bit word: general registers, tallies, instruction and extension words. -/
abbrev W64 := BitVec 64
/-- A vector register: 1,024 bits (Table 06-2). -/
abbrev VReg := BitVec 1024
/-- A 64-byte command or record, bit 0 the least significant bit of its first byte (Table 12-13). -/
abbrev W512 := BitVec 512

/-- A sparse map from numbers to values. In the canonical form its keys rise strictly and no entry
equals the value an unlisted key reads as, so equal maps are equal lists. -/
abbrev NMap (α : Type) := List (Nat × α)

end Sys2Proof
end

