-- ==== Sys2Proof/Types.lean ====
section
/-! DEFINITION. The operand types of the commands: what an event from outside brings with it (sensor
readings, host stores, test outcomes, received flits), and where a command stands. -/

namespace Sys2Proof

/-- What the security engine finds when it checks a repair authorisation, whose layout no table gives (R61): the
public key's hash, the signature, and the digest. -/
structure SigV where
  keyOk : Bool := true
  sigOk : Bool := true
  digestOk : Bool := true
deriving DecidableEq, Repr

/-- One windchest's readings at a thermal loop step (R295): its 8 SRAM sensors in 0.1 °C, `none`
where a sensor reads open or out of range (R297), and its HBM readout. -/
structure WcReading where
  wc : Nat
  sensors : List (Option Nat)
  hbm : Nat
deriving DecidableEq, Repr

/-- What changed on the host's side and is now visible to the module: stores to host memory, and, when
given, the host address ranges (first, past the last) that ATS refuses and that answer with an abort. -/
structure HostDelta where
  stores : List (Nat × Byte) := []
  atsRefuses : Option (List (Nat × Nat)) := none
  aborts : Option (List (Nat × Nat)) := none
deriving DecidableEq, Repr

/-- A host write that the hub queue holds for the Drone (R284): function, offset, size, value. -/
structure HubWrite where
  f : Bool
  off : BitVec 24
  size : Nat
  v : W64
deriving DecidableEq, Repr

/-- Outcome of the MEMORY stage's training, repair and self-tests (Table 13-1). -/
structure MemReport where
  /-- Stacks that trained fewer than 31 data pseudo-channels. -/
  shortStacks : List Nat := []
  /-- A chest, accumulator or core memory row that no spare row repairs. -/
  sramShort : Bool := false
  /-- Core sites (island IDs) whose core memory could not be repaired. -/
  badCoreMem : List Nat := []
  /-- HBM rows under hard repair: stack, pseudo-channel, bank, row. -/
  hardRows : List (Nat × Nat × Nat × Nat) := []
  /-- Chest rows replaced by a spare row: windchest, row. -/
  chestRows : List (Nat × Nat) := []
  /-- Stacks whose spare pseudo-channel is in use: stack, physical pseudo-channel it replaces. -/
  swapped : List (Nat × Nat) := []
deriving DecidableEq, Repr

/-- A defect that the array self-test found: tile, block (true) or column, physical line (R59). -/
structure ArrayDefect where
  tile : Nat
  block : Bool
  line : Nat
deriving DecidableEq, Repr

/-- Outcome of the COMPUTE stage's tests (Table 13-1, Table 13-8). -/
structure ComputeReport where
  /-- Core sites (island IDs) that fail the logic test. -/
  badSites : List Nat := []
  defects : List ArrayDefect := []
  /-- An RX, a required UX or an island does not respond. -/
  engineFault : Bool := false
  /-- Feature words do not equal the licence. -/
  featureFault : Bool := false
deriving DecidableEq, Repr

/-- A repair authorisation (R61): module named, tile, its block entry, its column entries (physical
columns), and the security engine's verdict. -/
structure RepairAuth where
  moduleId : W64
  tile : Nat
  block : Bool
  cols : List Nat
  verdict : SigV
deriving DecidableEq, Repr

/-- A discovery record as received (R190). -/
structure DiscRecord where
  peerId : W64
  port : Nat
  grade : Nat
  suffix : Nat
  coord : Option (BitVec 17)
deriving DecidableEq, Repr

/-- What ALIGN finds (R188): order 0 identity, 1 full reversal, others another order; lanes with
reversed polarity; lanes failed in each direction; FEC lock reached. -/
structure AlignReport where
  order : Nat
  inverted : BitVec 18
  failedRx : BitVec 18
  failedTx : BitVec 18
  lock : Bool
deriving DecidableEq, Repr

/-- A flit as it arrives (Table 10-3): its 96 header bits, its payload, its CRC, whether every codeword it lay in
was correctable, with a packet's first flit the 64-byte units of the packet's data that are marked as poison, and how many
codewords that end with it were corrected and were uncorrectable (R185). -/
structure FlitIn where
  header : BitVec 96
  payload : List Byte
  crc : W32
  codewordOk : Bool
  poison : List Nat := []
  corrected : Nat := 0
  uncorrected : Nat := 0
deriving DecidableEq, Repr

/-- Extension word of format T (Table 07-2), reserved bits apart. -/
structure TExt where
  idxh : BitVec 16 := 0
  idxdim : BitVec 2 := 0
  idxen : Bool := false
  srnd : BitVec 2 := 0
  rm : BitVec 3 := 0
  idxrole : BitVec 2 := 0
  opx : W32 := 0
deriving DecidableEq, Repr

/-- Where the front end takes a command from: a queue, or the admin ring of a function (false is
function 0). -/
inductive Src where
  | queue (qid : BitVec 20)
  | admin (f : Bool)
deriving DecidableEq, Repr

/-- Who asks for a reset: a function with its RESET_REQ value (Table 15-5), or a fault that names the
target (engine kind and index, or partition). -/
inductive ResetReq where
  | host (f : Bool) (v : W64)
  | fault (a b : Nat)
deriving DecidableEq, Repr

/-- A reset domain in progress (Table 15-4). -/
inductive Domain where
  | context (c : Nat)
  | engine (kind index : Nat)
  | core (c : Nat)
  | partition (p : Nat)
  | chip
  | wcIsland (w : Nat)
deriving DecidableEq, Repr

/-- Why THERM_ALERT_N's cause ends (R361). -/
inductive AlertEnd where
  | leakDry
  | inletCool (tenths : Nat)
  | reverseRemoved
deriving DecidableEq, Repr

/-- A transaction at the edge of a resetting domain (Table 15-7). -/
inductive EdgeTxn where
  | memRead (line : Nat)
  | memWrite
  | memTally
  | response
  | snoop
  | stampOrWake
  | debugAccess
  /-- A transaction of a site in quarantine, at its own network interface (R323). -/
  | fromSite
deriving DecidableEq, Repr

/-- What the patrol found at a line (R83, R85): how many of its code words it corrected and how many it could not, and
whether an engine or the host wrote the line after the patrol read it. -/
structure PatrolFind where
  corrected : Nat
  uncorrectable : Nat
  writtenSince : Bool
deriving DecidableEq, Repr

end Sys2Proof
end

