-- ==== Sys2Proof/Syntax.lean ====
section
/-! DEFINITION. The commands of the QX3: one constructor for each row of the table of operations and
events (spec/opcode_table.json), with what the event brings as operands. A QIS instruction names the
queue context that executes it by the number its direct queue's QID has: kind, index and queue context
(R241). -/

namespace Sys2Proof

/-- The commands, in the table's order. -/
inductive Instr where
  /-- COLD_POWER_ON (R355): Release of MOD_RESET_N with both supplies in range powers the rails up in order and starts bring-up. -/
  | coldPowerOn (vin : Int) (aux : Nat)
  /-- POWER_DOWN (R356): Assertion of MOD_RESET_N for 1 µs or longer drops PWR_GOOD and brings the rails down in reverse order. -/
  | powerDown (assertedNs : Nat)
  /-- VIN_OUT_OF_RANGE (R357): VIN below 38 V for 100 µs or above 62 V for 10 µs powers the module down, latches VIN_UNDER or VIN_OVER and holds it down. -/
  | vinOutOfRange (vin : Int) (forUs : Nat)
  /-- VIN_MARGINAL (R365): VIN between 38 and 40 V or between 60 and 62 V is latched; at low VIN the Bellows limit input current to 105 A. -/
  | vinMarginal (vin : Int)
  /-- VIN_REVERSED (R365): Reversed VIN is blocked, PWR_GOOD stays low and the event is latched if AUX_3V3 is present. -/
  | vinReversed (vin : Int) (aux : Nat)
  /-- AUX_LOST (R358): Loss of AUX_3V3 in operation moves the always-on islands onto VIN within 100 µs and latches AUX_LOST. -/
  | auxLost
  /-- AUX_MARGINAL (R365): AUX_3V3 outside its operating range but at or above 3.0 V is latched, and the module runs on. -/
  | auxMarginal (aux : Nat)
  /-- RAIL_FAULT (R361): A rail fault drops PWR_GOOD and the module powers down. -/
  | railFault (rail : Nat)
  /-- PHASE_FAIL (R294): A failed power phase is replaced by a spare, or the power cap is lowered by 52.5 W when no spare is left. -/
  | phaseFail (bw phase : Nat)
  /-- CURRENT_LIMIT_CLAMP (R294): A power stage clamps a rail to its fused current limit within 1 µs by holding back the clocks of that rail's islands. -/
  | currentLimitClamp (rail : Nat)
  /-- POWER_LOOP (R294): The Bellows keep input power at or below PWR_CAP over each 10 ms window by lowering the array and then the core frequencies. -/
  | powerLoop (watts : Nat) (vin : Nat)
  /-- THERMAL_LOOP (R295): Every 100 µs the loop reads the windchest sensors and the HBM readout and moves each windchest's frequency limit. -/
  | thermalLoop (readings : List WcReading) (converged : Bool)
  /-- THERM_TRIP (R296): A windchest sensor at 115 °C stops the clocks of the compute islands above it within 10 µs and asserts THERM_ALERT_N. -/
  | thermTrip (wc temp : Nat)
  /-- THERM_TRIP_CLEAR (R296): When every sensor of a tripped windchest falls below 100 °C, its clocks restart at 1.2 GHz. -/
  | thermTripClear (wc : Nat) (temps : List Nat)
  /-- LEAK_WET (R365): A wet leak loop sets every windchest limit to 1.2 GHz, asserts THERM_ALERT_N and sends a FAULT_NOTICE. -/
  | leakWet
  /-- LEAK_OPEN (R365): An open leak loop is recorded as an invalid sensor, and the clocks do not change. -/
  | leakOpen
  /-- INLET_OPEN (R365): An invalid inlet thermistor is treated as reading 45 °C, and the limit is capped at 2.3 GHz. -/
  | inletOpen
  /-- COOLANT_HOT (R361): A coolant inlet reading above 45 °C asserts THERM_ALERT_N and latches COOLANT_HOT. -/
  | coolantHot (temp : Nat)
  /-- SB_I3C_FAULT (R365): A shorted I3C line stops the module driving that bus, and it answers on SMBus instead. -/
  | sbI3cFault
  /-- SB_SMB_FAULT (R365): A shorted SMBus line stops the module driving that bus, and it answers on I3C instead. -/
  | sbSmbFault
  /-- CLK_FALLBACK (R14): A die that loses the HA reference switches its islands to its fallback oscillator without losing state. -/
  | clkFallback (die : Nat)
  /-- REFCLK_LOST (R362): Loss of a CXL reference for 10 µs takes the link down, latches REFCLK_LOST and retrains in SRIS mode if possible. -/
  | refclkLost (link : Bool) (forUs : Nat) (sris : Bool)
  /-- PERST_ASSERT (R360): Assertion of PERSTn_N takes link n down and applies a function-level reset to its function. -/
  | perstAssert (link : Bool)
  /-- PERST_RELEASE (R360): Release of PERSTn_N lets link n train again. -/
  | perstRelease (link cache : Bool)
  /-- FUNCTION_LEVEL_RESET (R232): A function-level reset resets every context the function owns, destroys their queues and clears its admin queue registers. -/
  | functionLevelReset (f : Bool)
  /-- FUNCTION1_PROMOTION (R231): Link 0 down for 1 s, or a Drone takeover, promotes function 1 in STANDBY to serve all of BAR0 and take every context. -/
  | function1Promotion (takeover : Bool)
  /-- HOST_LINK0_DOWN (R234): When link 0 goes down, every host hold on lines of the HDM window is dropped without write-back. -/
  | hostLink0Down
  /-- HDM_READ (R233): A host CXL.mem read of the HDM window returns the line's value, or poisoned data when the line is poisoned or BAD is set. -/
  | hdmRead (addr : W64)
  /-- HDM_WRITE (R233): A host CXL.mem write to the HDM window is performed coherently, or is discarded while BAD is set. -/
  | hdmWrite (addr : W64) (bytes : List Byte)
  /-- POWER (R261): Bring-up stage POWER: the Bellows bring up the rails and HA's always-on island starts. -/
  | power
  /-- ROM (R263): Bring-up stage ROM: the boot ROM authenticates a firmware bank, or the module enters RECOVERY. -/
  | rom
  /-- LICENCE (R272): Bring-up stage LICENCE: the Drone verifies the licence and sets the grade's enables. -/
  | licence
  /-- FABRIC (R261): Bring-up stage FABRIC: islands lock, the UCIe links, routers and observation ring start, and firmware processors are loaded. -/
  | fabric
  /-- MEMORY (R261): Bring-up stage MEMORY: HBM training and hard repair, and self-test and repair of the SRAMs. -/
  | memory (r : MemReport)
  /-- LINKS (R186): Bring-up stage LINKS: every enabled Etris port trains through DISCOVER. -/
  | links
  /-- COMPUTE (R261): Bring-up stage COMPUTE: array self-test, core test, core map, loading and stamping, feature words, personality check and legacy defect list. -/
  | compute (r : ComputeReport)
  /-- TOPOLOGY (R278): Bring-up stage TOPOLOGY: the held manifest extract is checked against the discovered peers. -/
  | topology
  /-- STAGE_TIMEOUT (R261): A bring-up stage that exceeds its limit ends bring-up in FAILED with reason TIMEOUT. -/
  | stageTimeout
  /-- MANIFEST_EXTRACT (R277): A manifest extract from the tray is checked and, if accepted, sets the coordinate and axis sizes and reruns the topology check. -/
  | manifestExtract (bytes : List Byte)
  /-- COLL_LINE_SET (R222): The fabric manager sets COLL_LINE of an axis, which aborts that axis's open collectives with ABORTED_PEER_DOWN. -/
  | collLineSet (axis : BitVec 2) (val : W32)
  /-- ROUTE_EXC_WRITE (R204): The fabric manager writes one route-exception entry atomically. -/
  | routeExcWrite (e : BitVec 12) (entry : W64)
  /-- SB_LICENCE_INSTALL (R274): A licence sent over the sideband is stored only if it passes the checks and has a higher SERIAL. -/
  | sbLicenceInstall (bytes : List Byte)
  /-- SET_ENDPOINT_ID (R298): MCTP control: sets the endpoint ID. -/
  | setEndpointId (id : Byte)
  /-- GET_ENDPOINT_ID (R298): MCTP control: returns the endpoint ID. -/
  | getEndpointId
  /-- GET_ENDPOINT_UUID (R298): MCTP control: returns the endpoint UUID. -/
  | getEndpointUuid
  /-- GET_MCTP_VERSION_SUPPORT (R298): MCTP control: returns the supported MCTP versions. -/
  | getMctpVersionSupport
  /-- GET_MESSAGE_TYPE_SUPPORT (R298): MCTP control: returns the supported message types. -/
  | getMessageTypeSupport
  /-- GET_VENDOR_DEFINED_MESSAGE_SUPPORT (R298): MCTP control: returns the vendor-defined message support. -/
  | getVendorDefinedMessageSupport
  /-- GETTID (R298): PLDM base: returns the terminus ID, including the slot number. -/
  | gettid
  /-- SETTID (R298): PLDM base: sets the terminus ID. -/
  | settid (id : Byte)
  /-- GETPLDMVERSION (R298): PLDM base: returns the PLDM version. -/
  | getpldmversion (ty : Byte)
  /-- GETPLDMTYPES (R298): PLDM base: returns the supported PLDM types. -/
  | getpldmtypes
  /-- GETPLDMCOMMANDS (R298): PLDM base: returns the supported commands of a type. -/
  | getpldmcommands (ty : Byte)
  /-- GETPDR (R298): PLDM platform: returns a platform descriptor record. -/
  | getpdr (handle : W32)
  /-- GETSENSORREADING (R298): PLDM platform: returns a thermal or power sensor reading. -/
  | getsensorreading (sensor : BitVec 16)
  /-- GETSTATESENSORREADINGS (R298): PLDM platform: returns the FWP_STATE, READY and THERM_ALERT states. -/
  | getstatesensorreadings (sensor : BitVec 16)
  /-- SETEVENTRECEIVER (R298): PLDM platform: sets the receiver of the PlatformEventMessages the module sends. -/
  | seteventreceiver (addr : Byte)
  /-- QUERYDEVICEIDENTIFIERS (R298): PLDM firmware update: returns the device identifiers. -/
  | querydeviceidentifiers
  /-- GETFIRMWAREPARAMETERS (R298): PLDM firmware update: returns the firmware parameters. -/
  | getfirmwareparameters
  /-- REQUESTUPDATE (R298): PLDM firmware update: enters update mode. -/
  | requestupdate
  /-- PASSCOMPONENTTABLE (R298): PLDM firmware update: passes the component table, whose one component is the bank that did not boot. -/
  | passcomponenttable (component : BitVec 16)
  /-- UPDATECOMPONENT (R298): PLDM firmware update: starts the transfer of the bank that did not boot, through RequestFirmwareData, TransferComplete, VerifyComplete and ApplyComplete. -/
  | updatecomponent (component : BitVec 16) (image : List Byte)
  /-- ACTIVATEFIRMWARE (R298): PLDM firmware update: sets FW_PREF so that the new image takes effect at the next cold power-on. -/
  | activatefirmware
  /-- GETSTATUS (R298): PLDM firmware update: returns the update status. -/
  | getstatus
  /-- CANCELUPDATECOMPONENT (R298): PLDM firmware update: cancels the component update. -/
  | cancelupdatecomponent
  /-- CANCELUPDATE (R298): PLDM firmware update: cancels the update. -/
  | cancelupdate
  /-- GET_VERSION (R298): SPDM 1.2: returns the supported versions. -/
  | getVersion
  /-- GET_CAPABILITIES (R298): SPDM 1.2: returns the capabilities. -/
  | getCapabilities
  /-- NEGOTIATE_ALGORITHMS (R298): SPDM 1.2: negotiates P-256, SHA-256 and AES-256-GCM. -/
  | negotiateAlgorithms (offered : W32)
  /-- GET_DIGESTS (R298): SPDM 1.2: returns the certificate chain digests. -/
  | getDigests
  /-- GET_CERTIFICATE (R300): SPDM 1.2: returns the slot 0 chain from Worind's root to the device certificate. -/
  | getCertificate (slot : Byte) (offset len : BitVec 16)
  /-- CHALLENGE (R300): SPDM 1.2: answers a challenge signed by the device identity key. -/
  | challenge (slot : Byte) (nonce : BitVec 256)
  /-- GET_MEASUREMENTS (R300): SPDM 1.2: returns the signed measurement blocks. -/
  | getMeasurements (index : Byte) (signed : Bool)
  /-- KEY_EXCHANGE (R298): SPDM 1.2 over DOE: starts a session for CXL IDE key management. -/
  | keyExchange (doe : Bool)
  /-- FINISH (R298): SPDM 1.2 over DOE: completes session establishment. -/
  | finish (doe : Bool)
  /-- KEY_UPDATE (R298): SPDM 1.2 over DOE: updates the session keys. -/
  | keyUpdate (doe : Bool)
  /-- END_SESSION (R298): SPDM 1.2 over DOE: ends the session. -/
  | endSession (doe : Bool)
  /-- UNSUPPORTED_MESSAGE (R298): An unsupported sideband message gets the protocol's unsupported-command completion. -/
  | unsupportedMessage (proto code : Byte)
  /-- HOST_HEARTBEAT (R260): A write records a heartbeat for the function and returns its host state to ATTACHED. -/
  | hostHeartbeat (f : Bool)
  /-- HEARTBEAT_TIMEOUT (R260): 10 s with no heartbeat moves the function from ATTACHED to ABSENT and clears NEG_AGREED. -/
  | heartbeatTimeout (f : Bool)
  /-- ORPHAN_GRACE_EXPIRY (R260): When ORPHAN_GRACE elapses in ABSENT, the function enters QUIESCING and fetching stops on its queues. -/
  | orphanGraceExpiry (f : Bool)
  /-- QUIESCE_COMPLETE (R260): When every dispatched command has completed or blocked, the function becomes ORPHANED with contexts QUIESCED. -/
  | quiesceComplete (f : Bool)
  /-- NEG_HOST_FEATURES (R289): A write of the driver's feature offer makes the Drone compute NEG_AGREED within 1 ms. -/
  | negHostFeatures (f : Bool) (v : W64)
  /-- ADMIN_CFG_WRITE (R289): A write to ADMIN_CFG enables the admin ring unless NEG_AGREED is 0 or a log value is out of range. -/
  | adminCfgWrite (f : Bool) (v : W64)
  /-- PART_FRONT_MODE_WRITE (R248): A write changes each partition's mode bit only while it has no queue, and sets REFUSED otherwise. -/
  | partFrontModeWrite (f : Bool) (v : W64)
  /-- HDM_CFG_WRITE (R233): A write sets the HDM window while the decoder is uncommitted and checks it against the partitions in force. -/
  | hdmCfgWrite (f : Bool) (v : W64) (uncommit commit : Bool)
  /-- REGISTER_WRITE (R235): A write to a BAR0 register with no row of its own sets its writable fields under the access codes, or is ignored. -/
  | registerWrite (f : Bool) (off : BitVec 24) (size : Nat) (v : W64)
  /-- RC_REGISTER_READ (R235): A read covering an RC register in full returns its value and clears it. -/
  | rcRegisterRead (f : Bool) (off : BitVec 24) (size : Nat)
  /-- LICENCE_INSTALL (R274): Mailbox command: stores a licence that passes its checks and has a higher SERIAL, or refuses it. -/
  | licenceInstall (f : Bool)
  /-- REPAIR_AUTH (R61): Mailbox command: verifies a repair authorisation and has the chest controller blow the named soft entries. -/
  | repairAuth (f : Bool) (a : RepairAuth)
  /-- FUSE_ENTRY_BLOWN (R61): A fuse entry finishes blowing, clears its SOFT bit and sets FIELD. -/
  | fuseEntryBlown (tile : Nat)
  /-- FW_WRITE (R292): Mailbox command: writes data into the bank that did not boot. -/
  | fwWrite (f : Bool)
  /-- FW_CHECK (R292): Mailbox command: checks a bank against R263 and sets ALT_OK. -/
  | fwCheck (f : Bool)
  /-- ID_CERT (R292): Mailbox command: returns one certificate of the identity chain. -/
  | idCert (f : Bool)
  /-- WATCHDOG_FIRE (R283): 10 ms without a watchdog signal, or an exception, freezes the processor's hardware settings and begins its reload. -/
  | watchdogFire (proc : Nat) (exception : Bool) (held : List HubWrite)
  /-- PROC_RESTART (R283): A reloaded processor reads back its hardware state, performs queued host writes and resumes. -/
  | procRestart (proc : Nat)
  /-- PROC_TAKEOVER (R285): After three watchdog firings in 60 s, the standby takes the Drone or Chanter role, or the processor is marked FAILED. -/
  | procTakeover (proc : Nat)
  /-- PRODUCER_INDEX_WATCH (R243): Loss of a watched producer-index line makes the front end re-read every index in it and fetch new commands. -/
  | producerIndexWatch (line : W64) (h : HostDelta)
  /-- PRODUCER_INDEX_POLL (R243): At each POLL_INTERVAL the front end reads the polled producer indices and fetches new commands. -/
  | producerIndexPoll (h : HostDelta)
  /-- COMMAND_WAIT_RELEASE (R245): A command waiting on WAIT_ADDR is released when the tally reaches WAIT_THRESH, and is dispatched. -/
  | commandWaitRelease (qid : BitVec 20)
  /-- NOP (R244): Command NOP completes with no effect. -/
  | nop (src : Src)
  /-- INSN (R103): Command INSN has the target engine execute one QIS instruction. -/
  | insn (qid : BitVec 20)
  /-- PROG (R103): Command PROG sets the program counter and runs instructions until END. -/
  | prog (qid : BitVec 20) (steps : Nat)
  /-- IF (R250): Command IF compares a 64-bit value with ARG1 and runs the target buffer once when it matches. -/
  | ifCmd (qid : BitVec 20)
  /-- LOOP (R250): Command LOOP runs the target buffer ARG0 times, writing the iteration index if asked. -/
  | loopCmd (qid : BitVec 20)
  /-- CALL (R250): Command CALL runs the target buffer once as a new frame. -/
  | callCmd (qid : BitVec 20)
  /-- RET (R250): Command RET ends the running buffer or graph frame. -/
  | retCmd (qid : BitVec 20)
  /-- LAUNCH (R251): Command LAUNCH binds the current version of a stored graph and dispatches its commands. -/
  | launch (qid : BitVec 20)
  /-- PATCHGRAPH (R252): Command PATCHGRAPH copies touched pages, applies patches and switches the graph's current version. -/
  | patchgraph (qid : BitVec 20)
  /-- CTX_CREATE (R240): Control command: makes a FREE context ACTIVE in a partition with its SR seed. -/
  | ctxCreate (f : Bool)
  /-- CTX_DESTROY (R254): Control command: resets a context, destroys its queues, frees its graphs and makes it FREE. -/
  | ctxDestroy (f : Bool)
  /-- CTX_RESET (R308): Control command: context reset, which also ends fabric work when FABRIC = 1. -/
  | ctxReset (f : Bool)
  /-- CTX_RESUME (R260): Control command: returns a QUIESCED context to ACTIVE. -/
  | ctxResume (f : Bool)
  /-- Q_CREATE (R241): Control command: creates a queue from a queue record, IDLE. -/
  | qCreate (f : Bool)
  /-- Q_DESTROY (R254): Control command: drops unfetched entries and completes once dispatched commands have completed. -/
  | qDestroy (f : Bool)
  /-- Q_RESTART (R255): Control command: resumes a STOPPED or HALTED queue by skip or retry. -/
  | qRestart (f : Bool)
  /-- SINK_SET (R259): Control command: gives a queue a new completion ring and clears SINK_BAD. -/
  | sinkSet (f : Bool)
  /-- XLAT_INVAL (R92): Control command: drops cached translations of a context range and completes when old-entry accesses are performed. -/
  | xlatInval (f : Bool)
  /-- GRAPH_STORE (R251): Control command: copies a graph into the pool as version 1. -/
  | graphStore (f : Bool)
  /-- GRAPH_FREE (R251): Control command: clears a graph's current pointer, freeing versions as launches end. -/
  | graphFree (f : Bool)
  /-- COMMAND_COMPLETION (R256): A command completes: SIG addition, completion word, MSI-X, and a chained successor or a queue stop. -/
  | commandCompletion (src : Src) (seq : BitVec 56)
  /-- CONTEXT_SWITCH (R105): An engine switches queue contexts when the running one blocks, finishes or runs 65,536 cycles. -/
  | contextSwitch (kind index : Nat) (steps : Nat)
  /-- ADD (R110): RD := RA + RB. -/
  | add (q : BitVec 20) (rd ra rb : BitVec 5)
  /-- SUB (R110): RD := RA − RB. -/
  | sub (q : BitVec 20) (rd ra rb : BitVec 5)
  /-- MUL (R110): Low 64 bits of the product. -/
  | mul (q : BitVec 20) (rd ra rb : BitVec 5)
  /-- MULH (R110): High 64 bits of the signed product. -/
  | mulh (q : BitVec 20) (rd ra rb : BitVec 5)
  /-- MULHU (R110): High 64 bits of the unsigned product. -/
  | mulhu (q : BitVec 20) (rd ra rb : BitVec 5)
  /-- DIV (R111): Signed quotient toward zero, with defined results on zero and overflow. -/
  | div (q : BitVec 20) (rd ra rb : BitVec 5)
  /-- DIVU (R111): Unsigned quotient, all ones on divide by zero. -/
  | divu (q : BitVec 20) (rd ra rb : BitVec 5)
  /-- REM (R111): Signed remainder with the sign of RA. -/
  | rem (q : BitVec 20) (rd ra rb : BitVec 5)
  /-- REMU (R111): Unsigned remainder. -/
  | remu (q : BitVec 20) (rd ra rb : BitVec 5)
  /-- AND (R110): Bitwise AND. -/
  | andInsn (q : BitVec 20) (rd ra rb : BitVec 5)
  /-- OR (R110): Bitwise OR. -/
  | orInsn (q : BitVec 20) (rd ra rb : BitVec 5)
  /-- XOR (R110): Bitwise XOR. -/
  | xorInsn (q : BitVec 20) (rd ra rb : BitVec 5)
  /-- SHL (R110): Shift left by RB[5:0]. -/
  | shl (q : BitVec 20) (rd ra rb : BitVec 5)
  /-- SHR (R110): Logical shift right. -/
  | shr (q : BitVec 20) (rd ra rb : BitVec 5)
  /-- SAR (R110): Arithmetic shift right. -/
  | sar (q : BitVec 20) (rd ra rb : BitVec 5)
  /-- MIN (R110): Signed minimum. -/
  | min (q : BitVec 20) (rd ra rb : BitVec 5)
  /-- MAX (R110): Signed maximum. -/
  | max (q : BitVec 20) (rd ra rb : BitVec 5)
  /-- MINU (R110): Unsigned minimum. -/
  | minu (q : BitVec 20) (rd ra rb : BitVec 5)
  /-- MAXU (R110): Unsigned maximum. -/
  | maxu (q : BitVec 20) (rd ra rb : BitVec 5)
  /-- SLT (R110): RD := 1 if RA < RB signed. -/
  | slt (q : BitVec 20) (rd ra rb : BitVec 5)
  /-- SLTU (R110): RD := 1 if RA < RB unsigned. -/
  | sltu (q : BitVec 20) (rd ra rb : BitVec 5)
  /-- SEQ (R110): RD := 1 if RA = RB. -/
  | seq (q : BitVec 20) (rd ra rb : BitVec 5)
  /-- CLZ (R110): Count of leading zeros of RA. -/
  | clz (q : BitVec 20) (rd ra : BitVec 5)
  /-- CTZ (R110): Count of trailing zeros of RA. -/
  | ctz (q : BitVec 20) (rd ra : BitVec 5)
  /-- POPC (R110): Population count of RA. -/
  | popc (q : BitVec 20) (rd ra : BitVec 5)
  /-- SEL (R110): RD := RA if RC ≠ 0, else RB. -/
  | sel (q : BitVec 20) (rd ra rb rc : BitVec 5)
  /-- ADDI (R110): Add a sign-extended immediate. -/
  | addi (q : BitVec 20) (rd ra : BitVec 5) (imm : W64) (x : Bool)
  /-- ANDI (R110): AND with an immediate. -/
  | andi (q : BitVec 20) (rd ra : BitVec 5) (imm : W64) (x : Bool)
  /-- ORI (R110): OR with an immediate. -/
  | ori (q : BitVec 20) (rd ra : BitVec 5) (imm : W64) (x : Bool)
  /-- XORI (R110): XOR with an immediate. -/
  | xori (q : BitVec 20) (rd ra : BitVec 5) (imm : W64) (x : Bool)
  /-- SHLI (R110): Shift left by an immediate. -/
  | shli (q : BitVec 20) (rd ra : BitVec 5) (imm : W64) (x : Bool)
  /-- SHRI (R110): Logical shift right by an immediate. -/
  | shri (q : BitVec 20) (rd ra : BitVec 5) (imm : W64) (x : Bool)
  /-- SARI (R110): Arithmetic shift right by an immediate. -/
  | sari (q : BitVec 20) (rd ra : BitVec 5) (imm : W64) (x : Bool)
  /-- SLTI (R110): Signed compare with an immediate. -/
  | slti (q : BitVec 20) (rd ra : BitVec 5) (imm : W64) (x : Bool)
  /-- SLTUI (R110): Unsigned compare with an immediate. -/
  | sltui (q : BitVec 20) (rd ra : BitVec 5) (imm : W64) (x : Bool)
  /-- LI (R110): Load an immediate or the 64-bit extension word. -/
  | li (q : BitVec 20) (rd : BitVec 5) (imm : W64) (x : Bool)
  /-- BEQ (R110): Branch if equal. -/
  | beq (q : BitVec 20) (ra rb : BitVec 5) (off : W32)
  /-- BNE (R110): Branch if not equal. -/
  | bne (q : BitVec 20) (ra rb : BitVec 5) (off : W32)
  /-- BLT (R110): Branch if less, signed. -/
  | blt (q : BitVec 20) (ra rb : BitVec 5) (off : W32)
  /-- BGE (R110): Branch if greater or equal, signed. -/
  | bge (q : BitVec 20) (ra rb : BitVec 5) (off : W32)
  /-- BLTU (R110): Branch if less, unsigned. -/
  | bltu (q : BitVec 20) (ra rb : BitVec 5) (off : W32)
  /-- BGEU (R110): Branch if greater or equal, unsigned. -/
  | bgeu (q : BitVec 20) (ra rb : BitVec 5) (off : W32)
  /-- JAL (R110): Jump and link, PC-relative. -/
  | jal (q : BitVec 20) (rd : BitVec 5) (off : W32)
  /-- JALR (R112): Jump and link through a register, illegal if the target is misaligned. -/
  | jalr (q : BitVec 20) (rd ra : BitVec 5) (off : W32)
  /-- LD8 (R112): Load one byte, sign-extended. -/
  | ld8 (q : BitVec 20) (rd ra : BitVec 5) (off : W32)
  /-- LD16 (R112): Load 2 bytes, sign-extended, aligned. -/
  | ld16 (q : BitVec 20) (rd ra : BitVec 5) (off : W32)
  /-- LD32 (R112): Load 4 bytes, sign-extended, aligned. -/
  | ld32 (q : BitVec 20) (rd ra : BitVec 5) (off : W32)
  /-- LD64 (R112): Load 8 bytes, aligned. -/
  | ld64 (q : BitVec 20) (rd ra : BitVec 5) (off : W32)
  /-- LD8U (R112): Load one byte, zero-extended. -/
  | ld8u (q : BitVec 20) (rd ra : BitVec 5) (off : W32)
  /-- LD16U (R112): Load 2 bytes, zero-extended. -/
  | ld16u (q : BitVec 20) (rd ra : BitVec 5) (off : W32)
  /-- LD32U (R112): Load 4 bytes, zero-extended. -/
  | ld32u (q : BitVec 20) (rd ra : BitVec 5) (off : W32)
  /-- ST8 (R112): Store one byte. -/
  | st8 (q : BitVec 20) (rd ra : BitVec 5) (off : W32)
  /-- ST16 (R112): Store 2 bytes, aligned. -/
  | st16 (q : BitVec 20) (rd ra : BitVec 5) (off : W32)
  /-- ST32 (R112): Store 4 bytes, aligned. -/
  | st32 (q : BitVec 20) (rd ra : BitVec 5) (off : W32)
  /-- ST64 (R112): Store 8 bytes, aligned. -/
  | st64 (q : BitVec 20) (rd ra : BitVec 5) (off : W32)
  /-- TALLY_ADD (R96): Adds to a tally at its home with release semantics, posted when RD = g0. -/
  | tallyAdd (q : BitVec 20) (rd ra rb : BitVec 5)
  /-- TALLY_WAIT (R116): Registers a wait at the tally's home until the threshold is met. -/
  | tallyWait (q : BitVec 20) (rd ra rb : BitVec 5)
  /-- TALLY_WAIT2 (R116): Registers a wait on two tallies and reports which thresholds were met. -/
  | tallyWait2 (q : BitVec 20) (rd ra rb rc rt : BitVec 5)
  /-- TALLY_SET (R118): Writes a tally value atomically with release semantics. -/
  | tallySet (q : BitVec 20) (ra rb : BitVec 5)
  /-- TALLY_WAIT_RELEASE (R116): A registered waiter is released by the first value that meets its threshold, and its queue context resumes. -/
  | tallyWaitRelease (q : BitVec 20)
  /-- NOP_INSTRUCTION (R110): Instruction NOP does nothing. -/
  | nopInstruction (q : BitVec 20)
  /-- END (R103): Completes the program command with DONE. -/
  | endInsn (q : BitVec 20)
  /-- RDFEAT (R120): Returns a feature word, or 0 for an unknown number. -/
  | rdfeat (q : BitVec 20) (rd : BitVec 5) (n : W32)
  /-- RDCYC (R113): Returns the island's local cycle count. -/
  | rdcyc (q : BitVec 20) (rd : BitVec 5)
  /-- RDID (R113): Returns the identity word. -/
  | rdid (q : BitVec 20) (rd : BitVec 5)
  /-- IFENCE (R109): Makes later fetches observe earlier instruction writes. -/
  | ifence (q : BitVec 20)
  /-- RDSEQ (R247): Returns the current command sequence number. -/
  | rdseq (q : BitVec 20) (rd : BitVec 5)
  /-- VADD (R25): IEEE add on active elements. -/
  | vadd (q : BitVec 20) (rd ra rb : BitVec 5) (pg : BitVec 3) (w : BitVec 2) (rm : BitVec 3)
  /-- VSUB (R25): IEEE subtract. -/
  | vsub (q : BitVec 20) (rd ra rb : BitVec 5) (pg : BitVec 3) (w : BitVec 2) (rm : BitVec 3)
  /-- VMUL (R25): IEEE multiply. -/
  | vmul (q : BitVec 20) (rd ra rb : BitVec 5) (pg : BitVec 3) (w : BitVec 2) (rm : BitVec 3)
  /-- VDIV (R25): IEEE divide. -/
  | vdiv (q : BitVec 20) (rd ra rb : BitVec 5) (pg : BitVec 3) (w : BitVec 2) (rm : BitVec 3)
  /-- VSQRT (R25): IEEE square root. -/
  | vsqrt (q : BitVec 20) (rd ra : BitVec 5) (pg : BitVec 3) (w : BitVec 2) (rm : BitVec 3)
  /-- VFMA (R135): Fused multiply-add. -/
  | vfma (q : BitVec 20) (rd ra rb rc : BitVec 5) (pg : BitVec 3) (w : BitVec 2) (rm : BitVec 3)
  /-- VFMS (R135): Fused multiply-subtract. -/
  | vfms (q : BitVec 20) (rd ra rb rc : BitVec 5) (pg : BitVec 3) (w : BitVec 2) (rm : BitVec 3)
  /-- VFNMA (R135): Fused negated multiply-add. -/
  | vfnma (q : BitVec 20) (rd ra rb rc : BitVec 5) (pg : BitVec 3) (w : BitVec 2) (rm : BitVec 3)
  /-- VMIN (R135): IEEE minimumNumber. -/
  | vmin (q : BitVec 20) (rd ra rb : BitVec 5) (pg : BitVec 3) (w : BitVec 2)
  /-- VMAX (R135): IEEE maximumNumber. -/
  | vmax (q : BitVec 20) (rd ra rb : BitVec 5) (pg : BitVec 3) (w : BitVec 2)
  /-- VABS (R135): Absolute value, raising no flag. -/
  | vabs (q : BitVec 20) (rd ra : BitVec 5) (pg : BitVec 3) (w : BitVec 2)
  /-- VNEG (R135): Negation, raising no flag. -/
  | vneg (q : BitVec 20) (rd ra : BitVec 5) (pg : BitVec 3) (w : BitVec 2)
  /-- VREM (R135): IEEE remainder. -/
  | vrem (q : BitVec 20) (rd ra rb : BitVec 5) (pg : BitVec 3) (w : BitVec 2)
  /-- VRINT (R135): roundToIntegral in direction RM. -/
  | vrint (q : BitVec 20) (rd ra : BitVec 5) (pg : BitVec 3) (w : BitVec 2) (rm : BitVec 3)
  /-- VCMP (R135): Compares elements into a predicate register. -/
  | vcmp (q : BitVec 20) (pd : BitVec 3) (ra rb : BitVec 5) (fn : BitVec 4) (pg : BitVec 3) (w : BitVec 2)
  /-- VCLASS (R135): Returns each element's IEEE class as a one-hot integer. -/
  | vclass (q : BitVec 20) (rd ra : BitVec 5) (pg : BitVec 3) (w : BitVec 2)
  /-- VIADD (R135): Integer add on W-bit elements. -/
  | viadd (q : BitVec 20) (rd ra rb : BitVec 5) (pg : BitVec 3) (w : BitVec 2)
  /-- VISUB (R135): Integer subtract on elements. -/
  | visub (q : BitVec 20) (rd ra rb : BitVec 5) (pg : BitVec 3) (w : BitVec 2)
  /-- VIMUL (R135): Integer multiply on elements. -/
  | vimul (q : BitVec 20) (rd ra rb : BitVec 5) (pg : BitVec 3) (w : BitVec 2)
  /-- VIAND (R135): Bitwise AND on elements. -/
  | viand (q : BitVec 20) (rd ra rb : BitVec 5) (pg : BitVec 3) (w : BitVec 2)
  /-- VIOR (R135): Bitwise OR on elements. -/
  | vior (q : BitVec 20) (rd ra rb : BitVec 5) (pg : BitVec 3) (w : BitVec 2)
  /-- VIXOR (R135): Bitwise XOR on elements. -/
  | vixor (q : BitVec 20) (rd ra rb : BitVec 5) (pg : BitVec 3) (w : BitVec 2)
  /-- VISHL (R135): Shift left on elements. -/
  | vishl (q : BitVec 20) (rd ra rb : BitVec 5) (pg : BitVec 3) (w : BitVec 2)
  /-- VISHR (R135): Logical shift right on elements. -/
  | vishr (q : BitVec 20) (rd ra rb : BitVec 5) (pg : BitVec 3) (w : BitVec 2)
  /-- VISAR (R135): Arithmetic shift right on elements. -/
  | visar (q : BitVec 20) (rd ra rb : BitVec 5) (pg : BitVec 3) (w : BitVec 2)
  /-- VIMIN (R135): Signed minimum on elements. -/
  | vimin (q : BitVec 20) (rd ra rb : BitVec 5) (pg : BitVec 3) (w : BitVec 2)
  /-- VIMAX (R135): Signed maximum on elements. -/
  | vimax (q : BitVec 20) (rd ra rb : BitVec 5) (pg : BitVec 3) (w : BitVec 2)
  /-- VIMINU (R135): Unsigned minimum on elements. -/
  | viminu (q : BitVec 20) (rd ra rb : BitVec 5) (pg : BitVec 3) (w : BitVec 2)
  /-- VIMAXU (R135): Unsigned maximum on elements. -/
  | vimaxu (q : BitVec 20) (rd ra rb : BitVec 5) (pg : BitVec 3) (w : BitVec 2)
  /-- VISEQ (R135): Integer equality into a predicate register. -/
  | viseq (q : BitVec 20) (pd : BitVec 3) (ra rb : BitVec 5) (pg : BitVec 3) (w : BitVec 2)
  /-- VCVTF (R135): Converts between long formats by RM. -/
  | vcvtf (q : BitVec 20) (rd ra f2 : BitVec 5) (pg : BitVec 3) (w : BitVec 2) (rm : BitVec 3)
  /-- VCVTFI (R135): Converts float to signed integer by RM. -/
  | vcvtfi (q : BitVec 20) (rd ra : BitVec 5) (pg : BitVec 3) (w : BitVec 2) (rm : BitVec 3)
  /-- VCVTIF (R135): Converts signed integer to float. -/
  | vcvtif (q : BitVec 20) (rd ra : BitVec 5) (pg : BitVec 3) (w : BitVec 2) (rm : BitVec 3)
  /-- VCVTE (R135): Converts to a packed element float by VFCSR.SRM. -/
  | vcvte (q : BitVec 20) (rd ra f2 : BitVec 5) (pg : BitVec 3) (w : BitVec 2)
  /-- VDECE (R135): Decodes packed element floats exactly. -/
  | vdece (q : BitVec 20) (rd ra f2 : BitVec 5) (pg : BitVec 3) (w : BitVec 2)
  /-- VCVTBM (R37): Forms one BM block from 32 binary32 elements. -/
  | vcvtbm (q : BitVec 20) (rd ra f2 : BitVec 5) (pg : BitVec 3)
  /-- VDECBM (R135): Decodes one BM block into 32 binary32 elements. -/
  | vdecbm (q : BitVec 20) (rd ra f2 : BitVec 5) (pg : BitVec 3)
  /-- VLD (R135): Loads 128 bytes into a vector register. -/
  | vld (q : BitVec 20) (rd ra : BitVec 5) (off : W32)
  /-- VST (R135): Stores the active elements of a vector register. -/
  | vst (q : BitVec 20) (rd ra : BitVec 5) (off : W32) (pg : BitVec 3)
  /-- PLD (R135): Loads a predicate register. -/
  | pld (q : BitVec 20) (rd ra : BitVec 5) (off : W32)
  /-- PST (R135): Stores a predicate register. -/
  | pst (q : BitVec 20) (rd ra : BitVec 5) (off : W32)
  /-- VMOV (R135): Copies a vector register. -/
  | vmov (q : BitVec 20) (rd ra : BitVec 5) (pg : BitVec 3) (w : BitVec 2)
  /-- VSPLAT (R135): Broadcasts a scalar into the active elements. -/
  | vsplat (q : BitVec 20) (rd ra : BitVec 5) (pg : BitVec 3) (w : BitVec 2)
  /-- VEXT (R135): Extracts an element into a scalar register. -/
  | vext (q : BitVec 20) (rd ra rb : BitVec 5) (pg : BitVec 3) (w : BitVec 2)
  /-- VINS (R135): Inserts a scalar into an element. -/
  | vins (q : BitVec 20) (rd ra rb : BitVec 5) (pg : BitVec 3) (w : BitVec 2)
  /-- VPERM (R135): Permutes elements by index. -/
  | vperm (q : BitVec 20) (rd ra rb : BitVec 5) (pg : BitVec 3) (w : BitVec 2)
  /-- VRSUM (R135): Sums the active elements in a compensated pair. -/
  | vrsum (q : BitVec 20) (rd ra : BitVec 5) (pg : BitVec 3) (w : BitVec 2) (rm : BitVec 3)
  /-- VRMAX (R135): maximumNumber of the active elements. -/
  | vrmax (q : BitVec 20) (rd ra : BitVec 5) (pg : BitVec 3) (w : BitVec 2)
  /-- PAND (R135): Predicate AND. -/
  | pand (q : BitVec 20) (pd pa pb : BitVec 5)
  /-- POR (R135): Predicate OR. -/
  | por (q : BitVec 20) (pd pa pb : BitVec 5)
  /-- PXOR (R135): Predicate XOR. -/
  | pxor (q : BitVec 20) (pd pa pb : BitVec 5)
  /-- PNOT (R135): Predicate NOT. -/
  | pnot (q : BitVec 20) (pd pa : BitVec 5)
  /-- PMOVG (R135): Copies a predicate to a scalar register. -/
  | pmovg (q : BitVec 20) (rd pa : BitVec 5)
  /-- PMOVP (R135): Copies a scalar register to a predicate. -/
  | pmovp (q : BitVec 20) (pd ra : BitVec 5)
  /-- RDVFCSR (R136): Reads VFCSR. -/
  | rdvfcsr (q : BitVec 20) (rd : BitVec 5)
  /-- WRVFCSR (R136): Writes VFCSR, illegal for reserved encodings. -/
  | wrvfcsr (q : BitVec 20) (ra : BitVec 5)
  /-- CLRVFF (R136): Clears the selected VFCSR flags. -/
  | clrvff (q : BitVec 20) (ra : BitVec 5)
  /-- VACT (R137): Applies an activation function. -/
  | vact (q : BitVec 20) (rd ra rb : BitVec 5) (fn : BitVec 4) (pg : BitVec 3) (w : BitVec 2) (rm : BitVec 3)
  /-- VDER (R137): Multiplies by the derivative computed from the saved output. -/
  | vder (q : BitVec 20) (rd ra rb rc : BitVec 5) (fn : BitVec 4) (pg : BitVec 3) (w : BitVec 2) (rm : BitVec 3)
  /-- VDERI (R137): Multiplies by the derivative computed from the input. -/
  | vderi (q : BitVec 20) (rd ra rb : BitVec 5) (fn : BitVec 4) (pg : BitVec 3) (w : BitVec 2) (rm : BitVec 3)
  /-- VT_MAP (R139): Element-wise tensor operation, rounded once. -/
  | vtMap (q : BitVec 20) (h1 h2 h3 : BitVec 16) (x : TExt)
  /-- VT_REDUCE (R139): Reduces a tensor over one dimension. -/
  | vtReduce (q : BitVec 20) (h1 h2 : BitVec 16) (x : TExt)
  /-- DM_COPY (R140): Copies a tensor, carrying poison through. -/
  | dmCopy (q : BitVec 20) (h1 h2 : BitVec 16) (x : TExt)
  /-- DM_CVT (R141): Converts a tensor, block-forming a BM destination. -/
  | dmCvt (q : BitVec 20) (h1 h2 : BitVec 16) (x : TExt)
  /-- DM_TRANSPOSE (R141): Transposes a rank-2 tensor, converting if the formats differ. -/
  | dmTranspose (q : BitVec 20) (h1 h2 : BitVec 16) (x : TExt)
  /-- DM_GATHER (R132): Gathers slices through an index tensor. -/
  | dmGather (q : BitVec 20) (h1 h2 : BitVec 16) (x : TExt)
  /-- DM_SCATTERADD (R142): Adds slices atomically at their homes through an index tensor. -/
  | dmScatteradd (q : BitVec 20) (h1 h2 : BitVec 16) (x : TExt)
  /-- DM_FILL (R140): Fills a tensor with one converted value. -/
  | dmFill (q : BitVec 20) (h1 : BitVec 16) (x : TExt)
  /-- AX_LOADW (R54): Accepts a stationary load into the shadow registers, optionally transposed. -/
  | axLoadw (q : BitVec 20) (h2 : BitVec 16) (tr : Bool) (x : TExt)
  /-- LOADW_START (R54): A load begins writing rows at the earliest cycle the front conditions allow, or replaces waiting weights. -/
  | loadwStart (p : Nat) (cycle : Nat)
  /-- LOADW_RETIRE (R145): A load completes when it has written its last row. -/
  | loadwRetire (p : Nat)
  /-- AX_PASS (R66): Accepts a pass with its accumulation fields and epilogue. -/
  | axPass (q : BitVec 20) (h1 h2 : BitVec 16) (rbase : BitVec 12) (acc dt : Bool) (x : TExt)
  /-- PASS_FRONT (R54): A pass's front enters row 0 at the earliest allowed cycle, swapping in loaded weights. -/
  | passFront (p : Nat) (cycle : Nat)
  /-- PASS_RETIRE (R56): A pass retires F + M·s cycles after its front, with its outputs drained or in its region. -/
  | passRetire (p : Nat)
  /-- AX_DRAIN (R78): Accepts a drain of an accumulator region once the previous drain has retired. -/
  | axDrain (q : BitVec 20) (h1 : BitVec 16) (rbase : BitVec 12) (x : TExt)
  /-- DRAIN_RETIRE (R145): A drain completes when its last element is written. -/
  | drainRetire (p : Nat)
  /-- AX_MASK (R149): Replaces or clears the partition's freeze mask. -/
  | axMask (q : BitVec 20) (h2 : BitVec 16) (clear : Bool)
  /-- AX_FENCE (R150): Holds acceptance until every earlier AX command has retired. -/
  | axFence (q : BitVec 20)
  /-- RX_RS (R213): Opens a reduce-scatter of a bucket in a collective slot. -/
  | rxRs (q : BitVec 20) (ra : BitVec 5)
  /-- RX_AG (R224): Opens an all-gather of owned working-weight chunks. -/
  | rxAg (q : BitVec 20) (ra : BitVec 5)
  /-- RX_AR (R225): Opens an all-reduce. -/
  | rxAr (q : BitVec 20) (ra : BitVec 5)
  /-- RX_PERM (R226): Opens a permute of listed shards. -/
  | rxPerm (q : BitVec 20) (ra : BitVec 5)
  /-- CONTRIBUTION_DEADLINE (R216): When DL passes after the first arrival with the bucket unfilled, the member decides OUT for the chunk. -/
  | contributionDeadline (wc slot chunk : Nat) (elapsed : Nat)
  /-- PIECE_HEADER (R221): A SIGNAL packet carrying a piece header is received and, after the decision, forwarded. -/
  | pieceHeader (n : Nat)
  /-- RX_DATA_PACKET (R221): A DATA packet of a piece is received, added and forwarded. -/
  | rxDataPacket (n : Nat)
  /-- PERMUTE_ACK (R226): A permute acknowledgement is received; staged receives are copied once every send is acknowledged. -/
  | permuteAck (n : Nat)
  /-- UNMATCHED_PACKET_TIMEOUT (R221): A packet naming no open collective is discarded after 10 ms and counted. -/
  | unmatchedPacketTimeout (n : Nat)
  /-- COLLECTIVE_COMPLETE (R207): A collective completes, records its status and slack, and adds to DONE_TALLY on DONE. -/
  | collectiveComplete (wc slot : Nat)
  /-- UX_BEGIN (R164): Opens a layer: reads the schedule, computes the step words and latches the root set. -/
  | uxBegin (q : BitVec 20) (ra rb : BitVec 5)
  /-- UX_CHUNK (R174): Applies the update rule to each block of a reduced chunk and writes the working weights; `blocks` is how many blocks it processes before the next command. -/
  | uxChunk (q : BitVec 20) (ra : BitVec 5) (h1 h2 : BitVec 16) (rc : BitVec 5) (blocks : Nat)
  /-- UX_END (R164): Releases the latched slot, raises a root request if SNAP and closes the layer. -/
  | uxEnd (q : BitVec 20) (ra : BitVec 5)
  /-- DETECT (R186): The port measures lane terminations and marks failed lanes. -/
  | detect (n : Nat) (failedRx failedTx : BitVec 18) (peer : Bool)
  /-- EQ_FULL (R186): The port completes full equalisation with its partner. -/
  | eqFull (n : Nat)
  /-- EQ_SEED (R187): The port adapts from stored seeds, or falls back to EQ_FULL. -/
  | eqSeed (n : Nat) (adapted : Bool)
  /-- ALIGN (R188): The port corrects polarity, detects reversal, assigns spares and reaches FEC lock. -/
  | align (n : Nat) (r : AlignReport)
  /-- LINK_INIT (R186): The port reaches flit lock and exchanges initial credits. -/
  | linkInit (n : Nat)
  /-- DISCOVER (R190): The port exchanges discovery records and reaches UP with FWD = 0. -/
  | discover (n : Nat) (r : DiscRecord)
  /-- PORT_STATE_TIMEOUT (R186): A training state that exceeds its limit ends the port in FAILED. -/
  | portStateTimeout (n : Nat)
  /-- RETRAIN (R189): A port enters RETRAIN on a fallback clock, a burst of uncorrectable codewords or its partner's retrain, keeping replay and credits. -/
  | retrain (n : Nat) (cause : Nat)
  /-- DISCOVERY_RECORD (R190): A received discovery record is stored in the peer registers and triggers a topology check. -/
  | discoveryRecord (n : Nat) (r : DiscRecord)
  /-- FLIT_RECEIVE (R193): A flit is received, CRC-checked, delivered in FSEQ order, and its credits and ACK are taken. -/
  | flitReceive (n : Nat) (fl : FlitIn)
  /-- FLIT_TRANSMIT (R192): A data or control flit is sent when a credit and replay-buffer room are available. -/
  | flitTransmit (n : Nat)
  /-- REPLAY_REQUEST (R193): A received replay request makes the sender resend every buffered flit from the requested FSEQ. -/
  | replayRequest (n : Nat) (fseq : BitVec 12)
  /-- REPLAY_REQUEST_RESEND (R193): When the expected flit has not arrived 2 µs after a replay request, the request is sent again. -/
  | replayRequestResend (n : Nat)
  /-- LANE_DEGRADE (R195): A lane whose corrected symbols exceed 10,000 in 1 s starts a hitless swap by SWAP_REQ. -/
  | laneDegrade (n lane symbols : Nat)
  /-- SWAP_REQ (R195): The partner's transmitter copies the lane's symbols onto the spare. -/
  | swapReq (n lane spare : Nat)
  /-- SPARE_TRAINED (R195): The spare's equaliser agrees for 10⁹ symbols, and a switch codeword is agreed. -/
  | spareTrained (n : Nat) (agreed : Nat)
  /-- LANE_SWITCH (R195): At the agreed codeword boundary the receiver takes the lane from the spare and marks the old lane failed. -/
  | laneSwitch (n : Nat)
  /-- DEAD_LANE (R196): A lane dead for 10 µs holds flits while a spare is trained from seeds, or fails the port. -/
  | deadLane (n lane : Nat)
  /-- DEAD_LANE_RESUME (R196): The port resumes on the trained spare within 20 ms and replays lost flits. -/
  | deadLaneResume (n : Nat)
  /-- PEER_DOWN (R328): An accepted peer-down notice resets the named contexts with ABORTED_PEER_DOWN. -/
  | peerDown (n : Nat) (sinceMs : Nat)
  /-- PATROL_SCRUB (R83): At its interval the patrol reads lines, corrects them and writes back conditionally. -/
  | patrolScrub (chest : Bool) (wc : Nat) (line : Nat) (find : PatrolFind)
  /-- SOFT_REPAIR (R83): A row with repeated or uncorrectable errors is copied to a repair row and remapped. -/
  | softRepair (stack pch : Nat) (row : Nat)
  /-- PCH_SWAP_START (R84): More than 16 uncorrectable bursts in 24 h, or no repair row left, starts a spare pseudo-channel copy. -/
  | pchSwapStart (stack pch : Nat)
  /-- PCH_SWAP_COPY_STEP (R84): One line of the failing pseudo-channel is copied into the spare. -/
  | pchSwapCopyStep (stack : Nat) (line : Nat) (correctable : Bool)
  /-- PCH_SWAP_END (R84): The map points at the spare, and SPARE_USED is set. -/
  | pchSwapEnd (stack : Nat)
  /-- ENGINE_HANG (R302): An engine making no progress for 100 ms is reset. -/
  | engineHang (kind index : Nat)
  /-- ENGINE_ERROR (R302): An uncorrectable engine logic error resets the named context, then escalates. -/
  | engineError (kind index : Nat) (ctx : Option Byte) (syndrome : W64)
  /-- ARRAY_ERROR (R302): An uncorrectable array error resets the context, then the chip. -/
  | arrayError (cd row col : Nat) (ctx : Option Byte)
  /-- FABRIC_ERROR (R302): A router, link or ledger error is logged and notified, with a power cycle if AUTO_POWER = 1. -/
  | fabricError (link cls kind island : Nat)
  /-- CONTEXT_RESET (R308): Ends the context's compute work, and its fabric work when required, and stops its queues. -/
  | contextReset (c : Byte) (fabric : Bool)
  /-- ENGINE_RESET (R309): RESET_REQ operation or fault: ends every command on one engine with 0x31. -/
  | engineReset (req : ResetReq)
  /-- WINDCHEST_ENGINE_ISLAND_RESET (R305): Resets RX and UX of one windchest and advances WC_EPOCH. -/
  | windchestEngineIslandReset (w : Nat)
  /-- PARTITION_RESET (R310): RESET_REQ operation: ends a partition's compute work, performs cluster resets and advances the epoch, optionally holding. -/
  | partitionReset (req : ResetReq)
  /-- PARTITION_RELEASE (R313): RESET_REQ operation: releases a held partition for loading and stamping. -/
  | partitionRelease (req : ResetReq)
  /-- CHIP_RESET (R311): RESET_REQ operation or fault: resets every partition, samples PART_CFG and repeats the COMPUTE work. -/
  | chipReset (req : ResetReq)
  /-- POWER_CYCLE_REQUEST (R312): RESET_REQ operation: the Drone sends a level-6 FAULT_NOTICE asking the tray for a power cycle. -/
  | powerCycleRequest (req : ResetReq)
  /-- RESET_COMPLETE (R305): A running reset finishes, and its domain returns to service. -/
  | resetComplete (dom : Domain) (r : ComputeReport)
  /-- RESET_TIMEOUT (R306): A reset that misses its time escalates one level. -/
  | resetTimeout (dom : Domain)
  /-- EDGE_ABSORB (R315): A transaction addressed into a resetting domain is absorbed at its edge and its credits are returned. -/
  | edgeAbsorb (t : EdgeTxn)
  /-- SPARE_SUBSTITUTION (R326): The cluster sequencer maps a failing logical core onto a spare site, or fences it. -/
  | spareSubstitution (core : Nat) (failing : List Nat)
  /-- EPOCH_STAMP (R324): A sequencer or chest controller loads a quarantined site or island and stamps the current epoch. -/
  | epochStamp (rx : Bool) (id : Nat) (epoch : W32)
  /-- WAIT_DEADLOCK (R322): When WAIT_DL_TIMEOUT elapses on a deadlocked context, blocked commands complete with 0x40 and the context is reset. -/
  | waitDeadlock (c : Byte)
  /-- LEDGER_AUDIT_PERIOD (R319): Every 10 s the Drone starts a UCIe credit audit. -/
  | ledgerAuditPeriod
  /-- AUDIT (R319): LEDGER_CTRL operation: starts a credit audit. -/
  | audit (f : Bool)
  /-- AUDIT_COMPLETE (R319): Returning audit markers are compared, and a mismatch raises FABRIC_ERROR. -/
  | auditComplete (mismatch : Option (Nat × Nat × Bool × Bool))
  /-- SAMPLE (R338): SAMPLE_SEL operation: takes a live or shadow counter value with its tag in one cycle. -/
  | sample (f : Bool) (v : W64) (start : Bool)
  /-- TRACE_DRAIN (R340): The collector drains trace buffers into its ring in idle chest-memory cycles. -/
  | traceDrain (wc : Nat) (units : List Nat)
  /-- COUNTERS (R341): Every CNT_PERIOD × 1,024 cycles an engine writes a COUNTERS trace record. -/
  | counters (kind index : Nat)
  /-- MARKER (R342): Every OBS_SYNC_PERIOD µs HA sends a numbered marker that each island records. -/
  | marker
  /-- STOP (R343): STOP_CTRL operation: starts a stop wave from HA. -/
  | stop (f : Bool)
  /-- STOP_MARKER (R343): An island receiving its first stop marker freezes, records STOP and forwards the marker. -/
  | stopMarker (island : Nat)
  /-- RESUME (R346): STOP_CTRL operation: unfreezes the islands in marker order and delivers channel contents. -/
  | resume (f : Bool)
  /-- STOP_LIMIT_EXPIRY (R346): A stop that outlasts STOP_LIMIT with no dump running ends and sets TIMED_OUT. -/
  | stopLimitExpiry
  /-- DUMP (R329): DUMP_CTRL operation, or a chip or power reset: the dump engine writes a dump. -/
  | dump (f : Bool) (v : W64)
  /-- DUMP_END (R330): The dump finishes, or is truncated at DUMP_SIZE. -/
  | dumpEnd
  /-- LOOPBACK (R347): LOOP_CTRL operation: starts a loop-back or self-test, or refuses it. -/
  | loopback (f : Bool) (v : W64) (ready : Bool)
  /-- LOOPBACK_END (R348): After DURATION the test ends with PASS or FAIL, and the interface returns to service. -/
  | loopbackEnd (errors : Nat) (defects : List ArrayDefect)
  /-- HOST_LINK_TRAINED (R234): A host link that was down trains again (its CXL reference returns, or its partner returns), so L1_PRESENT sets for link 1 and the HDM window is presented again on link 0. -/
  | hostLinkTrained (link cache : Bool)
  /-- POWER_DOWN_COMPLETE (R356): A power-down ends with every rail down, and a MOD_RESET_N release that arrived during it then takes effect as a cold power-on. -/
  | powerDownComplete
  /-- DUMP_WAIT_EXPIRY (R329): A chip reset that has waited 10 s for a running dump stops waiting and proceeds, its time counted from that moment. -/
  | dumpWaitExpiry
  /-- THERM_ALERT_CLEAR (R361): A tray condition that asserted THERM_ALERT_N ends (the leak loop reads dry, the coolant inlet falls to 45.0 °C or below, or reverse VIN is removed), and that cause of the alert clears. -/
  | thermAlertClear (e : AlertEnd)
  /-- LIFE_HOURS (R366): Each powered hour advances LIFE_HOURS and the LIFE_TJ_AVG averages held in module flash. -/
  | lifeHours
deriving DecidableEq, Repr

end Sys2Proof
end

