-- ==== Sys2Proof/Config.lean ====
section
/-! DEFINITION. What the spec leaves open: every constant here has no body, so nothing can be proved
of its value, and a statement holds whatever it is. Each is named in the assumption log. -/

namespace Sys2Proof.Config

/-- The generators of stochastic rounding (R39), Worind's own: the constant that replaces a seed of 0, the state that a
lane starts from by seed, island, lane and sequence number, the next state, the 16-bit value of a state. -/
opaque srZero : BitVec 64
opaque srMix : BitVec 64 → Nat → Nat → Nat → BitVec 64
opaque srNext : BitVec 64 → BitVec 64
opaque srOut : BitVec 64 → BitVec 16
/-- The lane that makes a draw, and how many draws of the command the lane has made before: no rule assigns elements to
lanes. -/
opaque srLane : Nat → Nat
opaque srTurn : Nat → Nat
/-- Island cycles that passed since the island's last stamped event (R13: no common time base). -/
opaque cyclesPassed : Nat → Nat
/-- Which of the binary32 values within 2 units in the last place class 0x0C delivers (R138). -/
opaque ulpChoice : Nat → Nat
/-- Which flags are raised of those whose raising the spec leaves open: NX of class 0x0C (R138), the flags of
conversions to element floats and BM blocks, NX of VRINT and VCVTFI. -/
opaque flagChoice : Nat → Nat
/-- A result that no rule states: LOG of 0, a maximum of no elements, a format that cannot hold an exact value. -/
opaque openFn : Nat → BitVec 64
/-- Numbers the permutation by which the bits of VCLASS's one-hot integer stand for the IEEE classes (Table 07-3 does not
say). -/
opaque classOrder : Nat
/-- Whether an access uses a cached old translation although the tables changed (R92). -/
opaque useStale : Nat → Bool
/-- Whether a fetch before IFENCE returns the old content of an instruction word (R109). -/
opaque fetchStale : Nat → Bool
/-- Whether an aligned 8 bytes of a destination that overlaps a source of the same command keep their old value (R131). -/
opaque mixOld : Nat → Bool
/-- A byte that a race leaves open (R94). -/
opaque mixByte : Nat → BitVec 8
/-- What becomes of the bits of a code word once it is written, modulo 3: 0 nothing, 1 an error that the code corrects, 2 one
that it does not (R81, R85, R368: no rule says when memory fails). -/
opaque memError : Nat → Nat
/-- Whether an accumulator row suffers an uncorrectable error once it is written (R71: no rule says when memory fails). -/
opaque accError : Nat → Bool
/-- The order in which contributions of one scatter-add reach one element (R142). -/
opaque scatterOrder : Nat → Nat
/-- Start value of the flit CRC-32; Table 10-3 gives the polynomial alone (R191). -/
opaque crcInit : BitVec 32
/-- Value combined with the flit CRC-32 at its end (R191). -/
opaque crcFinal : BitVec 32
/-- Whether the flit CRC takes each byte least significant bit first (R191). -/
opaque crcReflect : Bool
/-- How many 25 MHz steps one round of the power loop takes off an island class (R294). -/
opaque powerSteps : Nat → Nat
/-- A word of a message or of an error syndrome whose content no rule gives (R298, R302). -/
opaque openWord : Nat → BitVec 64
/-- Duration figures that registers report and no rule fixes (TIME_US, SPREAD_NS, dump time). -/
opaque duration : Nat → Nat
/-- The pattern-check outcome of a loop-back or self-test that no rule derives (R347). -/
opaque openCount : Nat → Nat
/-- How elapsed island cycles divide into busy, stalled and idle cycles (R332, R333). -/
opaque cycleSplit : Nat → Nat
/-- Element width code of VST's guard: format M has no W field (Table 07-4). -/
opaque vstWidth : Nat
/-- Whether a write of a command that ends in a fault had been performed (R95: no particular order). -/
opaque partWritten : Nat → Bool
/-- Which of several failing accesses of one command is the one reported (R131: no particular order). -/
opaque firstFault : Nat → Nat

/-- Which memory a memory unit number of LOOP_CTRL.TARGET names (Table 16-6 does not say): 0–15 a chest memory, 16–47
the accumulator memory of a compute die, from 48 on a core memory. -/
opaque memoryUnit : Nat → Nat
/-- Number of the first stop (0) and of the first marker (1): no rule says where their numbering starts. -/
opaque firstNumber : Nat → Nat
/-- Whether a unit of an island has a section in a dump, and how the unit answered (R330, R331). -/
opaque dumpHas : Nat → Bool
opaque dumpStatus : Nat → Nat

/-- Bytes of the identity chain's certificates that no rule gives, by certificate, what it certifies and place, and how many
there are in each gap (R300). -/
opaque certByte : Nat → Nat → Nat → BitVec 8
opaque certLen : Nat → Nat
/-- How far FEAT_ARRAY of a partition departs from its personality while one of its tiles is UNREPAIRABLE (R59). -/
opaque spoiltArray : Nat → Nat
/-- The SHA-256 of a measured object whose bytes no rule gives: the boot ROM, the fused state, the configuration
(Table 14-12). -/
opaque blockDigest : Nat → Nat → BitVec 256
/-- The SHA-256 of the SPDM transcript that a response signs, and the nonce of each ECDSA signature (R300). -/
opaque transcript : Nat → BitVec 256
opaque signNonce : Nat → BitVec 256

/-- The slowdown in ppm that a wear monitor reports against its baseline (R366). -/
opaque wearDrift : Nat → Nat

/-- Whether an island writes a modified line back before its reset (R316: as long as it responds). -/
opaque writtenBack : Nat → Bool

end Sys2Proof.Config
end

