-- ==== Sys2Proof/Machine/NMap.lean ====
section
/-! DEFINITION. Operations of the sparse map: reading, writing in canonical form, and clearing a range
of keys. -/

namespace Sys2Proof.Machine

/-- The value at key `k`; `d` where no entry lists it. -/
def mget {α : Type} (d : α) : NMap α → Nat → α
  | [], _ => d
  | (j, v) :: m, k => if j = k then v else mget d m k

/-- Puts an entry in key order, replacing the entry of the same key. -/
def minsert {α : Type} (k : Nat) (v : α) : NMap α → NMap α
  | [] => [(k, v)]
  | (j, w) :: m =>
    if k < j then (k, v) :: (j, w) :: m
    else if k = j then (k, v) :: m
    else (j, w) :: minsert k v m

/-- Removes every entry of key `k`. -/
def merase {α : Type} (k : Nat) : NMap α → NMap α
  | [] => []
  | (j, w) :: m => if j = k then merase k m else (j, w) :: merase k m

/-- Writes `v` at `k`. Writing what an unlisted key reads as removes the entry, so the form stays
canonical. -/
def mset {α : Type} [DecidableEq α] (d : α) (m : NMap α) (k : Nat) (v : α) : NMap α :=
  if v = d then merase k m else minsert k v m

/-- Applies `f` to the value at `k`. -/
def mmod {α : Type} [DecidableEq α] (d : α) (m : NMap α) (k : Nat) (f : α → α) : NMap α :=
  mset d m k (f (mget d m k))

/-- Drops every entry whose key satisfies `p`: those keys read as the default again. -/
def mdrop {α : Type} (p : Nat → Bool) : NMap α → NMap α
  | [] => []
  | (j, w) :: m => if p j then mdrop p m else (j, w) :: mdrop p m

/-- The keys listed, in rising order. -/
def mkeys {α : Type} (m : NMap α) : List Nat := m.map Prod.fst

/-- The canonical form: keys strictly rising, no entry equal to the default. -/
def mwf {α : Type} [DecidableEq α] (d : α) : NMap α → Bool
  | [] => true
  | [(_, v)] => !decide (v = d)
  | (j, v) :: (k, w) :: m => decide (j < k) && !decide (v = d) && mwf d ((k, w) :: m)

end Sys2Proof.Machine
end

