-- ==== Sys2Proof/Machine/State.lean ====
section
/-! DEFINITION. The state of one QX3 module as plain data: every register, buffer, counter, pin and
mode that the spec gives it, and the queue of commands that wait. It is held in components, one for
each part of the module, so that a meaning says which components it may change. -/

namespace Sys2Proof.Machine

/-- No command ends in a fault of the model: every fault the spec describes (a status, a record, a
reset) is an effect on the state. The type is empty, so no one raises it: safe. -/
inductive Fault where
deriving DecidableEq, Repr

/-- Why a command has no meaning. -/
inductive Refusal where
  /-- The command is not modelled yet; only Dispatch.lean raises it. Safe: the machine stops. -/
  | notModelled (mnemonic : String)
deriving DecidableEq, Repr

/-- What the module sends outward: interrupts, notices, replies, read data and flits. -/
inductive Output where
  /-- An MSI-X message on the link of function `f` (R257). -/
  | msix (f : Bool) (vector : Nat)
  /-- FAULT_NOTICE to the tray controller: context, island, status, level (Table 14-11, R306). -/
  | faultNotice (ctx : Option Nat) (island status level : Nat)
  /-- READY_NOTICE with the cause of the READY log record (Table 14-11). -/
  | readyNotice (set : Bool) (cause : Nat)
  /-- A sideband reply: protocol (0 MCTP, 1 PLDM, 2 SPDM, 3 vendor), code, completion code, data. -/
  | reply (proto code completion : Nat) (data : List W64)
  /-- A request that the module itself sends over PLDM, by the position of its name in Table 14-10's rows. -/
  | pldm (code : Nat) (data : List W64)
  /-- Data returned to a host read of BAR0 (R235). -/
  | hostData (f : Bool) (value : W64)
  /-- A line returned to a host CXL.mem read, marked poisoned or not (R99, R233). -/
  | hdmData (addr : W64) (bytes : List Byte) (poison : Bool)
  /-- A flit leaving a port: header, payload, CRC (Table 10-3), and its packet's poison marks. -/
  | flit (port : Nat) (header : BitVec 96) (payload : List Byte) (crc : W32) (poison : List Nat)
  /-- A discovery record sent to the peer of a port (R190). -/
  | discovery (port : Nat) (rec : DiscRecord)
  /-- An answer at the edge of a reset domain: data marked poison, error completion, snoop invalid (Table 15-7). -/
  | edge (answer : Nat)
deriving DecidableEq, Repr

/-! ### Power, pins, clocks and temperature (chapters 14 and 17) -/

/-- Supplies, pins, power phases, the power loop and the thermal loop. -/
structure Pw where
  /-- VIN and AUX_3V3 in millivolts (Table 17-2). -/
  vin : Int := 0
  aux : Nat := 0
  /-- MOD_RESET_N level; its pull-down holds the reset asserted (R354). -/
  modReset : Bool := true
  /-- Rails up (R355). -/
  powered : Bool := false
  /-- Rails beyond those that feed the hubs are up: from POWER on, but not in RECOVERY (R265). -/
  rails : Bool := false
  pwrGood : Bool := false
  /-- A power-down is running, and a release of MOD_RESET_N arrived during it (R356). -/
  goingDown : Bool := false
  releaseHeld : Bool := false
  /-- Held down after a VIN fault until MOD_RESET_N is asserted and released (R357). -/
  heldDown : Bool := false
  /-- The Bellows feed the always-on islands from VIN (R358). -/
  auxFromVin : Bool := false
  /-- Causes of THERM_ALERT_N besides the windchests (R361). -/
  alertLeak : Bool := false
  alertInlet : Bool := false
  alertReverse : Bool := false
  /-- The Bellows hold the input current at 105 A (Table 17-7). -/
  currentHeld : Bool := false
  /-- Failed phases of each Bellows (40 active, 2 spare), and phases listed as failed, 42·bw + phase. -/
  failedCount : NMap Nat := []
  failedPhase : NMap Bool := []
  /-- PWR_CAP in W, input power in W, input voltage in 10 mV (Table 14-9). -/
  pwrCap : Nat := 4200
  powerNow : Nat := 0
  vinNow : Nat := 0
  /-- How far below 2,500 MHz each Bellows' half of the power loop holds its array and its core islands (R294). -/
  arrayDrop : NMap Nat := []
  coreDrop : NMap Nat := []
  /-- Rails clamped to their fused current limit (R294). -/
  clamped : NMap Bool := []
  /-- Stacks whose per-bank refresh rate is doubled, above a readout of 85 °C (R82). -/
  fastRefresh : NMap Bool := []
  /-- THERM_CFG (Table 14-9). -/
  thermCfg : W32 := 0x03B603B6
  /-- The thermal estimators have converged (R295). -/
  converged : Bool := false
  /-- Hottest sensor, HBM readout (0.1 °C), limit (MHz, kept as the distance below 2,500) and cause of each windchest. -/
  wcHot : NMap Nat := []
  wcHbm : NMap Nat := []
  wcDrop : NMap Nat := []
  wcCause : NMap Nat := []
  /-- Periods until the next THROTTLE record of a windchest may be written (Table 14-6). -/
  wcQuiet : NMap Nat := []
  /-- Mask of invalid sensors, sensors at TL_MAX, hardware trips, thermal periods since the last upward step. -/
  wcInvalid : NMap Nat := []
  wcAlert : NMap Bool := []
  wcTrip : NMap Bool := []
  wcTick : NMap Nat := []
  /-- Coolant inlet (0.1 °C), its validity, leak loop (0 dry, 1 wet, 2 open) (Table 17-8). -/
  inlet : Nat := 0
  inletValid : Bool := false
  inletOpen : Bool := false
  leak : Nat := 0
  /-- Dies that run from their fallback oscillator (R14): 0–31 CD, 32–47 WC, 48–59 PD, 60 HA, 61 HB, 62–63 BW. -/
  fallback : NMap Bool := []
  /-- Sideband buses the module no longer drives (Table 17-7). -/
  i3cDead : Bool := false
  smbDead : Bool := false
deriving DecidableEq, Repr

/-! ### Module flash and fuses (chapters 12, 13, 17) -/

/-- Equalisation seeds of a port, with the peer they belong to (R187). -/
structure Seed where
  stored : Bool := false
  peerId : W64 := 0
  peerPort : Nat := 0
deriving DecidableEq, Repr

/-- A retired line set of one tile: block entry, column entries with their soft marks (Tables 03-8, 03-9). -/
structure TileRep where
  blk : Option Nat := none
  blkSoft : Bool := false
  cols : List (Nat × Bool) := []
  field : Bool := false
  unrepairable : Bool := false
deriving DecidableEq, Repr

/-- Module flash and fuses: what a power cycle keeps (Table 15-4, R359). -/
structure Fl where
  /-- The device identity key, which never leaves the security engine, its public key (x, then y) and that key's
  SHA-256 as a little-endian field, whose low 64 bits are MODULE_ID (chapter 14). -/
  idKey : BitVec 256 := 1
  idPub : BitVec 512 := 0x4fe342e2fe1a7f9b8ee7eb4a7c0f9e162bce33576b315ececbb6406837bf51f56b17d1f2e12c4247f8bce6e563a440f277037d812deb33a0f4a13945d898c296
  idKeyHash : BitVec 256 := 0x970712fce5b339aeafde27b402bf49669d11642c558018102924fb715b5155a9
  /-- Key hashes that fuses hold in the firmware and the licence key slots (R263, R272). -/
  fwKeys : NMap (BitVec 256) := [(0, 0x9635cad1986ae544bdc8c1b16bcb0db63442987b9f94206fd2fca754f4aff4e2)]
  licKeys : NMap (BitVec 256) := [(0, 0x9fc6e7f0fe5903a492bae5a8683fc3e0a39ef874c430763c8bee7a015e53514d)]
  /-- Suffix (1 -L1, 2 -L2), grade ceiling (1 A, 2 S, 3 F), fused security version. -/
  suffix : Nat := 1
  ceiling : Nat := 1
  svn : Nat := 0
  /-- Revoke fuses of the firmware and licence key slots. -/
  fwRevoked : NMap Bool := []
  licRevoked : NMap Bool := []
  /-- Firmware banks A and B: header at 0–255, body from 256 (Table 13-2). -/
  bankA : NMap Byte := []
  bankB : NMap Byte := []
  /-- The stored licence, 256 bytes (Table 13-6). -/
  licHeld : Bool := false
  licence : NMap Byte := []
  manifestGen : W64 := 0
  fwPref : Bool := false
  l1Mode : Bool := false
  hdmSize : Nat := 0
  hdmBase : Nat := 0
  clamp : Bool := false
  pwrEvents : W64 := 0
  /-- DESIGN CHOICE: 0 as shipped; R237 ships them as counted in each module's tests. -/
  lifeHours : Nat := 0
  lifeTrips : Nat := 0
  /-- Sum and number of hourly junction temperatures since the first field power-on, and the last 720 (R366). -/
  tjSum : Nat := 0
  tjCount : Nat := 0
  tj30 : List Nat := []
  /-- Wear monitors: slowdown in ppm and baseline set (Table 17-8). -/
  wear : NMap Nat := []
  wearBase : NMap Bool := []
  seeds : NMap Seed := []
  hbmTrained : Bool := false
  /-- HBM rows recorded for a hard repair at the next cold power-on: stack, pseudo-channel, row (R83); the
  bank stands above bit 24 of the row. Rows repaired so before. -/
  rowsToRepair : List (Nat × Nat × Nat) := []
  rowsRepaired : List (Nat × Nat × Nat) := []
  /-- Core sites (island IDs) recorded as failed in the field (R267, R268). -/
  badSites : NMap Bool := []
  /-- Cold power-ons since manufacture (LDL_HDR.BOOTS). -/
  boots : Nat := 0
  /-- Array lines retired by fuses, per tile (R57, R61). -/
  fusedTiles : NMap TileRep := []
  /-- Edits of manufacture (false) or field (true) lines listed as blown: tile · 2048 + column, or tile · 2048 + 1040 + block. -/
  fieldLines : NMap Bool := []
  /-- Defects known at manufacture, by their place in the legacy defect list's order (FIELDSRC, R270). -/
  made : NMap Bool := []
deriving DecidableEq, Repr

/-! ### Bring-up, licence, topology (chapter 13) -/

/-- A manifest extract that passed its checks (Table 13-9). -/
structure Extract where
  systemId : W64
  generation : W64
  coord : BitVec 17
  axes : BitVec 16
  portMask : BitVec 16
  peers : List W64
  /-- Its 320 bytes. -/
  raw : List Byte := []
deriving DecidableEq, Repr

/-- Bring-up state: stages, firmware and licence status, topology, core map, repair state. -/
structure Bt where
  /-- BOOT_STATUS fields (Table 13-12) and BOOT_TIME. -/
  stage : Nat := 0
  failStage : Nat := 0
  failReason : Nat := 0
  first : Bool := false
  personalityOk : Bool := false
  bootTime : Nat := 0
  /-- FW_STATUS: bank that booted, other bank good, key slot, image SVN, COMMIT_SVN flag (Table 13-11). -/
  bank : Bool := false
  altOk : Bool := false
  keyIdx : Nat := 0
  imageSvn : Nat := 0
  commitSvn : Bool := false
  /-- LIC_STATUS.CODE, the grade licensed, and the grade in force (0 before the LICENCE stage). -/
  licCode : Nat := 0
  licGrade : Nat := 0
  grade : Nat := 0
  /-- The licence in force since this power-on (R272, R274); none without a valid one. -/
  licInForce : NMap Byte := []
  /-- COUNT_ACT, L1_MODE_ACT and HDM_CFG as the last reset put them into force, for measurement block 6. -/
  cfgInForce : Nat := 0
  /-- HDM_CFG as flash held it at the cold power-on: its reset value (Table 12-8). -/
  hdmReset : Nat := 0
  ready : Bool := false
  /-- COMPUTE has ended and no chip reset is repeating it. -/
  computeDone : Bool := false
  /-- Extract in force, extract held until the check can run, MREASON (Table 13-11). -/
  inForce : Option Extract := none
  held : Option Extract := none
  mreason : Nat := 0
  portResult : NMap Nat := []
  /-- Results of MEMORY kept for the personality check and the legacy defect list. -/
  memShort : Bool := false
  coreMemBad : List Nat := []
  hardRows : List (Nat × Nat × Nat × Nat) := []
  chestRows : List (Nat × Nat) := []
  engineFault : Bool := false
  featureFault : Bool := false
  /-- Core map: built; entries that are not the identity, as site + 1; substituted entries; bad sites (R267, R268). -/
  mapBuilt : Bool := false
  mapSite : NMap Nat := []
  mapField : NMap Bool := []
  siteBad : NMap Bool := []
  /-- Repair state of the tiles (Tables 03-7 to 03-9). -/
  tiles : NMap TileRep := []
  /-- Legacy defect list (Table 13-5). -/
  ldl : List W64 := []
  ldlOverflow : Bool := false
  ldlClamped : Bool := false
deriving DecidableEq, Repr

/-! ### Host side (chapters 12 and 14) -/

/-- One command as the front end holds it: 64 bytes, submission sequence number, the address it came
from (ring entry or chain address), and whether it came by a chain. -/
structure Entry where
  cmd : W512
  seq : BitVec 56
  addr : W64
  chained : Bool := false
  /-- Fetched from a ring in host memory (R334). -/
  fromHost : Bool := false
  /-- Version and owning context that a LAUNCH bound when it was fetched (R251). -/
  bound : Option (Nat × Nat) := none
deriving DecidableEq, Repr

/-- A dispatched command that has not completed: result is its status once known. -/
structure InFlight where
  entry : Entry
  result : Option Nat := none
  /-- The launch it belongs to counts it (graph command). -/
  inGraph : Bool := false
  /-- Engine queue context (QID form) that runs it, and its dispatch number within its queue. -/
  target : Nat := 0
  id : Nat := 0
deriving DecidableEq, Repr

/-- A host function: link, host state, identity and control page, admin ring, Q_SEL. -/
structure Fn where
  linkUp : Bool := false
  trainedEver : Bool := false
  cache : Bool := false
  /-- GT/s and lanes that the link trained to (Table 12-1). -/
  rate : Nat := 0
  width : Nat := 0
  perst : Bool := true
  sris : Bool := false
  attach : Nat := 0
  /-- A quiesce that began runs on to its end (Table 12-17). -/
  quiescing : Bool := false
  grace : Nat := 60
  negHost : W64 := 0
  negAgreed : W64 := 0
  poll : Nat := 10
  adminRing : W64 := 0
  adminPi : W64 := 0
  adminCq : W64 := 0
  adminCfg : W64 := 0
  /-- Admin ring: entries fetched, submission counter, fetched commands, the one executed and not yet completed. -/
  adminCount : Nat := 0
  adminSeq : BitVec 56 := 0
  adminFetched : List Entry := []
  adminBusy : Option InFlight := none
  /-- The admin ring's producer index has no watcher (R243). -/
  adminPolled : Bool := false
  qSel : Nat := 0
  mbxInUse : Bool := false
  msix : NMap W32 := []
  pba : NMap Bool := []
  /-- SAMPLE_SEL (GO apart) and the sample registers, held per function (R337). -/
  sampleSel : W64 := 0
  sampleValue : W64 := 0
  sampleTag : W64 := 0
  sampleStatus : W64 := 0
  sampleCycle : W64 := 0
deriving DecidableEq, Repr

/-- Both functions, the HDM window, the mailbox, and host memory as the module sees it. -/
structure Hs where
  f0 : Fn := {}
  f1 : Fn := {}
  failover : Bool := false
  l1Act : Bool := false
  /-- HDM_CFG in force (Table 12-8) and lines the host holds through the window. -/
  hdmSize : Nat := 0
  hdmBase : Nat := 0
  hdmLocked : Bool := false
  hdmBad : Bool := false
  hdmHolds : NMap Bool := []
  /-- Mailbox registers (Table 14-5). -/
  mbxCtrl : W64 := 0
  mbxState : Nat := 0
  mbxOwner : Bool := false
  mbxDetail : Nat := 0
  mbxData : NMap Byte := []
  /-- A fuse-blow in progress: tile, block entry still to blow, column entries still to blow (R61). -/
  blowing : Option (Nat × Bool × List Nat) := none
  /-- The mailbox command that runs asked for that fuse-blow; an authorisation that waits until the entry which a
  restart left begun is blown (R287). -/
  blowMbx : Bool := false
  blowNext : Option (Nat × Bool × List Nat) := none
  /-- Host memory bytes, lines (address ÷ 64) that the module wrote as poison, and the ranges that ATS refuses or that
  answer with an abort. -/
  hostMem : NMap Byte := []
  hostPoison : NMap Bool := []
  atsRefuses : List (Nat × Nat) := []
  aborts : List (Nat × Nat) := []
  /-- Host writes that the hub queue held when the Drone's watchdog fired (R284). -/
  hubQueue : List HubWrite := []
deriving DecidableEq, Repr

/-! ### Memories (chapter 5) -/

/-- A cached translation: leaf entry and level (R92). -/
structure XEnt where
  pte : W64 := 0
  level : Nat := 0
deriving DecidableEq, Repr

/-- Device memory at home addresses (the local view of HBM, chest memory, core memory), poison, health. -/
structure Mem where
  /-- Bytes; an unlisted byte reads 0. -/
  cells : NMap Byte := []
  /-- Lines (address ÷ 64) whose poison differs from their default: a core memory line is poisoned until
  written (R87), and so is a line of a chest memory that a self-test has left as poison (R348). -/
  marks : NMap Bool := []
  chestPoison : NMap Bool := []
  /-- Errors that no read has met yet, by code word (its home address ÷ 8): 1 one that the code corrects, 2 one that it does
  not; the model's own field, with the count of open draws that filled it. -/
  latent : NMap Nat := []
  strikes : Nat := 0
  /-- Lines that an engine's scalar cache may hold modified: engine key + 1 (R316). -/
  dirty : NMap Nat := []
  /-- Memory health window, per stack or windchest (Table 05-3). -/
  hbmCe : NMap Nat := []
  hbmUe : NMap Nat := []
  chestCe : NMap Nat := []
  chestUe : NMap Nat := []
  coreCe : NMap Nat := []
  coreUe : NMap Nat := []
  /-- Patrol interval in hours, kept as its difference from 24 (0 means 24). -/
  scrub : NMap Nat := []
  lastUe : NMap Nat := []
  spareUsed : NMap Bool := []
  swapActive : NMap Bool := []
  spareFor : NMap Nat := []
  pprHard : NMap Nat := []
  pprSoft : NMap Nat := []
  degraded : NMap Bool := []
  /-- Next line of a running pseudo-channel copy. -/
  swapNext : NMap Nat := []
  /-- Cached translations, keyed context · 2^36 + 2 MiB page number. -/
  xcache : NMap XEnt := []
deriving DecidableEq, Repr

/-! ### Front end (chapter 12) -/

/-- A context (Table 12-10): 0 FREE, 1 ACTIVE, 2 SINK_LOST, 3 QUIESCED, 4 RESETTING. -/
structure Ctx where
  state : Nat := 0
  owner : Bool := false
  part : Nat := 0
  seed : W64 := 0
  /-- State to return to after a reset (R308 step 5). -/
  prior : Nat := 0
deriving DecidableEq, Repr

/-- Where a tiered queue's commands come from while a buffer or graph runs (R250): next address or
command index, graph and version when in a graph, iterations left and done and the address of the
iteration index, target of the loop. -/
structure Frame where
  graph : Option (Nat × Nat) := none
  next : W64 := 0
  left : Nat := 0
  done : Nat := 0
  idxAddr : W64 := 0
  target : W64 := 0
  /-- 0 IF, 1 LOOP, 2 CALL, 3 LAUNCH. -/
  kind : Nat := 2
  /-- Dispatch number of the command that runs it, and the submission number its commands carry. -/
  id : Nat := 0
  seq : BitVec 56 := 0
deriving DecidableEq, Repr

/-- A queue (Tables 12-11, 12-12). -/
structure Queue where
  live : Bool := false
  owner : Bool := false
  ctx : Nat := 0
  ringLog2 : Nat := 6
  cqLog2 : Nat := 6
  watch : Bool := false
  ring : W64 := 0
  piAddr : W64 := 0
  ciAddr : W64 := 0
  cq : W64 := 0
  /-- 0 NONE, 1 IDLE, 2 ACTIVE, 3 WAITING, 4 STOPPED, 5 HALTED. -/
  state : Nat := 0
  stopStatus : Nat := 0
  polled : Bool := false
  /-- The line, an address divided by 64 as the memory system numbers it, that the queue's watcher held when the
  queue was created (R243). -/
  watchLine : Nat := 0
  sinkBad : Bool := false
  nextSeq : BitVec 56 := 0
  shadowFirst : W64 := 0
  shadowLast : W64 := 0
  shadowCount : Nat := 0
  /-- A word has been shadowed since the sink was last set. -/
  shadowHeld : Bool := false
  fetched : Nat := 0
  /-- Producer index last read, entries fetched and not dispatched, commands in flight. -/
  pi : Nat := 0
  entries : List Entry := []
  /-- The command taken from the ring, a chain, a buffer or a graph that is to be dispatched next. -/
  cur : Option Entry := none
  /-- Commands put back before the next one: Q_RESTART places the stopping command ahead of them. -/
  back : List Entry := []
  /-- Q_DESTROY waits for the dispatched commands. -/
  destroying : Bool := false
  inflight : List InFlight := []
  /-- Address of a chained command to fetch once its predecessor completes; a chain is open. -/
  chainFrom : Option W64 := none
  chainOpen : Bool := false
  /-- Commands dispatched so far: a number of the model's own that tells in-flight commands apart. -/
  dispatched : Nat := 0
  /-- The stopping command, for Q_RESTART. -/
  stopped : Option Entry := none
  /-- The head's command wait has been satisfied (R245). -/
  waitDone : Bool := false
  frames : List Frame := []
  /-- A running LAUNCH: its entry, first failing status of its graph, top level reached its end. -/
  launch : Option Entry := none
  launchFail : Nat := 0
  launchEnded : Bool := false
deriving DecidableEq, Repr

/-- A stored graph: owner, live versions as lists of pool pages with their lengths in commands, the current
version (R251, R252). -/
structure Graph where
  stored : Bool := false
  owner : Nat := 0
  versions : NMap (List Nat) := []
  lengths : NMap Nat := []
  current : Option Nat := none
  nextVersion : Nat := 1
deriving DecidableEq, Repr

/-- A waiter registered at its tallies' homes (R116): an engine queue context or a queue's command
wait; the tallies' locations (host memory or home address), thresholds, and once released which
thresholds were met and the value observed. -/
structure Waiter where
  key : Nat
  isQueue : Bool
  ctx : Nat
  host : Bool
  addr : Nat
  va : W64
  thresh : W64
  second : Option (Bool × Nat × W64 × W64) := none
  released : Option (Bool × Bool × W64) := none
  /-- Destination register, and whether RD receives the met bits. -/
  rd : BitVec 5 := 0
  cause : Nat := 8
deriving DecidableEq, Repr

/-- Contexts, queues, graphs, waits, and the registers that place them. -/
structure Fe where
  /-- PART_CFG (Table 01-8): COUNT_REQ, COUNT_ACT, REFUSED. -/
  countReq : BitVec 2 := 0
  countAct : BitVec 2 := 0
  partRefused : Bool := false
  /-- PART_FRONT_MODE (Table 12-6). -/
  mode : BitVec 8 := 0
  modeRefused : BitVec 8 := 0
  xlatBase : W64 := 0
  descBase : NMap W64 := []
  graphBase : W64 := 0
  graphSize : W64 := 0
  ctxs : NMap Ctx := []
  queues : NMap Queue := []
  graphs : NMap Graph := []
  waiters : List Waiter := []
  /-- Bindings of engine queue contexts to contexts in tiered mode: context + 1 (R249). -/
  binds : NMap Nat := []
deriving DecidableEq, Repr

/-! ### Engines (chapter 6) -/

/-- Per-command counters: NUM_NAN, NUM_OVF, NUM_SAT, NUM_FLUSH, NUM_IDXRANGE, UPD_DONE, UPD_SKIP, UPD_REPLAY. -/
structure Nums where
  nan : Nat := 0
  ovf : Nat := 0
  sat : Nat := 0
  flush : Nat := 0
  idx : Nat := 0
  updDone : Nat := 0
  updSkip : Nat := 0
  updReplay : Nat := 0
deriving DecidableEq, Repr

/-- A counter bank's shadow with its sequence number and queue context, and whether a command has
started since the island's last reset (R42, R338). The live counters stand with their command. -/
structure Bank where
  shadow : Nums := {}
  shadowSeq : BitVec 56 := 0
  shadowQctx : Nat := 0
  started : Bool := false
  /-- A command has ended in this bank since the island's last reset. -/
  ended : Bool := false
deriving DecidableEq, Repr

/-- A UX.CHUNK in progress: its sequence number, its descriptors, the popcount of its mask, the blocks to come by position
and number, its counters; what its next block would have written when an engine reset stops it, TORN first, by location,
each byte plus 1 (R180). -/
structure UxWork where
  seq : BitVec 56 := 0
  desc : BitVec 1024 := 0
  d1 : W512 := 0
  d2 : W512 := 0
  c : Nat := 0
  blocks : List (Nat × Nat) := []
  nums : Nums := {}
  torn : NMap Nat := []
  writes : NMap Nat := []
deriving DecidableEq, Repr

/-- A queue context of an engine (Table 06-2), keyed by its QID form. -/
structure QCtx where
  live : Bool := false
  ctx : Nat := 0
  pc : W64 := 0
  g : NMap W64 := []
  v : NMap VReg := []
  p : NMap W64 := []
  vfcsr : W64 := 0
  /-- Command sequence number of the current command, and the next one (R247). -/
  seq : BitVec 56 := 0
  nextSeq : BitVec 56 := 0
  /-- Command in progress: its queue, its dispatch number there, and whether it is a program. -/
  cmd : Option (Nat × Nat × Bool) := none
  /-- Commands handed over that wait behind it, in the same form, oldest first (R246, R249). -/
  held : List (Nat × Nat × Bool) := []
  /-- The command has started (R336), and the context is blocked in TALLY.WAIT or TALLY.WAIT2. -/
  started : Bool := false
  blocked : Bool := false
  /-- A TALLY.ADD or fence that waits until earlier accepted commands retire (R145, R150). -/
  heldAdd : Option (W64 × W64 × BitVec 5) := none
  /-- Status of a program that has ended and waits until what it had accepted or opened has retired (R97). -/
  heldEnd : Option Nat := none
  /-- A UX.CHUNK in progress between two of its blocks (R180). -/
  chunk : Option UxWork := none
  /-- The program's live counters (R42). -/
  nums : Nums := {}
  /-- The program counter, instruction word and extension word of the instruction fetched last, for its fault
  record (R124). -/
  words : Option (W64 × W64 × W64) := none
deriving DecidableEq, Repr

/-- An engine: running queue context, counter bank, cycle accounts (R335). -/
structure Eng where
  running : Option Nat := none
  /-- Number of the queue context that ran last, and the queue context that the engine has left because its command
  ended, with which it goes on while a further command of it is ready (R105). -/
  last : Nat := 0
  kept : Option Nat := none
  /-- Instruction words fetched since the engine's last IFENCE, each plus 1, by location (R109). -/
  icache : NMap Nat := []
  bank : Bank := {}
  busy : Nat := 0
  stall : Nat := 0
  idle : Nat := 0
  idleOpen : Nat := 0
  stallBy : NMap Nat := []
  idleBy : NMap Nat := []
  /-- Engine resets counted for spare substitution (R326). -/
  resets : Nat := 0
deriving DecidableEq, Repr

/-- Queue contexts, engines, and the cycle count and record sequence number of each island. -/
structure En where
  qcs : NMap QCtx := []
  engs : NMap Eng := []
  cyc : NMap Nat := []
  iseq : NMap Nat := []
deriving DecidableEq, Repr

/-! ### Array engines (chapters 3, 4, 7) -/

/-- A binary32 pair (s, e) as bits (R62). -/
abbrev Pair := W32 × W32

/-- An accumulator row of one draining tile: context tag, layout, poison, its slots 0 to 1,023 (R64, R69). -/
structure AccRow where
  valid : Bool := false
  ctx : Nat := 0
  paired : Bool := false
  poison : Bool := false
  slots : NMap Pair := []
deriving DecidableEq, Repr

/-- Loaded weights: context tag, shape, format; mantissas by column · 8192 + row, block exponents by
column · 256 + block (R44, R50, R146). -/
structure Wts where
  ctx : Nat := 0
  k : Nat := 0
  n : Nat := 0
  fmt : Nat := 0
  mants : NMap Int := []
  exps : NMap Nat := []
deriving DecidableEq, Repr

/-- How an access of an AX command failed: class, status, reason, ARG0 to ARG2 of its record. -/
structure AxFail where
  cls : Nat
  status : Nat
  reason : Nat := 0
  a0 : Nat := 0
  a1 : Nat := 0
  a2 : Nat := 0
deriving DecidableEq, Repr

/-- An AX command that waits for its turn or is accepted: bank 0 L, 1 P, 2 D; where it came from; its fields and the descriptors it read. -/
structure AxCmd where
  bank : Nat
  q : Nat
  queue : Nat := 0
  id : Nat := 0
  /-- An instruction of a program: its end writes no completion word (R103). -/
  byProg : Bool := false
  seq : BitVec 56 := 0
  pc : W64 := 0
  ctx : Nat := 0
  tr : Bool := false
  acc : Bool := false
  dt : Bool := false
  rbase : Nat := 0
  /-- Rows, output columns, streaming width, rows of a load in cycles; whether its operand is paired. -/
  m : Nat := 0
  n : Nat := 0
  swidth : Nat := 0
  rho : Nat := 0
  paired : Bool := false
  x : TExt := {}
  h1 : BitVec 16 := 0
  h2 : BitVec 16 := 0
  d1 : W512 := 0
  d2 : W512 := 0
  dIdx : W512 := 0
  dY : W512 := 0
  /-- Index positions as read at acceptance; a drain has read its rows; the pairs of a pass, or those a drain has read, by
  row · 8192 + column. -/
  sel : List (Option Nat) := []
  snap : Bool := false
  sums : NMap Pair := []
  /-- The freeze mask in force at its acceptance (R149, R159). -/
  mask : NMap W64 := []
  nums : Nums := {}
  /-- Locations that earlier commands in flight at its acceptance write, for its reads of Y; those of its own stream and
  index that it writes itself (R53, R131). -/
  race : List Nat := []
  own : List Nat := []
  /-- Number of the open choices of its rows (R71). -/
  draw : Nat := 0
  /-- An access failed: it ends with this status when it retires, in issue order (R145, R148). -/
  fail : Option AxFail := none
  /-- Ended by a reset: it flows on with its writes suppressed (R308). -/
  ended : Bool := false
deriving DecidableEq, Repr

/-- The array of one partition. -/
structure AxPart where
  /-- Weights the cells multiply by, and loaded weights that wait for a front. -/
  active : Option Wts := none
  shadow : Option Wts := none
  /-- Operand shape of the last accepted load: context, K, N, format (R146). -/
  last : Option (Nat × Nat × Nat × Nat) := none
  /-- Cycle of row 0 and length of the last load, and the front that took it in; front and stream length of the last
  pass (R54, R371). -/
  loadAt : Option (Nat × Nat) := none
  takenAt : Option Nat := none
  frontAt : Option (Nat × Nat) := none
  /-- The command whose checks have passed and that waits for its turn: nothing of the partition is accepted before it
  (R52, R78, R145). -/
  next : Option AxCmd := none
  /-- Accepted commands that have not retired, in issue order; rows of the draining tiles, by row · 16 + tile. -/
  cmds : List AxCmd := []
  rows : NMap AccRow := []
  /-- Freeze mask words by row · 4 + word, and the context that set it (R149). -/
  mask : NMap W64 := []
  maskCtx : Option Nat := none
  /-- Acceptance held by an AX.FENCE: its queue context, its context and its sequence number (R150). -/
  fence : Option (Nat × Nat × BitVec 56) := none
  bankL : Bank := {}
  bankP : Bank := {}
  bankD : Bank := {}
deriving DecidableEq, Repr

/-! ### Reduction engines (chapter 11) -/

/-- One piece of a collective at this member: its header's fields once received, its bytes and its poisoned 64-byte
units as far as received, the units received; what the member does with it is done. -/
structure Piece where
  hasHdr : Bool := false
  mask : BitVec 128 := 0
  empty : Bool := false
  data : NMap Byte := []
  poison : NMap Bool := []
  /-- Units that its data packets have delivered, and the LENGTH of its header. -/
  units : Nat := 0
  len : Nat := 0
  sent : Bool := false
deriving DecidableEq, Repr

/-- An open collective (R207): kind 0 RS, 1 AG, 2 AR, 3 PERM; the command that opened it; its descriptor and what it
latched at acceptance. -/
structure Slot where
  live : Bool := false
  kind : Nat := 0
  q : Nat := 0
  queue : Nat := 0
  id : Nat := 0
  /-- Opened by an instruction of a program: its end writes no completion word (R103). -/
  byProg : Bool := false
  seq : BitVec 56 := 0
  pc : W64 := 0
  ctx : Nat := 0
  /-- The descriptor and its virtual address. -/
  desc : BitVec 1024 := 0
  va : Nat := 0
  /-- Members of the ring, this member's number, COLL_LINE, where FILL_TALLY lies (its translation holds for the
  collective, R208), the working-weight descriptor, the deadline. -/
  n : Nat := 0
  me : Nat := 0
  line : W32 := 0
  fillLoc : Nat := 0
  wdesc : W512 := 0
  dl : Nat := 0
  /-- Its place in the order of acceptance: a number of the model's own. -/
  order : Nat := 0
  /-- FILL_TALLY has reached FILL_COUNT. -/
  ready : Bool := false
  /-- Decisions by chunk (1 IN, 2 OUT), chunks of which a piece has arrived, one decision at least was made by R216's
  first sentence, one was OUT by deadline, the largest slack so far, the slack is recorded. -/
  decisions : NMap Nat := []
  arrived : NMap Bool := []
  normal : Bool := false
  outSeen : Bool := false
  slack : Nat := 0
  recorded : Bool := false
  pieces : NMap Piece := []
  /-- This member's contribution: for each chunk 1 read, 2 not readable; the bytes of its quarters, chunk j's from 4·j. -/
  fetched : NMap Nat := []
  terms : NMap (List (Byte × Bool)) := []
  /-- This member's own chunk is reduced, or its gather is sent. -/
  ownDone : Bool := false
  /-- Status it will end with when not DONE; the first poisoned line of its contribution with its virtual address. -/
  ending : Option Nat := none
  poisonAt : Option (Nat × Nat) := none
  /-- It is aborted: it writes nothing more of its own (Table 11-10). -/
  halted : Bool := false
  /-- Its context is gone: the context entry and the partition count under which its addresses stay valid (R208). -/
  kept : Option (Nat × Nat) := none
  /-- Idle cause of its last wait. -/
  cause : Nat := 8
  /-- Permute: its entries; shards sent; entries acknowledged, stored and copied, by position. -/
  entries : List (BitVec 256) := []
  shardsSent : Bool := false
  acked : NMap Bool := []
  stored : NMap Bool := []
  copied : NMap Bool := []
  nums : Nums := {}
deriving DecidableEq, Repr

/-- Collective slots and the collective window (Table 11-11). -/
structure Rx where
  slots : NMap Slot := []
  deadlineInit : Nat := 400000
  deadlineMin : Nat := 40000
  deadlineMax : Nat := 4000000
  line : NMap W32 := []
  late : Nat := 0
  short : Nat := 0
  orphan : Nat := 0
  discard : Nat := 0
  /-- Ended collectives whose late contributions are still to be counted: FILL_TALLY's place, FILL_COUNT, chunks (R217). -/
  lateWait : List (Nat × Nat × Nat) := []
  /-- Contexts and tags of collectives that an engine reset ended (Table 11-10). -/
  deadTags : List (Nat × Nat) := []
deriving DecidableEq, Repr

/-! ### Etris ports (chapter 10) -/

/-- A packet: its header, the payload bytes behind it, the VC it came on, and the 64-byte units of its body that are
marked as poison (poison travels with the data; no table of chapter 10 gives the mark's place). -/
structure Packet where
  header : BitVec 256
  body : List Byte
  vc : Nat := 0
  poison : List Nat := []
deriving DecidableEq, Repr

/-- A flit kept for replay or waiting to be sent; a packet's first flit carries the packet's poison marks. -/
structure Flit where
  ty : Nat
  vc : Nat
  fseq : Nat := 0
  payload : List Byte
  poison : List Nat := []
deriving DecidableEq, Repr

/-- One port: registers (Tables 10-8 to 10-11), lane maps, link-layer state. -/
structure Port where
  state : Nat := 0
  fwd : Bool := false
  seeded : Bool := false
  failReason : Nat := 0
  swapActive : Bool := false
  sparingPaused : Bool := false
  reversed : Bool := false
  fallbackClk : Bool := false
  sparesTx : Nat := 0
  /-- Receive lane map: physical lane of each logical lane, kept as the difference lane + 1 (0 means identity). -/
  laneOf : NMap Nat := []
  txLaneOf : NMap Nat := []
  inverted : BitVec 18 := 0
  failedRx : BitVec 18 := 0
  failedTx : BitVec 18 := 0
  peerId : W64 := 0
  peerPort : Nat := 0
  peerGrade : Nat := 0
  peerSuffix : Nat := 0
  peerCoord : BitVec 17 := 0
  coordValid : Bool := false
  peerValid : Bool := false
  fecCorr : Nat := 0
  fecUncorr : Nat := 0
  crcBad : Nat := 0
  replays : Nat := 0
  dropped : Nat := 0
  sym : NMap Nat := []
  /-- Link layer: next FSEQ to send, FSEQ expected, a replay request outstanding, last FSEQ received in order. -/
  txSeq : Nat := 0
  rxSeq : Nat := 0
  requested : Bool := false
  rxAny : Bool := false
  replay : List Flit := []
  resend : List Flit := []
  txq : List Flit := []
  credits : NMap Nat := []
  /-- Credits owed to the partner, per VC; packets under assembly, per VC. -/
  owed : NMap Nat := []
  partial_ : NMap (List Flit) := []
  /-- Swap in progress: logical lane, spare, symbols agreed; a swap decision that waits. -/
  swap : Option (Nat × Nat × Bool) := none
  swapWaits : List Nat := []
  /-- Flits that have arrived while a stop holds the link layer: channel contents (R345). -/
  held : List FlitIn := []
  /-- Copy requested by the partner: logical lane and spare (transmit side). -/
  txCopy : Option (Nat × Nat) := none
  /-- Dead lanes hold new flits: their logical lanes (R196). -/
  dead : List Nat := []
  /-- Step of RETRAIN that runs: 3 EQ_SEED, 4 ALIGN, 5 LINK_INIT. Failures of RETRAIN: 0 none, 1 one and it runs again,
  2 one before the last success (R189). -/
  sub : Nat := 0
  retrainFails : Nat := 0
  /-- The peer is still to be sent this module's new discovery record (R190). -/
  recordDue : Bool := false
deriving DecidableEq, Repr

/-- Ports, coordinates, routing (Table 10-8). -/
structure Et where
  ports : NMap Port := []
  coord : BitVec 17 := 0
  coordValid : Bool := false
  axisSize : BitVec 16 := 0
  route : NMap W64 := []
  rtxDiscard : Nat := 0
  noRoute : Nat := 0
  /-- Packets addressed to this module that wait in the receive buffers, with their port. -/
  inbox : List (Nat × Packet) := []
deriving DecidableEq, Repr

/-! ### Faults, resets, ledgers, log (chapters 14 and 15) -/

/-- A fault record (Table 15-2). -/
structure FaultRec where
  cycle : Nat := 0
  iseq : Nat := 0
  island : Nat := 0
  cls : Nat := 0
  status : Nat := 0
  ctx : Nat := 0
  qctx : Nat := 0
  ctxv : Bool := false
  kind : Nat := 0
  part : Nat := 0
  reason : Nat := 0
  level : Nat := 0
  seq : BitVec 56 := 0
  pc : W64 := 0
  arg0 : W64 := 0
  arg1 : W64 := 0
  arg2 : W64 := 0
deriving DecidableEq, Repr

/-- A log record (Table 14-4). -/
structure LogRec where
  cycle : Nat := 0
  iseq : Nat := 0
  island : Nat := 0
  sev : Nat := 0
  event : Nat := 0
  arg0 : W64 := 0
  arg1 : W64 := 0
deriving DecidableEq, Repr

/-- A reset that runs: domain, status it gives, fabric work ended too, requested by RESET_REQ, hold. -/
structure RunReset where
  dom : Domain
  status : Nat
  fabric : Bool := false
  byReq : Bool := false
  hold : Bool := false
  /-- At its end the context becomes FREE (CTX_DESTROY), or its queues are destroyed (R232); the function
  whose admin command it completes. -/
  thenFree : Bool := false
  thenDestroy : Bool := false
  ctl : Option Bool := none
  /-- Chip reset: COUNT_REQ sampled when it began (R18). -/
  count : BitVec 2 := 0
deriving DecidableEq, Repr

/-- A reset asked for while a stop runs (R345): one of RESET_REQ or of a fault, by its level, a context's, a
function's, or a windchest engine island's. -/
inductive HeldReset where
  | req (level : Nat) (r : ResetReq)
  | ctx (c : Nat) (fabric : Bool)
  | fn (f : Bool)
  | wcIsland (w : Nat)
deriving DecidableEq, Repr

/-- Fault ring, resets, epochs, quarantine, ledgers, log ring. -/
structure Fr where
  faults : NMap FaultRec := []
  faultCount : Nat := 0
  ctxFault : NMap FaultRec := []
  /-- A record that names the context has been taken since it last entered ACTIVE (R304). -/
  ctxFaultHeld : NMap Bool := []
  logs : NMap LogRec := []
  logCount : Nat := 0
  logDropped : Nat := 0
  logSevMin : Nat := 0
  /-- Records that processors keep while the Drone is down (R290). -/
  logHeld : NMap (List LogRec) := []
  /-- Notices to the tray controller that wait for the Drone. -/
  noticeHeld : List Output := []
  /-- Resets running, RESET_STATUS (Table 15-6), held partitions. -/
  resets : List RunReset := []
  rsState : Nat := 0
  rsLevel : Nat := 0
  rsFunc : Bool := false
  rsTime : Nat := 0
  heldParts : NMap Bool := []
  /-- Reset requests that a stop holds, oldest first. -/
  heldResets : List HeldReset := []
  escCfg : W64 := 6
  waitDl : Nat := 5000
  epochRefused : Nat := 0
  edgePoisoned : Nat := 0
  partEpoch : NMap Nat := []
  wcEpoch : NMap Nat := []
  /-- Quarantined cores and windchest engine islands; fenced cores (R323, R325, R327). -/
  quar : NMap Bool := []
  wcQuar : NMap Bool := []
  fence : NMap Bool := []
  /-- Cluster-wide failures of sequencers that a chip reset must reload (R285). -/
  seqFailed : NMap Bool := []
  /-- NOTICE_IDs of accepted peer-down notices (R328). -/
  notices : List W64 := []
  /-- Ledger window (Tables 15-9, 15-10). -/
  ledState : Nat := 0
  ledLink : Nat := 0
  ledClass : Nat := 0
  ledDir : Bool := false
  ledKind : Nat := 0
  audits : Nat := 0
  absReq : Nat := 0
  absRsp : Nat := 0
  absTally : Nat := 0
  qDrop : Nat := 0
  ledSent : NMap Nat := []
  ledHeld : NMap Nat := []
deriving DecidableEq, Repr

/-! ### Firmware processors and sideband (chapter 14) -/

/-- A firmware processor (Table 14-9): 0 RUNNING, 1 RESTARTING, 2 STANDBY, 3 FAILED. -/
structure Proc where
  state : Nat := 0
  activeRole : Bool := false
  restarts : Nat := 0
  lastCause : Nat := 0
  /-- Watchdog firings counted toward a takeover (R285). -/
  fires : Nat := 0
deriving DecidableEq, Repr

/-- Firmware processors and the sideband endpoint. -/
structure Fw where
  procs : NMap Proc := []
  traceEn : BitVec 6 := 0
  /-- MCTP endpoint ID, PLDM terminus ID, event receiver, slot strap. -/
  eid : Nat := 0
  tid : Nat := 0
  eventReceiver : Nat := 0
  slotId : Nat := 0
  /-- PLDM update: 0 idle, 1 update mode, 2 component table passed, 3 image applied. -/
  pldm : Nat := 0
  /-- SPDM: algorithms negotiated, session open. -/
  spdmAlgs : Bool := false
  spdmSession : Nat := 0
deriving DecidableEq, Repr

/-! ### Observation (chapter 16) -/

/-- A trace record (R341). -/
structure TraceRec where
  cycle : Nat := 0
  iseq : Nat := 0
  island : Nat := 0
  kind : Nat := 0
  ty : Nat := 0
  data0 : W64 := 0
  data1 : W64 := 0
deriving DecidableEq, Repr

/-- Trace, markers, stop wave, loop-backs, dump. -/
structure Ob where
  traceCtrl : W64 := 0
  traceDropped : Nat := 0
  syncPeriod : Nat := 100
  markers : Nat := 0
  traceBase : NMap Nat := []
  traceSize : NMap Nat := []
  traceWptr : NMap Nat := []
  traceLost : NMap Nat := []
  /-- Trace buffers by unit, and records dropped since the last that found room. -/
  buffers : NMap (List TraceRec) := []
  lostPending : NMap Nat := []
  /-- STOP_STATUS: 0 RUNNING, 1 STOPPING, 2 STOPPED, 3 RESUMING; frozen islands; stop number. -/
  stopState : Nat := 0
  frozen : NMap Bool := []
  timedOut : Bool := false
  spread : Nat := 0
  stopCount : Nat := 0
  stopPending : Bool := false
  stopLimit : Nat := 2000
  /-- LOOP_CTRL (GO apart), LOOP_STATUS, LOOP_ERRORS. -/
  loopCtrl : W64 := 0
  /-- A test runs; LOOP_STATUS says how the last request stands. -/
  loopRuns : Bool := false
  loopState : Nat := 0
  loopErrors : W64 := 0
  loopBits : Nat := 0
  /-- DUMP_STATUS, DUMP_BASE, DUMP_SIZE; what the running dump precedes (0 nothing, 2 a chip reset, 3 a power-cycle request). -/
  dumpState : Nat := 0
  dumpNotOk : Nat := 0
  dumpMs : Nat := 0
  dumpBase : W64 := 0
  dumpSize : W64 := 0
  dumpFor : Nat := 0
  dumpWaits : Bool := false
  /-- What the running dump began with: its trigger, a stop wave before it, FAULT_COUNT − 1, the island cycle;
  and that the chip reset which waits for it was asked for by RESET_REQ. -/
  dumpTrigger : Nat := 0
  dumpStop : Bool := false
  /-- The dump engine has begun: a dump with STOP waits for the stop wave first. -/
  dumpBegun : Bool := false
  dumpFault : W64 := 0
  dumpCycle : Nat := 0
  dumpByReq : Bool := false
deriving DecidableEq, Repr

/-! ### The module -/

/-- The whole module with the queue of commands that wait, first in, first out. `free` counts the free
values used so far: a field of the model, not of the spec. -/
structure State where
  pending : List Instr := []
  pw : Pw := {}
  fl : Fl := {}
  bt : Bt := {}
  hs : Hs := {}
  mem : Mem := {}
  fe : Fe := {}
  en : En := {}
  ax : NMap AxPart := []
  rx : Rx := {}
  et : Et := {}
  fr : Fr := {}
  fw : Fw := {}
  ob : Ob := {}
  out : List Output := []
  free : Nat := 0
deriving DecidableEq, Repr

/-! ### Reset -/

/-- The bytes of a little-endian number of `n` bytes that are not 0, from address `a` on. -/
def byteMap : Nat → Nat → Nat → NMap Byte
  | 0, _, _ => []
  | n + 1, a, v => if v % 256 = 0 then byteMap n (a + 1) (v / 256) else (a, BitVec.ofNat 8 v) :: byteMap n (a + 1) (v / 256)

/-- A firmware bank as shipped (Table 13-2): VERSION 1 with an empty body, KEYIDX 0 and SVN 0. DESIGN CHOICE: no rule
names the image, nor the key that signs it; the model signs it with the private key 2. -/
def shippedBank : NMap Byte :=
  byteMap 64 0 0x55b852781b9995a44c939b64e441ae2724b96f99c8f4fb9a141cfc9842c4b0e30000000000000000000000000000000100000000000000000000000151584633
  ++ byteMap 64 64 0x7775510db8ed040293d9ac69f7430dbba7dade63ce982299e04b79d227873d17cf27b188d034f7e8a52380304b51ac3c08969e277f21b35a60b48fc47669978
  ++ byteMap 64 128 0x0
  ++ byteMap 64 192 0x4516c5907c7fa2f8737bccf7624dfea4088c668caa131d1e653433f517e84dd751590b7a515140d2d784c85608668fdfef8c82fd1f5be52421554a0dc3d033ed

/-- The licence as shipped (Table 13-6): a WQX3-A licence of SERIAL 1 for this module, in a module of suffix -L1 whose
grade ceiling is A. DESIGN CHOICE: R1 leaves the grade, the ceiling, the suffix, the serial and the keys to each module;
the model signs it with the private key 3 and lets the key 4 sign manifests. -/
def shippedLicence : NMap Byte :=
  byteMap 64 0 0x1000374330fff0301970712fce5b339aeafde27b402bf49669d11642c558018102924fb715b5155a92924fb715b5155a90000000151584c33
  ++ byteMap 64 64 0x5ecbe4d1a6330a44c8f7ef951d4bf165e6c6b721efada985fb41661bc6e7fd6c680f306012c995f05ad892fbf0ae491c62d04f2f34ed105724acd935e89d58d6
  ++ byteMap 64 128 0x8734640c4998ff7e374b06ce1a64a2ecd82ab036384fb83d9a79b127a27d5032
  ++ byteMap 64 192 0x1838d94a53a50f448979cd11379f8a3975a8865b9b79c2118b48412311758ad8b01a172a76a4602c92d3242cb897dde3024c740debb215b4c6b0aae93c2291a9

/-- The machine at reset: no supply, MOD_RESET_N and both PERST_N held asserted by their pull-downs
(R354), every register at the reset value of its table, and flash and fuses as a module is shipped
(R237). -/
def State.reset : State :=
  { fl := { bankA := shippedBank, bankB := shippedBank, licHeld := true, licence := shippedLicence } }

end Sys2Proof.Machine
end

