-- ==== Sys2Proof/Machine/Bits.lean ====
section
/-! DEFINITION. Bit fields, byte order, and where each resource of the module sits: partitions,
windchests, compute dies, core sites, engines and islands. -/

namespace Sys2Proof.Machine

/-! ### Bit fields and bytes -/

/-- Field of `w` bits from bit `lo`. -/
def fld (n lo w : Nat) : Nat := n / 2 ^ lo % 2 ^ w

/-- Field of `w` bits from bit `lo` of a bit vector. -/
def bfld {k : Nat} (x : BitVec k) (lo w : Nat) : Nat := fld x.toNat lo w

/-- A flag as a number. -/
def b01 (b : Bool) : Nat := if b then 1 else 0

/-- Value of bytes, little-endian (00_scope.md, Notation). -/
def leNat : List Byte → Nat
  | [] => 0
  | b :: bs => b.toNat + 256 * leNat bs

/-- The low `k` bytes of `v`, little-endian. -/
def leBytes : Nat → Nat → List Byte
  | 0, _ => []
  | k + 1, v => BitVec.ofNat 8 v :: leBytes k (v / 256)

/-- `n` bytes of a byte map from `lo` on, and their little-endian value. -/
def mapBytes (m : NMap Byte) (lo n : Nat) : List Byte := (List.range n).map (fun i => mget 0 m (lo + i))
def mapField (m : NMap Byte) (lo n : Nat) : Nat := leNat (mapBytes m lo n)

/-- A counter that holds at its maximum. -/
def satAdd (max n d : Nat) : Nat := if n + d ≤ max then n + d else max

/-- Maximum of a 32-bit and of a 48-bit counter. -/
def max32 : Nat := 0xFFFFFFFF
def max48 : Nat := 0xFFFFFFFFFFFF

/-- The list of numbers from 0 to `n − 1`. -/
def upto (n : Nat) : List Nat := List.range n

/-! ### Partitions, dies and islands (chapter 1) -/

/-- Partitions in force (PART_CFG.COUNT_ACT, Table 01-8). -/
def partCount (s : State) : Nat := 2 ^ s.fe.countAct.toNat

/-- Windchests of partition `p` when `cnt` partitions are in force, ascending (Table 01-7). -/
def partWcs (cnt p : Nat) : List Nat :=
  match cnt with
  | 8 => let b := 8 * (p / 4) + 2 * (p % 4); [b, b + 1]
  | 4 => let b := 8 * (p / 2) + 4 * (p % 2); [b, b + 1, b + 2, b + 3]
  | 2 => let b := 4 * p; [b, b + 1, b + 2, b + 3, b + 8, b + 9, b + 10, b + 11]
  | _ => upto 16

/-- Partition that holds windchest `w`. -/
def wcPart (cnt w : Nat) : Nat :=
  match cnt with
  | 8 => 4 * (w / 8) + w % 8 / 2
  | 4 => 2 * (w / 8) + w % 8 / 4
  | 2 => w % 8 / 4
  | _ => 0

/-- Windchest beneath compute die `cd` (chapter 1: WCnn carries CD(16r + c) and CD(16r + 8 + c)). -/
def cdWc (cd : Nat) : Nat := 8 * (cd / 16) + cd % 8

/-- The two compute dies above windchest `w`, north then south. -/
def wcCds (w : Nat) : List Nat := [16 * (w / 8) + w % 8, 16 * (w / 8) + 8 + w % 8]

/-- Partition of a compute die and of a logical core. -/
def cdPart (cnt cd : Nat) : Nat := wcPart cnt (cdWc cd)
def corePart (cnt c : Nat) : Nat := cdPart cnt (c / 64)

/-- Compute dies of partition `p`, ascending. -/
def partCds (cnt p : Nat) : List Nat := (upto 32).filter (fun cd => cdPart cnt cd == p)

/-- South-west compute die of partition `p`, where its array engine sits (Table 06-1). -/
def partSwCd (cnt p : Nat) : Nat :=
  match cnt with
  | 8 => 16 * (p / 4) + 8 + 2 * (p % 4)
  | 4 => 16 * (p / 2) + 8 + 4 * (p % 2)
  | 2 => 24 + 4 * p
  | _ => 24

/-- Rows, columns, tile rows and tile columns of a partition's array (Table 03-1). -/
def arrRows (cnt : Nat) : Nat := match cnt with | 8 => 4096 | 4 => 4096 | _ => 8192
def arrCols (cnt : Nat) : Nat := match cnt with | 8 => 2048 | 4 => 4096 | 2 => 4096 | _ => 8192

/-- Physical site of logical core `c` (CORE_MAP_c.PSITE). -/
def psite (s : State) (c : Nat) : Nat :=
  let v := mget 0 s.bt.mapSite c
  if v = 0 then c % 64 else v - 1

/-- Engine kind codes (Table 06-1). -/
def kVX : Nat := 0
def kDM : Nat := 1
def kAX : Nat := 2
def kRX : Nat := 3
def kUX : Nat := 4

/-- Key of an engine: kind and index as RDID reports it. -/
def engKey (kind index : Nat) : Nat := 2048 * kind + index

/-- Key of a queue context, and of a direct queue's QID: kind, index, queue context (R241). -/
def qcKey (kind index qctx : Nat) : Nat := kind * 131072 + index * 64 + qctx
def qKind (q : Nat) : Nat := q / 131072 % 8
def qIndex (q : Nat) : Nat := q / 64 % 2048
def qCtxNo (q : Nat) : Nat := q % 64

/-- Island of an engine (Table 01-5, Table 06-1). -/
def engIsland (s : State) (kind index : Nat) : Nat :=
  if kind ≤ 1 then 72 * (index / 64) + psite s index
  else if kind = 2 then 0xA00 + partSwCd (partCount s) index
  else 0xA70 + index

/-- Partition an engine belongs to (R16, R17). -/
def engPart (s : State) (kind index : Nat) : Nat :=
  if kind ≤ 1 then corePart (partCount s) index
  else if kind = 2 then index
  else wcPart (partCount s) index

/-- Islands of the Drone and of the Chanter in their roles (Table 14-1, R285). -/
def droneIsland (s : State) : Nat := if (mget {} s.fw.procs 2).activeRole then 0xA9F else 0xA99
def chanterIsland (s : State) : Nat := if (mget {} s.fw.procs 3).activeRole then 0xAA0 else 0xA9A

/-! ### Grade (Table 00-1) -/

/-- Ports of a grade, as FEAT_PORTS.PORTS. -/
def gradePorts (g : Nat) : Nat := match g with | 1 => 0xFFF | 2 => 0xF55 | 3 => 0x00F | _ => 0

/-- log₂ of the largest axis sizes T, S, P, D, as a licence's AXES field. -/
def gradeAxes (g : Nat) : Nat := match g with | 1 => 0x7433 | 2 => 0x3433 | 3 => 0x0003 | _ => 0

/-- log₂ of the largest partition count. -/
def gradePartMax (g : Nat) : Nat := match g with | 0 => 0 | 2 => 2 | _ => 3

/-- Host links of a grade: bit 0 link 0, bit 1 link 1; without a licence link 0 alone (R275). -/
def gradeHostLinks (g : Nat) : Nat := match g with | 0 => 1 | 2 => 1 | _ => 3

/-- FLAGS of a licence of the grade: bit 0 HOST_LINK1, bit 1 UX (Table 13-6). -/
def gradeFlags (g : Nat) : Nat := match g with | 1 => 3 | 2 => 2 | 3 => 1 | _ => 0

/-- FEAT_ENGINES.PRESENT of a grade: bit k for kind k; none without a licence (R1). -/
def gradeEngines (g : Nat) : Nat := match g with | 0 => 0 | 3 => 0x0F | _ => 0x1F

/-- Port `n` is enabled by the grade in force (R2). -/
def portEnabled (s : State) (n : Nat) : Bool :=
  decide (n < 12) && fld (gradePorts s.bt.grade) n 1 == 1

/-- An engine of the kind and index exists on this module in its present configuration. -/
def engExists (s : State) (kind index : Nat) : Bool :=
  decide (kind < 5) && fld (gradeEngines s.bt.grade) kind 1 == 1
  && decide (index < if kind ≤ 1 then 2048 else if kind = 2 then partCount s else 16)

/-- Axis of a port: 0 T, 1 S, 2 P, 3 D, its direction, and its partner (Table 10-1). -/
def portAxis (n : Nat) : Nat := if n < 4 then 0 else if n < 8 then 3 else if n < 10 then 1 else 2
def portPlus (n : Nat) : Bool := if n < 8 then n % 4 < 2 else n % 2 = 0
def portPartner (n : Nat) : Nat := if n < 8 then (if n % 4 < 2 then n + 2 else n - 2) else (if n % 2 = 0 then n + 1 else n - 1)

/-- Windchest that a port die attaches to (Table 01-2). -/
def portWc (n : Nat) : Nat := [7, 15, 0, 8, 1, 6, 9, 14, 2, 10, 5, 13].getD n 0

/-- MODULE_ID: the first 8 bytes of the identity key's hash (chapter 14). -/
def moduleId (s : State) : W64 := s.fl.idKeyHash.setWidth 64

end Sys2Proof.Machine
end

