-- ==== Sys2Proof/Machine/Ops.lean ====
section
/-! DEFINITION. The named operations that every part of the module shares: which parts a command may
change, memory at its homes with poison, local cycle counts, records and logs. -/

namespace Sys2Proof.Machine

/-! ### What a command may change -/

/-- Keeps the queue of waiting commands and what no command changes: the identity and the keys fused into the module, its
revoke fuses, and the defects known at manufacture. A fuse once blown stays blown (R266). A command changes everything else at most. -/
def keepQueue (s t : State) : State :=
  { t with pending := s.pending
           fl := { t.fl with idKey := s.fl.idKey, idPub := s.fl.idPub, idKeyHash := s.fl.idKeyHash, fwKeys := s.fl.fwKeys
                             licKeys := s.fl.licKeys, suffix := s.fl.suffix, ceiling := s.fl.ceiling, fwRevoked := s.fl.fwRevoked
                             licRevoked := s.fl.licRevoked, made := s.fl.made, svn := max s.fl.svn t.fl.svn } }

/-- The configuration registers of a function. -/
def keepFn (f g : Fn) : Fn := { g with grace := f.grace, poll := f.poll }

/-- Keeps besides the configuration registers, which host writes and a loss of power alone change (R235, R237). -/
def keepRegs (s t : State) : State :=
  { keepQueue s t with
    pw := { t.pw with thermCfg := s.pw.thermCfg, pwrCap := s.pw.pwrCap }
    hs := { t.hs with f0 := keepFn s.hs.f0 t.hs.f0, f1 := keepFn s.hs.f1 t.hs.f1 }
    mem := { t.mem with scrub := s.mem.scrub }
    rx := { t.rx with deadlineInit := s.rx.deadlineInit, deadlineMin := s.rx.deadlineMin, deadlineMax := s.rx.deadlineMax }
    fr := { t.fr with escCfg := s.fr.escCfg, waitDl := s.fr.waitDl, logSevMin := s.fr.logSevMin }
    ob := { t.ob with traceCtrl := s.ob.traceCtrl, syncPeriod := s.ob.syncPeriod, stopLimit := s.ob.stopLimit
                      dumpBase := s.ob.dumpBase, dumpSize := s.ob.dumpSize } }

/-- Power, clock and temperature events: pins and loops, bring-up state, firmware, logs. -/
def onlyPower (s t : State) : State :=
  keepRegs s { s with pw := t.pw, fl := t.fl, bt := t.bt, hs := t.hs, en := t.en, fr := t.fr, fw := t.fw, out := t.out, free := t.free }

/-- Management events: everything but memory, engines' work, the array, collectives and ports. -/
def onlyMgmt (s t : State) : State :=
  keepRegs s { s with pw := t.pw, fl := t.fl, bt := t.bt, hs := t.hs, en := { s.en with cyc := t.en.cyc, iseq := t.en.iseq }
                      fe := t.fe, fr := t.fr, fw := t.fw, ob := t.ob, et := t.et, out := t.out, free := t.free }

/-- Sideband replies: the management state that a message reads or sets. -/
def onlySideband (s t : State) : State :=
  keepRegs s { s with fl := t.fl, fw := t.fw, bt := t.bt, fr := t.fr, en := { s.en with cyc := t.en.cyc, iseq := t.en.iseq }
                      out := t.out, free := t.free }

/-- Instructions that touch registers alone: queue contexts, engines, the queue of their command, trace. -/
def onlyRun (s t : State) : State := keepRegs s { s with en := t.en, fe := t.fe, ob := t.ob, free := t.free }

/-- Work of engines and of the front end: everything but power, flash, bring-up, ports and firmware. -/
def onlyWork (s t : State) : State := keepRegs s { t with pw := s.pw, fl := s.fl, bt := s.bt, et := s.et, fw := s.fw }

/-- Work of the reduction engines: as the work of engines, with what waits at the ports. -/
def onlyFabric (s t : State) : State := keepRegs s { t with pw := s.pw, fl := s.fl, bt := s.bt, fw := s.fw }

/-- Ports: link state, what waits in the receive buffers, logs and output. -/
def onlyPort (s t : State) : State :=
  keepRegs s { s with et := t.et, fl := { s.fl with seeds := t.fl.seeds, svn := t.fl.svn }, bt := t.bt, fr := t.fr
                      en := { s.en with cyc := t.en.cyc, iseq := t.en.iseq }, ob := t.ob, out := t.out, free := t.free }

/-- Memory health: memory contents and counters, repair records in flash, logs. -/
def onlyMemory (s t : State) : State :=
  keepRegs s { s with mem := t.mem, fl := { s.fl with rowsToRepair := t.fl.rowsToRepair }, fr := t.fr
                      en := { s.en with cyc := t.en.cyc, iseq := t.en.iseq }, ob := t.ob, out := t.out, free := t.free }

/-- Observation: trace, samples, the stop wave, loop-backs; what is written to memory may release waits. -/
def onlyObserve (s t : State) : State :=
  keepRegs s { s with ob := t.ob, hs := t.hs, mem := t.mem, en := t.en, fe := { s.fe with waiters := t.fe.waiters }, rx := t.rx, free := t.free }

/-! ### Output and free values -/

def emit (o : Output) (s : State) : State := { s with out := s.out ++ [o] }

/-- Takes the next free value number. -/
def nextFree (s : State) : State := { s with free := s.free + 1 }

/-! ### Local cycle counts and sequence numbers (R13, R335) -/

def getEng (s : State) (k : Nat) : Eng := mget {} s.en.engs k
def setEng (k : Nat) (e : Eng) (s : State) : State := { s with en := { s.en with engs := mset {} s.en.engs k e } }

/-- Stall reasons that an engine kind has besides THERMAL (Table 16-1). -/
def stallCodes (kind : Nat) : List Nat :=
  (if kind = 2 then [2, 3, 4, 5] else []) ++ [6, 7, 8, 9, 10] ++ (if kind = 3 then [11] else []) ++ [12]

/-- The hardware trip has stopped the clocks of an engine's compute islands (R296). -/
def engTripped (s : State) (kind index : Nat) : Bool :=
  if kind ≤ 1 then mget false s.pw.wcTrip (cdWc (index / 64))
  else kind == 2 && (partWcs (partCount s) index).any (fun w => mget false s.pw.wcTrip w)

/-- An engine is not idle: a queue context runs, or the array carries accepted commands (R332). -/
def engBusy (s : State) (k : Nat) (e : Eng) : Bool := e.running.isSome || (k / 2048 == 2 && !(mget {} s.ax (k % 2048)).cmds.isEmpty)

/-- Charges `d` cycles of its island to the engine of key `k`: idle, or else busy and stalled in a split that no rule gives,
under one of its kind's reasons (R332, R333). -/
def chargeEng (s : State) (d k : Nat) (e : Eng) : Eng :=
  if !engBusy s k e then { e with idle := e.idle + d, idleOpen := e.idleOpen + d }
  else
    let hot := engTripped s (k / 2048) (k % 2048)
    let b := if hot then 0 else min d (Config.cycleSplit (s.free + k))
    let codes := stallCodes (k / 2048)
    let r := if hot then 1 else codes.getD (Config.cycleSplit (s.free + k + 1) % codes.length) 6
    { e with busy := e.busy + b, stall := e.stall + (d - b), stallBy := mset 0 e.stallBy r (mget 0 e.stallBy r + (d - b)) }

/-- Engines whose island is that of engine `kind`, `index` (Table 06-1). -/
def islandMates (kind index : Nat) : List Nat :=
  if kind ≤ 1 then [engKey 0 index, engKey 1 index]
  else if kind = 2 then [engKey 2 index]
  else [engKey 3 index, engKey 4 index]

/-- The island's clock is frozen by a stop wave (R343). -/
def frozenIsl (s : State) (isl : Nat) : Bool := mget false s.ob.frozen isl

/-- The local cycle count of an island moves on by the cycles since its last stamped event; a frozen clock stands. -/
def tickIsland (isl : Nat) (s : State) : State :=
  let d := if frozenIsl s isl then 0 else Config.cyclesPassed s.free
  { s with en := { s.en with cyc := mset 0 s.en.cyc isl (mget 0 s.en.cyc isl + d) }, free := s.free + 1 }

/-- As tickIsland, for the island of an engine: its engines account for the same cycles. -/
def tickEng (kind index : Nat) (s : State) : State :=
  let d := if frozenIsl s (engIsland s kind index) then 0 else Config.cyclesPassed s.free
  let s1 := tickIsland (engIsland s kind index) s
  (islandMates kind index).foldl (fun t k => setEng k (chargeEng t d k (getEng t k)) t) s1

/-- The first engine of an island, by kind and index: a core in use, a partition's array engine, a windchest's. -/
def islandEng (s : State) (isl : Nat) : Option (Nat × Nat) :=
  if isl < 0x900 then ((upto 64).find? (fun k => psite s (64 * (isl / 72) + k) == isl % 72)).map (fun k => (kVX, 64 * (isl / 72) + k))
  else if isl < 0xA00 then none
  else if isl < 0xA20 then ((upto (partCount s)).find? (fun p => 0xA00 + partSwCd (partCount s) p == isl)).map (fun p => (kAX, p))
  else if 0xA70 ≤ isl ∧ isl < 0xA80 then some (kRX, isl - 0xA70)
  else none

/-- The cycle count of an island moves on, and its engines account for the cycles (R335). -/
def tick (isl : Nat) (s : State) : State :=
  match islandEng s isl with
  | some (k, i) => tickEng k i s
  | none => tickIsland isl s

/-- Cycle count and sequence number of an island for a record, and the state after taking them. -/
def cycOf (s : State) (isl : Nat) : Nat := mget 0 s.en.cyc isl
def iseqOf (s : State) (isl : Nat) : Nat := mget 0 s.en.iseq isl
def bumpIseq (isl : Nat) (s : State) : State :=
  { s with en := { s.en with iseq := mset 0 s.en.iseq isl ((mget 0 s.en.iseq isl + 1) % 2 ^ 32) } }

/-! ### The Drone and the log ring (R236, R283, R290) -/

def getProc (s : State) (i : Nat) : Proc := mget {} s.fw.procs i
def setProc (i : Nat) (p : Proc) (s : State) : State := { s with fw := { s.fw with procs := mset {} s.fw.procs i p } }

/-- The processor that holds the Drone's role, and the Chanter's. -/
def droneProc (s : State) : Nat := if (getProc s 2).activeRole then 2 else 0
def chanterProc (s : State) : Nat := if (getProc s 3).activeRole then 3 else 1

/-- The accepted firmware image runs: the ROM stage has ended and did not end in RECOVERY (R236, R265). -/
def fwUp (s : State) : Bool :=
  s.pw.powered && !s.pw.goingDown && decide (2 ≤ s.bt.stage) && s.bt.stage != 10 && !(s.bt.stage == 9 && decide (s.bt.failStage < 2))

/-- The FABRIC stage has ended, whether bring-up went on or failed later (R298). A licence that is not
VALID fails bring-up in the name of LICENCE after MEMORY (R275). -/
def fabricEnded (s : State) : Bool :=
  (decide (4 ≤ s.bt.stage) && decide (s.bt.stage ≤ 8))
  || (s.bt.stage == 9 && (decide (4 ≤ s.bt.failStage) || (s.bt.failStage == 2 && s.bt.failReason == 2)))

/-- The processor has been loaded: the Drone by the boot ROM, the others in FABRIC (R263, R264). -/
def procLoaded (s : State) (i : Nat) : Bool := fwUp s && decide (i < 66) && (i == 0 || fabricEnded s)

/-- A processor does its work: it is loaded, and not restarting, in standby or failed (R264, R283, R285). -/
def procUp (s : State) (i : Nat) : Bool := procLoaded s i && (getProc s i).state == 0

/-- The Drone serves the emulated registers (ID_STATUS.BUSY = 0). -/
def droneUp (s : State) : Bool := procUp s (droneProc s)
def chanterUp (s : State) : Bool := procUp s (chanterProc s)

/-- The sideband endpoint answers on a bus it still drives (R298, R365). -/
def sidebandUp (s : State) : Bool := droneUp s && fabricEnded s && !(s.pw.i3cDead && s.pw.smbDead)

/-- Appends a record to the log ring unless its severity is below LOG_SEVMIN (Table 14-5). -/
def appendLog (r : LogRec) (s : State) : State :=
  if r.sev < s.fr.logSevMin then s
  else { s with fr := { s.fr with logs := mset {} s.fr.logs (s.fr.logCount % 16384) r, logCount := s.fr.logCount + 1 } }

/-- Makes a log record at an island: appended by the Drone, or kept by its processor, at most 64, while
the Drone is down, and dropped and counted beyond that (R290). -/
def addLog (isl sev event : Nat) (arg0 arg1 : Nat) (s : State) : State :=
  let s1 := tick isl s
  let r : LogRec := { cycle := cycOf s1 isl, iseq := iseqOf s1 isl, island := isl, sev, event,
                      arg0 := BitVec.ofNat 64 arg0, arg1 := BitVec.ofNat 64 arg1 }
  let s2 := bumpIseq isl s1
  if droneUp s then appendLog r s2
  else
    let held := mget [] s2.fr.logHeld isl
    if held.length < 64 then { s2 with fr := { s2.fr with logHeld := mset [] s2.fr.logHeld isl (held ++ [r]) } }
    else { s2 with fr := { s2.fr with logDropped := satAdd max32 s2.fr.logDropped 1 } }

/-- A log record that the Drone itself makes. -/
def droneLog (sev event arg0 arg1 : Nat) (s : State) : State := addLog (droneIsland s) sev event arg0 arg1 s

/-- The Drone sends a notice on a sideband bus that the module still drives (R365). One that falls due while the Drone is
down is sent when it returns: DESIGN CHOICE, as R290 keeps log records. -/
def notice (o : Output) (s : State) : State :=
  if !droneUp s then { s with fr := { s.fr with noticeHeld := s.fr.noticeHeld ++ [o] } }
  else if s.pw.i3cDead && s.pw.smbDead then s
  else emit o s

/-- Tells the tray controller of a fault (R294, R304, R306). -/
def faultNotice (ctx : Option Nat) (island status level : Nat) (s : State) : State := notice (.faultNotice ctx island status level) s

/-- A PlatformEventMessage to the event receiver that SETEVENTRECEIVER named: a state sensor has a new value. PRESUMED:
Table 14-10 names the message alone, and PLDM sends it on a sensor's change. -/
def sensorEvent (sensor value : Nat) (s : State) : State :=
  if sidebandUp s && s.fw.eventReceiver != 0 then
    emit (.pldm 20 [BitVec.ofNat 64 s.fw.eventReceiver, BitVec.ofNat 64 sensor, BitVec.ofNat 64 value]) s
  else s

/-- The notices kept while the Drone was down. -/
def flushNotices (s : State) : State :=
  s.fr.noticeHeld.foldl (fun t o => notice o t) { s with fr := { s.fr with noticeHeld := [] } }

/-! ### Fault records (R303, R304) -/

/-- Error classes (Table 15-1) and status codes (Table 12-16). -/
def cIllegal : Nat := 1
def cDescriptor : Nat := 2
def cAbsent : Nat := 3
def cTranslation : Nat := 4
def cPoison : Nat := 5
def cWaitDl : Nat := 6
def cHang : Nat := 7
def cEngine : Nat := 8
def cArray : Nat := 9
def cFabric : Nat := 10
def cPeerDown : Nat := 11
def cMgmt : Nat := 12
def stDone : Nat := 0
def stAbsent : Nat := 0x10
def stIllegal : Nat := 0x11
def stDescriptor : Nat := 0x12
def stXlat : Nat := 0x20
def stPoison : Nat := 0x21
def stCtxReset : Nat := 0x30
def stEngReset : Nat := 0x31
def stPartReset : Nat := 0x32
def stPeerDown : Nat := 0x33
def stWaitDl : Nat := 0x40
def stSinkLost : Nat := 0x50

/-- Appends a fault record: the fault ring and FAULT_COUNT, CTX_FAULT_c for the first record that names
the context since it last entered ACTIVE unless a control command failed, and the notice to the tray for
the classes R304 names. -/
def addFault (r0 : FaultRec) (forCtl : Bool) (s : State) : State :=
  let s1 := tick r0.island s
  let r := { r0 with cycle := cycOf s1 r0.island, iseq := iseqOf s1 r0.island }
  let s2 := bumpIseq r0.island s1
  let first := r.ctxv && !forCtl && !mget false s2.fr.ctxFaultHeld r.ctx
  let fr := { s2.fr with
    faults := mset {} s2.fr.faults (s2.fr.faultCount % 4096) r
    faultCount := s2.fr.faultCount + 1
    ctxFault := if first then mset {} s2.fr.ctxFault r.ctx r else s2.fr.ctxFault
    ctxFaultHeld := if first then mset false s2.fr.ctxFaultHeld r.ctx true else s2.fr.ctxFaultHeld }
  let s3 := { s2 with fr := fr }
  if r.cls = cEngine ∨ r.cls = cArray ∨ r.cls = cFabric ∨ r.cls = cMgmt then
    faultNotice (if r.ctxv then some r.ctx else none) r.island r.status r.level s3
  else s3

/-! ### Device memory at its homes (chapter 5) -/

def coreBase : Nat := 0x0B0000000000
def chestBase : Nat := 0x0A0000000000

/-- Home address of a device physical address: the local view of HBM, chest memory or core memory;
none where nothing is backed (Table 05-5, R89). -/
def homeOf (cnt pa : Nat) : Option Nat :=
  if pa < 0x010000000000 then (if pa % 2 ^ 36 < 0xBA0000000 then some pa else none)
  else if pa < 0x090000000000 then
    let p := pa / 2 ^ 40 - 1
    let o := pa % 2 ^ 40
    let st := partWcs cnt p
    if p < cnt ∧ o < 0xBA0000000 * st.length then
      some (st.getD (o / 4096 % st.length) 0 * 2 ^ 36 + o / 4096 / st.length * 4096 + o % 4096)
    else none
  else if chestBase ≤ pa ∧ pa < chestBase + 16 * 2 ^ 30 then (if pa % 2 ^ 30 < 0x28000000 then some pa else none)
  else if coreBase ≤ pa ∧ pa < coreBase + 2048 * 2 ^ 22 then (if pa % 2 ^ 22 < 2 ^ 21 then some pa else none)
  else none

/-- The address lies in a core memory window. -/
def isCoreAddr (a : Nat) : Bool := decide (coreBase ≤ a) && decide (a < coreBase + 2048 * 2 ^ 22)

/-- The address names core memory: the backed half of a core memory window (Table 05-5). -/
def isCoreMem (a : Nat) : Bool := isCoreAddr a && decide (a % 2 ^ 22 < 2 ^ 21)

/-- Logical core that owns a core memory address. -/
def coreOfAddr (a : Nat) : Nat := (a - coreBase) / 2 ^ 22

/-- Windchest, and memory kind 0 HBM, 1 chest, 2 core, of a home address (R93). -/
def homeWc (a : Nat) : Nat × Nat :=
  if a < 2 ^ 40 then (a / 2 ^ 36, 0)
  else if isCoreAddr a then (cdWc (coreOfAddr a / 64), 2)
  else ((a - chestBase) / 2 ^ 30, 1)

/-- Whether a line reads as poison before anything marked or wrote it (R87, R348). -/
def poisonDefault (m : Mem) (line : Nat) : Bool :=
  if isCoreAddr (64 * line) then true
  else if chestBase ≤ 64 * line then mget false m.chestPoison ((64 * line - chestBase) / 2 ^ 30) else false

/-- A line is poisoned (R99). -/
def poisoned (m : Mem) (line : Nat) : Bool := mget false m.marks line != poisonDefault m line

def setPoison (line : Nat) (v : Bool) (m : Mem) : Mem :=
  { m with marks := mset false m.marks line (v != poisonDefault m line) }

/-- Every line of a core memory reads as poison until written (R87). -/
def poisonCore (c : Nat) (m : Mem) : Mem :=
  { m with marks := mdrop (fun l => isCoreAddr (64 * l) && coreOfAddr (64 * l) == c) m.marks
           latent := mdrop (fun u => isCoreAddr (8 * u) && coreOfAddr (8 * u) == c) m.latent }

/-- Every line of a chest memory reads as poison until written (R348). -/
def poisonChest (w : Nat) (m : Mem) : Mem :=
  { m with chestPoison := mset false m.chestPoison w true
           marks := mdrop (fun l => decide (chestBase + w * 2 ^ 30 ≤ 64 * l) && decide (64 * l < chestBase + (w + 1) * 2 ^ 30)) m.marks
           latent := mdrop (fun u => decide (chestBase + w * 2 ^ 30 ≤ 8 * u) && decide (8 * u < chestBase + (w + 1) * 2 ^ 30)) m.latent }

def memByte (m : Mem) (a : Nat) : Byte := mget 0 m.cells a

/-- `n` bytes from home address `a`. -/
def memBytes (m : Mem) (a : Nat) : Nat → List Byte
  | 0 => []
  | n + 1 => memByte m a :: memBytes m (a + 1) n

/-- Little-endian value of `n` bytes. -/
def memNat (m : Mem) (a n : Nat) : Nat := leNat (memBytes m a n)

/-- Writes bytes into a byte map, at rising addresses. -/
def putBytes : Nat → List Byte → NMap Byte → NMap Byte
  | _, [], c => c
  | a, b :: bs, c => putBytes (a + 1) bs (mset 0 c a b)

/-! ### Memory errors (R81, R85, R368) -/

/-- Bytes of the code word at a home address: a burst of HBM, a 64-bit word of chest and core memory. -/
def eccLen (a : Nat) : Nat := if a < 2 ^ 40 then 32 else 8

/-- The code word at a home address, numbered by its first byte ÷ 8. -/
def eccUnit (a : Nat) : Nat := a / eccLen a * (eccLen a / 8)

/-- A write of a code word: what becomes of its bits is open. A write of a part leaves an error that cannot be corrected. -/
def strike (whole : Bool) (u : Nat) (m : Mem) : Mem :=
  if !whole && mget 0 m.latent u == 2 then m
  else { m with latent := mset 0 m.latent u (Config.memError m.strikes % 3), strikes := m.strikes + 1 }

/-- The code words that a write of `n` bytes at `a` touches. -/
def strikeAll (a n : Nat) (m : Mem) : Mem :=
  let w := eccLen a
  (upto ((a % w + n + w - 1) / w)).foldl (fun t i =>
    let b := a / w * w + w * i
    strike (decide (a ≤ b) && decide (b + w ≤ a + n)) (b / 8) t) m

/-- A read meets an error of a code word: a corrected one is written back corrected and counted; one that is not corrected is
counted, for a stack named in HBM_LAST_UE_n, and poisons its line (Table 05-3). -/
def metError (u v : Nat) (m : Mem) : Mem :=
  let (w, kind) := homeWc (8 * u)
  let up := fun (c : NMap Nat) => mset 0 c w (satAdd max32 (mget 0 c w) 1)
  let t := { m with latent := mset 0 m.latent u 0 }
  if v = 1 then
    if kind = 0 then { t with hbmCe := up t.hbmCe } else if kind = 1 then { t with chestCe := up t.chestCe } else { t with coreCe := up t.coreCe }
  else setPoison (u / 8) true (
    if kind = 0 then { t with hbmUe := up t.hbmUe, lastUe := mset 0 t.lastUe w (64 * (u / 8)) }
    else if kind = 1 then { t with chestUe := up t.chestUe } else { t with coreUe := up t.coreUe })

/-- A read of a line meets the errors of its code words. -/
def readLine (line : Nat) (m : Mem) : Mem :=
  (m.latent.filter (fun e => e.1 / 8 == line)).foldl (fun t e => metError e.1 e.2 t) m

/-- A read of `n` bytes at a home address. -/
def readLines (a n : Nat) (m : Mem) : Mem := (upto ((a % 64 + n + 63) / 64)).foldl (fun t i => readLine (a / 64 + i) t) m

/-- Lines that a write of `n` bytes at `a` covers whole. -/
def fullLines (a n : Nat) : List Nat :=
  (upto (n / 64 + 2)).map (fun i => a / 64 + i) |>.filter (fun l => decide (a ≤ 64 * l) && decide (64 * l + 64 ≤ a + n))

/-- Drops the marks of modified lines that a write of `n` bytes at `a` touches: another writer has taken them. -/
def dropDirty (a n : Nat) (m : Mem) : Mem :=
  { m with dirty := mdrop (fun l => decide (a / 64 ≤ l) && decide (64 * l < a + n)) m.dirty }

/-- A store of bytes at a home address. It clears the poison of each line it covers whole and leaves
that of others (R100). -/
def memStore (a : Nat) (bs : List Byte) (m : Mem) : Mem :=
  (fullLines a bs.length).foldl (fun t l => setPoison l false t)
    (strikeAll a bs.length { dropDirty a bs.length m with cells := putBytes a bs m.cells })

/-- One byte of the writes of a tensor command, with what its line and its code word take from them all: the write that
begins a line wholly written clears its poison (R100). -/
def memStoreOne (ws : NMap Nat) (w : Nat × Nat) (m : Mem) : Mem :=
  let all := fun (a n : Nat) => (upto n).all (fun i => mget 0 ws (a + i) != 0)
  let t := { dropDirty w.1 1 m with cells := mset 0 m.cells w.1 (BitVec.ofNat 8 (w.2 - 1)) }
  let t1 := if w.1 % eccLen w.1 == 0 || mget 0 ws (w.1 - 1) == 0 then strike (all (8 * eccUnit w.1) (eccLen w.1)) (eccUnit w.1) t else t
  if w.1 % 64 == 0 && all w.1 64 then setPoison (w.1 / 64) false t1 else t1

/-- The writes of one tensor command: bytes, each plus 1, by home address. -/
def memStoreAll (ws : NMap Nat) (m : Mem) : Mem := ws.foldl (fun t w => memStoreOne ws w t) m

/-! ### Locations: device memory or host memory -/

/-- Locations from here upward are host addresses. -/
def hostBit : Nat := 2 ^ 60

def isHost (l : Nat) : Bool := decide (hostBit ≤ l)

def locByte (s : State) (l : Nat) : Byte :=
  if isHost l then mget 0 s.hs.hostMem (l - hostBit) else memByte s.mem l

def locBytes (s : State) (l : Nat) : Nat → List Byte
  | 0 => []
  | n + 1 => locByte s l :: locBytes s (l + 1) n

def locNat (s : State) (l n : Nat) : Nat := leNat (locBytes s l n)

/-- A logical core is in quarantine: before its first stamp, and after resets until it is stamped (R323). -/
def inQuar (s : State) (c : Nat) : Bool := !s.bt.computeDone || mget false s.fr.quar c

/-- The location lies in the core memory of a site in quarantine or in reset (R315, R323). -/
def coreClosed (s : State) (l : Nat) : Bool := !isHost l && isCoreAddr l && inQuar s (coreOfAddr l)

/-- A write or atomic absorbed at the edge of a reset domain: not performed, and counted (Table 15-7). -/
def absorbReq (n : Nat) (s : State) : State := { s with fr := { s.fr with absReq := satAdd max48 s.fr.absReq n } }
def absorbTally (s : State) : State := { s with fr := { s.fr with absTally := satAdd max48 s.fr.absTally 1 } }

def locStore (l : Nat) (bs : List Byte) (s : State) : State :=
  if isHost l then
    { s with hs := { s.hs with hostMem := putBytes (l - hostBit) bs s.hs.hostMem
                               hostPoison := (fullLines (l - hostBit) bs.length).foldl (fun p x => mset false p x false) s.hs.hostPoison } }
  else if coreClosed s l then absorbReq 1 s
  else { s with mem := memStore l bs s.mem }

/-- The engine of key `k` may hold the line at a location modified in its scalar cache. -/
def markDirty (k l : Nat) (s : State) : State :=
  if isHost l then s else { s with mem := { s.mem with dirty := mset 0 s.mem.dirty (l / 64) (k + 1) } }

/-- Before engines reset, each line that their scalar caches hold modified is written back, or poisoned and
counted in EDGE_POISONED (R316). No rule says which lines an island still answers for. -/
def edgeWriteback (sel : Nat → Bool) (s : State) : State :=
  (s.mem.dirty.filter (fun e => sel (e.2 - 1))).foldl (fun t e =>
    let t1 := { t with mem := { t.mem with dirty := mset 0 t.mem.dirty e.1 0 }, free := t.free + 1 }
    if Config.writtenBack t.free then t1
    else { t1 with mem := setPoison e.1 true t1.mem, fr := { t1.fr with edgePoisoned := satAdd max32 t1.fr.edgePoisoned 1 } }) s

/-- The line at a location is poisoned; a line that the module wrote to host memory as poison stays so until it is written
whole (R99, R100). -/
def locPoison (s : State) (l : Nat) : Bool :=
  if isHost l then mget false s.hs.hostPoison ((l - hostBit) / 64) else poisoned s.mem (l / 64)

/-- Physical address of the line at a location, for a fault record. -/
def lineAddr (l : Nat) : Nat := l % hostBit / 64 * 64

/-- The location's line takes poison. -/
def poisonLoc (l : Nat) (s : State) : State :=
  if isHost l then { s with hs := { s.hs with hostPoison := mset false s.hs.hostPoison ((l - hostBit) / 64) true } }
  else { s with mem := setPoison (l / 64) true s.mem }

/-- A read at a location meets the errors of its line; a core memory in quarantine is not read (R315). -/
def readLoc (l : Nat) (s : State) : State :=
  if isHost l || coreClosed s l then s else { s with mem := readLine (l / 64) s.mem }

/-- A host address lies in one of these ranges (first, past the last). -/
def inRanges (rs : List (Nat × Nat)) (a : Nat) : Bool := rs.any (fun r => decide (r.1 ≤ a) && decide (a < r.2))

end Sys2Proof.Machine
end

