-- ==== Sys2Proof/Machine/Xlat.lean ====
section
/-! DEFINITION. Translation of device virtual addresses (R90, R92, R369, Table 05-8). -/

namespace Sys2Proof.Machine

/-- Outcome of a translation: a location, a fault with its reason, level and ARG2, or poison read by the
walk at a device address. -/
inductive XOut where
  | ok (loc : Nat)
  | bad (reason level arg2 : Nat)
  | poisonAt (pa : Nat)
deriving DecidableEq, Repr

/-- Outcome of a walk: the leaf entry and its level, or why there is none. -/
inductive Walk where
  | leaf (pte level : Nat)
  | bad (reason level arg2 : Nat)
  | poisonAt (pa : Nat)
deriving DecidableEq, Repr

/-- Who makes an access, for R86: an engine of a logical core, a data-mover command, or anyone else; among those a
collective whose context is gone, under the context entry and the partition count it had (R208). -/
inductive Who where
  | core (c : Nat)
  | dmCommand
  | other
  | kept (entry parts : Nat)
deriving DecidableEq, Repr

/-- Kinds of access (Table 15-3): 0 read, 1 write, 2 fetch, 3 atomic or tally. An atomic that is no tally operation has a
number of its own here, since it needs W alone (Table 05-7); a record keeps the two low bits. -/
def accRead : Nat := 0
def accWrite : Nat := 1
def accFetch : Nat := 2
def accTally : Nat := 3
def accAtomic : Nat := 7

/-- A page-table entry of level `lvl` breaks a rule of Table 05-7. -/
def pteMalformed (pte lvl : Nat) : Bool :=
  let leaf := fld pte 1 1 == 1
  let host := fld pte 5 1 == 1
  fld pte 6 6 != 0 || fld pte 57 7 != 0
  || (decide (2 ≤ lvl) && leaf) || (lvl == 0 && !leaf)
  || (!(leaf && host) && fld pte 48 9 != 0)
  || (leaf && lvl == 0 && fld pte 12 9 != 0) || (leaf && lvl == 1 && fld pte 12 18 != 0)

/-- One level of the walk per recursion, from level `lvl` with the table at `tbl` (R369 step 3). -/
def walk (m : Mem) (cnt va : Nat) : Nat → Nat → Walk
  | lvl, tbl =>
    if isCoreMem tbl then .bad 8 lvl tbl
    else match homeOf cnt tbl with
      | none => .bad 5 lvl tbl
      | some h =>
        let ea := h + 8 * fld va (21 + 9 * lvl) 9
        if poisoned m (ea / 64) then .poisonAt (ea / 64 * 64)
        else
          let pte := memNat m ea 8
          if fld pte 0 1 = 0 then .bad 1 lvl tbl
          else if pteMalformed pte lvl then .bad 3 lvl tbl
          else if fld pte 1 1 = 1 then .leaf pte lvl
          else match lvl with
            | 0 => .bad 3 0 tbl
            | k + 1 => walk m cnt va k (fld pte 12 36 * 4096)
termination_by structural lvl => lvl

/-- Addresses of the table entries that a walk reads. -/
def walkReads (m : Mem) (cnt va : Nat) : Nat → Nat → List Nat
  | lvl, tbl =>
    match homeOf cnt tbl with
    | none => []
    | some h =>
      let ea := h + 8 * fld va (21 + 9 * lvl) 9
      let pte := memNat m ea 8
      ea :: if poisoned m (ea / 64) || isCoreMem tbl || pteMalformed pte lvl || fld pte 0 2 != 1 then []
        else match lvl with
          | 0 => []
          | k + 1 => walkReads m cnt va k (fld pte 12 36 * 4096)
termination_by structural lvl => lvl

/-- Device physical address of a context's translation entry (Table 05-6, XLAT_CTX_BASE). -/
def ctxEntryPa (s : State) (ctx : Nat) : Nat := bfld s.fe.xlatBase 12 36 * 4096 + 16 * ctx

/-- The context entry, both words as one number; an entry outside backed memory reads as 0. -/
def ctxEntry (s : State) (ctx : Nat) : Nat :=
  match homeOf (partCount s) (ctxEntryPa s ctx) with
  | some h => memNat s.mem h 16
  | none => 0

/-- Context entry and partition count of an access. -/
def xlatEntry (s : State) (ctx : Nat) : Who → Nat
  | .kept e _ => e
  | _ => ctxEntry s ctx

def xlatParts (s : State) : Who → Nat
  | .kept _ n => n
  | _ => partCount s

/-- The walk under a context entry, once that has been read. -/
def walkEntry (s : State) (parts e pa va : Nat) : Walk :=
  if fld e 0 1 = 0 then .bad 9 3 pa
  else if fld e 2 10 ≠ 0 ∨ fld e 48 16 ≠ 0 ∨ fld e 84 44 ≠ 0 then .bad 3 3 pa
  else walk s.mem parts va 3 (fld e 12 36 * 4096)

/-- Steps 2 and 3 of R369: the context entry and the walk. -/
def walkCtx (s : State) (ctx va : Nat) : Walk :=
  let pa := ctxEntryPa s ctx
  match homeOf (partCount s) pa with
  | none => .bad 9 3 pa
  | some h =>
    if poisoned s.mem (h / 64) then .poisonAt (h / 64 * 64)
    else walkEntry s (partCount s) (memNat s.mem h 16) pa va

/-- Key of a cached translation: context and 2 MiB page. -/
def xKey (ctx va : Nat) : Nat := ctx * 2 ^ 36 + va / 2 ^ 21 % 2 ^ 36

/-- A walk of a translation that is not cached meets the errors of the lines it reads (R81, R85). -/
def meetWalk (s : State) (ctx va : Nat) : State :=
  if (mget {} s.mem.xcache (xKey ctx va)).pte ≠ 0 then s
  else match homeOf (partCount s) (ctxEntryPa s ctx) with
  | none => s
  | some h =>
    { s with mem := (h :: walkReads s.mem (partCount s) va 3 (fld (memNat s.mem h 16) 12 36 * 4096)).foldl (fun m a => readLine (a / 64) m) s.mem }

/-- The translation an access uses: the tables' when no older entry is cached, else the old or the new
one (R92), and the state with the cache filled. -/
def lookup (s : State) (ctx va : Nat) : Walk × State :=
  let fresh := walkCtx s ctx va
  let old := mget {} s.mem.xcache (xKey ctx va)
  let oldW : Walk := .leaf old.pte.toNat old.level
  if old.pte ≠ 0 ∧ oldW ≠ fresh then
    let s1 := nextFree s
    if Config.useStale s.free then (oldW, s1) else (fresh, s1)
  else (fresh, s)

/-- Remembers the entry used (R92: invalid entries are never cached). -/
def fillCache (ctx va : Nat) (w : Walk) (s : State) : State :=
  match w with
  | .leaf pte lvl => { s with mem := { s.mem with xcache := mset {} s.mem.xcache (xKey ctx va) ⟨BitVec.ofNat 64 pte, lvl⟩ } }
  | _ => s

/-- The leaf allows the access (R369 step 4). -/
def leafAllows (pte acc : Nat) : Bool :=
  let r := fld pte 2 1 == 1
  let w := fld pte 3 1 == 1
  if acc = accRead then r else if acc = accWrite then w else if acc = accFetch then fld pte 4 1 == 1
  else if acc = accAtomic then w else r && w

/-- R86: the access may reach this core memory. -/
def mayReachCore (who : Who) (a : Nat) : Bool :=
  match who with
  | .core c => coreOfAddr a == c
  | .dmCommand => true
  | .other => false
  | .kept _ _ => false

/-- Step 5 of R369: the page. -/
def pageOut (s : State) (ctx : Nat) (who : Who) (pte lvl va : Nat) : XOut :=
  let size := if lvl = 0 then 2 ^ 21 else 2 ^ 30
  let base := fld pte 12 45 * 4096
  let pa := base + va % size
  if fld pte 5 1 = 1 then
    if fld (xlatEntry s ctx who) 1 1 = 0 ∨ inRanges s.hs.atsRefuses pa then .bad 6 lvl 0
    else if inRanges s.hs.aborts pa then .bad 7 lvl 0
    else .ok (hostBit + pa)
  else if isCoreMem pa && !mayReachCore who pa then .bad 8 lvl pa
  else match homeOf (xlatParts s who) pa with
    | some h => .ok h
    | none => .bad 5 lvl pa

/-- The state after an access has been translated: a read meets the errors of the line at its location. -/
def reached (acc : Nat) (o : XOut) (s : State) : State :=
  match o with
  | .ok loc => if acc = accWrite then s else readLoc loc s
  | _ => s

/-- The walk of an access and the state behind it: through the cache, or, for a collective whose context is gone, afresh. -/
def walkFor (s : State) (ctx va : Nat) (who : Who) : Walk × State :=
  match who with
  | .kept e n =>
    (walkEntry s n e (ctxEntryPa s ctx) va,
      { s with mem := (walkReads s.mem n va 3 (fld e 12 36 * 4096)).foldl (fun m a => readLine (a / 64) m) s.mem })
  | _ =>
    let (w, s1) := lookup (meetWalk s ctx va) ctx va
    (w, fillCache ctx va w s1)

/-- A translation, its checks in the order of R369. -/
def translate (s : State) (ctx va acc : Nat) (who : Who) : XOut × State :=
  if fld va 57 7 ≠ 0 then (.bad 4 3 0, s)
  else
    let (w, s2) := walkFor s ctx va who
    match w with
    | .bad r l a => (.bad r l a, s2)
    | .poisonAt p => (.poisonAt p, s2)
    | .leaf pte lvl =>
      if !leafAllows pte acc then (.bad 2 lvl (fld pte 12 45 * 4096), s2)
      else (pageOut s2 ctx who pte lvl va, reached acc (pageOut s2 ctx who pte lvl va) s2)

/-- The pieces of `n` bytes from `va` that lie in one 64-byte line each. -/
def lineChunks (va n : Nat) : List (Nat × Nat) :=
  (upto ((va % 64 + n + 63) / 64)).map (fun i =>
    let lo := max va (va / 64 * 64 + 64 * i)
    (lo, min (va + n) (va / 64 * 64 + 64 * i + 64) - lo))

/-- Drops a context's cached translations (R92, R308). -/
def dropXlat (ctx : Nat) (s : State) : State :=
  { s with mem := { s.mem with xcache := mdrop (fun k => k / 2 ^ 36 == ctx) s.mem.xcache } }

/-- Drops a context's cached translations of the pages from `va` on, `bytes` long (Table 12-15). -/
def dropXlatRange (ctx va bytes : Nat) (s : State) : State :=
  { s with mem := { s.mem with xcache := mdrop (fun k =>
      k / 2 ^ 36 == ctx && decide (va / 2 ^ 21 ≤ k % 2 ^ 36) && decide (k % 2 ^ 36 < (va + bytes) / 2 ^ 21)) s.mem.xcache } }

/-- Drops every cached host translation (R231). -/
def dropHostXlat (s : State) : State :=
  { s with mem := { s.mem with xcache := s.mem.xcache.filter (fun e => fld e.2.pte.toNat 5 1 == 0) } }

end Sys2Proof.Machine
end

