-- ==== Sys2Proof/Machine/QOps.lean ====
section
/-! DEFINITION. Queues, contexts and queue contexts: looking them up, the life of a command on an
engine, its counters, trace records, and how faults of a command are recorded. -/

namespace Sys2Proof.Machine

/-! ### Look-up and update -/

def getQ (s : State) (q : Nat) : Queue := mget {} s.fe.queues q
def setQ (q : Nat) (v : Queue) (s : State) : State := { s with fe := { s.fe with queues := mset {} s.fe.queues q v } }
def modQ (q : Nat) (f : Queue → Queue) (s : State) : State := setQ q (f (getQ s q)) s
def getCtx (s : State) (c : Nat) : Ctx := mget {} s.fe.ctxs c
def setCtx (c : Nat) (v : Ctx) (s : State) : State := { s with fe := { s.fe with ctxs := mset {} s.fe.ctxs c v } }
def getQc (s : State) (q : Nat) : QCtx := mget {} s.en.qcs q
def setQc (q : Nat) (v : QCtx) (s : State) : State := { s with en := { s.en with qcs := mset {} s.en.qcs q v } }
def modQc (q : Nat) (f : QCtx → QCtx) (s : State) : State := setQc q (f (getQc s q)) s
def getFn (s : State) (f : Bool) : Fn := if f then s.hs.f1 else s.hs.f0
def setFn (f : Bool) (v : Fn) (s : State) : State :=
  if f then { s with hs := { s.hs with f1 := v } } else { s with hs := { s.hs with f0 := v } }
def modFn (f : Bool) (g : Fn → Fn) (s : State) : State := setFn f (g (getFn s f)) s
def getPart (s : State) (p : Nat) : AxPart := mget {} s.ax p
def setPart (p : Nat) (v : AxPart) (s : State) : State := { s with ax := mset {} s.ax p v }
def modPart (p : Nat) (f : AxPart → AxPart) (s : State) : State := setPart p (f (getPart s p)) s

/-- Keys of the live queues that satisfy a test. -/
def queuesWhere (s : State) (t : Nat → Queue → Bool) : List Nat :=
  (s.fe.queues.map Prod.fst).filter (fun q => (getQ s q).live && t q (getQ s q))

/-- Keys of the live queue contexts that satisfy a test. -/
def qcsWhere (s : State) (t : Nat → QCtx → Bool) : List Nat :=
  (s.en.qcs.map Prod.fst).filter (fun q => (getQc s q).live && t q (getQc s q))

/-- Context states (Table 12-10). -/
def ctxFree : Nat := 0
def ctxActive : Nat := 1
def ctxSinkLost : Nat := 2
def ctxQuiesced : Nat := 3
def ctxResetting : Nat := 4

/-- Queue states (Table 12-11). -/
def qIdle : Nat := 1
def qActive : Nat := 2
def qWaiting : Nat := 3
def qStopped : Nat := 4
def qHalted : Nat := 5

/-- A context enters ACTIVE: the next record that names it is its CTX_FAULT_c entry (R304). -/
def enterState (c st : Nat) (s : State) : State :=
  let s1 := setCtx c { getCtx s c with state := st } s
  if st = ctxActive then { s1 with fr := { s1.fr with ctxFaultHeld := mset false s1.fr.ctxFaultHeld c false } } else s1

/-! ### Trace records (R339 to R341) -/

/-- Windchest whose collector drains the buffer of an engine (R340). -/
def engWc (kind index : Nat) (s : State) : Nat :=
  if kind ≤ 1 then cdWc (index / 64) else if kind = 2 then cdWc (partSwCd (partCount s) index) else index

/-- Places a record in a unit's trace buffer, 512 records at most; one that finds the buffer full is
dropped, and the next that finds room is preceded by a LOST record (R339). -/
def putTrace (unit isl kind ty wc : Nat) (d0 d1 : Nat) (s1 : State) : State :=
  let rec1 := fun (t : State) (ty' a b : Nat) =>
    ({ cycle := cycOf t isl, iseq := iseqOf t isl, island := isl, kind, ty := ty', data0 := BitVec.ofNat 64 a, data1 := BitVec.ofNat 64 b } : TraceRec)
  let put := fun (t : State) (r : TraceRec) =>
    bumpIseq isl { t with ob := { t.ob with buffers := mset [] t.ob.buffers unit (mget [] t.ob.buffers unit ++ [r]) } }
  let n := (mget [] s1.ob.buffers unit).length
  let lost := mget 0 s1.ob.lostPending unit
  let need := if lost = 0 then 1 else 2
  if n + need ≤ 512 then
    let s2 := if lost = 0 then s1
              else { put s1 (rec1 s1 9 lost 0) with ob := { (put s1 (rec1 s1 9 lost 0)).ob with lostPending := mset 0 s1.ob.lostPending unit 0 } }
    put s2 (rec1 s2 ty d0 d1)
  else
    { s1 with ob := { s1.ob with
        lostPending := mset 0 s1.ob.lostPending unit (lost + 1)
        traceDropped := satAdd max32 s1.ob.traceDropped 1
        traceLost := mset 0 s1.ob.traceLost wc (satAdd max32 (mget 0 s1.ob.traceLost wc) 1) } }

/-- Places a record in the cycle of its event. -/
def pushTrace (unit isl kind ty wc : Nat) (d0 d1 : Nat) (s : State) : State := putTrace unit isl kind ty wc d0 d1 (tick isl s)

/-- TRACE_CTRL enables records of a type, and those of an engine kind (Table 16-3). -/
def typeOn (s : State) (ty : Nat) : Bool := bfld s.ob.traceCtrl (15 + ty) 1 == 1
def kindOn (s : State) (kind : Nat) : Bool := bfld s.ob.traceCtrl kind 1 == 1

/-- A trace record of an engine, when TRACE_CTRL enables its kind and type. -/
def traceEng (kind index ty d0 d1 : Nat) (s : State) : State :=
  if kindOn s kind && typeOn s ty then
    pushTrace (engKey kind index) (engIsland s kind index) kind ty (engWc kind index s) d0 d1 s
  else s

/-- Unit number, island, class bit of TRACE_EN and collector of a firmware processor (Tables 14-1, 14-5). -/
def procUnit (i : Nat) : Nat := 0x10000 + i
def procIsland (i : Nat) : Nat :=
  if i = 0 then 0xA99 else if i = 1 then 0xA9A else if i = 2 then 0xA9F else if i = 3 then 0xAA0
  else if i < 36 then 0xA00 + (i - 4) else if i < 52 then 0xA60 + (i - 36)
  else if i < 54 then 0xAA4 + (i - 52) else 0xA80 + 2 * (i - 54) + 1
def procClass (i : Nat) : Nat :=
  if i = 0 ∨ i = 2 then 0 else if i = 1 ∨ i = 3 then 1 else if i < 36 then 2 else if i < 52 then 3 else if i < 54 then 4 else 5
def procWc (i : Nat) : Nat :=
  if i ≤ 1 then 0 else if i ≤ 3 then 7 else if i < 36 then cdWc (i - 4) else if i < 52 then i - 36
  else if i < 54 then 7 * (i - 52) else portWc (i - 54)

/-- A trace point of a firmware processor (R293): FW_POINT with the point's code and argument. -/
def fwPoint (i code arg : Nat) (s : State) : State :=
  if s.fw.traceEn.getLsbD (procClass i) then pushTrace (procUnit i) (procIsland i) 7 8 (procWc i) code arg s else s

/-! ### Counters (R41, R42, R133, R182) -/

def addNums (a b : Nums) : Nums :=
  { nan := satAdd max48 a.nan b.nan, ovf := satAdd max48 a.ovf b.ovf, sat := satAdd max48 a.sat b.sat
    flush := satAdd max48 a.flush b.flush, idx := satAdd max48 a.idx b.idx
    updDone := satAdd max32 a.updDone b.updDone, updSkip := satAdd max32 a.updSkip b.updSkip
    updReplay := satAdd max32 a.updReplay b.updReplay }

/-- The shadow takes a completed command's counters with its tag in one step (R42). -/
def shadowed (n : Nums) (seq : BitVec 56) (qctx : Nat) (_ : Bank) : Bank :=
  { shadow := n, shadowSeq := seq, shadowQctx := qctx, started := true, ended := true }

/-! ### A command on an engine (R103, R247, R334) -/

/-- Trace fields of a command: sequence number with queue context, and context with class and minor. -/
def trTag (seq : BitVec 56) (qctx : Nat) : Nat := seq.toNat + 2 ^ 56 * qctx
def trInsn (ctx word : Nat) : Nat := ctx + 2 ^ 8 * fld word 58 6 + 2 ^ 14 * fld word 52 6

/-- The idle period of an engine ends, charged to a cause (R334, Table 11-13). -/
def endIdle (cause : Nat) (e : Eng) : Eng :=
  if e.idleOpen = 0 then e
  else { e with idleBy := mset 0 e.idleBy cause (mget 0 e.idleBy cause + e.idleOpen), idleOpen := 0 }

/-- The engine starts the command in progress of queue context `q`: it takes its sequence number, its
counters start at zero, and its state is the running one. -/
def startCmd (q cause word : Nat) (s : State) : State :=
  let s1 := tickEng (qKind q) (qIndex q) s
  let qc := getQc s1 q
  let qc' := { qc with seq := qc.nextSeq, nextSeq := qc.nextSeq + 1, started := true, nums := {} }
  let k := engKey (qKind q) (qIndex q)
  let e := endIdle cause (getEng s1 k)
  let s2 := setEng k { e with running := some q, kept := none, bank := { e.bank with started := true } } (setQc q qc' s1)
  traceEng (qKind q) (qIndex q) 1 (trTag qc'.seq (qCtxNo q)) (trInsn qc.ctx word) s2

/-- Gives the in-flight command `id` of queue `qu` its status, once (R307). -/
def setResult (qu id st : Nat) (s : State) : State :=
  modQ qu (fun v => { v with inflight := v.inflight.map (fun f => if f.id = id ∧ f.result = none then { f with result := some st } else f) }) s

/-- The engine leaves queue context `q`. -/
def leaveEng (q : Nat) (s : State) : State :=
  let k := engKey (qKind q) (qIndex q)
  let e := getEng s k
  if e.running = some q then setEng k { e with running := none, last := qCtxNo q, kept := none } s else s

/-- The command of queue context `q` has ended: the engine goes on with the context while a further command of it is
ready, or takes another (R105). -/
def endTurn (q : Nat) (s : State) : State :=
  let k := engKey (qKind q) (qIndex q)
  let e := getEng s k
  if e.running = some q then setEng k { e with running := none, last := qCtxNo q, kept := some q } s else s

/-- A stall of at least 256 cycles among those just charged to an engine has ended: its STALL record (Table 16-4). How the
stalled cycles divide into stalls is open. -/
def stallEnds (kind index : Nat) (was : Eng) (s : State) : State :=
  let e := getEng s (engKey kind index)
  let c := min (e.stall - was.stall) (Config.cycleSplit s.free)
  match (upto 13).find? (fun r => mget 0 was.stallBy r != mget 0 e.stallBy r) with
  | some r => if 256 ≤ c then traceEng kind index 5 r c (nextFree s) else s
  | none => s

/-- The command started at queue context `q` ends with a status: its counters reach the shadow (R42), those of AX in their
own banks, and a CMD_END record is traced. -/
def cmdEnds (q st : Nat) (s : State) : State :=
  let qc := getQc s q
  let k := engKey (qKind q) (qIndex q)
  let s1 := stallEnds (qKind q) (qIndex q) (getEng s k) (tickEng (qKind q) (qIndex q) s)
  let e := getEng s1 k
  let s2 := if qKind q = kAX then s1 else setEng k { e with bank := shadowed qc.nums qc.seq (qCtxNo q) e.bank } s1
  traceEng (qKind q) (qIndex q) 2 (trTag qc.seq (qCtxNo q)) (st + 2 ^ 8 * qc.ctx) s2

/-- An array command that queue context `q` had accepted, or a collective that it opened, has yet to retire. -/
def unretired (s : State) (q : Nat) : Bool :=
  (qKind q == kAX && (getPart s (qIndex q)).cmds.any (fun x => x.q == q && !x.ended))
  || (qKind q == kRX && s.rx.slots.any (fun e =>
    e.2.live && e.2.q == q && (!e.2.halted || e.2.ending == some stDescriptor || e.2.ending == some stPeerDown)))

/-- The command in progress at queue context `q` ends with a status, which waits for the completion word. The end of a
program waits until what it had accepted or opened has retired: its completion is a release for all its writes (R97). -/
def finishCmd (q st : Nat) (s : State) : State :=
  let qc := getQc s q
  match qc.cmd with
  | none => s
  | some (qu, id, prog) =>
    if prog && (decide (st < stXlat) || st == stPeerDown) && unretired s q then modQc q (fun v => { v with heldEnd := some st }) s
    else
    let s1 := modQc q (fun v => { v with cmd := none, started := false, blocked := false, heldAdd := none, heldEnd := none }) (cmdEnds q st s)
    setResult qu id st (endTurn q s1)

/-- A context's reset does not hold this queue context: it holds VX, DM and AX; the fabric work that it spares
runs on (R308). -/
def runsOn (s : State) (q : Nat) (qc : QCtx) : Bool := (getCtx s qc.ctx).state != ctxResetting || decide (kAX < qKind q)

/-- Another queue context of the same engine is ready to run (R105). -/
def readyCtx (s : State) (q : Nat) : Bool :=
  let qc := getQc s q
  qc.live && (qc.cmd.isSome || !qc.held.isEmpty) && !qc.blocked && runsOn s q qc

/-! ### Service of an engine (R296, R323, R325, R343) -/

/-- Compute islands above this windchest have their clocks stopped by the hardware trip. -/
def tripped (s : State) (w : Nat) : Bool := mget false s.pw.wcTrip w

/-- A reset of this partition, or of the chip, is running or the partition is held. -/
def partInReset (s : State) (p : Nat) : Bool :=
  mget false s.fr.heldParts p || s.fr.resets.any (fun r => r.dom == .partition p || r.dom == .chip)

/-- The engine exists, is powered and clocked, is out of quarantine and reset, and is not frozen. -/
def engUp (s : State) (kind index : Nat) : Bool :=
  s.pw.powered && (s.bt.computeDone || decide (3 ≤ kind)) && engExists s kind index
  && !frozenIsl s (engIsland s kind index)
  && !s.fr.resets.any (fun r => r.dom == .engine kind index)
  && (if kind ≤ 1 then
        !inQuar s index && !partInReset s (corePart (partCount s) index) && !tripped s (cdWc (index / 64))
        && !s.fr.resets.any (fun r => r.dom == .core index)
      else if kind = 2 then
        !partInReset s index && !(partWcs (partCount s) index).any (tripped s)
      else !mget false s.fr.wcQuar index && !s.fr.resets.any (fun r => r.dom == .wcIsland index))

/-- The array instruction at hand of queue context `q` waits: for its turn, or for what an AX.FENCE waits for. -/
def axWaits (s : State) (q : Nat) : Bool :=
  qKind q == kAX && ((getPart s (qIndex q)).fence.any (fun f => f.1 == q) || (getPart s (qIndex q)).next.any (fun c => c.q == q))

/-- The cluster sequencer of a queue context's engine is down (Table 14-2). -/
def sequencerDown (s : State) (t : Nat) : Bool :=
  if qKind t ≤ kDM then !procUp s (4 + qIndex t / 64 % 32)
  else if qKind t = kAX then !procUp s (4 + partSwCd (partCount s) (qIndex t))
  else false

/-- An instruction of queue context `q` can be executed now: its program or instruction command is in
progress, it is the engine's running context, and the engine is in service. -/
def canRun (s : State) (q : Nat) (kind : Nat → Bool) : Bool :=
  let qc := getQc s q
  kind (qKind q) && qc.live && qc.cmd.isSome && qc.started && !qc.blocked && qc.heldAdd.isNone && qc.heldEnd.isNone
  && (getEng s (engKey (qKind q) (qIndex q))).running == some q
  && engUp s (qKind q) (qIndex q) && runsOn s q qc
  && !axWaits s q && qc.chunk.isNone

/-! ### Fault records of engines and of the front end (R124, R303, R373) -/

/-- The program counter that a record names: that of a program, 0 for an instruction command (Table 15-2). -/
def pcNow (qc : QCtx) : W64 := match qc.cmd with | some (_, _, true) => qc.pc | _ => 0

/-- The record of a fault of queue context `q`'s instruction. -/
def engRec (s : State) (q cls status reason level a0 a1 a2 : Nat) : FaultRec :=
  let qc := getQc s q
  { island := engIsland s (qKind q) (qIndex q), cls, status, ctx := qc.ctx, qctx := qCtxNo q, ctxv := true
    kind := qKind q, part := engPart s (qKind q) (qIndex q), reason, level, seq := qc.seq, pc := pcNow qc
    arg0 := BitVec.ofNat 64 a0, arg1 := BitVec.ofNat 64 a1, arg2 := BitVec.ofNat 64 a2 }

/-- The record of a fault that the front end finds for a command of a queue. -/
def feRec (s : State) (qu : Nat) (seq : BitVec 56) (cls status reason level a0 a1 a2 : Nat) : FaultRec :=
  let v := getQ s qu
  { island := chanterIsland s, cls, status, ctx := v.ctx, qctx := if qKind qu = 7 then 0 else qCtxNo qu, ctxv := true
    kind := 7, part := (getCtx s v.ctx).part, reason, level, seq, pc := 0
    arg0 := BitVec.ofNat 64 a0, arg1 := BitVec.ofNat 64 a1, arg2 := BitVec.ofNat 64 a2 }

/-- The record of a control command that does not complete with DONE (R373). -/
def ctlRec (s : State) (f : Bool) (seq : BitVec 56) (cls status reason a0 a1 : Nat) : FaultRec :=
  { island := chanterIsland s, cls, status, kind := 7, reason, seq, arg0 := BitVec.ofNat 64 a0
    arg1 := BitVec.ofNat 64 a1, arg2 := BitVec.ofNat 64 (b01 f) }

end Sys2Proof.Machine
end

