-- ==== Sys2Proof/Machine/RxOps.lean ====
section
/-! DEFINITION. Open collectives as every part of the module meets them: members, streams and chunks, decisions,
settling, aborts (R210, R213, R216, R217, R222, R223, R227). -/

namespace Sys2Proof.Machine

/-- Key of a collective slot: windchest and slot number (R207). -/
def slotKey (w i : Nat) : Nat := 64 * w + i

/-- Decisions. -/
def dIn : Nat := 1
def dOut : Nat := 2

/-- Collective kinds. -/
def cRS : Nat := 0
def cAG : Nat := 1
def cAR : Nat := 2
def cPERM : Nat := 3

def getSlot (s : State) (k : Nat) : Slot := mget {} s.rx.slots k
def setSlot (k : Nat) (v : Slot) (s : State) : State := { s with rx := { s.rx with slots := mset {} s.rx.slots k v } }
def modSlot (k : Nat) (f : Slot → Slot) (s : State) : State := setSlot k (f (getSlot s k)) s

/-- The collective reduces: RX.RS and RX.AR. -/
def reduces (v : Slot) : Bool := v.kind == cRS || v.kind == cAR

/-! ### Members and streams (R210, R222, R223) -/

/-- Line mode is in force for the collective; its first member; members after the first. -/
def lineMode (v : Slot) : Bool := bfld v.line 31 1 == 1
def lineFirst (v : Slot) : Nat := bfld v.line 0 7
def lineLast (v : Slot) : Nat := bfld v.line 8 7

/-- Position of member `x` in line order. -/
def linePos (v : Slot) (x : Nat) : Nat := (x + v.n - lineFirst v % v.n) % v.n

/-- Member `x` takes part: in line mode, the line members alone. -/
def inLine (v : Slot) (x : Nat) : Bool := !lineMode v || decide (linePos v x ≤ lineLast v)

/-- Chunks that this member takes part in: none when it is not in the line, and no orphan. -/
def liveChunks (v : Slot) : List Nat := if inLine v v.me then (upto v.n).filter (inLine v) else []

/-- Hops from member `a` to member `b`, in the + direction or the − direction; none against a line's order. -/
def hops (v : Slot) (plus : Bool) (a b : Nat) : Option Nat :=
  if lineMode v then
    let (x, y) := if plus then (linePos v a, linePos v b) else (linePos v b, linePos v a)
    if x ≤ y then some (y - x) else none
  else some (if plus then (b + v.n - a % v.n) % v.n else (a + v.n - b % v.n) % v.n)

/-- Members of the stream of quarter `r` toward the owner `j` (R210): those below it for the + stream. -/
def reduceSpan (v : Slot) (plus : Bool) (r j : Nat) : Nat :=
  if lineMode v then (if plus then linePos v j else lineLast v - linePos v j)
  else if plus == decide (r ≤ 1) then v.n / 2 else (v.n - 1) / 2

/-- Hops of the gather stream of quarter `r` outward from the owner `j`: the same number (R210). -/
def gatherSpan (v : Slot) (plus : Bool) (r j : Nat) : Nat :=
  if lineMode v then (if plus then lineLast v - linePos v j else linePos v j) else reduceSpan v plus r j

/-- Hops from this member to the owner `j` along the reduction stream, when this member is one of the stream. -/
def onReduce (v : Slot) (plus : Bool) (r j : Nat) : Option Nat :=
  (hops v plus v.me j).filter (fun d => decide (0 < d) && decide (d ≤ reduceSpan v plus r j))

/-- Hops from the owner `j` to this member along the gather stream, when the stream reaches it. -/
def onGather (v : Slot) (plus : Bool) (r j : Nat) : Option Nat :=
  (hops v plus j v.me).filter (fun d => decide (0 < d) && decide (d ≤ gatherSpan v plus r j))

/-- Quarters and directions. -/
def streams : List (Nat × Bool) := (upto 4).flatMap (fun r => [(r, true), (r, false)])

/-- This member starts every stream of chunk `j` that it belongs to (R216). -/
def startsAll (v : Slot) (j : Nat) : Bool :=
  j != v.me && streams.all (fun x => match onReduce v x.2 x.1 j with | some d => d == reduceSpan v x.2 x.1 j | none => true)

/-- The chunk's first arrival has happened at this member (R216). -/
def hasArrival (v : Slot) (j : Nat) : Bool := mget false v.arrived j || (startsAll v j && !v.arrived.isEmpty)

/-! ### Decisions (R216, R217) -/

/-- The slot's FILL_TALLY has reached FILL_COUNT. -/
def filled (s : State) (v : Slot) : Bool := decide (bfld v.desc 352 32 ≤ locNat s v.fillLoc 8) && !locPoison s v.fillLoc

def undecided (v : Slot) : List Nat := (liveChunks v).filter (fun j => mget 0 v.decisions j == 0)

/-- Decides every undecided chunk of a slot. -/
def decideAll (d : Nat) (v : Slot) : Slot :=
  { v with decisions := (undecided v).foldl (fun m j => mset 0 m j d) v.decisions }

/-- A context reset that spares the fabric work, or a partition or chip reset, settles the undecided
chunks of a context's collectives: IN where the tally had reached its count, else OUT (R216, R22). -/
def rxSettle (c : Nat) (s : State) : State :=
  let f := fun (v : Slot) =>
    if v.live && v.ctx == c && reduces v then decideAll (if v.ready || filled s v then dIn else dOut) v else v
  { s with rx := { s.rx with slots := s.rx.slots.map (fun e => (e.1, f e.2)) } }

/-- An aborted collective: every undecided chunk decides OUT, and it will end with the status (Table 11-10). The first
event that aborts it gives the status. -/
def abortSlot (st : Nat) (v : Slot) : Slot :=
  { (if reduces v then decideAll dOut v else v) with ending := if v.halted then v.ending else some st, halted := true }

/-- A collective whose line has changed: it completes with ABORTED_PEER_DOWN, whatever had befallen it before (R222). -/
def lineSlot (v : Slot) : Slot := { abortSlot stPeerDown v with ending := some stPeerDown }

/-- Changes the open collectives that satisfy a test. -/
def rxEach (sel : Slot → Bool) (f : Slot → Slot) (s : State) : State :=
  { s with rx := { s.rx with slots := s.rx.slots.map (fun e => (e.1, if e.2.live && sel e.2 then f e.2 else e.2)) } }

/-- Aborts the collectives that satisfy a test. -/
def rxAbort (sel : Slot → Bool) (st : Nat) (s : State) : State := rxEach sel (abortSlot st) s

/-- A context goes: the addresses of its open collectives stay valid under its entry and the partitions as they are
(R208). -/
def keepXlat (c : Nat) (s : State) : State :=
  rxEach (fun v => v.ctx == c && v.kept.isNone) (fun v => { v with kept := some (ctxEntry s c, partCount s) }) s

/-- What the fill of a bucket means for its collective: the undecided chunks decide IN. The slack is a time that no
rule lets the model compute, but no longer than the deadline (R219); `k` numbers it. -/
def fillSlot (k : Nat) (v : Slot) : Slot :=
  let waited := reduces v && (undecided v).any (hasArrival v)
  let v1 := { v with ready := true, cause := 8, normal := v.normal || (reduces v && !(undecided v).isEmpty)
                     slack := if waited then max v.slack (min v.dl (Config.duration k)) else v.slack }
  if reduces v then decideAll dIn v1 else v1

/-- Chunks decided OUT. -/
def outCount (v : Slot) : Nat := ((liveChunks v).filter (fun j => mget 0 v.decisions j == dOut)).length

/-- Open collectives look at their fill tallies again: chunks decide IN, and chunks decided OUT are counted in
COLL_LATE, once a tally has reached its count (R216, R217). -/
def rxFill (s : State) : State :=
  let s1 := s.rx.slots.foldl (fun t e =>
    let v := getSlot t e.1
    if v.live && !v.ready && filled s v then
      let t1 := setSlot e.1 (fillSlot t.free v) { t with free := t.free + 1 }
      { t1 with rx := { t1.rx with late := satAdd max32 t1.rx.late (if reduces v then outCount v else 0) } }
    else t) s
  let due := fun (w : Nat × Nat × Nat) => decide (w.2.1 ≤ locNat s w.1 8)
  { s1 with rx := { s1.rx with
      late := (s1.rx.lateWait.filter due).foldl (fun a w => satAdd max32 a w.2.2) s1.rx.late
      lateWait := s1.rx.lateWait.filter (fun w => !due w) } }

end Sys2Proof.Machine
end

