-- ==== Sys2Proof/Machine/Tally.lean ====
section
/-! DEFINITION. Tallies: the waiters registered at their homes, and what every change of memory means
for them (R114 to R119, R216). -/

namespace Sys2Proof.Machine

/-- Idle causes (Table 11-13). -/
def causeHost : Nat := 5
def causeMemory : Nat := 6
def causeArray : Nat := 7
def causeEngine : Nat := 8
def causeUnresolved : Nat := 9

/-- Idle cause of an operation that an engine of this kind performs. -/
def causeOf (kind : Nat) : Nat := if kind = kDM then causeMemory else if kind = kAX then causeArray else causeEngine

/-- Decides a waiter against the values its tallies hold now, once (R116). -/
def decideWaiter (s : State) (cause : Nat) (w : Waiter) : Waiter :=
  match w.released with
  | some _ => w
  | none =>
    let loc := fun (h : Bool) (a : Nat) => if h then hostBit + a else a
    let v1 := locNat s (loc w.host w.addr) 8
    let m1 := decide (w.thresh.toNat ≤ v1)
    let m2 := match w.second with
      | some (h, a, _, th) => decide (th.toNat ≤ locNat s (loc h a) 8)
      | none => false
    if m1 || m2 then { w with released := some (m1, m2, BitVec.ofNat 64 v1), cause } else w

/-- Memory changed: every waiter is decided, and open collectives look at their fill tallies. -/
def changed (cause : Nat) (s : State) : State :=
  rxFill { s with fe := { s.fe with waiters := s.fe.waiters.map (decideWaiter s cause) } }

/-- A store of bytes at a location by an operation of this idle cause. -/
def storeAt (cause loc : Nat) (bs : List Byte) (s : State) : State := changed cause (locStore loc bs s)

/-- Adds `d` to the tally at a location, modulo 2^64 (R114), unless it is absorbed (Table 15-7). -/
def tallyAddAt (cause loc d : Nat) (s : State) : State :=
  if coreClosed s loc then absorbTally s
  else storeAt cause loc (leBytes 8 ((locNat s loc 8 + d) % 2 ^ 64)) s

/-- Registers a waiter, deciding it against the present values. -/
def registerWait (w : Waiter) (s : State) : State :=
  { s with fe := { s.fe with waiters := s.fe.waiters ++ [decideWaiter s causeEngine w] } }

/-- Drops the waiters that satisfy a test (R119). -/
def dropWaits (t : Waiter → Bool) (s : State) : State :=
  { s with fe := { s.fe with waiters := s.fe.waiters.filter (fun w => !t w) } }

end Sys2Proof.Machine
end

