-- ==== Sys2Proof/Machine/ResetOps.lean ====
section
/-! DEFINITION. The resets as shared operations: what a context, engine, core or partition reset ends,
keeps and loses (Table 15-4, R307 to R311). -/

namespace Sys2Proof.Machine

/-! ### Queues -/

/-- Ends the in-flight commands of a queue whose target satisfies `selT`, with the status. -/
def endInflight (selT : Nat → Bool) (st : Nat) (v : Queue) : Queue :=
  { v with inflight := v.inflight.map (fun f => if f.result = none ∧ selT f.target then { f with result := some st } else f) }

/-- A command held undispatched in its wait or at a halt is ended as well (R308 step 3). -/
def endHeld (st : Nat) (v : Queue) : Queue :=
  if v.state = qWaiting ∨ (v.state = qHalted ∧ v.stopStatus = 0) then
    match v.cur with
    | some e => { v with cur := none, inflight := v.inflight ++ [{ entry := e, result := some st, id := v.dispatched }]
                         dispatched := v.dispatched + 1, waitDone := false }
    | none => v
  else v

/-- A running launch ends with the status, and its frames with it. -/
def endLaunch (st : Nat) (v : Queue) : Queue :=
  match v.launch with
  | some e => { v with launch := none, launchFail := 0, launchEnded := false, frames := []
                       inflight := v.inflight ++ [{ entry := e, result := some st, id := v.dispatched }], dispatched := v.dispatched + 1 }
  | none => { v with frames := [] }

/-- The queue stops. Its first command that did not end with DONE gives the status (R255) and is what
Q_RESTART goes back to; with none, the status is the reset's. A queue that reads STOPPED already keeps the status that
stopped it. -/
def stopByReset (st : Nat) (v : Queue) : Queue :=
  if v.state = qStopped ∨ v.stopStatus ≠ 0 then { v with state := qStopped }
  else match v.inflight.find? (fun f => f.result.isSome && f.result != some stDone) with
  | some f => { v with state := qStopped, stopStatus := f.result.getD st, chainFrom := none, chainOpen := false, stopped := some f.entry }
  | none => { v with state := qStopped, stopStatus := st, chainFrom := none, chainOpen := false }

/-- What a context reset does to one queue of the context: a direct queue of RX or UX whose work is
spared goes on (R308 step 4). -/
def resetQueue (fabric : Bool) (st : Nat) (qid : Nat) (v : Queue) : Queue :=
  if !fabric && (qKind qid == kRX || qKind qid == kUX) then v
  else stopByReset st (endLaunch st (endHeld st (endInflight (fun t => fabric || decide (qKind t ≤ kAX) || decide (4 < qKind t)) st v)))

/-! ### Queue contexts and engines -/

/-- A queue context returns to the state of R104; its sequence counter is kept. -/
def clearQc (qc : QCtx) : QCtx := { live := qc.live, ctx := qc.ctx, seq := qc.seq, nextSeq := qc.nextSeq }

/-- The end of a UX.CHUNK in progress under a reset: its counters, with its own sequence number where a program runs it, else
with the command's (R42, R182). -/
def endChunk (st q : Nat) (s : State) : State :=
  let qc := getQc s q
  match qc.chunk, qc.cmd with
  | some w, some (_, _, true) =>
    let k := engKey (qKind q) (qIndex q)
    let s1 := setEng k { getEng s k with bank := shadowed w.nums w.seq (qCtxNo q) (getEng s k).bank } s
    traceEng (qKind q) (qIndex q) 2 (trTag w.seq (qCtxNo q)) (st + 2 ^ 8 * qc.ctx) s1
  | some w, _ => modQc q (fun c => { c with nums := addNums c.nums w.nums }) s
  | none, _ => s

/-- An engine reset stops a UX.CHUNK within a block: where the block has begun to write its state, TORN stays set and each
aligned 8 bytes of its writes are performed or not (R180, R94). How far it had come is open. -/
def tearChunk (q : Nat) (s : State) : State :=
  match (getQc s q).chunk with
  | none => s
  | some w =>
    let k := s.free
    let s1 := { s with free := k + 1 + w.writes.length }
    if w.torn.isEmpty || !Config.partWritten k then s1
    else
      let ws := w.torn.foldl (fun m e => mset 0 m e.1 e.2) (w.writes.filter (fun e => Config.partWritten (k + 1 + e.1 / 8)))
      let host := ws.filter (fun e => isHost e.1)
      changed causeEngine { s1 with
        hs := { s1.hs with hostMem := host.foldl (fun m e => mset 0 m (e.1 - hostBit) (BitVec.ofNat 8 (e.2 - 1))) s1.hs.hostMem }
        mem := memStoreAll (ws.filter (fun e => !isHost e.1 && !coreClosed s1 e.1)) s1.mem }

/-- Ends what queue context `q` does, a started command with status `st`: its wait is dropped and charged to UNRESOLVED, the
engine leaves it. -/
def endQc (st q : Nat) (s00 : State) : State :=
  let s0 := endChunk st q s00
  let s := if (getQc s0 q).cmd.isSome && (getQc s0 q).started then cmdEnds q st s0 else s0
  let qc := getQc s q
  let k := engKey (qKind q) (qIndex q)
  let s1 := dropWaits (fun w => !w.isQueue && w.key == q) s
  let s2 := if qc.blocked then setEng k (endIdle causeUnresolved (getEng s1 k)) s1 else s1
  setQc q (clearQc qc) (leaveEng q s2)

/-- Draining tiles that a command's output columns lie in (R64). -/
def tilesOf (x : AxCmd) : List Nat := upto (((if x.paired then 2 * x.n else x.n) + 1023) / 1024)

/-- Accumulator rows, by their keys, that a context's passes in flight may have begun to write; no rule says how far they had
come. -/
def begunRows (c : Nat) (v : AxPart) : List Nat :=
  (v.cmds.filter (fun x => x.ctx == c && x.bank == 1 && (x.acc || !x.dt))).flatMap (fun x =>
    (upto x.m).flatMap (fun i => (tilesOf x).map (fun t => 16 * (x.rbase + i) + t)))

def getBank (v : AxPart) (b : Nat) : Bank := match b with | 0 => v.bankL | 1 => v.bankP | _ => v.bankD
def setBank (b : Nat) (k : Bank) (v : AxPart) : AxPart :=
  match b with
  | 0 => { v with bankL := k }
  | 1 => { v with bankP := k }
  | _ => { v with bankD := k }

/-- An accepted command completes with a status: its counters reach its bank's shadow, and its end is traced (R42, R148). -/
def axShadow (p : Nat) (c : AxCmd) (st : Nat) (n : Nums) (t : State) : State :=
  traceEng kAX p 2 (trTag c.seq (qCtxNo c.q)) (st + 2 ^ 8 * c.ctx)
    (modPart p (fun v => setBank c.bank (shadowed n c.seq (qCtxNo c.q) (getBank v c.bank)) v) t)

/-- The accepted commands of a partition that a test selects complete with the status of a reset. -/
def axShadows (p st : Nat) (sel : AxCmd → Bool) (s : State) : State :=
  ((getPart s p).cmds.filter (fun c => !c.ended && sel c)).foldl (fun t c => axShadow p c st c.nums t) s

/-- Marks AX commands of a context as ended: they flow on with their writes suppressed; its rows and those it had begun
to write, its loaded weights, its fence and its freeze mask are invalid (R308 step 3, R69, R146, R149). `k` numbers the
open choices. -/
def axEndCtx (k c : Nat) (v : AxPart) : AxPart :=
  { v with
    next := v.next.filter (fun x => x.ctx != c)
    cmds := v.cmds.map (fun x => if x.ctx = c then { x with ended := true } else x)
    rows := v.rows.map (fun e =>
      if e.2.ctx = c ∨ ((begunRows c v).contains e.1 ∧ Config.partWritten (k + e.1)) then (e.1, { e.2 with valid := false }) else e)
    active := v.active.filter (fun w => w.ctx != c)
    shadow := v.shadow.filter (fun w => w.ctx != c)
    last := v.last.filter (fun l => l.1 != c)
    fence := v.fence.filter (fun f => f.2.1 != c)
    mask := if v.maskCtx = some c then [] else v.mask
    maskCtx := if v.maskCtx = some c then none else v.maskCtx }

/-- The array state of a partition is lost: rows, weights, mask and every command (Table 15-4). The counter banks stay but for
a reset of the island (R338). -/
def axClear (v : AxPart) : AxPart := { bankL := v.bankL, bankP := v.bankP, bankD := v.bankD }

/-! ### Context reset (R308) -/

/-- Steps 1 to 4 of a context reset, status `st`; `fabric` says whether it ends the fabric work too. -/
def endCtxWork (c st : Nat) (fabric : Bool) (s : State) : State :=
  let cx := getCtx s c
  let s0 := if cx.state = ctxResetting then s else setCtx c { cx with state := ctxResetting, prior := cx.state } s
  let s1 := if fabric then rxAbort (fun v => v.ctx == c) st s0 else rxSettle c s0
  let s2 := { s1 with fe := { s1.fe with queues := s1.fe.queues.map (fun e =>
      if e.2.live ∧ e.2.ctx = c then (e.1, resetQueue fabric st e.1 e.2) else e) } }
  let qs := qcsWhere s2 (fun k qc => qc.ctx == c && (fabric || decide (qKind k ≤ kAX)))
  let s3 := qs.foldl (fun t q => endQc st q t) s2
  let s4 := dropWaits (fun w => w.isQueue && w.ctx == c && (fabric || !(qKind w.key == kRX || qKind w.key == kUX))) s3
  let s5 := { s4 with fe := { s4.fe with binds := mdrop (fun k => mget 0 s4.fe.binds k == c + 1 && (fabric || decide (qKind k ≤ kAX))) s4.fe.binds } }
  let s5 := (mkeys s5.ax).foldl (fun t p => axShadows p st (fun x => x.ctx == c) t) s5
  let s6 := { s5 with ax := s5.ax.map (fun e => (e.1, axEndCtx (s5.free + 4096 * e.1) c e.2)), free := s5.free + 32768 }
  dropXlat c s6

/-- A larger reset that contains the context runs, or its partition is held. -/
def largerRuns (s : State) (c : Nat) : Bool :=
  s.fr.resets.any (fun r => r.dom == .chip || r.dom == .partition (getCtx s c).part) || mget false s.fr.heldParts (getCtx s c).part

/-- A reset of the same context runs. -/
def ctxResetRuns (s : State) (c : Nat) : Bool := s.fr.resets.any (fun r => r.dom == .context c)

/-- Begins a context reset. One requested while a reset of the context runs merges into it, and one
requested while a larger reset that contains it runs completes with that (R307). A merged reset that must
end the fabric work still ends it. -/
def ctxReset (c st : Nat) (fabric : Bool) (s : State) : State :=
  if (getCtx s c).state = ctxFree then s
  else
    let merged := ctxResetRuns s c || largerRuns s c
    let s1 := if merged && !fabric then s else endCtxWork c st fabric s
    if ctxResetRuns s c then s1
    else { s1 with fr := { s1.fr with resets := s1.fr.resets ++ [{ dom := .context c, status := st, fabric := fabric }] } }

/-- Sets what follows the end of a context's reset. -/
def markReset (c : Nat) (f : RunReset → RunReset) (s : State) : State :=
  { s with fr := { s.fr with resets := s.fr.resets.map (fun r => if r.dom = .context c then f r else r) } }

/-! ### Engine reset (R309) -/

/-- A collective that a reset drops completes with its status (R42). -/
def rxShadow (index : Nat) (v : Slot) (st : Nat) (t : State) : State :=
  let k := engKey kRX index
  traceEng kRX index 2 (trTag v.seq (qCtxNo v.q)) (st + 2 ^ 8 * v.ctx)
    (setEng k { getEng t k with bank := shadowed v.nums v.seq (qCtxNo v.q) (getEng t k).bank } t)

/-- Ends the commands of every context on one engine, with the status, and stops their queues. -/
def endEngine (kind index st : Nat) (s : State) : State :=
  let on := fun (t : Nat) => qKind t == kind && qIndex t == index
  let s1 := { s with fe := { s.fe with queues := s.fe.queues.map (fun e =>
      if e.2.live ∧ (on e.1 ∨ e.2.inflight.any (fun f => f.result.isNone && on f.target)) then
        (e.1, stopByReset st (endInflight on st e.2)) else e) } }
  let s2 := (qcsWhere s1 (fun k _ => on k)).foldl (fun t q => endQc st q (tearChunk q t)) s1
  if kind = kAX then modPart index axClear (axShadows index st (fun _ => true) s2)
  else if kind = kRX then
    let gone := (s2.rx.slots.filter (fun e => e.1 / 64 == index && e.2.live)).map (fun e => (e.2.ctx, bfld e.2.desc 16 32))
    let s3 := (s2.rx.slots.filter (fun e => e.1 / 64 == index && e.2.live)).foldl (fun t e => rxShadow index e.2 st t) s2
    { s3 with rx := { s3.rx with slots := mdrop (fun k => k / 64 == index) s3.rx.slots, deadTags := s3.rx.deadTags ++ gone } }
  else s2

/-! ### Core, cluster and partition resets (R305, R310, R316, R323, R335) -/

/-- The counters of an engine begin again with its island's cycle count (R335). -/
def clearEngCounters (e : Eng) : Eng := { running := e.running, last := e.last, resets := e.resets }

/-- The cycle count of an engine's island and its engines' counters are cleared. -/
def clearIsland (kind index : Nat) (s : State) : State :=
  let s1 := { s with en := { s.en with cyc := mset 0 s.en.cyc (engIsland s kind index) 0 } }
  (islandMates kind index).foldl (fun t k => setEng k (clearEngCounters (getEng t k)) t) s1

/-- A core reset: both engines of a core site end their commands with 0x31, and its core memory becomes
poison (R305, R87). The site is in quarantine. -/
def coreReset (c : Nat) (s : State) : State :=
  let s0 := edgeWriteback (fun k => k == engKey kVX c || k == engKey kDM c) s
  let s1 := endEngine kDM c stEngReset (endEngine kVX c stEngReset s0)
  let s2 := clearIsland kVX c s1
  { s2 with mem := poisonCore c s2.mem, fr := { s2.fr with quar := mset false s2.fr.quar c true } }

/-- A cluster reset of a compute die: its core sites, its array islands and its bell unit (R305). -/
def clusterReset (cd : Nat) (s : State) : State :=
  let s1 := (upto 64).foldl (fun t k =>
    let c := 64 * cd + k
    let t1 := clearIsland kVX c t
    { t1 with mem := poisonCore c t1.mem, fr := { t1.fr with quar := mset false t1.fr.quar c true } }) s
  let s2 := (upto 8).foldl (fun t g => { t with en := { t.en with cyc := mset 0 t.en.cyc (0x900 + 8 * cd + g) 0 } }) s1
  { s2 with en := { s2.en with cyc := mset 0 s2.en.cyc (0xA00 + cd) 0 } }

/-- What a partition reset ends: the compute work of every context of the partition, every engine of its
compute dies, and every site (R310). The epoch advances. -/
def partitionEnd (p : Nat) (s : State) : State :=
  let cnt := partCount s
  let s1 := (upto 256).foldl (fun t c =>
    if (getCtx t c).state ≠ ctxFree ∧ (getCtx t c).part = p then endCtxWork c stPartReset false t else t) s
  let inside := fun (k : Nat) => (k / 2048 ≤ 1 && corePart cnt (k % 2048) == p) || k == engKey kAX p
  let s2 := (partCds cnt p).foldl (fun t cd => clusterReset cd t) (edgeWriteback inside s1)
  let s3 := clearIsland kAX p (modPart p (fun _ => {}) (axShadows p stPartReset (fun _ => true) s2))
  { s3 with fr := { s3.fr with partEpoch := mset 0 s3.fr.partEpoch p ((mget 0 s3.fr.partEpoch p + 1) % 2 ^ 32) } }

/-! ### Faults of accesses (R91, R99) -/

/-- A fault of an instruction of queue context `q` that ends its context: the record, the command's
status, and the context reset, with the fabric work when RX or UX faulted (R308). -/
def ctxFault (q cls status reason a0 a1 a2 : Nat) (s : State) : State :=
  let c := (getQc s q).ctx
  let s1 := addFault (engRec s q cls status reason 1 a0 a1 a2) false s
  ctxReset c stCtxReset (qKind q == kRX || qKind q == kUX) (finishCmd q status s1)

/-- The outcome of a failed translation for an instruction of `q`: a translation fault, or poison read
by the walk (R91, R99, Table 15-3). -/
def xlatFault (q va acc : Nat) (o : XOut) (s : State) : State :=
  match o with
  | .ok _ => s
  | .bad r l a => ctxFault q cTranslation stXlat r va (acc + 4 * l) a s
  | .poisonAt pa => ctxFault q cPoison stPoison 0 pa va 0 s

/-- An instruction of `q` that is illegal: recorded, not executed, its command completes with
ILLEGAL_COMMAND (R124). -/
def illegal (q reason w x : Nat) (s : State) : State :=
  finishCmd q stIllegal (addFault (engRec s q cIllegal stIllegal reason 0 w x 0) false s)

/-- A descriptor that `q`'s instruction names fails its checks (Table 15-3). -/
def descInvalid (q handle operand : Nat) (s : State) : State :=
  finishCmd q stDescriptor (addFault (engRec s q cDescriptor stDescriptor 0 0 handle operand 0) false s)

/-- Illegal-instruction reasons (Table 06-19). -/
def rClass : Nat := 1
def rMinor : Nat := 2
def rKind : Nat := 3
def rExtension : Nat := 4
def rNonzero : Nat := 5
def rEncoding : Nat := 6
def rAlign : Nat := 7
def rCommand : Nat := 8
def rControl : Nat := 9
def rAccum : Nat := 10

end Sys2Proof.Machine
end

