-- ==== Sys2Proof/Machine/HostOps.lean ====
section
/-! DEFINITION. Host links and functions as shared operations: links going down and training, the
function-level reset (R231 to R234, R360). -/

namespace Sys2Proof.Machine

/-- The licence found at this power-on is VALID. -/
def licenceValid (s : State) : Bool := s.bt.grade != 0

/-- Host link `l` (false is link 0) may train: power and PERST_N released, link 1 only where the grade
enables it and the licence is valid (R2, R265, R275). -/
def linkAllowed (s : State) (l : Bool) : Bool :=
  s.pw.powered && s.pw.pwrGood && !(getFn s l).perst
  && (!l || (s.bt.stage != 10 && fld (gradeHostLinks s.bt.grade) 1 1 == 1 && licenceValid s))

/-- The line in which a queue's producer index lies: where its address translates to, or, where it does not
translate, the line its watcher held last (R243). -/
def indexLine (s : State) (q : Nat) : Nat :=
  match translate s (getQ s q).ctx (getQ s q).piAddr.toNat accRead .other with
  | (.ok loc, _) => loc / 64
  | _ => (getQ s q).watchLine

/-- Line of a function's admin producer index. -/
def adminLine (s : State) (f : Bool) : Nat := (hostBit + (getFn s f).adminPi.toNat) / 64

/-- The admin ring's producer index is watched. -/
def adminWatched (s : State) (f : Bool) : Bool :=
  (getFn s f).adminCfg.getLsbD 63 && (getFn s f).cache && !(getFn s f).adminPolled

/-- Lines of the producer indices that a link's watchers hold, one entry for each queue or admin ring. -/
def watched (s : State) (f : Bool) : List Nat :=
  (queuesWhere s (fun _ v => v.owner == f && !v.polled)).map (indexLine s) ++ (if adminWatched s f then [adminLine s f] else [])

/-- Watchers in use: one serves up to 8 producer indices of one line. -/
def watchersUsed (ls : List Nat) : Nat := ls.dedup.foldl (fun n l => n + (ls.count l + 7) / 8) 0

/-- A watcher is there for one more producer index in this line: one with room, or a free one of the 16,384 (R243). -/
def canWatch (s : State) (f : Bool) (line : Nat) : Bool :=
  let ls := watched s f
  decide (ls.count line % 8 ≠ 0) || decide (watchersUsed ls < 16384)

/-- A queue's producer index is polled and not watched (R243). -/
def isPolled (s : State) (f : Bool) (c pia : Nat) (watch : Bool) : Bool :=
  !watch || !(getFn s f).cache ||
  (match translate s c pia accRead .other with
   | (.ok loc, _) => !isHost loc || !canWatch s f (loc / 64)
   | _ => true)

/-- The watchers of a function's link are given out anew: to its admin ring, then to its queues. -/
def rewatch (f : Bool) (s : State) : State :=
  let qs := queuesWhere s (fun _ v => v.owner == f)
  let s0 := qs.foldl (fun t q => modQ q (fun v => { v with polled := true }) t) (modFn f (fun x => { x with adminPolled := true }) s)
  let s1 := modFn f (fun x => { x with adminPolled := !canWatch s0 f (adminLine s0 f) }) s0
  qs.foldl (fun t q =>
    modQ q (fun v => { v with polled := isPolled t f v.ctx v.piAddr.toNat v.watch, watchLine := indexLine t q }) t) s1

/-- A link trains (R360, R362). The HDM window is presented again on link 0 (R234). -/
def linkTrains (l cache sris : Bool) (s : State) : State :=
  if linkAllowed s l && !(getFn s l).linkUp then
    rewatch l (modFn l (fun f => { f with
      linkUp := true, trainedEver := true, cache := cache, sris := sris
      rate := 64 / 2 ^ (Config.openCount s.free % 4), width := 16 / 2 ^ (Config.openCount (s.free + 1) % 3) }) { s with free := s.free + 2 })
  else s

/-- A link goes down. On link 0 every host hold on lines of the HDM window is dropped without write-back,
and the host must commit the decoder again (R234). -/
def linkDown (l : Bool) (s : State) : State :=
  let s1 := modFn l (fun f => { f with linkUp := false, sris := false, rate := 0, width := 0 }) s
  if l then s1 else { s1 with hs := { s1.hs with hdmHolds := [], hdmLocked := false } }

/-- The HDM window lies wholly within the interleaved view of one partition in force; no window always
fits (R233, Table 05-5). -/
def hdmFits (s : State) (size base : Nat) : Bool :=
  size == 0 || (upto (partCount s)).any (fun p =>
    decide (2 ^ 40 * (p + 1) ≤ base * 2 ^ 30)
    && decide ((base + size) * 2 ^ 30 ≤ 2 ^ 40 * (p + 1) + 0xBA0000000 * (partWcs (partCount s) p).length))

/-- Checks the window against the partitions in force. When a committed window no longer fits, every line
the host holds through it is back-invalidated first (R233). -/
def checkHdm (s : State) : State :=
  if hdmFits s s.hs.hdmSize s.hs.hdmBase then { s with hs := { s.hs with hdmBad := false } }
  else { s with hs := { s.hs with hdmBad := true, hdmHolds := [] } }

/-- What measurement block 6 measures: COUNT_ACT, L1_MODE_ACT and HDM_CFG (Table 14-12). -/
def configCode (s : State) : Nat := s.fe.countAct.toNat + 4 * b01 s.hs.l1Act + 8 * s.hs.hdmSize + 2 ^ 16 * s.hs.hdmBase

/-- Contexts that a function owns and that are not FREE. -/
def ownedCtxs (s : State) (f : Bool) : List Nat :=
  (s.fe.ctxs.map Prod.fst).filter (fun c => (getCtx s c).state != ctxFree && (getCtx s c).owner == f)

/-- Destroys the queues of a context: what they fetched and had not dispatched is dropped. -/
def dropQueues (c : Nat) (s : State) : State :=
  let qs := queuesWhere s (fun _ v => v.ctx == c)
  let s1 := qs.foldl (fun t q => setQ q {} t) s
  let qcs := qcsWhere s1 (fun _ v => v.ctx == c)
  dropWaits (fun w => w.ctx == c) (qcs.foldl (fun t q => setQc q {} t) s1)

/-- Function-level reset of function `f` (R232): every context it owns is reset with its fabric work, its
queues are destroyed once the ended commands have completed, the admin queue registers are cleared, and
NEG_AGREED returns to 0 (R289). -/
def functionReset (f : Bool) (s : State) : State :=
  let s1 := (ownedCtxs s f).foldl (fun t c =>
    markReset c (fun r => { r with thenDestroy := true, ctl := none }) (ctxReset c stCtxReset true t)) s
  modFn f (fun v => { v with adminRing := 0, adminPi := 0, adminCq := 0, adminCfg := 0, adminCount := 0, adminSeq := 0
                             adminFetched := [], adminBusy := none, negAgreed := 0 }) s1

/-- A reset that a stop holds until it ends (R345). -/
def unlessStopped (h : HeldReset) (now : State → State) (s : State) : State :=
  if s.ob.stopState = 0 then now s else { s with fr := { s.fr with heldResets := s.fr.heldResets ++ [h] } }

end Sys2Proof.Machine
end

