-- ==== Sys2Proof/Machine/Power.lean ====
section
/-! DEFINITION. Supplies, pins, clocks, the power loop and the thermal loop (chapters 14 and 17). -/

namespace Sys2Proof.Machine

/-! ### Power-up and power-down -/

/-- VIN and AUX_3V3 within their operating ranges, in millivolts (Table 17-2). -/
def vinInRange (vin : Int) : Bool := decide (40000 ≤ vin) && decide (vin ≤ 60000)
def auxInRange (aux : Nat) : Bool := decide (3135 ≤ aux) && decide (aux ≤ 3465)

/-- Latches a bit of PWR_EVENTS in flash (Table 17-9). -/
def latchEvent (b : Nat) (s : State) : State := { s with fl := { s.fl with pwrEvents := s.fl.pwrEvents ||| (1 <<< b) } }

/-- A function's state at a cold power-on or a loss of power: only its PERST pin is kept. -/
def coldFn (f : Fn) : Fn := { perst := f.perst }

/-- What a loss of power leaves: module flash, the pins, the tray's sensors, failed phases, and the host's
own memory (R359, Table 15-4). -/
def unpowered (s : State) : State :=
  { pending := s.pending
    pw := { vin := s.pw.vin, aux := s.pw.aux, modReset := s.pw.modReset, goingDown := s.pw.goingDown, releaseHeld := s.pw.releaseHeld
            heldDown := s.pw.heldDown, alertLeak := s.pw.alertLeak, alertInlet := s.pw.alertInlet, alertReverse := s.pw.alertReverse
            failedCount := s.pw.failedCount, failedPhase := s.pw.failedPhase
            inlet := s.pw.inlet, inletValid := s.pw.inletValid, inletOpen := s.pw.inletOpen, leak := s.pw.leak }
    fl := s.fl
    hs := { f0 := coldFn s.hs.f0, f1 := coldFn s.hs.f1, hostMem := s.hs.hostMem, atsRefuses := s.hs.atsRefuses, aborts := s.hs.aborts }
    fw := { slotId := s.fw.slotId }
    out := s.out
    free := s.free }

/-- Windchest limits at a cold power-on and at a chip reset: 1.8 GHz until the estimators converge (R20, R295). -/
def startClocks (s : State) : State :=
  { s with pw := { s.pw with
      converged := false
      wcDrop := (upto 16).foldl (fun m w => mset 0 m w 700) s.pw.wcDrop
      wcCause := (upto 16).foldl (fun m w => mset 0 m w 1) s.pw.wcCause } }

/-- A cold power-on: everything but flash starts from its reset value, the module runs in 1 partition, and
the fields whose reset is "From flash" are taken from it (R237, R262, R355). -/
def powerOn (s : State) : State :=
  let u := unpowered s
  (fun (t : State) => { t with bt := { t.bt with cfgInForce := configCode t, hdmReset := t.hs.hdmSize + 2 ^ 16 * t.hs.hdmBase } }) <| checkHdm <| startClocks { u with
    pw := { u.pw with powered := true, modReset := false, goingDown := false, releaseHeld := false, heldDown := false }
    fl := { s.fl with boots := s.fl.boots + 1 }
    hs := { u.hs with l1Act := s.fl.l1Mode, hdmSize := s.fl.hdmSize, hdmBase := s.fl.hdmBase }
    bt := { u.bt with first := !s.fl.hbmTrained || s.fl.seeds.isEmpty, ldlClamped := s.fl.clamp } }

/-- A power-down begins: PWR_GOOD falls and every state but flash is lost (R356). -/
def goDown (s : State) : State :=
  unpowered { s with pw := { s.pw with goingDown := true, releaseHeld := false } }

/-- COLD_POWER_ON (R355, R356, R358): the release of MOD_RESET_N with both supplies in range. A release
during a power-down waits for its end; one with a supply out of range powers nothing up. -/
def execColdPowerOn (vin : Int) (aux : Nat) (s : State) : Host.Outcome State Fault Refusal :=
  .next (keepQueue s (
    if !s.pw.modReset then s
    else
      let s1 := { s with pw := { s.pw with vin, aux, modReset := false } }
      if s.pw.goingDown then { s1 with pw := { s1.pw with releaseHeld := true } }
      else if vinInRange vin && auxInRange aux then powerOn s1 else s1))

/-- POWER_DOWN (R356): an assertion of MOD_RESET_N of 1 µs or longer. -/
def execPowerDown (assertedNs : Nat) (s : State) : Host.Outcome State Fault Refusal :=
  .next (keepQueue s (
    if assertedNs < 1000 then s
    else
      let s1 := { s with pw := { s.pw with modReset := true, releaseHeld := false } }
      if s.pw.powered then goDown s1 else s1))

/-- POWER_DOWN_COMPLETE (R356): a release that arrived meanwhile is now a cold power-on. -/
def execPowerDownComplete (s : State) : Host.Outcome State Fault Refusal :=
  .next (keepQueue s (
    if !s.pw.goingDown then s
    else
      let s1 := { s with pw := { s.pw with goingDown := false, releaseHeld := false } }
      if s.pw.releaseHeld && vinInRange s.pw.vin && auxInRange s.pw.aux then powerOn s1 else s1))

/-- VIN_OUT_OF_RANGE (R357): below 38 V for 100 µs or above 62 V for 10 µs. The module stays down until
MOD_RESET_N is asserted and released with VIN within range. -/
def execVinOutOfRange (vin : Int) (forUs : Nat) (s : State) : Host.Outcome State Fault Refusal :=
  .next (keepQueue s (
    let under := decide (vin < 38000) && decide (100 ≤ forUs)
    let above := decide (62000 < vin) && decide (10 ≤ forUs)
    if !s.pw.powered || !(under || above) then { s with pw := { s.pw with vin } }
    else
      let s1 := latchEvent (if under then 1 else 2) { s with pw := { s.pw with vin, heldDown := true } }
      goDown s1))

/-- VIN_MARGINAL (R365): latched; below 40 V the Bellows hold the input current at 105 A. -/
def execVinMarginal (vin : Int) (s : State) : Host.Outcome State Fault Refusal :=
  .next (onlyPower s (
    let low := decide (38000 ≤ vin) && decide (vin < 40000)
    let high := decide (60000 < vin) && decide (vin ≤ 62000)
    if s.pw.powered && (low || high) then
      latchEvent 11 { s with pw := { s.pw with vin, currentHeld := low } }
    else s))

/-- VIN_REVERSED (R365, R361): no current flows, PWR_GOOD stays low; with AUX_3V3 present the event is
latched and THERM_ALERT_N asserted. -/
def execVinReversed (vin : Int) (aux : Nat) (s : State) : Host.Outcome State Fault Refusal :=
  .next (keepQueue s (
    if 0 ≤ vin then s
    else
      let s1 := { s with pw := { s.pw with vin, aux } }
      let s2 := if 3000 ≤ aux then latchEvent 0 { s1 with pw := { s1.pw with alertReverse := true } } else s1
      if s.pw.powered then goDown s2 else s2))

/-- AUX_LOST (R358): with VIN in range the Bellows feed the always-on islands from it. -/
def execAuxLost (s : State) : Host.Outcome State Fault Refusal :=
  .next (onlyPower s (
    if s.pw.powered then latchEvent 3 { s with pw := { s.pw with aux := 0, auxFromVin := true } }
    else { s with pw := { s.pw with aux := 0 } }))

/-- AUX_MARGINAL (R365): outside the operating range but at or above 3.0 V. -/
def execAuxMarginal (aux : Nat) (s : State) : Host.Outcome State Fault Refusal :=
  .next (onlyPower s (
    if s.pw.powered && ((decide (3000 ≤ aux) && decide (aux < 3135)) || (decide (3465 < aux) && decide (aux ≤ 4000))) then
      latchEvent 12 { s with pw := { s.pw with aux } }
    else s))

/-- RAIL_FAULT (R361): PWR_GOOD falls and the module powers down. -/
def execRailFault (_rail : Nat) (s : State) : Host.Outcome State Fault Refusal :=
  .next (keepQueue s (if s.pw.powered then goDown s else s))

/-! ### The power loop (R21, R294) -/

/-- Island of a Bellows controller. -/
def bwIsland (bw : Nat) : Nat := 0xAA4 + bw

/-- Bellows that drives a windchest: columns 0–3 or 4–7 (Table 14-1). -/
def wcBw (w : Nat) : Nat := w % 8 / 4

/-- Phases failed with no spare left, on both Bellows. -/
def phasesShort (s : State) : Nat := (mget 0 s.pw.failedCount 0 - 2) + (mget 0 s.pw.failedCount 1 - 2)

/-- Effective power cap in tenths of a watt: PWR_CAP less 52.5 W for each phase missing, and at most
105 A × VIN at low VIN (R294, Table 17-7). -/
def effectiveCap (s : State) (vin : Nat) : Nat :=
  let c := 10 * s.pw.pwrCap - 525 * phasesShort s
  if vin < 40000 then min c (105 * vin / 100) else c

/-- PHASE_FAIL (R294): a spare takes over, or the cap is lowered and the tray told. -/
def execPhaseFail (bw phase : Nat) (s : State) : Host.Outcome State Fault Refusal :=
  .next (onlyPower s (
    if !s.pw.powered || decide (2 ≤ bw) || decide (42 ≤ phase) || mget false s.pw.failedPhase (42 * bw + phase) then s
    else
      let n := mget 0 s.pw.failedCount bw
      let s1 := { s with pw := { s.pw with failedCount := mset 0 s.pw.failedCount bw (n + 1)
                                           failedPhase := mset false s.pw.failedPhase (42 * bw + phase) true } }
      let s2 := addLog (bwIsland bw) 2 0x0304 bw (phase + 64 * b01 (decide (2 ≤ n))) s1
      if 2 ≤ n then faultNotice none (bwIsland bw) 0 0 s2 else s2))

/-- CURRENT_LIMIT_CLAMP (R294): the rail's islands' clocks are held back in hardware. -/
def execCurrentLimitClamp (rail : Nat) (s : State) : Host.Outcome State Fault Refusal :=
  .next (onlyPower s (if s.pw.powered then { s with pw := { s.pw with clamped := mset false s.pw.clamped rail true } } else s))

/-- One round of a Bellows' half of the power loop: above the cap its array islands step down, and its core islands once
the array islands are at their lowest; at or below it the core islands step back up, then the array islands. DESIGN
CHOICE: R21 and R294 say only that array islands are lowered first; how many 25 MHz steps a round takes down, the floor of
25 MHz, that core islands rise first and that one round takes one step up are the model's. -/
def capStep (above : Bool) (bw n : Nat) (pw : Pw) : Pw :=
  let d := 25 * (1 + Config.powerSteps n)
  let a := mget 0 pw.arrayDrop bw
  let c := mget 0 pw.coreDrop bw
  if above then
    if a < 2475 then { pw with arrayDrop := mset 0 pw.arrayDrop bw (min 2475 (a + d)) }
    else { pw with coreDrop := mset 0 pw.coreDrop bw (min 2475 (c + d)) }
  else if 0 < c then { pw with coreDrop := mset 0 pw.coreDrop bw (c - 25) }
  else { pw with arrayDrop := mset 0 pw.arrayDrop bw (a - 25) }

/-- POWER_LOOP (R21, R294): each Bellows that runs acts on its half; the half of one that is down keeps its frequencies
(Table 14-2, R285). A clamp ends with its round. DESIGN CHOICE: the steps are those of capStep, log entry 2. -/
def execPowerLoop (watts : Nat) (vin : Nat) (s : State) : Host.Outcome State Fault Refusal :=
  .next (onlyMgmt s (
    if !(s.pw.powered && s.pw.pwrGood && (procUp s 52 || procUp s 53)) then s
    else
      let s1 := { s with pw := { s.pw with powerNow := watts, vinNow := vin / 10, vin := (vin : Int), currentHeld := decide (vin < 40000), clamped := [] } }
      [0, 1].foldl (fun t bw =>
        if procUp s (52 + bw) then
          fwPoint (52 + bw) 3 0 (nextFree { t with pw := capStep (decide (effectiveCap s vin < 10 * watts)) bw t.free t.pw })
        else t) s1))

/-! ### The thermal loop (R295 to R297, Table 14-8) -/

/-- THERM_ALERT_N is asserted (R361). -/
def thermAlert (s : State) : Bool :=
  (upto 16).any (fun w => mget false s.pw.wcAlert w || tripped s w) || s.pw.alertLeak || s.pw.alertInlet || s.pw.alertReverse

/-- Tells the tray's event receiver when THERM_ALERT_N changes. -/
def alertEvent (s t : State) : State := if thermAlert t == thermAlert s then t else sensorEvent 67 (b01 (thermAlert t)) t

/-- Limit of a windchest in MHz. -/
def wcLimit (s : State) (w : Nat) : Nat := 2500 - mget 0 s.pw.wcDrop w

def setLimit (w mhz cause : Nat) (s : State) : State :=
  { s with pw := { s.pw with wcDrop := mset 0 s.pw.wcDrop w (2500 - mhz), wcCause := mset 0 s.pw.wcCause w cause } }

/-- Temperature that counts for a sensor: TL_MAX where it reads open or out of range (R297). -/
def sensorTemp : Option Nat → Nat
  | some t => t
  | none => 1050

/-- Mask of the sensors that are invalid. -/
def invalidMask (l : List (Option Nat)) : Nat := leNat (l.map (fun x => if x.isNone then (1 : Byte) else 0))

/-- Highest limit that caps allow, and its cause: leak, invalid sensors, inlet thermistor, convergence. -/
def wcCeiling (s : State) (invalid : Nat) : Nat × Nat :=
  if s.pw.leak = 1 then (1200, 7)
  else if !s.pw.converged then (1800, 1)
  else if 2 ≤ invalid then (1800, 7)
  else if s.pw.inletOpen then (2300, 7)
  else (2500, 0)

/-- Records a lowered limit, at most once per windchest and second (THROTTLE, Table 14-6). -/
def throttleLog (w : Nat) (before : Nat) (s : State) : State :=
  let quiet := mget 0 s.pw.wcQuiet w
  if wcLimit s w < before ∧ quiet = 0 then
    addLog (bwIsland (wcBw w)) 1 0x0301 (w + 16 * wcLimit s w) (mget 0 s.pw.wcCause w)
      { s with pw := { s.pw with wcQuiet := mset 0 s.pw.wcQuiet w 10000 } }
  else { s with pw := { s.pw with wcQuiet := mset 0 s.pw.wcQuiet w (quiet - 1) } }

/-- One windchest in one period of the thermal loop. -/
def thermalStep (r : WcReading) (s : State) : State :=
  let w := r.wc
  if 16 ≤ w ∨ !procUp s (52 + wcBw w) then s
  else
    let hot := (r.sensors.map sensorTemp).foldl max 0
    let mask := invalidMask r.sensors
    let old := mget 0 s.pw.wcInvalid w
    let news := (upto r.sensors.length).filter (fun i => mask / 256 ^ i % 256 == 1 && old / 256 ^ i % 256 == 0)
    let s1 := { s with pw := { s.pw with
        wcHot := mset 0 s.pw.wcHot w hot, wcHbm := mset 0 s.pw.wcHbm w r.hbm, wcInvalid := mset 0 s.pw.wcInvalid w mask
        wcAlert := mset false s.pw.wcAlert w (decide (1050 ≤ hot)) } }
    let s2 := news.foldl (fun t i => addLog (bwIsland (wcBw w)) 2 0x0303 w i t) s1
    let lim := wcLimit s w
    let (ceil, cCause) := wcCeiling s (r.sensors.filter (·.isNone)).length
    let tick := mget 0 s.pw.wcTick w + 1
    let setTick := fun (n : Nat) (t : State) => { t with pw := { t.pw with wcTick := mset 0 t.pw.wcTick w n } }
    let s3 :=
      if tripped s w then setLimit w 1200 5 s2
      else if 1050 ≤ hot then setTick 0 (setLimit w 1200 4 s2)
      else if ceil < lim then setTick 0 (setLimit w ceil cCause s2)
      else if bfld s.pw.thermCfg 0 16 < hot then setTick 0 (setLimit w (max 25 (lim - 25)) 2 s2)
      else if bfld s.pw.thermCfg 16 16 < r.hbm then setTick 0 (setLimit w (max 25 (lim - 25)) 3 s2)
      else
        let period := if ceil = 2300 then 20 else 10
        if period ≤ tick then setTick 0 (setLimit w (min ceil (lim + 25)) (if ceil ≤ lim + 25 then cCause else mget 0 s.pw.wcCause w) s2)
        else setTick tick s2
    fwPoint (52 + wcBw w) 7 w (throttleLog w lim s3)

/-- The HBM controller of a stack doubles its per-bank refresh rate above a readout of 85 °C (R82). -/
def setRefresh (r : WcReading) (s : State) : State :=
  if r.wc < 16 then { s with pw := { s.pw with fastRefresh := mset false s.pw.fastRefresh r.wc (decide (850 < r.hbm)) } } else s

/-- THERMAL_LOOP (R295, R297, R82). -/
def execThermalLoop (readings : List WcReading) (converged : Bool) (s : State) : Host.Outcome State Fault Refusal :=
  .next (onlyMgmt s (alertEvent s <|
    if s.pw.powered && s.pw.pwrGood then
      readings.foldl (fun t r => thermalStep r (setRefresh r t)) { s with pw := { s.pw with converged := s.pw.converged || converged } }
    else s))

/-- THERM_TRIP (R296): at 115.0 °C hardware stops the clocks of the compute islands above a windchest. -/
def execThermTrip (wc temp : Nat) (s : State) : Host.Outcome State Fault Refusal :=
  .next (onlyPower s (alertEvent s <|
    if s.pw.powered && decide (wc < 16) && decide (1150 ≤ temp) && !tripped s wc then
      let s1 := { s with
        pw := { s.pw with wcTrip := mset false s.pw.wcTrip wc true, wcAlert := mset false s.pw.wcAlert wc true
                          wcHot := mset 0 s.pw.wcHot wc (max temp (mget 0 s.pw.wcHot wc)) }
        fl := { s.fl with lifeTrips := s.fl.lifeTrips + 1 } }
      addLog (bwIsland (wcBw wc)) 3 0x0302 wc temp (setLimit wc 1200 5 s1)
    else s))

/-- The stopped time of an engine's island is added to its cycle count and to STALL_THERMAL (R335). -/
def thermalStall (kind index : Nat) (s : State) : State :=
  let d := Config.cyclesPassed s.free
  let isl := engIsland s kind index
  let s1 := { s with en := { s.en with cyc := mset 0 s.en.cyc isl (mget 0 s.en.cyc isl + d) } }
  (islandMates kind index).foldl (fun t k =>
    let e := getEng t k
    setEng k { e with stall := e.stall + d, stallBy := mset 0 e.stallBy 1 (mget 0 e.stallBy 1 + d) } t) s1

/-- THERM_TRIP_CLEAR (R296, R335): every sensor of the windchest is below 100.0 °C. -/
def execThermTripClear (wc : Nat) (temps : List Nat) (s : State) : Host.Outcome State Fault Refusal :=
  .next (onlyPower s (alertEvent s <|
    if s.pw.powered && tripped s wc && temps.all (fun t => decide (t < 1000)) && !temps.isEmpty then
      let s1 := { s with pw := { s.pw with
          wcTrip := mset false s.pw.wcTrip wc false, wcAlert := mset false s.pw.wcAlert wc false
          wcHot := mset 0 s.pw.wcHot wc (temps.foldl max 0) } }
      let s2 := (wcCds wc).foldl (fun t cd => (upto 64).foldl (fun u k => thermalStall kVX (64 * cd + k) u) t) (setLimit wc 1200 5 s1)
      let p := wcPart (partCount s) wc
      nextFree (if (wcCds wc).contains (partSwCd (partCount s) p) then thermalStall kAX p s2 else s2)
    else s))

/-! ### Tray sensors and abnormal conditions (R361, R365) -/

/-- LEAK_WET: every limit to 1.2 GHz, THERM_ALERT_N, FAULT_NOTICE. -/
def execLeakWet (s : State) : Host.Outcome State Fault Refusal :=
  .next (onlyPower s (alertEvent s <|
    if s.pw.powered then
      let s1 := latchEvent 10 { s with pw := { s.pw with leak := 1, alertLeak := true } }
      faultNotice none (bwIsland 0) 0 0 ((upto 16).foldl (fun t w => if wcLimit t w ≤ 1200 then t else setLimit w 1200 7 t) s1)
    else s))

/-- LEAK_OPEN: an invalid sensor, and no change in clocks. -/
def execLeakOpen (s : State) : Host.Outcome State Fault Refusal :=
  .next (onlyPower s (alertEvent s <|
    if s.pw.powered then
      addLog (bwIsland 0) 2 0x0303 0xFF 1 (latchEvent 9 { s with pw := { s.pw with leak := 2, alertLeak := false } })
    else s))

/-- INLET_OPEN: treated as reading 45 °C; the limit is never above 2.3 GHz, at once. -/
def execInletOpen (s : State) : Host.Outcome State Fault Refusal :=
  .next (onlyPower s (alertEvent s <|
    if s.pw.powered then
      let s1 := latchEvent 8 { s with pw := { s.pw with inlet := 450, inletValid := false, inletOpen := true, alertInlet := false } }
      addLog (bwIsland 0) 2 0x0303 0xFF 0 ((upto 16).foldl (fun t w => if wcLimit t w ≤ 2300 then t else setLimit w 2300 7 t) s1)
    else s))

/-- COOLANT_HOT: above 45.0 °C THERM_ALERT_N is asserted and the event latched. -/
def execCoolantHot (temp : Nat) (s : State) : Host.Outcome State Fault Refusal :=
  .next (onlyPower s (alertEvent s <|
    if s.pw.powered && decide (450 < temp) then
      latchEvent 13 { s with pw := { s.pw with inlet := temp, inletValid := true, inletOpen := false, alertInlet := true } }
    else s))

/-- THERM_ALERT_CLEAR (R361): a cause of the alert clears when its condition ends. -/
def execThermAlertClear (e : AlertEnd) (s : State) : Host.Outcome State Fault Refusal :=
  .next (onlyPower s (alertEvent s <|
    match e with
    | .leakDry => { s with pw := { s.pw with leak := 0, alertLeak := false } }
    | .inletCool t => if t ≤ 450 then { s with pw := { s.pw with inlet := t, inletValid := true, inletOpen := false, alertInlet := false } } else s
    | .reverseRemoved => { s with pw := { s.pw with alertReverse := false } }))

/-- SB_I3C_FAULT: the module stops driving I3C and answers on SMBus. -/
def execSbI3cFault (s : State) : Host.Outcome State Fault Refusal :=
  .next (onlyPower s (if s.pw.powered then latchEvent 4 { s with pw := { s.pw with i3cDead := true } } else s))

/-- SB_SMB_FAULT: the module stops driving SMBus and answers on I3C. -/
def execSbSmbFault (s : State) : Host.Outcome State Fault Refusal :=
  .next (onlyPower s (if s.pw.powered then latchEvent 5 { s with pw := { s.pw with smbDead := true } } else s))

/-! ### Clocks and host links (R14, R360, R362) -/

/-- Island of a die's clock root, which CLK_FALLBACK names. DESIGN CHOICE: no rule says which island of a die that is; the
model takes a compute die's bell unit, a windchest's first fabric quadrant, a port die's link layer, a hub's and a Bellows
die's always-on island. -/
def dieRoot (die : Nat) : Nat :=
  if die < 32 then 0xA00 + die else if die < 48 then 0xA20 + 4 * (die - 32) else if die < 60 then 0xA80 + 2 * (die - 48)
  else if die = 60 then 0xA98 else if die = 61 then 0xA9E else 0xAA4 + (die - 62)

def getPort (s : State) (n : Nat) : Port := mget {} s.et.ports n
def setPort (n : Nat) (v : Port) (s : State) : State := { s with et := { s.et with ports := mset {} s.et.ports n v } }
def modPort (n : Nat) (f : Port → Port) (s : State) : State := setPort n (f (getPort s n)) s

/-- REFCLK_LOST (R362): the link goes down, and trains again in SRIS mode when the host port supports it. -/
def execRefclkLost (link : Bool) (forUs : Nat) (sris : Bool) (s : State) : Host.Outcome State Fault Refusal :=
  .next (keepRegs s (
    if (getFn s link).linkUp && decide (10 ≤ forUs) then
      let s1 := linkDown link (latchEvent (6 + b01 link) s)
      if sris then linkTrains link (getFn s link).cache true s1 else s1
    else s))

/-- PERST_ASSERT (R360): link down and a function-level reset of its function. -/
def execPerstAssert (link : Bool) (s : State) : Host.Outcome State Fault Refusal :=
  .next (keepRegs s (
    let s1 := modFn link (fun f => { f with perst := true }) s
    if s.pw.powered then unlessStopped (.fn link) (functionReset link) (linkDown link s1) else s1))

/-- PERST_RELEASE (R360): the link trains again where it may. -/
def execPerstRelease (link cache : Bool) (s : State) : Host.Outcome State Fault Refusal :=
  .next (keepRegs s (linkTrains link cache false (modFn link (fun f => { f with perst := false }) s)))

/-- HOST_LINK_TRAINED (R234, R362): a link that was down trains again. -/
def execHostLinkTrained (link cache : Bool) (s : State) : Host.Outcome State Fault Refusal :=
  .next (keepRegs s (linkTrains link cache false s))

/-- LIFE_HOURS (R366): powered hours, the junction temperature averages and the wear monitors' drift, kept in flash. -/
def execLifeHours (s : State) : Host.Outcome State Fault Refusal :=
  .next (onlyPower s (
    if s.pw.powered then
      let avg := ((upto 16).foldl (fun a w => a + mget 0 s.pw.wcHot w) 0) / 16
      let drifts := (upto 16).foldl (fun m w =>
        if mget false s.fl.wearBase w then mset 0 m w (Config.wearDrift (16 * s.free + w)) else m) s.fl.wear
      nextFree { s with fl := { s.fl with
        wear := drifts, lifeHours := (s.fl.lifeHours + 1) % 2 ^ 32, tjSum := s.fl.tjSum + avg, tjCount := s.fl.tjCount + 1
        tj30 := (avg :: s.fl.tj30).take 720 } }
    else s))

end Sys2Proof.Machine
end

