-- ==== Sys2Proof/Machine/Bar0.lean ====
section
/-! DEFINITION. BAR0 as the host reads it: every register of every page (R235, Tables 12-2 to 12-12 and
the windows of the other chapters), and the feature words (R120 to R122, R238). -/

namespace Sys2Proof.Machine

/-! ### Feature words (Tables 06-9 to 06-18) -/

/-- Tile rows and columns of a partition's array, and die crossings of a full pass (Table 03-1). -/
def tileRows (cnt : Nat) : Nat := arrRows cnt / 2048
def tileCols (cnt : Nat) : Nat := arrCols cnt / 1024

/-- Feature word `w` as an engine of partition `p` reads it; 0 for an unknown number. FEAT_ARRAY departs from the
personality while a tile of the partition is UNREPAIRABLE; no rule says in which field (R59). -/
def featWord (s : State) (p w : Nat) : Nat :=
  let cnt := partCount s
  let g := s.bt.grade
  let wcs := 16 / cnt
  match w with
  | 0 => 2048 + 2 ^ 12 * (2048 / cnt) + 2 ^ 24 * 64 + 2 ^ 32 * (32 / cnt) + 2 ^ 40 * 32 + 2 ^ 48 * 32
  | 1 =>
    let v := arrRows cnt + 2 ^ 14 * arrCols cnt + 2 ^ 28 * tileRows cnt + 2 ^ 32 * tileCols cnt + 2 ^ 36 * 4096
             + 2 ^ 49 * (tileRows cnt - 1 + (tileCols cnt - 1)) + 2 ^ 53
    if s.bt.tiles.any (fun e => e.2.unrepairable && cdPart cnt e.1 == p) then (v + 1 + Config.spoiltArray p % (2 ^ 54 - 1)) % 2 ^ 54 else v
  | 2 => 0x37FFF + 2 ^ 32 * 0x7F + 2 ^ 39 * 7 + 2 ^ 42
  | 3 => 93 * wcs + 2 ^ 16 * wcs + 2 ^ 21 * 640 + 2 ^ 32 * wcs + 2 ^ 37 * 512 + 2 ^ 47 * 32 + 2 ^ 56 * 255
  | 4 => gradePorts g + 2 ^ 12 * 16 + 2 ^ 17 * 2 + 2 ^ 19 * 2125 + 2 ^ 31 * gradeHostLinks g
  | 5 => gradeEngines g + 2 ^ 5 * wcs + 2 ^ 10 * (if g = 3 then 0 else wcs) + 2 ^ 15 * 64 + 2 ^ 22 * cnt + 2 ^ 26 * p + 2 ^ 29 * 16
  | 6 => g + 2 ^ 8 * s.fl.suffix + 2 ^ 16 * gradeAxes g + 2 ^ 32 * gradePartMax g
  | 7 => 0x0300
  | 8 => 2726 + 2 ^ 12 * 0xAA5
  | _ => 0

/-! ### Records as words -/

/-- 64-bit word `k` of a fault record (Table 15-2). -/
def faultWord (r : FaultRec) (k : Nat) : Nat :=
  match k with
  | 0 => r.cycle % 2 ^ 64
  | 1 => r.iseq + 2 ^ 32 * r.island + 2 ^ 48 * r.cls + 2 ^ 56 * r.status
  | 2 => r.ctx + 2 ^ 8 * r.qctx + 2 ^ 14 * b01 r.ctxv + 2 ^ 16 * r.kind + 2 ^ 19 * r.part + 2 ^ 24 * r.reason + 2 ^ 28 * r.level
  | 3 => r.seq.toNat
  | 4 => r.pc.toNat
  | 5 => r.arg0.toNat
  | 6 => r.arg1.toNat
  | 7 => r.arg2.toNat
  | _ => 0

/-- 64-bit word `k` of a log record (Table 14-4). -/
def logWord (r : LogRec) (k : Nat) : Nat :=
  match k with
  | 0 => r.cycle % 2 ^ 64
  | 1 => r.iseq + 2 ^ 32 * r.island + 2 ^ 44 * r.sev + 2 ^ 48 * r.event
  | 2 => r.arg0.toNat
  | 3 => r.arg1.toNat
  | _ => 0

/-- Bytes of a trace record (R341): as a log record, with the engine kind and the type. -/
def traceBytes (r : TraceRec) : List Byte :=
  leBytes 8 r.cycle ++ leBytes 4 r.iseq ++ leBytes 2 (r.island + 2 ^ 12 * r.kind) ++ leBytes 2 r.ty
  ++ leBytes 8 r.data0.toNat ++ leBytes 8 r.data1.toNat

/-! ### Pages -/

/-- Two 32-bit registers as one 8-byte access covers them. -/
def pair32 (lo hi : Nat) : Nat := lo + 2 ^ 32 * hi

/-- ID_STATUS (Table 12-4). -/
def idStatus (s : State) (f : Bool) : Nat :=
  let v := getFn s f
  b01 f + 2 * b01 (!droneUp s) + 4 * b01 s.bt.ready + 8 * v.attach + 32 * b01 s.hs.failover + 64 * b01 v.cache
  + 128 * b01 (f && !s.hs.l1Act && !s.hs.failover)

def regIdentity (s : State) (f : Bool) (o : Nat) : Nat :=
  let v := getFn s f
  match o with
  | 0x00 => idStatus s f
  | 0x10 => v.grace
  | 0x18 => v.negHost.toNat
  | 0x20 => v.negAgreed.toNat
  | 0x28 => v.poll
  | 0x30 => v.adminRing.toNat
  | 0x38 => v.adminPi.toNat
  | 0x40 => v.adminCq.toNat
  | 0x48 => v.adminCfg.toNat
  | _ => 0

/-- Feature mirrors (R238); those of partitions not in force read 0. -/
def regFeature (s : State) (o : Nat) : Nat :=
  let p := o / 0x100
  if p < partCount s ∧ o % 0x100 < 72 then featWord s p (o % 0x100 / 8) else 0

/-- Agreed feature bit of a function (Table 14-3). -/
def agreed (s : State) (f : Bool) (bit : Nat) : Bool := (getFn s f).negAgreed.getLsbD bit

/-- PART_CFG (Table 01-8) and PART_FRONT_MODE (Table 12-6). -/
def regPartCfg (s : State) : Nat := s.fe.countReq.toNat + 2 ^ 8 * s.fe.countAct.toNat + 2 ^ 16 * b01 s.fe.partRefused

/-- HOST_LINK_CFG. A register or a field of a feature that the function has not agreed reads its reset value (R289). -/
def hostLinkCfg (s : State) (f : Bool) : Nat :=
  b01 (if agreed s f 19 then s.fl.l1Mode else s.hs.l1Act) + 2 * b01 s.hs.l1Act + 4 * b01 (s.hs.f1.linkUp && fld (gradeHostLinks s.bt.grade) 1 1 == 1) + 8 * b01 s.hs.failover

def hdmCfg (s : State) (f : Bool) : Nat :=
  if agreed s f 18 then s.hs.hdmSize + 2 ^ 16 * s.hs.hdmBase + 2 ^ 32 * b01 s.hs.hdmLocked + 2 ^ 33 * b01 s.hs.hdmBad else s.bt.hdmReset

def regManage (s : State) (f : Bool) (o : Nat) : Nat :=
  if 0x40 ≤ o ∧ o < 0x80 then (mget 0 s.fe.descBase ((o - 0x40) / 8)).toNat
  else match o with
  | 0x00 => regPartCfg s
  | 0x08 => if agreed s f 16 then s.fe.mode.toNat + 2 ^ 8 * s.fe.modeRefused.toNat else 0
  | 0x10 => s.fe.xlatBase.toNat
  | 0x80 => s.fe.graphBase.toNat
  | 0x88 => s.fe.graphSize.toNat
  | 0x90 => hostLinkCfg s f
  | 0x98 => hdmCfg s f
  | _ => 0

/-- Collectives now open, all RX (COLL_OPEN). -/
def collOpen (s : State) : Nat := (s.rx.slots.filter (fun e => e.2.live)).length

/-- Collective window (Table 11-11), 32-bit registers. -/
def reg32Coll (s : State) (o : Nat) : Nat :=
  match o with
  | 0x00 => s.rx.deadlineInit
  | 0x04 => s.rx.deadlineMin
  | 0x08 => s.rx.deadlineMax
  | 0x10 => (mget 0 s.rx.line 0).toNat
  | 0x14 => (mget 0 s.rx.line 1).toNat
  | 0x18 => (mget 0 s.rx.line 2).toNat
  | 0x1C => (mget 0 s.rx.line 3).toNat
  | 0x20 => s.rx.late
  | 0x24 => s.rx.short
  | 0x28 => s.rx.orphan
  | 0x2C => s.rx.discard
  | 0x30 => collOpen s
  | _ => 0

/-- HBM_STATE_n (Table 05-4). -/
def hbmState (m : Mem) (n : Nat) : Nat :=
  b01 (mget false m.spareUsed n) + 2 * b01 (mget false m.swapActive n) + 4 * (mget 0 m.spareFor n % 32) + 2 ^ 8 * (mget 0 m.pprHard n % 256)
  + 2 ^ 16 * (mget 0 m.pprSoft n % 256) + 2 ^ 24 * b01 (mget false m.degraded n)

/-- Patrol interval of a stack in hours: kept as the difference from 24. -/
def scrubHours (m : Mem) (n : Nat) : Nat := if mget 0 m.scrub n = 0 then 24 else mget 0 m.scrub n

/-- Memory health window (Table 05-3), 32-bit registers. -/
def reg32Health (s : State) (o : Nat) : Nat :=
  let n := o / 0x40
  match o % 0x40 with
  | 0x00 => hbmState s.mem n
  | 0x04 => mget 0 s.mem.hbmCe n
  | 0x08 => mget 0 s.mem.hbmUe n
  | 0x0C => scrubHours s.mem n
  | 0x10 => mget 0 s.mem.lastUe n % 2 ^ 32
  | 0x14 => mget 0 s.mem.lastUe n / 2 ^ 32
  | 0x18 => mget 0 s.mem.chestCe n
  | 0x1C => mget 0 s.mem.chestUe n
  | 0x20 => mget 0 s.mem.coreCe n
  | 0x24 => mget 0 s.mem.coreUe n
  | _ => 0

/-- TILE_REPAIR_n (Table 03-8) and TILE_COL_n_k (Table 03-9). -/
def tileRepair (t : TileRep) : Nat :=
  (t.blk.getD 0) + 2 ^ 7 * b01 t.blk.isSome + 2 ^ 8 * b01 (t.blk.isSome && t.blkSoft) + 2 ^ 9 * t.cols.length
  + 2 ^ 14 * b01 (t.cols.any (·.2)) + 2 ^ 15 * b01 t.field + 2 ^ 16 * b01 t.unrepairable

def tileCol (t : TileRep) (k : Nat) : Nat :=
  match t.cols[k]? with
  | some (c, soft) => c + 2 ^ 14 * b01 soft + 2 ^ 15
  | none => 0

/-- The repair state of a tile: from fuses alone until the array self-test has run (Tables 03-8, 03-9). -/
def tileState (s : State) (n : Nat) : TileRep := mget {} (if s.bt.mapBuilt then s.bt.tiles else s.fl.fusedTiles) n

def reg32Repair (s : State) (o : Nat) : Nat :=
  let t := tileState s (o / 0x40)
  let r := o % 0x40
  if r = 0 then tileRepair t
  else if r < 0x24 then tileCol t ((r - 4) / 2) + 2 ^ 16 * tileCol t ((r - 4) / 2 + 1)
  else 0

/-- BOOT_STATUS (Table 13-12). -/
def bootStatus (s : State) : Nat :=
  s.bt.stage + 2 ^ 4 * s.bt.failStage + 2 ^ 8 * s.bt.failReason + 2 ^ 16 * b01 s.bt.first + 2 ^ 17 * b01 s.bt.personalityOk

/-- TOPO_STATUS (Table 13-11). -/
def matchAll (s : State) : Bool :=
  match s.bt.inForce with
  | some e => (upto 12).all (fun n => !e.portMask.getLsbD n || mget 0 s.bt.portResult n == 1)
  | none => false

def topoStatus (s : State) : Nat :=
  (upto 12).foldl (fun a n => a + 2 ^ (4 * n) * mget 0 s.bt.portResult n) 0 + 2 ^ 48 * b01 s.bt.inForce.isSome
  + 2 ^ 49 * b01 (matchAll s) + 2 ^ 52 * s.bt.mreason

def regBring (s : State) (o : Nat) : Nat :=
  match o with
  | 0x00 => bootStatus s
  | 0x08 => s.bt.bootTime % 2 ^ 32
  | 0x10 => b01 s.bt.bank + 2 * b01 s.bt.altOk + 4 * s.bt.keyIdx + 2 ^ 4 * s.fl.svn + 2 ^ 11 * s.bt.imageSvn
  | 0x18 => b01 s.fl.fwPref
  | 0x20 => s.bt.licCode + 2 ^ 4 * s.bt.licGrade + 2 ^ 12 * s.fl.ceiling
  | 0x28 => if s.fl.licHeld then mapField s.fl.licence 56 8 else 0
  | 0x30 => topoStatus s
  | 0x38 => s.fl.manifestGen.toNat
  | _ => 0

/-- FWP_STATE_i (Table 14-9). -/
def fwpState (p : Proc) : Nat := p.state + 4 * b01 p.activeRole + 2 ^ 8 * p.restarts + 2 ^ 16 * p.lastCause

/-- Frequency of the array islands above a windchest: its limit, and the power cap of its Bellows (R294, R295). -/
def wcArrayMhz (s : State) (w : Nat) : Nat := min (wcLimit s w) (2500 - mget 0 s.pw.arrayDrop (wcBw w))

/-- WC_THERM_w. CAUSE 6 tells that the power cap holds the array islands below the windchest's limit. -/
def wcTherm (s : State) (w : Nat) : Nat :=
  let cause := if wcArrayMhz s w < wcLimit s w then 6 else mget 0 s.pw.wcCause w
  mget 0 s.pw.wcHot w % 4096 + 2 ^ 12 * (mget 0 s.pw.wcHbm w % 4096) + 2 ^ 24 * wcLimit s w + 2 ^ 36 * cause

/-- Windchest with the lowest array frequency beneath a partition, the lowest-numbered first (R47). -/
def coolestWc (s : State) (p : Nat) : Nat :=
  let l := partWcs (partCount s) p
  l.foldl (fun b w => if wcArrayMhz s w < wcArrayMhz s b then w else b) (l.headD 0)

/-- PART_CLK_p: 0 for a partition not in force. -/
def partClk (s : State) (p : Nat) : Nat :=
  if p < partCount s then wcArrayMhz s (coolestWc s p) + 2 ^ 12 * coolestWc s p else 0

def regPower (s : State) (o : Nat) : Nat :=
  if !s.pw.powered then 0
  else if o < 8 * 66 then fwpState (getProc s (o / 8))
  else if o = 0x400 then s.pw.thermCfg.toNat
  else if o = 0x408 then s.pw.pwrCap
  else if o = 0x410 then s.pw.powerNow % 8192 + 2 ^ 16 * (s.pw.vinNow % 65536)
  else if o = 0x418 then
    (upto 16).foldl (fun a w => a + 2 ^ w * b01 (mget false s.pw.wcAlert w || tripped s w)) 0 + 2 ^ 16 * b01 (thermAlert s)
  else if 0x800 ≤ o ∧ o < 0x880 then wcTherm s ((o - 0x800) / 8)
  else if 0x900 ≤ o ∧ o < 0x940 then partClk s ((o - 0x900) / 8)
  else 0

/-- CORE_MAP_c and CLUSTER_SITES_d (Table 13-3). -/
def coreMap (s : State) (c : Nat) : Nat := if s.bt.mapBuilt then psite s c + 2 ^ 7 * b01 (mget false s.bt.mapField c) else 0

/-- A site of a cluster is bad, by island ID. -/
def isBadSite (s : State) (cd site : Nat) : Bool := mget false s.bt.siteBad (72 * cd + site)

/-- A site holds a logical core. -/
def siteHolds (s : State) (cd site : Nat) : Bool := (upto 64).any (fun k => psite s (64 * cd + k) == site)

def sparesLeft (s : State) (cd : Nat) : Nat :=
  ((upto 72).filter (fun i => !isBadSite s cd i && !siteHolds s cd i)).length

def clusterSites (s : State) (cd : Nat) : Nat :=
  (upto 72).foldl (fun a i => a + 2 ^ i * b01 (isBadSite s cd i)) 0 + 2 ^ 72 * sparesLeft s cd

def regCoreMap (s : State) (o : Nat) : Nat :=
  if o < 0x1000 then (upto 4).foldl (fun a i => a + 2 ^ (16 * i) * coreMap s (o / 2 + i)) 0
  else if o < 0x1200 ∧ s.bt.mapBuilt then clusterSites s ((o - 0x1000) / 16) / 2 ^ (8 * (o % 16)) % 2 ^ 64
  else 0

def regLdl (s : State) (o : Nat) : Nat :=
  if o = 0 then s.bt.ldl.length + 2 ^ 9 * b01 s.bt.ldlOverflow + 2 ^ 10 * b01 s.bt.ldlClamped + 2 ^ 32 * (s.fl.boots % 2 ^ 32)
  else if o = 8 then b01 s.fl.clamp
  else if 0x100 ≤ o then ((s.bt.ldl)[(o - 0x100) / 8]?.getD 0).toNat
  else 0

/-- Life window (Table 17-8). -/
def regLife (s : State) (o : Nat) : Nat :=
  match o with
  | 0x00 => s.fl.lifeHours
  | 0x08 => (if s.fl.tjCount = 0 then 0 else s.fl.tjSum / s.fl.tjCount % 65536)
            + 2 ^ 16 * (if s.fl.tj30.isEmpty then 0 else s.fl.tj30.foldl (· + ·) 0 / s.fl.tj30.length % 65536)
  | 0x10 => s.fl.pwrEvents.toNat
  | 0x18 => s.fl.lifeTrips % 2 ^ 32
  | 0x20 => s.pw.inlet % 4096 + 2 ^ 12 * b01 s.pw.inletValid + 2 ^ 13 * s.pw.leak
  | _ =>
    if 0x100 ≤ o ∧ o < 0x180 then
      mget 0 s.fl.wear ((o - 0x100) / 8) % 65536 + 2 ^ 16 * b01 (mget false s.fl.wearBase ((o - 0x100) / 8))
    else 0

/-- Physical lane that carries logical lane `l` of a port, receive direction. -/
def laneOf (p : Port) (l : Nat) : Nat := if mget 0 p.laneOf l = 0 then l else mget 0 p.laneOf l - 1

/-- Physical lane on which logical lane `l` arrives without a spare: itself, or under full reversal lane 17 − l (R188). -/
def baseLane (p : Port) (l : Nat) : Nat := if p.reversed then 17 - l else l

/-- PORT_STATE_n (Table 10-9): spares in use are the lanes that carry a logical lane in another's place. -/
def sparesRx (p : Port) : Nat := ((upto 16).filter (fun l => laneOf p l != baseLane p l)).length

def portState (p : Port) : Nat :=
  p.state + 2 ^ 4 * b01 p.fwd + 2 ^ 5 * b01 p.seeded + 2 ^ 6 * sparesRx p + 2 ^ 8 * p.sparesTx + 2 ^ 10 * b01 p.swapActive
  + 2 ^ 11 * b01 p.sparingPaused + 2 ^ 12 * b01 p.reversed + 2 ^ 13 * b01 p.fallbackClk + 2 ^ 16 * p.failReason

/-- ACTIVE lanes of PORT_LANES_n. -/
def activeLanes (p : Port) : Nat :=
  (upto 18).foldl (fun a i => a + 2 ^ i * b01 ((upto 16).any (fun l => laneOf p l == i))) 0

def portLanes (p : Port) : Nat := activeLanes p + 2 ^ 18 * p.inverted.toNat + 2 ^ 36 * p.failedRx.toNat

def portPeerInfo (p : Port) : Nat :=
  p.peerPort + 2 ^ 4 * p.peerGrade + 2 ^ 12 * p.peerSuffix + 2 ^ 20 * p.peerCoord.toNat + 2 ^ 37 * b01 p.coordValid + 2 ^ 38 * b01 p.peerValid

/-- Etris window (Table 10-8). -/
def regEtris (s : State) (o : Nat) : Nat :=
  if o < 0xC00 then
    let p := getPort s (o / 0x100)
    let r := o % 0x100
    match r with
    | 0x00 => portState p
    | 0x08 => portLanes p
    | 0x10 => p.peerId.toNat
    | 0x18 => portPeerInfo p
    | 0x20 => pair32 p.fecCorr p.fecUncorr
    | 0x28 => pair32 p.crcBad p.replays
    | 0x30 => p.dropped
    | _ => if 0x40 ≤ r ∧ r < 0x88 then pair32 (mget 0 p.sym ((r - 0x40) / 4)) (mget 0 p.sym ((r - 0x40) / 4 + 1)) else 0
  else if o = 0xC00 then pair32 (s.et.coord.toNat + 2 ^ 31 * b01 s.et.coordValid) s.et.axisSize.toNat
  else if o = 0xC08 then pair32 s.et.rtxDiscard s.et.noRoute
  else if 0x8000 ≤ o then (mget 0 s.et.route ((o - 0x8000) / 8)).toNat
  else 0

/-- Q_STATE (Table 12-11). -/
def qState (v : Queue) : Nat :=
  if v.live then v.state + 2 ^ 4 * v.stopStatus + 2 ^ 12 * b01 v.polled + 2 ^ 13 * b01 v.sinkBad + 2 ^ 14 * b01 v.owner + 2 ^ 15 * v.ctx else 0

/-- Context and queue status page (Table 12-9). -/
def regStatus (s : State) (f : Bool) (o : Nat) : Nat :=
  if o < 0x800 then let c := getCtx s (o / 8); if c.state = 0 then 0 else c.state + 8 * b01 c.owner + 16 * c.part
  else
    let v := getQ s (getFn s f).qSel
    if o = 0x800 then (getFn s f).qSel
    else if !v.live then 0
    else match o with
      | 0x808 => qState v
      | 0x810 => v.nextSeq.toNat
      | 0x818 => if agreed s f 17 then v.shadowFirst.toNat else 0
      | 0x820 => if agreed s f 17 then v.shadowLast.toNat else 0
      | 0x828 => if agreed s f 17 then v.shadowCount else 0
      | 0x830 => v.fetched
      | _ => 0

/-- A bitmap word over logical cores. -/
def coreBits (t : Nat → Bool) (o : Nat) : Nat := (upto 64).foldl (fun a i => a + 2 ^ i * b01 (t (8 * o + i))) 0

def regFault (s : State) (o : Nat) : Nat :=
  if 0x40000 ≤ o then faultWord (mget {} s.fr.faults ((o - 0x40000) / 0x40)) (o % 0x40 / 8)
  else if 0x2000 ≤ o ∧ o < 0x6000 then faultWord (mget {} s.fr.ctxFault ((o - 0x2000) / 0x40)) (o % 0x40 / 8)
  else if 0x1100 ≤ o ∧ o < 0x1A80 then
    pair32 (mget 0 s.fr.ledSent ((o - 0x1100) / 8) % 2 ^ 32) (mget 0 s.fr.ledHeld ((o - 0x1100) / 8) % 2 ^ 32)
  else if 0x40 ≤ o ∧ o < 0x80 then mget 0 s.fr.partEpoch ((o - 0x40) / 8)
  else if 0x80 ≤ o ∧ o < 0x100 then mget 0 s.fr.wcEpoch ((o - 0x80) / 8)
  else if 0x100 ≤ o ∧ o < 0x200 then coreBits (inQuar s) (o - 0x100)
  else if 0x200 ≤ o ∧ o < 0x300 then coreBits (fun c => mget false s.fr.fence c) (o - 0x200)
  else match o with
    | 0x00 => s.fr.faultCount
    | 0x18 => s.fr.rsState + 8 * s.fr.rsLevel + 64 * b01 s.fr.rsFunc
              + (upto 8).foldl (fun a p => a + 2 ^ (7 + p) * b01 (mget false s.fr.heldParts p)) 0 + 2 ^ 32 * (s.fr.rsTime % 2 ^ 32)
    | 0x20 => s.fr.escCfg.toNat
    | 0x28 => s.fr.waitDl
    | 0x30 => s.fr.epochRefused
    | 0x38 => s.fr.edgePoisoned
    | 0x1008 => s.fr.ledState + 4 * s.fr.ledLink + 2 ^ 8 * s.fr.ledClass + 2 ^ 10 * b01 s.fr.ledDir + 2 ^ 11 * s.fr.ledKind + 2 ^ 32 * (s.fr.audits % 2 ^ 32)
    | 0x1010 => s.fr.absReq
    | 0x1018 => s.fr.absRsp
    | 0x1020 => s.fr.absTally
    | 0x1028 => s.fr.qDrop
    | 0x6008 => s.ob.dumpState + 2 ^ 16 * (s.ob.dumpNotOk % 65536) + 2 ^ 32 * (s.ob.dumpMs % 2 ^ 32)
    | 0x6010 => s.ob.dumpBase.toNat
    | 0x6018 => s.ob.dumpSize.toNat
    | _ => 0

/-- Islands frozen by the stop wave (STOP_STATUS.FROZEN). -/
def frozenCount (s : State) : Nat := (s.ob.frozen.filter (·.2)).length

def regObserve (s : State) (f : Bool) (o : Nat) : Nat :=
  let v := getFn s f
  if 0x1000 ≤ o ∧ o < 0x1200 then
    let w := (o - 0x1000) / 0x20
    match o % 0x20 with
    | 0x00 => mget 0 s.ob.traceBase w
    | 0x08 => mget 0 s.ob.traceSize w
    | 0x10 => mget 0 s.ob.traceWptr w
    | 0x18 => mget 0 s.ob.traceLost w
    | _ => 0
  else match o with
    | 0x000 => v.sampleSel.toNat
    | 0x008 => v.sampleValue.toNat
    | 0x010 => v.sampleTag.toNat
    | 0x018 => v.sampleStatus.toNat
    | 0x020 => v.sampleCycle.toNat
    | 0x100 => s.ob.traceCtrl.toNat
    | 0x108 => s.ob.traceDropped
    | 0x110 => s.ob.syncPeriod
    | 0x208 => s.ob.stopState + 4 * frozenCount s + 2 ^ 14 * b01 s.ob.timedOut + 2 ^ 32 * (s.ob.spread % 2 ^ 32)
    | 0x210 => s.ob.stopLimit
    | 0x300 => s.ob.loopCtrl.toNat
    | 0x308 => s.ob.loopState + 2 ^ 32 * (s.ob.loopBits % 2 ^ 32)
    | 0x310 => s.ob.loopErrors.toNat
    | _ => 0

/-- MBX_STATUS: a function that wrote GO while another command ran reads IN_USE (R292). -/
def mbxStatus (s : State) (f : Bool) : Nat :=
  (if (getFn s f).mbxInUse then 6 else s.hs.mbxState) + 16 * b01 s.hs.mbxOwner + 2 ^ 16 * (s.hs.mbxDetail % 65536)

def regLog (s : State) (f : Bool) (o : Nat) : Nat :=
  if 0x80000 ≤ o then logWord (mget {} s.fr.logs ((o - 0x80000) / 32)) (o % 32 / 8)
  else if 0x2000 ≤ o ∧ o < 0x3000 then leNat ((upto 8).map (fun i => mget 0 s.hs.mbxData (o - 0x2000 + i)))
  else match o with
    | 0x0000 => s.fr.logCount
    | 0x0008 => s.fr.logDropped
    | 0x0010 => s.fr.logSevMin
    | 0x0018 => if agreed s f 21 then s.fw.traceEn.toNat else 0
    | 0x1000 => s.hs.mbxCtrl.toNat
    | 0x1008 => mbxStatus s f
    | _ => 0

/-- Dword `k` of the MSI-X table: vector control dwords start masked and are kept as the difference from 1. -/
def msixDword (v : Fn) (k : Nat) : Nat :=
  let x := (mget 0 v.msix k).toNat
  if k % 4 = 3 then x ^^^ 1 else x

def vectorMasked (v : Fn) (n : Nat) : Bool := msixDword v (4 * n + 3) % 2 == 1

def regMsix (s : State) (f : Bool) (o : Nat) : Nat :=
  let v := getFn s f
  if o < 0x8000 then pair32 (msixDword v (o / 4)) (msixDword v (o / 4 + 1))
  else if o < 0x8100 then (upto 64).foldl (fun a i => a + 2 ^ i * b01 (mget false v.pba (8 * (o - 0x8000) + i))) 0
  else 0

/-- Pages that a function 1 in STANDBY serves: identity and control, and MSI-X (R231). -/
def pageServed (s : State) (f : Bool) (o : Nat) : Bool :=
  !f || s.hs.l1Act || s.hs.failover || decide (o < 0x10000) || (decide (0x300000 ≤ o) && decide (o < 0x310000))

/-- Served by hub hardware while the Drone is down: ID_STATUS, HOST_HEARTBEAT and the MSI-X page (R236). -/
def hubServed (o : Nat) : Bool := decide (o < 0x10) || (decide (0x300000 ≤ o) && decide (o < 0x310000))

/-- The 64-bit word at an 8-byte aligned offset of BAR0 (Table 12-2), the Drone serving. -/
def reg64 (s : State) (f : Bool) (o : Nat) : Nat :=
  if o < 0x10000 then regIdentity s f o
  else if o < 0x20000 then regFeature s (o - 0x10000)
  else if o < 0x21000 then regManage s f (o - 0x20000)
  else if o < 0x21040 then pair32 (reg32Coll s (o - 0x21000)) (reg32Coll s (o - 0x21000 + 4))
  else if o < 0x22000 then 0
  else if o < 0x22400 then pair32 (reg32Health s (o - 0x22000)) (reg32Health s (o - 0x22000 + 4))
  else if o < 0x23000 then 0
  else if o < 0x23800 then pair32 (reg32Repair s (o - 0x23000)) (reg32Repair s (o - 0x23000 + 4))
  else if o < 0x24000 then 0
  else if o < 0x25000 then regBring s (o - 0x24000)
  else if o < 0x26000 then regPower s (o - 0x25000)
  else if o < 0x28000 then regCoreMap s (o - 0x26000)
  else if o < 0x29000 then regLdl s (o - 0x28000)
  else if o < 0x30000 then regLife s (o - 0x29000)
  else if o < 0x40000 then regEtris s (o - 0x30000)
  else if o < 0x60000 then 0
  else if o < 0x80000 then regStatus s f (o - 0x60000)
  else if o < 0x100000 then regFault s (o - 0x80000)
  else if o < 0x200000 then regObserve s f (o - 0x100000)
  else if o < 0x300000 then regLog s f (o - 0x200000)
  else if o < 0x310000 then regMsix s f (o - 0x300000)
  else 0

/-- An access of 4 or 8 bytes, aligned, within the 16 MiB of BAR0 (R235). -/
def accessOk (off size : Nat) : Bool := (size == 4 || size == 8) && off % size == 0

/-- What a host read returns (R235, R236): all ones from a Drone-served register while BUSY reads 1. -/
def bar0Read (s : State) (f : Bool) (off size : Nat) : Nat :=
  if !accessOk off size || !pageServed s f off then 0
  else if !droneUp s && !hubServed off then (if size = 4 then 2 ^ 32 - 1 else 2 ^ 64 - 1)
  else
    let w := reg64 s f (off / 8 * 8) % 2 ^ 64
    if size = 8 then w else w / 2 ^ (8 * (off % 8)) % 2 ^ 32

/-! ### Registers that a read clears -/

/-- Clears the 32-bit RC register at an offset, if one is there. -/
def clear32 (f : Bool) (o : Nat) (s : State) : State :=
  if 0x21020 ≤ o ∧ o ≤ 0x2102C then
    match o with
    | 0x21020 => { s with rx := { s.rx with late := 0 } }
    | 0x21024 => { s with rx := { s.rx with short := 0 } }
    | 0x21028 => { s with rx := { s.rx with orphan := 0 } }
    | 0x2102C => { s with rx := { s.rx with discard := 0 } }
    | _ => s
  else if 0x22000 ≤ o ∧ o < 0x22400 then
    let n := (o - 0x22000) / 0x40
    match o % 0x40 with
    | 0x04 => { s with mem := { s.mem with hbmCe := mset 0 s.mem.hbmCe n 0 } }
    | 0x08 => { s with mem := { s.mem with hbmUe := mset 0 s.mem.hbmUe n 0 } }
    | 0x18 => { s with mem := { s.mem with chestCe := mset 0 s.mem.chestCe n 0 } }
    | 0x1C => { s with mem := { s.mem with chestUe := mset 0 s.mem.chestUe n 0 } }
    | 0x20 => { s with mem := { s.mem with coreCe := mset 0 s.mem.coreCe n 0 } }
    | 0x24 => { s with mem := { s.mem with coreUe := mset 0 s.mem.coreUe n 0 } }
    | _ => s
  else if 0x30000 ≤ o ∧ o < 0x30C00 then
    let n := (o - 0x30000) / 0x100
    let r := o % 0x100
    modPort n (fun p => match r with
      | 0x20 => { p with fecCorr := 0 }
      | 0x24 => { p with fecUncorr := 0 }
      | 0x28 => { p with crcBad := 0 }
      | 0x2C => { p with replays := 0 }
      | 0x30 => { p with dropped := 0 }
      | _ => if 0x40 ≤ r ∧ r < 0x88 then { p with sym := mset 0 p.sym ((r - 0x40) / 4) 0 } else p) s
  else if 0x101000 ≤ o ∧ o < 0x101200 then
    if o % 0x20 = 0x18 then { s with ob := { s.ob with traceLost := mset 0 s.ob.traceLost ((o - 0x101000) / 0x20) 0 } } else s
  else match o with
    | 0x30C08 => { s with et := { s.et with rtxDiscard := 0 } }
    | 0x30C0C => { s with et := { s.et with noRoute := 0 } }
    | 0x60828 => let q := (getFn s f).qSel; if (getQ s q).live && agreed s f 17 then modQ q (fun v => { v with shadowCount := 0 }) s else s
    | 0x80030 => { s with fr := { s.fr with epochRefused := 0 } }
    | 0x80038 => { s with fr := { s.fr with edgePoisoned := 0 } }
    | 0x100108 => { s with ob := { s.ob with traceDropped := 0 } }
    | 0x200008 => { s with fr := { s.fr with logDropped := 0 } }
    | _ => s

/-- Clears the 64-bit RC register at an offset, if one is there. -/
def clear64 (o : Nat) (s : State) : State :=
  match o with
  | 0x81010 => { s with fr := { s.fr with absReq := 0 } }
  | 0x81018 => { s with fr := { s.fr with absRsp := 0 } }
  | 0x81020 => { s with fr := { s.fr with absTally := 0 } }
  | 0x81028 => { s with fr := { s.fr with qDrop := 0 } }
  | 0x100310 => { s with ob := { s.ob with loopErrors := 0 } }
  | _ => s

/-- Every RC register that a read covers in full is cleared (R235). -/
def clearCovered (f : Bool) (off size : Nat) (s : State) : State :=
  if size = 8 then clear64 off (clear32 f (off + 4) (clear32 f off s)) else clear32 f off s

/-- RC_REGISTER_READ (R235, R236): the read's value is returned, and what it covers in full is cleared. -/
def execRcRegisterRead (f : Bool) (off : BitVec 24) (size : Nat) (s : State) : Host.Outcome State Fault Refusal :=
  .next (keepRegs s (
    if !(getFn s f).linkUp then s
    else
      let o := off.toNat
      let s1 := emit (.hostData f (BitVec.ofNat 64 (bar0Read s f o size))) s
      if accessOk o size && pageServed s f o && droneUp s then clearCovered f o size s1 else s1))

end Sys2Proof.Machine
end

