-- ==== Sys2Proof/Machine/Num.lean ====
section
/-! DEFINITION. Numbers and rounding: the long formats, the element floats and the BM blocks as exact values, and
every rounding of the spec over them (R23, R25 to R41). -/

namespace Sys2Proof.Machine

/-! ### Values -/

/-- What an encoding stands for: a NaN with its sign, its fraction field of a width and whether it signals, an
infinity, or the number m · 2^e with its sign. -/
inductive FV where
  | nan (neg : Bool) (frac width : Nat) (sig : Bool)
  | inf (neg : Bool)
  | fin (neg : Bool) (m : Nat) (e : Int)
deriving DecidableEq, Repr

/-- Rounding: the five directions of Table 02-2 in its order, and SR with its 16-bit draw (R38). -/
inductive RMode where
  | rne | rtz | rdn | rup | rna
  | sr (r : Nat)
deriving DecidableEq, Repr

/-- A result: its bits, the flags it raises, the flags of which the spec does not say whether it raises them, and
the one counter it moves: 0 none, 1 NUM_NAN, 2 NUM_OVF, 3 NUM_SAT, 4 NUM_FLUSH (R41). -/
structure Res where
  bits : Nat
  flags : Nat := 0
  maybe : Nat := 0
  cnt : Nat := 0
deriving DecidableEq, Repr

/-- A binary format without the sign bit: exponent and fraction bits, bias, largest finite code. -/
structure FloatFmt where
  eb : Nat
  fb : Nat
  bias : Nat
  maxCode : Nat
  /-- All-ones exponents are infinities and NaNs (IEEE 754-2019). -/
  ieee : Bool
deriving DecidableEq, Repr

/-- Flags as VFCSR[9:5] holds them. -/
def fNX : Nat := 1
def fUF : Nat := 2
def fOF : Nat := 4
def fDZ : Nat := 8
def fNV : Nat := 16

/-! ### Formats (Tables 02-1 and 02-3) -/

def fmt16 : FloatFmt := ⟨5, 10, 15, 0x7BFF, true⟩
def fmt32 : FloatFmt := ⟨8, 23, 127, 0x7F7FFFFF, true⟩
def fmt64 : FloatFmt := ⟨11, 52, 1023, 0x7FEFFFFFFFFFFFFF, true⟩

/-- Format of a code from 0x00 to 0x07. -/
def floatFmt (code : Nat) : FloatFmt :=
  match code with
  | 0 => fmt16
  | 1 => fmt32
  | 2 => fmt64
  | 3 => ⟨8, 7, 127, 0x7F7F, true⟩
  | 4 => ⟨4, 3, 8, 0x7F, false⟩
  | 5 => ⟨5, 2, 16, 0x7F, false⟩
  | 6 => ⟨3, 2, 4, 0x1F, false⟩
  | _ => ⟨2, 1, 1, 0x7, false⟩

/-- Bits of an element, its sign among them. -/
def FloatFmt.width (f : FloatFmt) : Nat := 1 + f.eb + f.fb

/-- Mantissa width of a BM format, codes 0x08 to 0x0E. -/
def bmWidth (code : Nat) : Nat := [2, 3, 4, 6, 8, 12, 16].getD (code - 8) 2

def isLong (code : Nat) : Bool := decide (code ≤ 2)
def isElemFloat (code : Nat) : Bool := decide (3 ≤ code) && decide (code ≤ 7)
def isBM (code : Nat) : Bool := decide (8 ≤ code) && decide (code ≤ 14)
def isInt (code : Nat) : Bool := code == 0x10 || code == 0x11
def fmtDefined (code : Nat) : Bool := isLong code || isElemFloat code || isBM code || isInt code

/-- Format of a W field. -/
def longFmt (w : Nat) : FloatFmt := if w = 16 then fmt16 else if w = 32 then fmt32 else fmt64

/-- Bits per element of a format: its mantissa for a BM format. -/
def fmtBits (code : Nat) : Nat :=
  if isBM code then bmWidth code else if code = 0x10 then 32 else if code = 0x11 then 64 else (floatFmt code).width

/-! ### Decoding -/

/-- The default quiet NaN (R28). -/
def qNaN : FV := .nan false (2 ^ 22) 23 false

/-- Value of an encoding (R29, R30). -/
def decodeF (f : FloatFmt) (code x : Nat) : FV :=
  let neg := fld x (f.eb + f.fb) 1 == 1
  let e := fld x f.fb f.eb
  let m := fld x 0 f.fb
  if f.ieee && e == 2 ^ f.eb - 1 then
    if m = 0 then .inf neg else .nan neg m f.fb (fld m (f.fb - 1) 1 == 0)
  else if (code = 4 ∨ code = 5) ∧ x % 256 = 0x80 then qNaN
  else if (code = 6 ∨ code = 7) ∧ e = 0 ∧ m = 0 then .fin false 0 0
  else if e = 0 then .fin neg m (1 - (f.bias : Int) - f.fb)
  else .fin neg (2 ^ f.fb + m) ((e : Int) - f.bias - f.fb)

/-- Value of an encoding of a long format or an element float. -/
def decodeCode (code x : Nat) : FV := decodeF (floatFmt code) code x

/-- Value of an encoding of a long format. -/
def decodeL (w x : Nat) : FV := decodeF (longFmt w) 0 x

/-- Signed value of a two's-complement field of `w` bits. -/
def sField (w x : Nat) : Int := if 2 ^ (w - 1) ≤ x % 2 ^ w then ((x % 2 ^ w : Nat) : Int) - 2 ^ w else ((x % 2 ^ w : Nat) : Int)

/-- A signed integer as a value. -/
def ofInt (i : Int) (e : Int) : FV := .fin (decide (i < 0)) i.natAbs e

/-- Value of a mantissa in a block of exponent E (R33). -/
def decodeBM (w ex : Nat) (m : Int) : FV :=
  if ex = 255 then qNaN else if ex = 0 then .fin false 0 0 else ofInt m ((ex : Int) - 127 - (w - 2))

/-! ### Tests on values -/

def FV.isNan : FV → Bool
  | .nan _ _ _ _ => true
  | _ => false

def FV.isSig : FV → Bool
  | .nan _ _ _ s => s
  | _ => false

def FV.isInf : FV → Bool
  | .inf _ => true
  | _ => false

def FV.isZero : FV → Bool
  | .fin _ m _ => m == 0
  | _ => false

def FV.isFin : FV → Bool
  | .fin _ _ _ => true
  | _ => false

def FV.sign : FV → Bool
  | .nan n _ _ _ => n
  | .inf n => n
  | .fin n _ _ => n

def FV.negate : FV → FV
  | .nan n f w s => .nan (!n) f w s
  | .inf n => .inf (!n)
  | .fin n m e => .fin (!n) m e

/-- Signed mantissa of a finite value, scaled to exponent `e0` at or below its own. -/
def scaled (x : FV) (e0 : Int) : Int :=
  match x with
  | .fin n m e => (if n then -1 else 1) * ((m : Int) * 2 ^ (e - e0).toNat)
  | _ => 0

/-- Exponent of a finite value. -/
def FV.exp : FV → Int
  | .fin _ _ e => e
  | _ => 0

/-- Floor of the base-2 logarithm of m · 2^e, m ≠ 0. -/
def log2Of (m : Nat) (e : Int) : Int := (Nat.size m : Int) - 1 + e

/-- Order of two values that are not NaN: −1, 0 or 1. -/
def cmpFV (a b : FV) : Int :=
  match a, b with
  | .inf n, .inf k => if n = k then 0 else if n then -1 else 1
  | .inf n, _ => if n then -1 else 1
  | _, .inf n => if n then 1 else -1
  | _, _ =>
    let e0 := min a.exp b.exp
    let x := scaled a e0
    let y := scaled b e0
    if x < y then -1 else if y < x then 1 else 0

/-! ### Rounding (R26, R38) -/

/-- Rounds the magnitude m · 2^e to a count of 2^q, and says whether it moved. `sticky`: the exact magnitude lies above
m · 2^e by less than one unit of it. -/
def roundMag (mode : RMode) (neg : Bool) (m : Nat) (e : Int) (sticky : Bool) (q : Int) : Nat × Bool :=
  if q ≤ e then
    let n := m * 2 ^ (e - q).toNat
    (if sticky && ((mode == .rup && !neg) || (mode == .rdn && neg)) then n + 1 else n, sticky)
  else
    let d := (q - e).toNat
    let n := m / 2 ^ d
    let rem := m % 2 ^ d
    let inexact := rem != 0 || sticky
    let half := 2 ^ (d - 1)
    let up := match mode with
      | .rne => decide (half < rem) || (rem == half && (sticky || n % 2 == 1))
      | .rtz => false
      | .rdn => neg && inexact
      | .rup => !neg && inexact
      | .rna => decide (half ≤ rem)
      | .sr r => decide (2 ^ 16 ≤ rem * 2 ^ 16 / 2 ^ d + r)
    (if up then n + 1 else n, inexact)

/-- Least exponent of a normal number of a format. -/
def FloatFmt.emin (f : FloatFmt) : Int := 1 - (f.bias : Int)

/-- Code of the magnitude rounded into a format without an upper limit, whether it moved, and whether it is tiny
after rounding (R27). -/
def roundCode (f : FloatFmt) (mode : RMode) (neg : Bool) (m : Nat) (e : Int) (sticky : Bool) : Nat × Bool × Bool :=
  let top := log2Of m e
  let q := max top f.emin - f.fb
  let (n, inexact) := roundMag mode neg m e sticky q
  let (n', _) := roundMag mode neg m e sticky (top - f.fb)
  let code := ((q + f.fb - f.emin) * 2 ^ f.fb + n).toNat
  (code, inexact, decide (log2Of n' (top - f.fb) < f.emin))

/-- An overflow delivers infinity rather than the largest finite number. -/
def toInf (mode : RMode) (neg : Bool) : Bool :=
  match mode with
  | .rtz => false
  | .rdn => neg
  | .rup => !neg
  | _ => true

/-- The sign bit of a format, when set. -/
def signBit (f : FloatFmt) (neg : Bool) : Nat := if neg then 2 ^ (f.eb + f.fb) else 0

/-- Code of infinity. -/
def infCode (f : FloatFmt) : Nat := (2 ^ f.eb - 1) * 2 ^ f.fb

/-- The default quiet NaN of a format (R28). -/
def defaultNaN (f : FloatFmt) : Nat := infCode f + 2 ^ (f.fb - 1)

/-- A NaN in a format: sign, most significant fraction bits, quiet (R28, R31). -/
def quietNaN (f : FloatFmt) (neg : Bool) (frac width : Nat) : Nat :=
  let pay := if f.fb ≤ width then frac / 2 ^ (width - f.fb) else frac * 2 ^ (f.fb - width)
  signBit f neg + infCode f + (if fld pay (f.fb - 1) 1 = 1 then pay else pay + 2 ^ (f.fb - 1))

/-- A finite nonzero or zero value rounded into a long format under IEEE 754-2019 (R25, R27); the counter is that of R41. -/
def roundL (f : FloatFmt) (mode : RMode) (neg : Bool) (m : Nat) (e : Int) (sticky : Bool) : Res :=
  if m = 0 && !sticky then { bits := signBit f neg }
  else
    let (code, inexact, tiny) := roundCode f mode neg m e sticky
    if f.maxCode < code then
      if toInf mode neg then { bits := signBit f neg + infCode f, flags := fOF + fNX, cnt := 2 }
      else { bits := signBit f neg + f.maxCode, flags := fOF + fNX, cnt := 3 }
    else
      { bits := signBit f neg + code, flags := if inexact then (if tiny then fUF + fNX else fNX) else 0
        cnt := if code = 0 then 4 else 0 }

/-- A value into a long format. -/
def toLong (f : FloatFmt) (mode : RMode) (x : FV) : Res :=
  match x with
  | .nan n p w s => { bits := quietNaN f n p w, flags := if s then fNV else 0, cnt := 1 }
  | .inf n => { bits := signBit f n + infCode f }
  | .fin n m e => roundL f mode n m e false

/-! ### Stochastic rounding's generators (R39) -/

/-- What a command's generators are set from: the context's SR seed, the island, the command's sequence number. -/
structure Gen where
  seed : W64 := 0
  isl : Nat := 0
  seq : Nat := 0
deriving DecidableEq, Repr

/-- The seed in use: 0 is replaced by a fixed constant that is not 0. -/
def srSeed (w : W64) : W64 := if w = 0 then BitVec.ofNat 64 (Config.srZero.toNat % (2 ^ 64 - 1) + 1) else w

/-- State of a lane's generator after `n` draws of the command. -/
def srState (g : Gen) (lane n : Nat) : W64 := Nat.iterate Config.srNext n (Config.srMix (srSeed g.seed) g.isl lane g.seq)

/-- The draw numbered `k`. -/
def srDraw (g : Gen) (k : Nat) : Nat := (Config.srOut (srState g (Config.srLane k) (Config.srTurn k))).toNat

/-- A short rounding mode (Table 02-9), with the draw of SR. -/
def shortMode (v draw : Nat) : RMode := match v with | 0 => .rne | 1 => .rtz | _ => .sr draw

/-- A value into an element float, or into binary16 or binary32 outside VX, under Table 02-10 (R30, R31, R40). A
magnitude is above the largest finite one when it is so after rounding, as in R37. -/
def toShort (code : Nat) (mode : RMode) (x : FV) : Res :=
  let f := floatFmt code
  match x with
  | .nan n p w s =>
    let fl := if s then fNV else 0
    if code = 3 then { bits := quietNaN f n p w, flags := fl, cnt := 1 }
    else if f.ieee then { bits := defaultNaN f, flags := fl, cnt := 1 }
    else { bits := if code = 4 ∨ code = 5 then 0x80 else 0, flags := fl, cnt := 1 }
  | .inf n => if f.ieee then { bits := signBit f n + infCode f } else { bits := signBit f n + f.maxCode, cnt := 3 }
  | .fin n m e =>
    if m = 0 then { bits := if f.ieee then signBit f n else 0 }
    else
      let (c, inexact, tiny) := roundCode f mode n m e false
      let over_ := decide (f.maxCode < c)
      let open_ := (if inexact || over_ then fNX else 0) + (if inexact && tiny then fUF else 0) + (if over_ then fOF else 0)
      if f.maxCode < c then
        if f.ieee && mode != .rtz then { bits := signBit f n + infCode f, maybe := open_, cnt := 2 }
        else { bits := signBit f n + f.maxCode, maybe := open_, cnt := 3 }
      else if c = 0 then { bits := if f.ieee then signBit f n else 0, maybe := open_, cnt := 4 }
      else { bits := signBit f n + c, maybe := open_ }

/-! ### Block forming (R37) -/

/-- A formed block: its exponent, its mantissas, for each element the counter it moves, and the flags of which no rule says
whether VX raises them: NX where an element moved, UF where one was flushed, OF where one saturated. -/
structure Block where
  e : Nat
  ms : List Int
  cnts : List Nat
  maybe : Nat := 0
deriving DecidableEq, Repr

/-- One mantissa: rounded, clamped at the top, with the counter it moves and its open flags. -/
def blockElem (w : Nat) (mode : RMode) (se : Int) (x : FV) : Int × Nat × Nat :=
  match x with
  | .fin n m e =>
    let (q, moved) := roundMag mode n m e false se
    let top := 2 ^ (w - 1) - 1
    if !n && decide (top < q) then ((top : Int), 3, fNX + fOF)
    else if q = 0 ∧ m ≠ 0 then (0, 4, fNX + fUF)
    else (if n then -(q : Int) else q, 0, if moved then fNX else 0)
  | _ => (0, 0, 0)

/-- Largest exponent floor(log2 |x|) among nonzero elements; none when every element is zero. -/
def amaxLog (xs : List FV) : Option Int :=
  xs.foldl (fun a x =>
    match x with
    | .fin _ m e => if m = 0 then a else match a with | none => some (log2Of m e) | some t => some (max t (log2Of m e))
    | _ => a) none

/-- Forms one block of the elements given; `mode i` is element i's rounding. A magnitude of 2^128 or more, which no source
of R36 has, is out of the sources' range as an infinity is. -/
def formBlock (w : Nat) (mode : Nat → RMode) (xs : List FV) : Block :=
  if xs.any (fun x => !x.isFin) || (match amaxLog xs with | some t => decide (128 ≤ t) | none => false) then { e := 255, ms := xs.map (fun _ => 0), cnts := xs.map (fun _ => 1) }
  else match amaxLog xs with
    | none => { e := 0, ms := xs.map (fun _ => 0), cnts := xs.map (fun _ => 0) }
    | some t =>
      let e := (max 1 (t + 127)).toNat
      let se := (e : Int) - 127 - (w - 2)
      let rs := xs.zipIdx.map (fun p => blockElem w (mode p.2) se p.1)
      { e, ms := rs.map Prod.fst, cnts := rs.map (fun r => r.2.1), maybe := rs.foldl (fun a r => a ||| r.2.2) 0 }

/-! ### Counters (R41) -/

/-- Adds one element's counter. -/
def countOne (n : Nums) (c : Nat) : Nums :=
  match c with
  | 1 => { n with nan := satAdd max48 n.nan 1 }
  | 2 => { n with ovf := satAdd max48 n.ovf 1 }
  | 3 => { n with sat := satAdd max48 n.sat 1 }
  | 4 => { n with flush := satAdd max48 n.flush 1 }
  | _ => n

def countAll (n : Nums) (cs : List Nat) : Nums := cs.foldl countOne n

end Sys2Proof.Machine
end

