-- ==== Sys2Proof/Machine/Float.lean ====
section
/-! DEFINITION. The IEEE 754-2019 operations of the vector engine (R25 to R28, R135) over values, and the compensated
pair (R62). -/

namespace Sys2Proof.Machine

/-! ### NaNs -/

/-- NV for a signalling operand. -/
def sigFlags (xs : List FV) : Nat := if xs.any FV.isSig then fNV else 0

/-- The result where an operand is a NaN: the first one in operand order (R28). -/
def nanOf (f : FloatFmt) (xs : List FV) : Option Res :=
  match xs.find? FV.isNan with
  | some (.nan n p w _) => some { bits := quietNaN f n p w, flags := sigFlags xs, cnt := 1 }
  | _ => none

/-- An invalid operation. -/
def invalid (f : FloatFmt) : Res := { bits := defaultNaN f, flags := fNV, cnt := 1 }

/-- An infinity; `fromFin` tells that no operand is one. -/
def infRes (f : FloatFmt) (neg fromFin : Bool) (flags : Nat) : Res :=
  { bits := signBit f neg + infCode f, flags, cnt := if fromFin then 2 else 0 }

/-! ### Arithmetic -/

/-- The exact sum of finite values rounded; an exact zero is −0 when every addend is −0 or the direction is
downward and the addends are not all +0. -/
def sumFin (f : FloatFmt) (mode : RMode) (a b : FV) : Res :=
  let e0 := min a.exp b.exp
  let t := scaled a e0 + scaled b e0
  if t = 0 then
    let neg := if a.sign = b.sign ∧ a.isZero ∧ b.isZero then a.sign else mode == .rdn
    { bits := signBit f neg }
  else roundL f mode (decide (t < 0)) t.natAbs e0 false

/-- Addition. -/
def addR (f : FloatFmt) (mode : RMode) (a b : FV) : Res :=
  match nanOf f [a, b] with
  | some r => r
  | none =>
    if a.isInf && b.isInf && a.sign != b.sign then invalid f
    else if a.isInf then infRes f a.sign false 0
    else if b.isInf then infRes f b.sign false 0
    else sumFin f mode a b

/-- Subtraction: a NaN operand keeps its own sign (R28). -/
def subR (f : FloatFmt) (mode : RMode) (a b : FV) : Res :=
  match nanOf f [a, b] with
  | some r => r
  | none => addR f mode a b.negate

/-- The exact product of values that are not NaN and not infinity times zero. -/
def prodFV (a b : FV) : FV :=
  let n := a.sign != b.sign
  match a, b with
  | .fin _ m e, .fin _ k g => .fin n (m * k) (e + g)
  | _, _ => .inf n

/-- Zero times infinity. -/
def badProd (a b : FV) : Bool := (a.isZero && b.isInf) || (a.isInf && b.isZero)

/-- Multiplication. -/
def mulR (f : FloatFmt) (mode : RMode) (a b : FV) : Res :=
  match nanOf f [a, b] with
  | some r => r
  | none => if badProd a b then invalid f else toLong f mode (prodFV a b)

/-- a·b + c, rounded once. Infinity times zero beside a quiet NaN may or may not raise NV. -/
def fmaR (f : FloatFmt) (mode : RMode) (negProd negC : Bool) (a b c : FV) : Res :=
  match nanOf f [a, b, c] with
  | some r => { r with maybe := if badProd a b then fNV else 0 }
  | none =>
    if badProd a b then invalid f
    else
      let p := if negProd then (prodFV a b).negate else prodFV a b
      addR f mode p (if negC then c.negate else c)

/-- Bits kept of an inexact quotient or root beyond any format's own. -/
def guardBits : Nat := 128

/-- Division. -/
def divR (f : FloatFmt) (mode : RMode) (a b : FV) : Res :=
  match nanOf f [a, b] with
  | some r => r
  | none =>
    let n := a.sign != b.sign
    match a, b with
    | .inf _, .inf _ => invalid f
    | .inf _, _ => infRes f n false 0
    | _, .inf _ => { bits := signBit f n }
    | .fin _ m e, .fin _ k g =>
      if k = 0 then (if m = 0 then invalid f else infRes f n true fDZ)
      else
        let sh := guardBits + Nat.size k
        roundL f mode n (m * 2 ^ sh / k) (e - g - sh) (m * 2 ^ sh % k != 0)
    | _, _ => invalid f

/-- Square root; the root of −0 is −0. -/
def sqrtR (f : FloatFmt) (mode : RMode) (a : FV) : Res :=
  match nanOf f [a] with
  | some r => r
  | none =>
    match a with
    | .fin n m e =>
      if m = 0 then { bits := signBit f n }
      else if n then invalid f
      else
        let odd := (e % 2).toNat
        let x := m * 2 ^ (2 * guardBits + odd)
        let r := Nat.sqrt x
        roundL f mode false r ((e - odd) / 2 - guardBits) (r * r != x)
    | .inf n => if n then invalid f else infRes f false false 0
    | _ => invalid f

/-- IEEE remainder: a − b·n, n the integer nearest a ÷ b, ties to even; a zero takes the sign of a. -/
def remR (f : FloatFmt) (a b : FV) : Res :=
  match nanOf f [a, b] with
  | some r => r
  | none =>
    if a.isInf || b.isZero then invalid f
    else if b.isInf then toLong f .rne a
    else
      let e0 := min a.exp b.exp
      let x := (scaled a e0).natAbs
      let y := (scaled b e0).natAbs
      let r := x % y
      let back := decide (y < 2 * r) || (2 * r == y && x / y % 2 == 1)
      if back then roundL f .rne (!a.sign) (y - r) e0 false else roundL f .rne a.sign r e0 false

/-- roundToIntegral in a direction; whether an inexact one raises NX is open. -/
def rintR (f : FloatFmt) (mode : RMode) (a : FV) : Res :=
  match a with
  | .fin n m e =>
    if m = 0 then { bits := signBit f n }
    else
      let (q, inexact) := roundMag mode n m e false 0
      { roundL f .rne n q 0 false with maybe := if inexact then fNX else 0, cnt := if q = 0 then 4 else 0 }
  | _ => toLong f mode a

/-- minimumNumber and maximumNumber: −0 is less than +0, and a number goes before a NaN. -/
def minMaxR (f : FloatFmt) (isMax : Bool) (a b : FV) : Res :=
  let sig := sigFlags [a, b]
  if a.isNan && b.isNan then (nanOf f [a, b]).getD (invalid f)
  else if a.isNan then { toLong f .rne b with flags := sig }
  else if b.isNan then { toLong f .rne a with flags := sig }
  else
    let c := cmpFV a b
    let aLess := decide (c < 0) || (c == 0 && a.sign)
    toLong f .rne (if aLess != isMax then a else b)

/-! ### Comparison and classes -/

/-- The condition codes of VCMP, with NV raised (Table 07-3). -/
def compareR (fn : Nat) (a b : FV) : Bool × Nat :=
  let un := a.isNan || b.isNan
  let c := cmpFV a b
  let quiet := sigFlags [a, b]
  let loud := if un then fNV else 0
  match fn with
  | 0 => (!un && c == 0, quiet)
  | 1 => (un || c != 0, quiet)
  | 2 => (un, quiet)
  | 3 => (!un && decide (c < 0), loud)
  | 4 => (!un && decide (c ≤ 0), loud)
  | 5 => (!un && decide (0 < c), loud)
  | _ => (!un && decide (0 ≤ c), loud)

/-- The IEEE 754-2019 classes in the standard's order; which bit of the one-hot integer stands for which is open. -/
def classOf (f : FloatFmt) (x : FV) : Nat :=
  match x with
  | .nan _ _ _ s => if s then 0 else 1
  | .inf n => if n then 2 else 9
  | .fin n m e =>
    let sub := decide (log2Of m e < f.emin)
    if m = 0 then (if n then 5 else 6) else if n then (if sub then 4 else 3) else if sub then 7 else 8

/-- A list's members in the order that a number picks: each step takes the member at the remainder. -/
def pickOrder (n : Nat) : Nat → List Nat → List Nat
  | 0, _ => []
  | k + 1, l => l.getD (n % l.length) 0 :: pickOrder (n / max 1 l.length) k (l.eraseIdx (n % l.length))

/-- The bit that stands for a class, each class its own. -/
def classBit (c : Nat) : Nat := (pickOrder Config.classOrder 10 (upto 10)).getD c 0

/-! ### Integers (Table 07-3) -/

/-- Float to signed integer of `w` bits: the most negative value with NV on overflow or NaN; whether an inexact
conversion raises NX is open. -/
def toIntR (w : Nat) (mode : RMode) (x : FV) : Res :=
  match x with
  | .fin n m e =>
    let (q, inexact) := if m = 0 then (0, false) else roundMag mode n m e false 0
    if (if n then 2 ^ (w - 1) < q else 2 ^ (w - 1) ≤ q) then { bits := 2 ^ (w - 1), flags := fNV }
    else { bits := if n then (2 ^ w - q) % 2 ^ w else q, maybe := if inexact then fNX else 0
           cnt := if q = 0 ∧ m ≠ 0 then 4 else 0 }
  | _ => { bits := 2 ^ (w - 1), flags := fNV }

/-! ### The compensated pair (R62) -/

/-- Value of the result of a step that rounds by roundTiesToEven. -/
def rneOp (f : FloatFmt) (r : Res) : FV := decodeF f 0 r.bits

def addV (f : FloatFmt) (a b : FV) : FV := rneOp f (addR f .rne a b)
def subV (f : FloatFmt) (a b : FV) : FV := rneOp f (subR f .rne a b)
def mulV (f : FloatFmt) (a b : FV) : FV := rneOp f (mulR f .rne a b)
def fmaV (f : FloatFmt) (a b c : FV) : FV := rneOp f (fmaR f .rne false false a b c)

def posZero : FV := .fin false 0 0

def twoSum (f : FloatFmt) (a b : FV) : FV × FV :=
  let s := addV f a b
  let bb := subV f s a
  (s, addV f (subV f a (subV f s bb)) (subV f b bb))

def fastTwoSum (f : FloatFmt) (a b : FV) : FV × FV :=
  let s := addV f a b
  (s, subV f b (subV f s a))

def pairAdd (f : FloatFmt) (p q : FV × FV) : FV × FV :=
  let (s, t) := twoSum f p.1 q.1
  if !s.isFin then (s, posZero)
  else fastTwoSum f s (addV f t (addV f p.2 q.2))

/-- The value a pair carries, rounded once by a function. -/
def pairValue (p : FV × FV) : FV :=
  if p.1.isNan then p.1
  else if p.2.isNan then p.2
  else if p.1.isInf then p.1
  else if p.2.isInf then p.2
  else
    let e0 := min p.1.exp p.2.exp
    let t := scaled p.1 e0 + scaled p.2 e0
    if t = 0 then .fin (p.1.isZero && p.2.isZero && p.1.sign && p.2.sign) 0 0 else ofInt t e0

/-- The exact sum of values that are all finite. -/
def exactSum (xs : List FV) : FV :=
  let e0 := xs.foldl (fun a x => min a x.exp) 0
  ofInt (xs.foldl (fun a x => a + scaled x e0) 0) e0

/-- The compensated pair of a sum in ascending order. -/
def pairSum (f : FloatFmt) (xs : List FV) : FV × FV := xs.foldl (fun a x => pairAdd f a (x, posZero)) (posZero, posZero)

/-- Flags of a compensated sum before its rounding (R25): NV for a signalling operand or infinities that cancel; for finite
operands `src`, OF and NX where the pair leaves the format, and NX where it is not the exact sum of `exact_`. -/
def sumFlags (src exact_ : List FV) (p : FV × FV) : Nat :=
  if src.all FV.isFin then
    (if (pairValue p).isFin then (if cmpFV (pairValue p) (exactSum exact_) = 0 then 0 else fNX) else fOF + fNX)
  else sigFlags src ||| (if p.1.isNan && !src.any FV.isNan then fNV else 0)

/-- Bits of a binary32 value that is one already. -/
def bits32 (x : FV) : W32 := BitVec.ofNat 32 (toLong fmt32 .rne x).bits

/-- Value of binary32 bits. -/
def val32 (x : W32) : FV := decodeF fmt32 0 x.toNat

end Sys2Proof.Machine
end

