-- ==== Sys2Proof/Machine/Approx.lean ====
section
/-! DEFINITION. The functions of class 0x0C and their derivatives (Table 07-5, R137, R138): each is computed far beyond
the precision of its result, so that binary16 is rounded correctly and binary32 is known within its bound. -/

namespace Sys2Proof.Machine

/-- A result before its rounding: a number (m · 2^e, exact or within a part in 2^250), an infinity, an invalid
operation, or a value that no rule states. -/
inductive AV where
  | num (neg : Bool) (m : Nat) (e : Int) (exact_ : Bool)
  | inf (neg : Bool)
  | invalid
  | unstated
deriving DecidableEq, Repr

/-! ### Fixed point -/

/-- Fraction bits of the computation. -/
def fp : Nat := 400
def one_ : Nat := 2 ^ fp

/-- Σ terms from `t`, each the last times x / (k · d). -/
def expSeries (x : Nat) : Nat → Nat → Nat → Nat
  | 0, _, t => t
  | n + 1, k, t => t + expSeries x n (k + 1) (t * x / (one_ * k))

/-- 2 · atanh(z) for z in [0, 1/3], in fixed point: Σ z^(2k+1) / (2k + 1). -/
def atanhSeries (z2 : Nat) : Nat → Nat → Nat → Nat
  | 0, _, _ => 0
  | n + 1, k, p => p / k + atanhSeries z2 n (k + 2) (p * z2 / one_)

/-- Terms that reach the precision. -/
def terms : Nat := 140

def ln2 : Nat := 2 * atanhSeries (one_ / 9) terms 1 (one_ / 3)

/-- Σ (−1)^k / ((2k + 1) n^(2k + 1)). -/
def arctanInv (n : Nat) : Nat → Nat → Nat → Int
  | 0, _, _ => 0
  | j + 1, k, p => (p / k : Nat) - arctanInv n j (k + 2) (p / (n * n))

def piFix : Nat := (16 * arctanInv 5 terms 1 (one_ / 5) - 4 * arctanInv 239 terms 1 (one_ / 239)).toNat

/-- A finite value in fixed point, rounded down. -/
def toFix (m : Nat) (e : Int) : Nat := if 0 ≤ e + fp then m * 2 ^ (e + fp).toNat else m / 2 ^ (-(e + fp)).toNat

/-! ### Dyadic numbers: m · 2^e, m ≥ 0, kept to `fp` bits -/

structure Dy where
  m : Nat
  e : Int
deriving DecidableEq, Repr

/-- Drops bits beyond the precision. -/
def trim (x : Dy) : Dy :=
  let n := Nat.size x.m
  if n ≤ fp then x else ⟨x.m / 2 ^ (n - fp), x.e + ((n - fp : Nat) : Int)⟩

def dMul (a b : Dy) : Dy := trim ⟨a.m * b.m, a.e + b.e⟩
def dDiv (a b : Dy) : Dy := trim ⟨a.m * 2 ^ (2 * fp) / max 1 b.m, a.e - b.e - 2 * fp⟩
def dAdd (a b : Dy) : Dy := let e := min a.e b.e; trim ⟨a.m * 2 ^ (a.e - e).toNat + b.m * 2 ^ (b.e - e).toNat, e⟩
/-- a − b for a ≥ b. -/
def dSub (a b : Dy) : Dy := let e := min a.e b.e; trim ⟨a.m * 2 ^ (a.e - e).toNat - b.m * 2 ^ (b.e - e).toNat, e⟩
def dOne : Dy := ⟨1, 0⟩
def dLess (a b : Dy) : Bool := let e := min a.e b.e; decide (a.m * 2 ^ (a.e - e).toNat < b.m * 2 ^ (b.e - e).toNat)
def dHalf (a : Dy) : Dy := ⟨a.m, a.e - 1⟩
def dFix (x : Nat) : Dy := ⟨x, -(fp : Int)⟩

/-- A positive number below every positive number of a long format, and one above every one. -/
def dTiny : Dy := ⟨2 ^ fp, -(fp : Int) - 3000⟩
def dHuge : Dy := ⟨2 ^ fp, 3000⟩

/-- |x| exceeds what e^x needs: beyond it e^x overflows or vanishes. -/
def isBig (x : Dy) : Bool := dLess ⟨1, 10⟩ x

/-- e^x, x ≥ 0. -/
def dExp (x : Dy) : Dy :=
  if isBig x then dHuge
  else
    let v := toFix x.m x.e
    ⟨expSeries (v % ln2) terms 1 one_, (v / ln2 : Nat) - (fp : Int)⟩

/-- e^−x, x ≥ 0. -/
def dExpNeg (x : Dy) : Dy := if isBig x then dTiny else dDiv dOne (dExp x)

/-- e^x − 1 and 1 − e^−x, x > 0. -/
def dExpm1 (x : Dy) : Dy := dSub (dExp x) dOne
def dOneMinusExp (x : Dy) : Dy := dSub dOne (dExpNeg x)

/-- ln y for y in [1, 2). -/
def dLnFrac (y : Dy) : Dy :=
  let z := dDiv (dSub y dOne) (dAdd y dOne)
  let f := toFix z.m z.e
  dFix (2 * atanhSeries (f * f / one_) terms 1 f)

/-- |ln x| with its sign, x > 0. -/
def dLn (x : Dy) : Bool × Dy :=
  let k := log2Of x.m x.e
  let fr := dLnFrac ⟨x.m, x.e - k⟩
  let part := dMul ⟨k.natAbs, 0⟩ (dFix ln2)
  if 0 ≤ k then (false, dAdd part fr) else (true, dSub part fr)

/-- ln(1 + t), 0 < t ≤ 1, with its full relative precision. -/
def dLn1p (t : Dy) : Dy :=
  let z := dDiv t (dAdd ⟨2, 0⟩ t)
  let z2 := dMul z z
  let f2 := toFix z2.m z2.e
  dMul ⟨2 * z.m, z.e⟩ (dFix (atanhSeries f2 terms 1 one_))

/-- Square root. -/
def dSqrt (x : Dy) : Dy :=
  let odd := (x.e % 2).toNat
  trim ⟨Nat.sqrt (x.m * 2 ^ (2 * fp + odd)), (x.e - odd) / 2 - fp⟩

/-- Σ u^n / (2n + 1)!!, in fixed point. -/
def oddSeries (u : Nat) : Nat → Nat → Nat → Nat
  | 0, _, t => t
  | n + 1, k, t => t + oddSeries u n (k + 2) (t * u / (one_ * k))

/-- y · e^(−u/2) · Σ u^n / (2n + 1)!! · c, with y beyond 20 taken as 1. -/
def erfCore (c y u : Dy) : Dy :=
  if dLess ⟨800, 0⟩ u then dSub dOne dTiny
  else dMul c (dMul y (dMul (dExpNeg (dHalf u)) (dFix (oddSeries (toFix u.m u.e) 3000 3 one_))))

/-- erf of a magnitude y. -/
def dErf (y : Dy) : Dy := erfCore (dDiv ⟨2, 0⟩ (dSqrt (dFix piFix))) y (dMul ⟨2, 0⟩ (dMul y y))

/-- erf(x ÷ √2) of a magnitude x. -/
def dErfRt2 (x : Dy) : Dy := erfCore (dSqrt (dDiv ⟨2, 0⟩ (dFix piFix))) x (dMul x x)

/-- Φ(x) of a signed number. -/
def dPhi (neg : Bool) (x : Dy) : Dy :=
  if neg then (if dLess ⟨20, 0⟩ x then dTiny else dHalf (dSub dOne (dErfRt2 x))) else dHalf (dAdd dOne (dErfRt2 x))

/-- 1 ÷ (1 + e^−x) of a signed number. -/
def dSigmoid (neg : Bool) (x : Dy) : Dy :=
  let t := dExpNeg x
  if neg then dDiv t (dAdd dOne t) else dDiv dOne (dAdd dOne t)

/-- (1 − e^(−2x)) ÷ (1 + e^(−2x)) of a magnitude. -/
def dTanh (x : Dy) : Dy := let t := ⟨x.m, x.e + 1⟩; dDiv (dOneMinusExp t) (dAdd dOne (dExpNeg t))

/-- ln(1 + e^x) of a signed number. -/
def dSoftplus (neg : Bool) (x : Dy) : Dy := let l := dLn1p (dExpNeg x); if neg then l else dAdd x l

/-! ### Results -/

def avDy (neg : Bool) (x : Dy) : AV := .num neg x.m x.e false
def avZero (neg : Bool) : AV := .num neg 0 0 true
def avOne (neg : Bool) : AV := .num neg 1 0 true
def avOf (x : FV) : AV :=
  match x with
  | .fin n m e => .num n m e true
  | .inf n => .inf n
  | _ => .invalid

/-- Product of a result and a value that is not a NaN. -/
def avMul (a : AV) (b : FV) : AV :=
  match a, b with
  | .unstated, _ => .unstated
  | .invalid, _ => .invalid
  | .num n m e x, .fin k p g => .num (n != k) (m * p) (e + g) (x || p == 0)
  | .num n m _ _, .inf k => if m = 0 then .invalid else .inf (n != k)
  | .inf n, .inf k => .inf (n != k)
  | .inf n, .fin k p _ => if p = 0 then .invalid else .inf (n != k)
  | _, _ => .invalid

/-- Sum of signed dyadic numbers. -/
def avSum (na : Bool) (a : Dy) (nb : Bool) (b : Dy) : AV :=
  if na = nb then avDy na (dAdd a b) else if dLess a b then avDy nb (dSub b a) else avDy na (dSub a b)

/-- 1 ÷ √x, exact where x is an even power of two; zero has no stated result. -/
def avRsqrt (n : Bool) (m : Nat) (e : Int) : AV :=
  let j := Nat.size m - 1
  if m = 0 then .unstated
  else if n then .invalid
  else if m = 2 ^ j ∧ ((j : Int) + e) % 2 = 0 then .num false 1 (-((j : Int) + e) / 2) true
  else avDy false (dSqrt (dDiv dOne ⟨m, e⟩))

/-- 1 ÷ x; zero has no stated result. -/
def avRecip (n : Bool) (m : Nat) (e : Int) : AV :=
  if m = 0 then .unstated
  else .num n (2 ^ (2 * fp) / m) (-e - 2 * fp) (2 ^ (2 * fp) % m == 0)

/-- f(x) of Table 07-5 for a finite x, zeros by the function's own zero (IEEE 754-2019 clause 9.2). -/
def actFin (fn : Nat) (n : Bool) (m : Nat) (e : Int) (a : FV) : AV :=
  let x : Dy := ⟨m, e⟩
  match fn with
  | 0 => if m = 0 then avOne false else if n then avDy false (dExpNeg x) else avDy false (dExp x)
  | 1 =>
    if m = 0 then .unstated else if n then .invalid
    else if cmpFV (.fin n m e) (.fin false 1 0) = 0 then avZero false
    else avDy (dLn x).1 (dLn x).2
  | 2 => if m = 0 then avZero n else avDy n (dTanh x)
  | 3 => if m = 0 then .num false 1 (-1) true else avDy false (dSigmoid n x)
  | 4 => avDy false (dSoftplus n x)
  | 5 => if n || m == 0 then avZero false else .num false m e true
  | 6 => if m = 0 then avMul (avZero n) a else if n then avMul (avDy true (dOneMinusExp x)) a else .num false m e true
  | 7 => if m = 0 then avZero n else avDy n (dMul x (dPhi n x))
  | 8 => if m = 0 then avZero n else avDy n (dMul x (dSigmoid n x))
  | 9 => avRsqrt n m e
  | 10 => avRecip n m e
  | _ => if m = 0 then avZero n else avDy n (dErf x)

/-- f(±∞): the limit, where there is one. -/
def actInf (fn : Nat) (n : Bool) (a : FV) : AV :=
  match fn with
  | 0 => if n then avZero false else .inf false
  | 1 => if n then .invalid else .inf false
  | 2 => avOne n
  | 3 => if n then avZero false else avOne false
  | 4 => if n then avZero false else .inf false
  | 5 => if n then avZero false else .inf false
  | 6 => if n then avMul (avOne true) a else .inf false
  | 7 => if n then .unstated else .inf false
  | 8 => if n then .unstated else .inf false
  | 9 => if n then .invalid else avZero false
  | 10 => avZero n
  | _ => avOne n

/-- f(x); `a` is α. -/
def actAV (fn : Nat) (x a : FV) : AV :=
  match x with
  | .fin n m e => actFin fn n m e a
  | .inf n => actInf fn n a
  | _ => .invalid

/-- A finite value as a result, exact. -/
def avExact (t : Int) (e : Int) : AV := .num (decide (t < 0)) t.natAbs e true

/-- f′ computed from the saved output y (Table 07-5); `a` is α. -/
def derAV (fn : Nat) (y a : FV) : AV :=
  match fn, y with
  | 0, _ => avOf y
  | 2, .fin _ m e => avExact (scaled (.fin false 1 0) (min 0 (2 * e)) - scaled (.fin false (m * m) (2 * e)) (min 0 (2 * e))) (min 0 (2 * e))
  | 2, _ => .inf true
  | 3, .fin _ _ e =>
    let g := min 0 e
    avExact (scaled y g * (scaled (.fin false 1 0) g - scaled y g)) (2 * g)
  | 3, _ => .inf true
  | 4, .fin n m e => if m = 0 then avZero false else if n then avDy true (dExpm1 ⟨m, e⟩) else avDy false (dOneMinusExp ⟨m, e⟩)
  | 4, .inf n => if n then .inf true else avOne false
  | 5, _ => if cmpFV y posZero = 1 then avOne false else avZero false
  | 6, _ =>
    if cmpFV y posZero = 1 then avOne false
    else match y, a with
      | .fin _ _ e, .fin _ _ g => let h := min e g; avExact (scaled y h + scaled a h) h
      | .inf n, .inf k => if n = k then .inf n else .invalid
      | .inf n, _ => .inf n
      | _, .inf k => .inf k
      | _, _ => .invalid
  | _, _ => .invalid

/-- φ(x) = e^(−x²/2) ÷ √(2π). -/
def dPdf (x : Dy) : Dy := dMul (dSqrt (dDiv dOne (dMul ⟨2, 0⟩ (dFix piFix)))) (dExpNeg (dHalf (dMul x x)))

/-- f′(x) for a finite x; without an operand for α, ELU's left part is unstated. -/
def derFin (fn : Nat) (n : Bool) (m : Nat) (e : Int) (a : Option FV) : AV :=
  let x : Dy := ⟨m, e⟩
  match fn with
  | 0 => actFin 0 n m e posZero
  | 1 => avRecip n m e
  | 2 => if m = 0 then avOne false else
      let t := dExpNeg ⟨m, e + 1⟩
      let d := dAdd dOne t
      avDy false (dDiv (dMul ⟨4, 0⟩ t) (dMul d d))
  | 3 => if m = 0 then .num false 1 (-2) true else avDy false (dMul (dSigmoid n x) (dSigmoid (!n) x))
  | 4 => actFin 3 n m e posZero
  | 5 => if n || m == 0 then avZero false else avOne false
  | 6 =>
    if n || m == 0 then
      match a with
      | none => .unstated
      | some v => avMul (if m = 0 then avOne false else avDy false (dExpNeg x)) v
    else avOne false
  | 7 => if m = 0 then .num false 1 (-1) true else avSum false (dPhi n x) n (dMul x (dPdf x))
  | 8 => if m = 0 then .num false 1 (-1) true else avSum false (dSigmoid n x) n (dMul x (dMul (dSigmoid n x) (dSigmoid (!n) x)))
  | 9 =>
    match avRsqrt n m e with
    | .num k r g ex => if ex then .num (!k) (r * r * r) (3 * g - 1) true else avDy true (dHalf (dMul (dDiv dOne x) ⟨r, g⟩))
    | o => o
  | 10 => if m = 0 then .unstated else .num true (2 ^ (4 * fp) / (m * m)) (-2 * e - 4 * fp) (2 ^ (4 * fp) % (m * m) == 0)
  | _ => avDy false (dMul (dDiv ⟨2, 0⟩ (dSqrt (dFix piFix))) (dExpNeg (dMul x x)))

/-- f′(±∞): the limit, where there is one. -/
def derInf (fn : Nat) (n : Bool) (a : Option FV) : AV :=
  match fn with
  | 0 => if n then avZero false else .inf false
  | 1 => if n then .invalid else avZero false
  | 4 => if n then avZero false else avOne false
  | 5 => if n then avZero false else avOne false
  | 6 => if n then (match a with | none => .unstated | some v => avMul (avZero false) v) else avOne false
  | 7 => if n then avZero true else avOne false
  | 8 => if n then avZero true else avOne false
  | 9 => if n then .invalid else avZero true
  | 10 => avZero true
  | _ => avZero false

/-- f′(x). -/
def derIAV (fn : Nat) (x : FV) (a : Option FV) : AV :=
  match x with
  | .fin n m e => derFin fn n m e a
  | .inf n => derInf fn n a
  | _ => .invalid

/-! ### Delivery (R138) -/

/-- Where between the codes within 2 units of a binary32 result the delivered one stands. -/
def ulpPick (exact_ : Bool) (c : Nat) : Int := if exact_ then (c % 5 : Nat) - 2 else (c % 4 : Nat) - 1

/-- A code that may have gone below zero, as bits. -/
def signedCode (f : FloatFmt) (neg : Bool) (c : Int) : Nat :=
  if c < 0 then signBit f (!neg) + c.natAbs else signBit f neg + min c.toNat (infCode f)

/-- The result as delivered: binary16 rounded to nearest, binary32 within 2 units in the last place; draw `c` chooses,
and `c` also stands for a value that no rule states. -/
def deliver (w : Nat) (c : Nat) (v : AV) : Res :=
  let f := longFmt w
  match v with
  | .invalid => invalid f
  | .unstated => { bits := (Config.openFn c).toNat % 2 ^ w, maybe := 31 }
  | .inf n => infRes f n false 0
  | .num n m e ex =>
    if w = 16 then
      let r := roundL f .rne n m e (!ex)
      { r with flags := r.flags / 2 * 2, maybe := fNX }
    else
      let lo := if m = 0 then 0 else (roundCode f .rtz n m e (!ex)).1
      let onCode := ex && (m == 0 || !(roundCode f .rtz n m e (!ex)).2.1)
      let code : Int := if f.maxCode + 3 < lo then infCode f else (lo : Int) + ulpPick onCode (Config.ulpChoice c)
      let over_ := decide ((f.maxCode : Int) < code)
      let tiny := decide (code.natAbs < 2 ^ f.fb) && !(onCode && decide (code = lo))
      { bits := signedCode f n code, flags := if over_ then fOF else if tiny then fUF else 0, maybe := fNX
        cnt := if over_ then 2 else if code = 0 ∧ m ≠ 0 then 4 else 0 }

end Sys2Proof.Machine
end

