-- ==== Sys2Proof/Machine/Crypto.lean ====
section
/-! DEFINITION. SHA-256 and ECDSA over P-256, the two published standards that the security engine and the boot ROM
use (R263, R272, R277, R300). -/

namespace Sys2Proof.Machine

/-! ### SHA-256 -/

/-- The round constants. -/
def shaK : List W32 :=
  [0x428a2f98, 0x71374491, 0xb5c0fbcf, 0xe9b5dba5, 0x3956c25b, 0x59f111f1, 0x923f82a4, 0xab1c5ed5]
  ++ [0xd807aa98, 0x12835b01, 0x243185be, 0x550c7dc3, 0x72be5d74, 0x80deb1fe, 0x9bdc06a7, 0xc19bf174]
  ++ [0xe49b69c1, 0xefbe4786, 0x0fc19dc6, 0x240ca1cc, 0x2de92c6f, 0x4a7484aa, 0x5cb0a9dc, 0x76f988da]
  ++ [0x983e5152, 0xa831c66d, 0xb00327c8, 0xbf597fc7, 0xc6e00bf3, 0xd5a79147, 0x06ca6351, 0x14292967]
  ++ [0x27b70a85, 0x2e1b2138, 0x4d2c6dfc, 0x53380d13, 0x650a7354, 0x766a0abb, 0x81c2c92e, 0x92722c85]
  ++ [0xa2bfe8a1, 0xa81a664b, 0xc24b8b70, 0xc76c51a3, 0xd192e819, 0xd6990624, 0xf40e3585, 0x106aa070]
  ++ [0x19a4c116, 0x1e376c08, 0x2748774c, 0x34b0bcb5, 0x391c0cb3, 0x4ed8aa4a, 0x5b9cca4f, 0x682e6ff3]
  ++ [0x748f82ee, 0x78a5636f, 0x84c87814, 0x8cc70208, 0x90befffa, 0xa4506ceb, 0xbef9a3f7, 0xc67178f2]

/-- The eight words of a hash value. -/
structure ShaSt where
  a : W32
  b : W32
  c : W32
  d : W32
  e : W32
  f : W32
  g : W32
  h : W32
deriving DecidableEq, Repr

/-- The initial hash value. -/
def shaInit : ShaSt :=
  { a := 0x6a09e667, b := 0xbb67ae85, c := 0x3c6ef372, d := 0xa54ff53a, e := 0x510e527f, f := 0x9b05688c, g := 0x1f83d9ab, h := 0x5be0cd19 }

/-- Words added one by one. -/
def shaAdd (x y : ShaSt) : ShaSt :=
  { a := x.a + y.a, b := x.b + y.b, c := x.c + y.c, d := x.d + y.d, e := x.e + y.e, f := x.f + y.f, g := x.g + y.g, h := x.h + y.h }

/-- One round, with its constant and its schedule word. -/
def shaRound (s : ShaSt) (k w : W32) : ShaSt :=
  let t1 := s.h + (s.e.rotateRight 6 ^^^ s.e.rotateRight 11 ^^^ s.e.rotateRight 25) + ((s.e &&& s.f) ^^^ (~~~s.e &&& s.g)) + k + w
  let t2 := (s.a.rotateRight 2 ^^^ s.a.rotateRight 13 ^^^ s.a.rotateRight 22) + ((s.a &&& s.b) ^^^ (s.a &&& s.c) ^^^ (s.b &&& s.c))
  { a := t1 + t2, b := s.a, c := s.b, d := s.c, e := s.d + t1, f := s.e, g := s.f, h := s.g }

/-- The schedule word 16 places after the first of 16 consecutive ones. -/
def shaNext (ws : List W32) : W32 :=
  let x := ws.getD 1 0
  let y := ws.getD 14 0
  ws.getD 0 0 + (x.rotateRight 7 ^^^ x.rotateRight 18 ^^^ (x >>> 3)) + ws.getD 9 0 + (y.rotateRight 17 ^^^ y.rotateRight 19 ^^^ (y >>> 10))

/-- The rounds of one block: `ws` holds the next 16 schedule words. -/
def shaRounds : List W32 → List W32 → ShaSt → ShaSt
  | [], _, s => s
  | k :: ks, ws, s => shaRounds ks (ws.drop 1 ++ [shaNext ws]) (shaRound s k (ws.getD 0 0))

/-- Value of bytes, the first the most significant. -/
def beNat (bs : List Byte) : Nat := bs.foldl (fun a b => 256 * a + b.toNat) 0

/-- Adds one 64-byte block. -/
def shaBlock (s : ShaSt) (bs : List Byte) : ShaSt :=
  shaAdd s (shaRounds shaK ((upto 16).map (fun i => BitVec.ofNat 32 (beNat ((bs.drop (4 * i)).take 4)))) s)

/-- Adds `n` blocks. -/
def shaBlocks : Nat → List Byte → ShaSt → ShaSt
  | 0, _, s => s
  | n + 1, bs, s => shaBlocks n (bs.drop 64) (shaBlock s (bs.take 64))

/-- A message with its padding: 0x80, zeros, its length in bits as 8 bytes. -/
def shaPad (bs : List Byte) : List Byte :=
  bs ++ [0x80] ++ List.replicate ((119 - bs.length % 64) % 64) 0 ++ (leBytes 8 (8 * bs.length)).reverse

/-- The SHA-256 of bytes as a number, its first byte the most significant. -/
def sha256 (bs : List Byte) : Nat :=
  let p := shaPad bs
  let s := shaBlocks (p.length / 64) p shaInit
  [s.a, s.b, s.c, s.d, s.e, s.f, s.g, s.h].foldl (fun n w => 2 ^ 32 * n + w.toNat) 0

/-- The same as a field of a record holds it: its first byte at the lowest address, so the least significant. -/
def shaField (bs : List Byte) : Nat := leNat (leBytes 32 (sha256 bs)).reverse

/-! ### P-256 -/

/-- The field's prime, the group's order, the curve's constant, and the base point. -/
def p256P : Nat := 0xffffffff00000001000000000000000000000000ffffffffffffffffffffffff
def p256N : Nat := 0xffffffff00000000ffffffffffffffffbce6faada7179e84f3b9cac2fc632551
def p256B : Nat := 0x5ac635d8aa3a93e7b3ebbd55769886bc651d06b0cc53b0f63bce3c3e27d2604b
def p256Gx : Nat := 0x6b17d1f2e12c4247f8bce6e563a440f277037d812deb33a0f4a13945d898c296
def p256Gy : Nat := 0x4fe342e2fe1a7f9b8ee7eb4a7c0f9e162bce33576b315ececbb6406837bf51f5

/-- `x` to the power of `e`, of at most `k` bits, modulo `m`. -/
def powMod (m x : Nat) : Nat → Nat → Nat
  | 0, _ => 1
  | k + 1, e =>
    let y := powMod m x k (e / 2)
    let z := y * y % m
    if e % 2 = 1 then z * x % m else z

/-- The inverse modulo a prime. -/
def invMod (m x : Nat) : Nat := powMod m x 256 (m - 2)

/-- Differences in the field. -/
def fsub (x y : Nat) : Nat := (x + p256P - y % p256P) % p256P

/-- A point (X : Y : Z) of Jacobian coordinates; Z = 0 is the point at infinity. -/
structure Pt where
  x : Nat
  y : Nat
  z : Nat
deriving DecidableEq, Repr

def ptInf : Pt := { x := 1, y := 1, z := 0 }

/-- Twice a point. -/
def ptDouble (p : Pt) : Pt :=
  let zz := p.z * p.z % p256P
  let m := 3 * fsub p.x zz * (p.x + zz) % p256P
  let yy := p.y * p.y % p256P
  let s := 4 * p.x * yy % p256P
  let x := fsub (m * m) (2 * s)
  { x := x, y := fsub (m * fsub s x) (8 * yy * yy), z := 2 * p.y * p.z % p256P }

/-- The sum of two points. -/
def ptAdd (p q : Pt) : Pt :=
  if p.z = 0 then q
  else if q.z = 0 then p
  else
    let zz1 := p.z * p.z % p256P
    let zz2 := q.z * q.z % p256P
    let u1 := p.x * zz2 % p256P
    let u2 := q.x * zz1 % p256P
    let s1 := p.y * zz2 % p256P * q.z % p256P
    let s2 := q.y * zz1 % p256P * p.z % p256P
    if u1 = u2 then (if s1 = s2 then ptDouble p else ptInf)
    else
      let h := fsub u2 u1
      let r := fsub s2 s1
      let hh := h * h % p256P
      let hhh := hh * h % p256P
      let v := u1 * hh % p256P
      let x := fsub (fsub (r * r) hhh) (2 * v)
      { x := x, y := fsub (r * fsub v x) (s1 * hhh), z := p.z * q.z % p256P * h % p256P }

/-- `a · p + b · q` for numbers of at most `k` bits, `pq` being p + q. -/
def ptMul2 (p q pq : Pt) : Nat → Nat → Nat → Pt
  | 0, _, _ => ptInf
  | k + 1, a, b =>
    let d := ptDouble (ptMul2 p q pq k (a / 2) (b / 2))
    if a % 2 = 1 then (if b % 2 = 1 then ptAdd d pq else ptAdd d p) else if b % 2 = 1 then ptAdd d q else d

/-- The base point, and the point of affine coordinates. -/
def ptG : Pt := { x := p256Gx, y := p256Gy, z := 1 }
def ptOf (x y : Nat) : Pt := { x, y, z := 1 }

/-- Affine coordinates of a point that is not at infinity. -/
def ptAffine (p : Pt) : Nat × Nat :=
  let i := invMod p256P p.z
  let ii := i * i % p256P
  (p.x * ii % p256P, p.y * ii % p256P * i % p256P)

/-- `k` times the base point. -/
def ptBase (k : Nat) : Pt := ptMul2 ptG ptInf ptG 256 k 0

/-- The coordinates name a point of the curve. -/
def onCurve (x y : Nat) : Bool :=
  decide (x < p256P) && decide (y < p256P) && y * y % p256P == fsub (x * x % p256P * x + p256B) (3 * x)

/-- ECDSA verification of a digest's number. -/
def ecdsaOk (x y e r s : Nat) : Bool :=
  onCurve x y && decide (1 ≤ r) && decide (r < p256N) && decide (1 ≤ s) && decide (s < p256N)
  && (let w := invMod p256N s
      let t := ptMul2 ptG (ptOf x y) (ptAdd ptG (ptOf x y)) 256 (e * w % p256N) (r * w % p256N)
      t.z != 0 && (ptAffine t).1 % p256N == r)

/-- The ECDSA signature (r, s) of a digest's number under the private key `d` with the nonce `k`. -/
def ecdsaSign (d k e : Nat) : Nat × Nat :=
  let r := (ptAffine (ptBase k)).1 % p256N
  (r, invMod p256N k * ((e + r * d) % p256N) % p256N)

/-! ### Signed records -/

/-- A record's public key and signature: numbers of 32 bytes each, little-endian as every field (00_scope.md). The
signature covers the bytes `msg` with SHA-256, whose first byte is the digest's most significant. -/
def recordSigned (msg pub sig : List Byte) : Bool :=
  ecdsaOk (leNat (pub.take 32)) (leNat (pub.drop 32)) (sha256 msg) (leNat (sig.take 32)) (leNat (sig.drop 32))

end Sys2Proof.Machine
end

