-- ==== Sys2Proof/Machine/Topo.lean ====
section
/-! DEFINITION. Bring-up stages, the topology check and Ready as shared operations (R261, R277 to R281). -/

namespace Sys2Proof.Machine

/-! ### Stages (R261, Tables 13-1 and 13-12) -/

/-- The Drone appends what the other processors kept while it was down, in the order each made it (R290). -/
def flushLogs (s : State) : State :=
  s.fr.logHeld.foldl (fun t e => e.2.foldl (fun u r => appendLog r u) t) { s with fr := { s.fr with logHeld := [] } }

/-- Bring-up reaches a stage: BOOT_TIME advances by a time that no rule fixes, and a BOOT_STAGE record
is made. -/
def enterStage (st : Nat) (s : State) : State :=
  let s1 := { s with bt := { s.bt with stage := st, bootTime := (s.bt.bootTime + Config.duration s.free) % 2 ^ 32 }, free := s.free + 1 }
  droneLog 0 0x0001 st s1.bt.bootTime s1

/-- Bring-up ends in FAILED. -/
def failBring (stage reason : Nat) (s : State) : State :=
  enterStage 9 { s with bt := { s.bt with failStage := stage, failReason := reason } }

/-! ### Ready (R266, R280, R281) -/

/-- Ready is declared when every condition of R280 holds together; fuses follow COMMIT_SVN (R266). -/
def checkReady (cause : Nat) (s : State) : State :=
  if s.bt.computeDone && licenceValid s && s.bt.personalityOk && matchAll s && !s.bt.ready && s.bt.stage != 9 then
    let s1 := enterStage 8 { s with
      bt := { s.bt with ready := true }
      fl := { s.fl with svn := if s.bt.commitSvn then max s.fl.svn s.bt.imageSvn else s.fl.svn } }
    sensorEvent 66 1 (notice (.readyNotice true cause) (droneLog 1 0x0002 1 cause s1))
  else s

/-- READY returns to 0; the stage is TOPOLOGY again until the check passes. -/
def clearReady (cause : Nat) (s : State) : State :=
  if s.bt.ready then
    sensorEvent 66 0 (notice (.readyNotice false cause) (droneLog 1 0x0002 0 cause { s with bt := { s.bt with ready := false, stage := 7 } }))
  else s

/-! ### Coordinates and the check (R199, R278, R279) -/

/-- Lowest bit and width of an axis's field in a coordinate, axes T, S, P, D (Table 10-5). -/
def axisLo (a : Nat) : Nat := if a = 0 then 0 else if a = 1 then 3 else if a = 2 then 6 else 10
def axisWidth (a : Nat) : Nat := if a ≤ 1 then 3 else if a = 2 then 4 else 7

/-- A coordinate's position on an axis, and an axis's size. -/
def coordOn (c : BitVec 17) (a : Nat) : Nat := bfld c (axisLo a) (axisWidth a)
def axisSizeOf (axes : BitVec 16) (a : Nat) : Nat := 2 ^ bfld axes (4 * a) 4

/-- The coordinate one step from `c` on the port's axis, modulo the axis size. -/
def stepCoord (c : BitVec 17) (axes : BitVec 16) (n : Nat) : Nat :=
  let a := portAxis n
  let sz := axisSizeOf axes a
  let x := coordOn c a
  let y := if portPlus n then (x + 1) % sz else (x + sz - 1) % sz
  c.toNat - x * 2 ^ axisLo a + y * 2 ^ axisLo a

/-- Result code of port `n` under an extract, in the order of R278's conditions (Table 13-10). -/
def judge (s : State) (e : Extract) (n : Nat) : Nat :=
  let p := getPort s n
  if !e.portMask.getLsbD n then 0
  else if p.state ≠ 7 then 2
  else if !p.peerValid then 7
  else if p.peerId ≠ e.peers.getD n 0 then 3
  else if p.peerPort ≠ portPartner n then 4
  else if p.peerGrade ≠ s.bt.grade then 6
  else if !p.coordValid then 7
  else if p.peerCoord.toNat ≠ stepCoord s.et.coord s.et.axisSize n then 5
  else 1

/-- The check of one port: its result, and FWD on a match alone. -/
def judgePort (n : Nat) (s : State) : State :=
  match s.bt.inForce with
  | none => s
  | some e =>
    let r := judge s e n
    modPort n (fun p => { p with fwd := r == 1 }) { s with bt := { s.bt with portResult := mset 0 s.bt.portResult n r } }

/-- The check of every port. -/
def judgeAll (s : State) : State := (upto 12).foldl (fun t n => judgePort n t) s

/-- A port's state or peer record changed: its check is repeated, and Ready may follow (R279, R280). -/
def recheck (n : Nat) (s : State) : State := checkReady 2 (judgePort n s)

/-- The discovery record this module sends on a port (R190). -/
def ownRecord (s : State) (n : Nat) : DiscRecord :=
  { peerId := moduleId s, port := n, grade := s.bt.grade, suffix := s.fl.suffix, coord := if s.et.coordValid then some s.et.coord else none }

/-- A log record of a port's controller. -/
def portLog (n sev event arg0 arg1 : Nat) (s : State) : State := addLog (procIsland (54 + n)) sev event arg0 arg1 s

/-- The port leaves UP: the cause is logged (R205). -/
def leftUp (n : Nat) (was : Port) (s : State) : State :=
  if was.state = 7 then portLog n 3 0x0502 n (portState (getPort s n)) s else s

/-- An accepted extract has set the size of the port's axis to 1: the port stays OFF (R186). -/
def axisOff (s : State) (n : Nat) : Bool := s.et.coordValid && axisSizeOf s.et.axisSize (portAxis n) == 1

/-- Every enabled port is UP or FAILED, or its axis has size 1: LINKS ends and COMPUTE begins (R186). -/
def endLinks (s : State) : State :=
  if s.bt.stage == 5 && (upto 12).all (fun n => !portEnabled s n || axisOff s n || (getPort s n).state == 7 || (getPort s n).state == 9) then
    enterStage 6 s
  else s

/-! ### Manifest extracts (R277, Table 13-9) -/

/-- Little-endian field of a byte list. -/
def byteField (bs : List Byte) (lo n : Nat) : Nat := leNat ((bs.drop lo).take n)

/-- The extract that bytes hold. -/
def parseExtract (bs : List Byte) : Extract :=
  { systemId := BitVec.ofNat 64 (byteField bs 8 8), generation := BitVec.ofNat 64 (byteField bs 16 8)
    coord := BitVec.ofNat 17 (byteField bs 32 4), axes := BitVec.ofNat 16 (byteField bs 36 2)
    portMask := BitVec.ofNat 16 (byteField bs 38 2), peers := (upto 12).map (fun n => BitVec.ofNat 64 (byteField bs (64 + 8 * n) 8))
    raw := bs }

/-- Sizes within the grade, and a coordinate that fits them (R199). -/
def coordFits (s : State) (e : Extract) : Bool :=
  (upto 4).all (fun a => decide (bfld e.axes (4 * a) 4 ≤ fld (gradeAxes s.bt.grade) (4 * a) 4) && decide (coordOn e.coord a < axisSizeOf e.axes a))

/-- PORT_MASK names only enabled ports on axes of size 2 or more. -/
def maskFits (s : State) (e : Extract) : Bool :=
  (upto 16).all (fun n => !e.portMask.getLsbD n || (portEnabled s n && decide (2 ≤ axisSizeOf e.axes (portAxis n))))

/-- MREASON of an extract, 0 when it is accepted (R277, Table 13-11). -/
def extractReason (s : State) (bs : List Byte) : Nat :=
  let e := parseExtract bs
  if !licenceValid s then 6
  else if shaField ((bs.drop 160).take 64) ≠ mapField s.bt.licInForce 64 32 then 1
  else if !recordSigned (bs.take 256) ((bs.drop 160).take 64) ((bs.drop 256).take 64) then 2
  else if byteField bs 24 8 ≠ (moduleId s).toNat then 3
  else if byteField bs 0 4 ≠ 0x51585433 ∨ byteField bs 4 2 ≠ 1 ∨ byteField bs 6 2 ≠ 0 ∨ byteField bs 40 24 ≠ 0
    ∨ byteField bs 224 32 ≠ 0 ∨ 2 ^ 17 ≤ byteField bs 32 4 then 5
  else if !coordFits s e || !maskFits s e then 5
  else if e.generation.toNat ≤ s.fl.manifestGen.toNat then 4
  else 0

/-- The port goes to OFF; one that was UP leaves its cause in the log (R186, R205). -/
def portOff (n : Nat) (s : State) : State :=
  leftUp n (getPort s n) (modPort n (fun p => { p with state := 0, fwd := false, swap := none, swapActive := false, swapWaits := [], dead := [], sub := 0, recordDue := false }) s)

/-- An accepted extract sets the coordinate and the axis sizes; ports of axes of size 1 go to OFF, named
ports in FAILED train again, and every peer is sent a new record, that of a port in RETRAIN once it is UP again (R186,
R190, R277). -/
def takeExtract (e : Extract) (s : State) : State :=
  let s1 := { s with fl := { s.fl with manifestGen := e.generation }
                     et := { s.et with coord := e.coord, coordValid := true, axisSize := e.axes } }
  let s2 := (upto 12).foldl (fun t n =>
    if axisSizeOf e.axes (portAxis n) = 1 then (if (getPort t n).state = 0 then t else portOff n t)
    else if e.portMask.getLsbD n && (getPort t n).state == 9 then modPort n (fun p => { p with state := 1, failReason := 0, retrainFails := 0 }) t
    else t) s1
  endLinks ((upto 12).foldl (fun t n =>
    if (getPort t n).state = 7 then emit (.discovery n (ownRecord t n)) t
    else if (getPort t n).state = 8 then modPort n (fun p => { p with recordDue := true }) t
    else t) s2)

/-- The extract comes into force and every port is checked; a named port that does not match clears READY
(R279, R281). -/
def forceExtract (cause : Nat) (e : Extract) (s : State) : State :=
  let s1 := judgeAll { s with bt := { s.bt with inForce := some e, held := none } }
  if matchAll s1 then checkReady cause s1 else clearReady cause s1

end Sys2Proof.Machine
end

