-- ==== Sys2Proof/Machine/Compute.lean ====
section
/-! DEFINITION. The work of COMPUTE that a cold power-on and a chip reset share: array self-test, core
map and substitution, loading and stamping, the personality check, the legacy defect list (R57 to R60,
R267 to R271, R276, R311, R324, R326, R327). -/

namespace Sys2Proof.Machine

/-! ### Array self-test (R59, R60) -/

/-- Puts a column entry in ascending order of PCOL. -/
def addCol (c : Nat) (soft : Bool) : List (Nat × Bool) → List (Nat × Bool)
  | [] => [(c, soft)]
  | (d, b) :: l => if c < d then (c, soft) :: (d, b) :: l else (d, b) :: addCol c soft l

/-- Physical block of a tile's logical block (R57): those from a retired block on lie one further south. With none retired,
block 64 is idle. -/
def physBlock (t : TileRep) (j : Nat) : Nat := match t.blk with | some b => if j < b then j else j + 1 | none => j

/-- Physical column of a tile's logical column: the (c + 1)-th that is not retired, from the west (R57). -/
def physCol (t : TileRep) (c : Nat) : Nat := ((upto 1040).filter (fun p => !t.cols.any (fun e => e.1 == p))).getD c 0

/-- The line of a defect is retired already. -/
def lineRetired (t : TileRep) (d : ArrayDefect) : Bool :=
  if d.block then t.blk == some d.line else t.cols.any (fun e => e.1 == d.line)

/-- What a defect does to its tile: a soft entry where a spare covers it, else UNREPAIRABLE. -/
def retire (t : TileRep) (d : ArrayDefect) : TileRep :=
  if d.block then (if t.blk.isNone then { t with blk := some d.line, blkSoft := true } else { t with unrepairable := true })
  else if t.cols.length < 16 then { t with cols := addCol d.line true t.cols }
  else { t with unrepairable := true }

/-- Applies one defect, with its ARRAY_SOFT record. -/
def applyDefect (s : State) (d : ArrayDefect) : State :=
  let t := mget {} s.bt.tiles d.tile
  if 32 ≤ d.tile ∨ lineRetired t d then s
  else
    let t' := retire t d
    let s1 := { s with bt := { s.bt with tiles := mset {} s.bt.tiles d.tile t' } }
    if t'.unrepairable && !t.unrepairable || t' == t then s1
    else addLog (0xA00 + d.tile) 2 0x0401 d.tile (tileRepair t') s1

/-- The array self-test: at a cold power-on from the fuses alone, and UNREPAIRABLE tells of this test. -/
def arraySelfTest (cold : Bool) (ds : List ArrayDefect) (s : State) : State :=
  let start := if cold then s.fl.fusedTiles else s.bt.tiles.map (fun e => (e.1, { e.2 with unrepairable := false }))
  ds.foldl applyDefect { s with bt := { s.bt with tiles := start } }

/-! ### Core map (R267, R268, R326, R327) -/

/-- Sets a core's site; the identity is left unlisted. -/
def setSite (c site : Nat) (s : State) : State :=
  { s with bt := { s.bt with mapSite := mset 0 s.bt.mapSite c (if site = c % 64 then 0 else site + 1) } }

/-- The map of one cluster at a cold power-on: core k on the (k + 1)-th good site. -/
def buildCluster (cd : Nat) (s : State) : State :=
  let good := (upto 72).filter (fun i => !isBadSite s cd i)
  (upto 64).foldl (fun t k => setSite (64 * cd + k) (good.getD k k) t) s

/-- The whole map, from the logic test, the core memories MEMORY could not repair, and flash. -/
def buildMap (r : ComputeReport) (s : State) : State :=
  let marked := (r.badSites ++ s.bt.coreMemBad).foldl (fun m i => mset false m i true) s.fl.badSites
  let s1 := { s with bt := { s.bt with siteBad := marked, mapSite := [], mapField := [], mapBuilt := true } }
  (upto 32).foldl (fun t cd => buildCluster cd t) s1

/-- Lowest good site of a cluster that holds no logical core. -/
def spareSite (s : State) (cd : Nat) : Option Nat :=
  (upto 72).find? (fun i => !isBadSite s cd i && !siteHolds s cd i)

/-- Maps a failing logical core onto a spare, its new site in quarantine with poisoned core memory; without
a spare the core is fenced. -/
def substitute (c : Nat) (s : State) : State :=
  let cd := c / 64
  let old := 72 * cd + psite s c
  let s1 := { s with bt := { s.bt with siteBad := mset false s.bt.siteBad old true }
                     fl := { s.fl with badSites := mset false s.fl.badSites old true }
                     mem := poisonCore c s.mem
                     fr := { s.fr with quar := mset false s.fr.quar c true } }
  match spareSite s1 cd with
  | some i =>
    let s2 := setSite c i { s1 with bt := { s1.bt with mapField := mset false s1.bt.mapField c true } }
    addLog (0xA00 + cd) 2 0x0405 c i s2
  | none => faultNotice none (0xA00 + cd) 0 0 { s1 with fr := { s1.fr with fence := mset false s1.fr.fence c true } }

/-- At a chip reset every site that fails the logic test is bad, and each that holds a logical core is substituted (R268,
R311). -/
def retestMap (r : ComputeReport) (s : State) : State :=
  r.badSites.foldl (fun t i =>
    match (upto 64).find? (fun k => psite t (64 * (i / 72) + k) == i % 72) with
    | some k => if i / 72 < 32 then substitute (64 * (i / 72) + k) t else t
    | none => t) { s with bt := { s.bt with siteBad := r.badSites.foldl (fun m i => mset false m i true) s.bt.siteBad } }

/-- The cluster sequencers load and stamp every logical core that is not fenced; those of a sequencer that is down wait for
it (R324, Table 14-2). -/
def stampAll (s : State) : State :=
  let down := (upto 32).filter (fun cd => !procUp s (4 + cd))
  let q := down.foldl (fun m cd => (upto 64).foldl (fun u k => mset false u (64 * cd + k) true) m) (mdrop (fun c => !mget false s.fr.fence c) s.fr.quar)
  { s with fr := { s.fr with quar := q } }

/-! ### Personality (R276, Table 13-8) -/

/-- Every logical core of every cluster sits on a good site. -/
def coresOk (s : State) : Bool :=
  (upto 32).all (fun cd =>
    decide (((upto 72).filter (fun i => !isBadSite s cd i)).length ≥ 64)
    && (upto 64).all (fun k => !isBadSite s cd (psite s (64 * cd + k)) && !mget false s.fr.fence (64 * cd + k)))

/-- Reason of the first shortfall, 0 when there is none. Without a licence no personality can match (R1). -/
def personality (s : State) : Nat :=
  if !coresOk s then 5
  else if s.bt.tiles.any (fun e => e.2.unrepairable) then 4
  else if s.bt.memShort then 3
  else if s.bt.engineFault then 6
  else if s.bt.featureFault || s.bt.grade == 0 then 2
  else 0

/-! ### Legacy defect list (R269 to R271, Table 13-4) -/

/-- An entry before the clamp: TYPE, UNIT, BANK, SITE, DIR, ROW, FIELDSRC. -/
structure Defect where
  ty : Nat
  unit : Nat
  bank : Nat := 0
  site : Nat
  dir : Nat := 0
  row : Nat := 0
  field : Bool := false
deriving DecidableEq, Repr

/-- Sort key: TYPE, UNIT, SITE, ROW. -/
def defectKey (d : Defect) : Nat := ((d.ty * 64 + d.unit) * 128 + d.site) * 2 ^ 24 + d.row

/-- Keeps a list of entries in the order of R270. -/
def defectInsert (d : Defect) : List Defect → List Defect
  | [] => [d]
  | e :: l => if defectKey d < defectKey e then d :: e :: l else e :: defectInsert d l

/-- A list entry; under the clamp UNIT is UNIT mod 16. -/
def defectWord (clamp : Bool) (d : Defect) : W64 :=
  let u := if clamp then d.unit % 16 else d.unit
  BitVec.ofNat 64 (d.ty + 2 ^ 4 * u + 2 ^ 10 * d.bank + 2 ^ 16 * d.site + 2 ^ 23 * d.dir + 2 ^ 24 * d.row + 2 ^ 63 * b01 d.field)

/-- FIELDSRC of a defect: it was not known at manufacture. -/
def foundLater (s : State) (d : Defect) : Defect :=
  { d with field := !mget false s.fl.made ((defectKey d * 64 + d.bank) * 2 + d.dir) }

/-- Retired lines of one tile. FIELDSRC: a soft entry, or a fuse blown in the field. -/
def tileDefects (s : State) (n : Nat) (t : TileRep) : List Defect :=
  let blk := match t.blk with
    | some b => [{ ty := 4, unit := n, bank := 0x3F, site := 0x7F, row := b
                   field := t.blkSoft || mget false s.fl.fieldLines (2048 * n + 1040 + b) : Defect }]
    | none => []
  blk ++ t.cols.map (fun e => { ty := 4, unit := n, bank := 0x3F, site := 0x7F, row := 2 ^ 23 + e.1
                                field := e.2 || mget false s.fl.fieldLines (2048 * n + e.1) })

/-- Everything the list names, unsorted (R269, R270). -/
def defects (s : State) : List Defect :=
  let cores := (mkeys s.bt.siteBad).map (fun i => ({ ty := 1, unit := i / 72, site := i % 72 } : Defect))
  let lanes := (upto 12).flatMap (fun n =>
    if portEnabled s n then
      let p := getPort s n
      (upto 18).flatMap (fun l =>
        (if p.failedRx.getLsbD l then [({ ty := 2, unit := 24 + n, site := l } : Defect)] else [])
        ++ (if p.failedTx.getLsbD l then [({ ty := 2, unit := 24 + n, site := l, dir := 1 } : Defect)] else []))
    else [])
  let pchs := (upto 16).flatMap (fun w => if mget false s.mem.spareUsed w then [({ ty := 3, unit := w, site := mget 0 s.mem.spareFor w } : Defect)] else [])
  let rows := s.bt.hardRows.map (fun (w, c, b, r) => ({ ty := 4, unit := w, bank := b, site := c, row := r } : Defect))
  let chest := s.bt.chestRows.map (fun (w, r) => ({ ty := 4, unit := w, bank := 0x3E, site := 0x7F, row := r } : Defect))
  let tiles := s.bt.tiles.flatMap (fun e => tileDefects s e.1 e.2)
  (cores ++ lanes ++ pchs ++ rows ++ chest).map (foundLater s) ++ tiles

/-- Builds the list: sorted, at most 256 entries, clamped when LDL_CTRL.CLAMP was set at the power-on. -/
def buildLdl (s : State) : State :=
  let l := (defects s).foldl (fun a d => defectInsert d a) []
  { s with bt := { s.bt with ldl := (l.take 256).map (defectWord s.bt.ldlClamped), ldlOverflow := decide (256 < l.length) } }

/-! ### The work as a whole -/

/-- The wear monitors' baseline, once (R262, R366). -/
def wearBaseline (s : State) : State :=
  if s.fl.wearBase.isEmpty then { s with fl := { s.fl with wearBase := (upto 16).map (fun w => (w, true)) } } else s

/-- The work of COMPUTE, and why the personality check failed (0 when it passed). -/
def computeWork (cold : Bool) (r : ComputeReport) (s : State) : State × Nat :=
  let s1 := arraySelfTest cold r.defects s
  let s2 := if cold then buildMap r s1 else retestMap r s1
  let s3 := stampAll { s2 with
    bt := { s2.bt with engineFault := r.engineFault, featureFault := r.featureFault }
    fr := { s2.fr with wcQuar := if cold then [] else s2.fr.wcQuar } }
  let s4 := if cold then buildLdl (wearBaseline s3) else s3
  let why := personality s4
  ({ s4 with bt := { s4.bt with personalityOk := why == 0, computeDone := why == 0 } }, why)

end Sys2Proof.Machine
end

