-- ==== Sys2Proof/Machine/Front.lean ====
section
/-! DEFINITION. The front end as shared operations: commands and their fields, what a ring, chain, buffer
or graph may hold, taking the next command of a queue, waits, completion words, sink loss, and the admin
rings (R242 to R259, R370, R372, R373). -/

namespace Sys2Proof.Machine

/-! ### Reads and writes at virtual addresses -/

/-- Outcome of a read: the bytes, or the failing address with what failed there. -/
inductive RdOut where
  | ok (bs : List Byte)
  | fail (va : Nat) (o : XOut)
deriving DecidableEq, Repr

/-- A consuming read of chunks: a poisoned line fails it (R99). -/
def readChunks (ctx acc : Nat) (who : Who) : List (Nat × Nat) → State → RdOut × State
  | [], s => (.ok [], s)
  | (va, n) :: cs, s =>
    match translate s ctx va acc who with
    | (.ok loc, s1) =>
      if locPoison s1 loc then (.fail va (.poisonAt (lineAddr loc)), s1)
      else match readChunks ctx acc who cs s1 with
        | (.ok bs, s2) => (.ok (locBytes s1 loc n ++ bs), s2)
        | (f, s2) => (f, s2)
    | (o, s1) => (.fail va o, s1)

/-- A consuming read of `n` bytes. -/
def readVa (s : State) (ctx va n acc : Nat) (who : Who) : RdOut × State := readChunks ctx acc who (lineChunks va n) s

/-- Writes bytes piece by piece; the failure of the first piece that cannot be translated. -/
def writeChunks (ctx cause : Nat) (who : Who) : List (Nat × Nat) → List Byte → State → Option XOut × State
  | [], _, s => (none, s)
  | (va, n) :: cs, bs, s =>
    match translate s ctx va accWrite who with
    | (.ok loc, s1) => writeChunks ctx cause who cs (bs.drop n) (storeAt cause loc (bs.take n) s1)
    | (o, s1) => (some o, s1)

/-- A write of bytes at a virtual address, by an operation of this idle cause; the failure where it cannot
be translated. -/
def writeVa (s : State) (ctx va : Nat) (bs : List Byte) (cause : Nat) (who : Who) : Option XOut × State :=
  writeChunks ctx cause who (lineChunks va bs.length) bs s

/-! ### Commands (Tables 12-13 and 12-14) -/

def cmdOp (c : W512) : Nat := bfld c 0 8
def cmdKind (c : W512) : Nat := bfld c 8 3
def cmdIndex (c : W512) : Nat := bfld c 11 11
def cmdQctx (c : W512) : Nat := bfld c 22 6
def cmdCw (c : W512) : Bool := c.getLsbD 28
def cmdIrq (c : W512) : Bool := c.getLsbD 29
def cmdWait (c : W512) : Bool := c.getLsbD 30
def cmdChainEn (c : W512) : Bool := c.getLsbD 31
def cmdInd (c : W512) : Bool := c.getLsbD 32
def cmdSig (c : W512) : Bool := c.getLsbD 33
def cmdCmp (c : W512) : Nat := bfld c 34 2
def cmdVector (c : W512) : Nat := bfld c 36 11
def cmdWaitAddr (c : W512) : Nat := bfld c 64 64
def cmdThresh (c : W512) : Nat := bfld c 128 64
def cmdSigAddr (c : W512) : Nat := bfld c 192 64
def cmdArg (c : W512) (k : Nat) : Nat := bfld c (256 + 64 * k) 64
def cmdChain (c : W512) : Nat := bfld c 448 64

/-- Puts ARG0 and ARG1 (R245 step 3). -/
def setArgs (c : W512) (a0 a1 : Nat) : W512 :=
  BitVec.ofNat 512 (c.toNat % 2 ^ 256 + 2 ^ 256 * (a0 % 2 ^ 64) + 2 ^ 320 * (a1 % 2 ^ 64) + c.toNat / 2 ^ 384 * 2 ^ 384)

/-- Where a command was fetched: a ring or a chain of it, a buffer, a graph. -/
inductive Place where
  | ring
  | buffer
  | graph
deriving DecidableEq, Repr

/-- The place that the queue's next command comes from. -/
def placeOf (v : Queue) : Place :=
  match v.frames with
  | [] => .ring
  | f :: _ => if f.graph.isSome then .graph else .buffer

/-- A target or chain address fits its place: 64-byte aligned, or an index. -/
def targetOk (p : Place) (a : Nat) : Bool := if p = .graph then decide (a < 2 ^ 16) else a % 64 == 0

/-- Rules on the fields of one opcode; `tiered` says whether the queue is tiered. -/
def opOk (tiered : Bool) (p : Place) (c : W512) : Bool :=
  let a0 := cmdArg c 0
  let a1 := cmdArg c 1
  let a2 := cmdArg c 2
  match cmdOp c with
  | 0x01 => a0 == 0 && a1 == 0 && a2 == 0
  | 0x02 => cmdInd c || (a2 == 0 && (fld a0 51 1 == 1 || a1 == 0))
  | 0x03 => true
  | 0x10 => tiered && targetOk p a2
  | 0x11 => tiered && targetOk p a2
  | 0x12 => tiered && a0 == 0 && a1 == 0 && targetOk p a2
  | 0x13 => tiered && p != .ring && a0 == 0 && a1 == 0 && a2 == 0
  | 0x14 => tiered && p == .ring && decide (a0 < 2 ^ 12) && a1 == 0 && a2 == 0
  | 0x15 => tiered && p == .ring && fld a0 12 4 == 0 && decide (a0 < 2 ^ 32)
  | _ => false

/-- A command breaks R244 where it was fetched. -/
def cmdIllegal (tiered : Bool) (p : Place) (c : W512) : Bool :=
  let op := cmdOp c
  let runs := op == 2 || op == 3
  bfld c 47 17 != 0
  || (bfld c 8 20 != 0 && !(tiered && runs))
  || (cmdCmp c != 0 && op != 0x10)
  || (cmdInd c && !runs)
  || (decide (4 ≤ op) && (cmdChainEn c || cmdChain c != 0))
  || (cmdChainEn c && !targetOk p (cmdChain c))
  || (cmdWait c && cmdWaitAddr c % 8 != 0)
  || (cmdSig c && cmdSigAddr c % 8 != 0)
  || !opOk tiered p c

/-! ### In-flight commands -/

/-- A queue's own command wait among the waiters. -/
def isQueueWait (q : Nat) (w : Waiter) : Bool := w.isQueue && w.key == q

/-- Adds a command in flight, with its result when that is known already. -/
def pushFlight (q : Nat) (e : Entry) (target : Nat) (result : Option Nat) (inGraph : Bool) (s : State) : State :=
  modQ q (fun v => { v with
    cur := none, waitDone := false, chainOpen := cmdChainEn e.cmd && result.getD 0 == 0
    inflight := v.inflight ++ [{ entry := e, result := result, inGraph := inGraph, target := target, id := v.dispatched }]
    dispatched := v.dispatched + 1 }) (dropWaits (isQueueWait q) s)

/-- Frames of an IF, LOOP or CALL that a queue runs hold this in-flight command open. -/
def runsBuffer (v : Queue) (f : InFlight) : Bool := v.frames.any (fun x => x.kind != 3 && x.id == f.id)

/-- The queue's next command belongs to a running graph. -/
def inGraphNow (v : Queue) : Bool := v.launch.isSome

/-- A command of a queue that ends before an engine sees it, with the front end's record: illegal, absent
or an invalid descriptor (R373). -/
def feEnd (q : Nat) (e : Entry) (cls st reason a0 a1 : Nat) (s : State) : State :=
  let s1 := addFault (feRec s q e.seq cls st reason 0 a0 a1 q) false s
  pushFlight q e (qcKey 7 0 0) (some st) (inGraphNow (getQ s q)) s1

/-- Illegal for the front end: bytes 0–7 of the command, its ARG0, the QID. -/
def feIllegal (q : Nat) (e : Entry) (reason : Nat) (s : State) : State :=
  feEnd q e cIllegal stIllegal reason (bfld e.cmd 0 64) (cmdArg e.cmd 0) s

/-- The front end's record and reset for a failed access (R91, R99, R308): the context's fabric work is
spared. -/
def feAccess (q : Nat) (seq : BitVec 56) (va acc : Nat) (o : XOut) (s : State) : State :=
  let c := (getQ s q).ctx
  match o with
  | .ok _ => s
  | .bad r l a => ctxReset c stCtxReset false (addFault (feRec s q seq cTranslation stXlat r 1 va (acc + 4 * l) a) false s)
  | .poisonAt pa => ctxReset c stCtxReset false (addFault (feRec s q seq cPoison stPoison 0 1 pa va 0) false s)

/-- Status of a failed access. -/
def accessStatus : XOut → Nat
  | .poisonAt _ => stPoison
  | _ => stXlat

/-- A command that fails in an access of the front end before dispatch. -/
def feFail (q : Nat) (e : Entry) (va acc : Nat) (o : XOut) (s : State) : State :=
  let st := accessStatus o
  feAccess q e.seq va acc o (pushFlight q e (qcKey 7 0 0) (some st) (inGraphNow (getQ s q)) s)

/-! ### Sink loss (R259) -/

/-- The queue's next command is a wait boundary: it waits, or is a LAUNCH (R259). -/
def atBoundary (v : Queue) : Bool := match v.cur with | some e => cmdWait e.cmd || cmdOp e.cmd == 0x14 | none => false

/-- A queue whose context's sink is lost holds a command at a wait boundary (R259). -/
def sinkHeld (s : State) (v : Queue) : Bool := (getCtx s v.ctx).state == ctxSinkLost || v.sinkBad

/-- What the loss of its context's sink does to a queue: words go to its shadow; at a wait boundary it halts. -/
def loseSink (v : Queue) : Queue :=
  { v with sinkBad := true, state := if (v.state = qActive ∨ v.state = qIdle) ∧ atBoundary v then qHalted else v.state }

/-- A context enters SINK_LOST: completion words of all its queues go to their shadows. -/
def sinkLost (c : Nat) (s : State) : State :=
  let x := getCtx s c
  let s1 := if x.state = ctxActive then setCtx c { x with state := ctxSinkLost } s
            else if x.state = ctxResetting ∧ x.prior = ctxActive then setCtx c { x with prior := ctxSinkLost } s else s
  { s1 with fe := { s1.fe with queues := s1.fe.queues.map (fun e => if e.2.live ∧ e.2.ctx = c then (e.1, loseSink e.2) else e) } }

/-- Some queue of the context writes to its shadow. -/
def anySinkBad (s : State) (c : Nat) : Bool := s.fe.queues.any (fun e => e.2.live && e.2.ctx == c && e.2.sinkBad)

/-- Writes the fetched count to CI_ADDR (R242). -/
def writeCi (q : Nat) (s : State) : State :=
  let v := getQ s q
  if v.ciAddr = 0 ∨ v.sinkBad then s
  else match writeVa s v.ctx v.ciAddr.toNat (leBytes 8 v.fetched) causeEngine .other with
    | (none, s1) => s1
    | (some _, s1) => sinkLost v.ctx s1

/-! ### Taking commands (R242, R245, R246, R250) -/

/-- A command that does not end with DONE has not been published: the queue is about to stop. -/
def failPending (v : Queue) : Bool := v.inflight.any (fun f => !f.inGraph && f.result.isSome && f.result != some stDone)

/-- The queue may take and dispatch commands now: its context, its function, who fetches it; in a stop nothing is
fetched or dispatched (R345). -/
def mayFetch (s : State) (q : Nat) : Bool :=
  let v := getQ s q
  let st := (getCtx s v.ctx).state
  let fabricKind := qKind q == kRX || qKind q == kUX
  v.live && s.ob.stopState != 2 && !v.chainOpen && !failPending v && !(getFn s v.owner).quiescing
  && (st == ctxActive || st == ctxSinkLost || (st == ctxResetting && fabricKind))
  && (qKind q != 7 || chanterUp s)

/-- A LAUNCH binds the version that is current when it is fetched (R251). -/
def bindLaunch (s : State) (e : Entry) : Entry :=
  if cmdOp e.cmd = 0x14 then
    let g := mget {} s.fe.graphs (fld (cmdArg e.cmd 0) 0 12)
    { e with bound := g.current.map (fun v => (v, g.owner)) }
  else e

/-- An entry from 64 bytes. -/
def entryOf (bs : List Byte) (seq : BitVec 56) (addr : Nat) (chained fromHost : Bool) : Entry :=
  { cmd := BitVec.ofNat 512 (leNat bs), seq, addr := BitVec.ofNat 64 addr, chained, fromHost }

/-- Reads a command at a virtual address and makes it the queue's next; where it cannot be read, it
completes with the fault. -/
def takeAt (q : Nat) (va : Nat) (seq : BitVec 56) (chained : Bool) (s : State) : State :=
  let v := getQ s q
  match readVa s v.ctx va 64 accRead .other with
  | (.ok bs, s1) => modQ q (fun w => { w with cur := some (bindLaunch s1 (entryOf bs seq va chained false)) }) s1
  | (.fail a o, s1) => feFail q { cmd := 0, seq, addr := BitVec.ofNat 64 va, chained } a accRead o s1

/-- Home address of command `i` of a graph version. -/
def graphLoc (s : State) (g ver i : Nat) : Option Nat :=
  match (mget [] (mget {} s.fe.graphs g).versions ver)[i / 64]? with
  | some page => homeOf (partCount s) (s.fe.graphBase.toNat + 4096 * page + 64 * (i % 64))
  | none => none

/-- Takes command `i` of a graph: past its end it is illegal (R250). -/
def takeGraph (q g ver i : Nat) (seq : BitVec 56) (s : State) : State :=
  let e : Entry := { cmd := 0, seq, addr := BitVec.ofNat 64 i }
  if mget 0 (mget {} s.fe.graphs g).lengths ver ≤ i then feIllegal q e rCommand s
  else match graphLoc s g ver i with
    | none => feIllegal q e rCommand s
    | some h =>
      let t := readLoc h s
      if poisoned t.mem (h / 64) then feFail q e 0 accRead (.poisonAt (h / 64 * 64)) t
      else modQ q (fun w => { w with cur := some (entryOf (memBytes t.mem h 64) seq i false false) }) t

/-- Takes the next command of a running frame and moves the frame on. -/
def takeFrame (q : Nat) (f : Frame) (fs : List Frame) (s : State) : State :=
  match f.graph with
  | some (g, ver) => takeGraph q g ver f.next.toNat f.seq (modQ q (fun v => { v with frames := { f with next := f.next + 1 } :: fs }) s)
  | none => takeAt q f.next.toNat f.seq false (modQ q (fun v => { v with frames := { f with next := f.next + 64 } :: fs }) s)

/-- Address of the ring entry that is fetched next. -/
def ringAt (v : Queue) : Nat := v.ring.toNat + 64 * (v.fetched % 2 ^ v.ringLog2)

/-- The command that a completed command's CHAIN names: at its index in the graph that runs, else at its address, with
the queue's next number (R246, R247). -/
def takeChain (q a : Nat) (s : State) : State :=
  let v := getQ s q
  let s1 := modQ q (fun w => { w with chainFrom := none }) s
  match v.launch, v.frames with
  | some e, f :: _ => match f.graph with
    | some (g, ver) => takeGraph q g ver a e.seq s1
    | none => takeAt q a e.seq true s1
  | _, _ => takeAt q a v.nextSeq true (modQ q (fun w => { w with nextSeq := w.nextSeq + 1 }) s1)

/-- The next ring entry becomes the queue's next command and takes its submission number (R247). One that cannot be read
completes with its fault. -/
def takeEntry (q : Nat) (s : State) : State :=
  let v := getQ s q
  match v.entries with
  | e :: es => modQ q (fun w => { w with cur := some (bindLaunch s { e with seq := v.nextSeq }), entries := es, nextSeq := v.nextSeq + 1 }) s
  | [] =>
    if v.pi ≤ v.fetched then s
    else match readVa s v.ctx (ringAt v) 64 accRead .other with
      | (.ok _, _) => s
      | (.fail a o, s1) =>
        feFail q { cmd := 0, seq := v.nextSeq, addr := BitVec.ofNat 64 (ringAt v) } a accRead o
          (modQ q (fun w => { w with fetched := v.fetched + 1, nextSeq := v.nextSeq + 1 }) s1)

/-- The queue takes its next command: a chained one, else one put back, else from the running frame, else from what it has
fetched of its ring. A launch whose frames have ended waits. -/
def takeNext (q : Nat) (s : State) : State :=
  let v := getQ s q
  match v.cur, v.chainFrom, v.back, v.frames, v.launch with
  | some _, _, _, _, _ => s
  | none, some a, _, _, _ => takeChain q a.toNat s
  | none, none, e :: es, _, _ => modQ q (fun w => { w with cur := some e, back := es }) s
  | none, none, [], f :: fs, _ => takeFrame q f fs s
  | none, none, [], [], some _ => s
  | none, none, [], [], none => takeEntry q s

/-- The next command's wait and its legality (R244, R245 step 2, R259). -/
def armCur (q : Nat) (s : State) : State :=
  let v := getQ s q
  match v.cur with
  | none => if v.state = qActive then modQ q (fun w => { w with state := qIdle }) s else s
  | some e =>
    if cmdIllegal (qKind q == 7) (placeOf v) e.cmd then feIllegal q e rCommand s
    else if sinkHeld s v && atBoundary v then
      modQ q (fun w => { w with state := qHalted }) s
    else if cmdWait e.cmd ∧ !v.waitDone then
      match translate s v.ctx (cmdWaitAddr e.cmd) accTally .other with
      | (.ok loc, s1) =>
        if locPoison s1 loc then feFail q e (cmdWaitAddr e.cmd) accTally (.poisonAt (lineAddr loc)) s1
        else
          registerWait { key := q, isQueue := true, ctx := v.ctx, host := isHost loc, addr := loc % hostBit
                         va := BitVec.ofNat 64 (cmdWaitAddr e.cmd), thresh := BitVec.ofNat 64 (cmdThresh e.cmd) }
            (modQ q (fun w => { w with state := qWaiting }) s1)
      | (o, s1) => feFail q e (cmdWaitAddr e.cmd) accTally o s1
    else modQ q (fun w => { w with state := qActive }) s

/-- Reads the next `n` ring entries ahead, one after the other, up to one that cannot be read: that one is fetched when
its turn comes. -/
def takeRing (q : Nat) : Nat → State → State
  | 0, s => s
  | n + 1, s =>
    let v := getQ s q
    match readVa s v.ctx (ringAt v) 64 accRead .other with
    | (.ok bs, s1) =>
      let host := match translate s1 v.ctx (ringAt v) accRead .other with | (.ok l, _) => isHost l | _ => false
      takeRing q n (modQ q (fun w => { w with fetched := w.fetched + 1, entries := w.entries ++ [entryOf bs 0 (ringAt v) false host] }) s1)
    | (.fail _ _, _) => s

/-- Entries below the producer index last read come in as room is left in the 64 that may be fetched ahead (R242). The
Chanter traces a fetch of a tiered queue (R293). -/
def refill (q : Nat) (s : State) : State :=
  let v := getQ s q
  let n := min (v.pi - v.fetched) (64 - v.entries.length)
  if n = 0 then s
  else
    let s1 := writeCi q (takeRing q n s)
    if qKind q = 7 then fwPoint (chanterProc s) 1 q s1 else s1

/-- The queue takes its next command when it may, and readies it. -/
def settleQ (q : Nat) (s : State) : State :=
  let v := getQ s q
  if mayFetch s q && (v.state == qIdle || v.state == qActive) then armCur q (takeNext q (refill q s)) else s

/-! ### Producer indices (R242, R243, R372) -/

/-- Reads a queue's producer index and fetches new commands, up to 64 ahead of dispatch. An index that
cannot be read stops the queue and resets its context (R372). -/
def fetchQ (q : Nat) (s : State) : State :=
  let v := getQ s q
  if !mayFetch s q || v.destroying || v.state == qStopped || v.state == qHalted then s
  else
    match readVa s v.ctx v.piAddr.toNat 8 accRead .other with
    | (.fail a o, s1) =>
      let s2 := modQ q (fun w => { w with state := qStopped, stopStatus := accessStatus o, stopped := none }) s1
      feAccess q v.nextSeq a accRead o s2
    | (.ok bs, s1) =>
      settleQ q (refill q (modQ q (fun w => { w with pi := leNat bs }) s1))

/-- The command of this opcode that the queue is ready to carry out. -/
def headCmd (s : State) (q op : Nat) : Option Entry :=
  let v := getQ s q
  match v.cur with
  | some e => if mayFetch s q && v.state == qActive && cmdOp e.cmd == op && (!cmdWait e.cmd || v.waitDone) then some e else none
  | none => none

/-- The queue's command wait is registered and not released. -/
def waitsOn (s : State) (q : Nat) : Bool := s.fe.waiters.any (fun w => isQueueWait q w && w.released.isNone)

/-- The halted queues of a context go on with the commands they hold, and their producer indices are read again; one that
had stopped reads STOPPED again (R255). -/
def resumeQueues (c : Nat) (s : State) : State :=
  (queuesWhere s (fun _ v => v.ctx == c && v.state == qHalted)).foldl (fun t q =>
    fetchQ q (modQ q (fun v => { v with state := if v.stopStatus ≠ 0 then qStopped else if waitsOn t q then qWaiting else qIdle }) t)) s

/-- The context leaves SINK_LOST once no queue of it writes to its shadow (R259, R308 step 5). -/
def sinkFound (c : Nat) (s : State) : State :=
  if anySinkBad s c then s
  else if (getCtx s c).state = ctxSinkLost then resumeQueues c (enterState c ctxActive s)
  else s

/-! ### What an engine takes next (R105) -/

/-- Queue context `q` has a further command ready: one handed over, or the next of its direct queue. -/
def furtherReady (s : State) (q : Nat) : Bool :=
  readyCtx s q || ((getQc s q).live && !(getQc s q).blocked && runsOn s q (getQc s q) && [1, 2, 3].any (fun op => (headCmd s q op).isSome))

/-- The queue context whose further command the engine goes on with. -/
def staysWith (s : State) (k : Nat) : Option Nat := (getEng s k).kept.filter (furtherReady s)

/-- Ready queue contexts of the engine of `t` other than `t`. -/
def readyOthers (s : State) (t : Nat) : List Nat :=
  qcsWhere s (fun k _ => qKind k == qKind t && qIndex k == qIndex t && k != t && readyCtx s k)

/-- Queue context `t` may start on its engine at once: the engine runs none, and goes on with `t` or has no other to go to. -/
def mayTake (s : State) (t : Nat) : Bool :=
  let e := getEng s (engKey (qKind t) (qIndex t))
  e.running.isNone && (e.kept == some t || ((staysWith s (engKey (qKind t) (qIndex t))).isNone && (readyOthers s t).isEmpty))

/-! ### Interrupts (R257) -/

/-- Sends an MSI-X message on a function's link, or sets its pending bit when the vector is masked. -/
def sendMsix (f : Bool) (vector : Nat) (s : State) : State :=
  if vectorMasked (getFn s f) vector then modFn f (fun x => { x with pba := mset false x.pba vector true }) s
  else if (getFn s f).linkUp then emit (.msix f vector) s else s

/-! ### Completion (R245 steps 6 to 8, R246, R255, R256) -/

/-- A completion word: the status above the submission number. -/
def completionWord (st : Nat) (seq : BitVec 56) : Nat := st * 2 ^ 56 + seq.toNat

/-- Writes a completion word to the queue's sink, or to its shadow. -/
def writeWord (q st : Nat) (seq : BitVec 56) (s : State) : State :=
  let word := completionWord st seq
  let shadow := fun (t : State) => modQ q (fun v => { v with
    shadowFirst := if v.shadowHeld then v.shadowFirst else BitVec.ofNat 64 word
    shadowHeld := true, shadowLast := BitVec.ofNat 64 word, shadowCount := satAdd max32 v.shadowCount 1 }) t
  let v := getQ s q
  if v.sinkBad then shadow s
  else match writeVa s v.ctx (v.cq.toNat + 8 * (seq.toNat % 2 ^ v.cqLog2)) (leBytes 8 word) causeEngine .other with
    | (none, s1) => s1
    | (some _, s1) => shadow (sinkLost v.ctx s1)

/-- The SIG addition of a command that ended with DONE: the status it completes with (R245). -/
def sigAdd (q : Nat) (f : InFlight) (s : State) : Nat × Option XOut × State :=
  let v := getQ s q
  if !cmdSig f.entry.cmd then (stDone, none, s)
  else match translate s v.ctx (cmdSigAddr f.entry.cmd) accTally .other with
    | (.ok loc, s1) =>
      if locPoison s1 loc then (stPoison, some (.poisonAt (lineAddr loc)), s1)
      else (stDone, none, tallyAddAt (causeOf (qKind f.target)) loc 1 s1)
    | (o, s1) => (accessStatus o, some o, s1)

/-- A launch whose graph has ended and whose commands have all completed completes too (R251). -/
def endLaunchIf (q : Nat) (s : State) : State :=
  let v := getQ s q
  match v.launch with
  | some e =>
    if (v.launchEnded || v.launchFail != 0) && v.cur.isNone && !v.inflight.any (·.inGraph) then
      let st := v.launchFail
      setQ q { v with launch := none, launchFail := 0, launchEnded := false, frames := []
                      inflight := v.inflight ++ [{ entry := e, result := some st, target := qcKey 7 0 0, id := v.dispatched }]
                      dispatched := v.dispatched + 1 } s
    else s
  | none => s

/-- The queue stops with the status of a command (R255); a held command's wait is dropped. -/
def stopQ (q st : Nat) (e : Entry) (s : State) : State :=
  modQ q (fun v => { v with state := qStopped, stopStatus := st, stopped := some e, chainOpen := false, waitDone := false })
    (dropWaits (isQueueWait q) s)

/-- What the queue does once a command of its own has completed with a status. -/
def afterWord (q st : Nat) (f : InFlight) (s : State) : State :=
  let v := getQ s q
  if f.inGraph then
    if st ≠ stDone then
      endLaunchIf q (setQ q { v with launchFail := if v.launchFail = 0 then st else v.launchFail, frames := [], cur := none, waitDone := false
                                     inflight := v.inflight.filter (fun x => !runsBuffer v x), chainFrom := none
                                     chainOpen := false, state := if v.state = qStopped then qStopped else qActive } (dropWaits (isQueueWait q) s))
    else if cmdChainEn f.entry.cmd && v.launch.isSome && v.launchFail == 0 then
      setQ q { v with chainOpen := false, chainFrom := some (BitVec.ofNat 64 (cmdChain f.entry.cmd)) } s
    else endLaunchIf q s
  else if st ≠ stDone then
    if v.state = qStopped then s else stopQ q st f.entry s
  else if cmdChainEn f.entry.cmd && v.chainOpen then
    let drop := v.destroying && v.frames.isEmpty
    setQ q { v with chainOpen := false, chainFrom := if drop then none else some (BitVec.ofNat 64 (cmdChain f.entry.cmd)) } s
  else s

/-- The function's admin command ends with a status; one that is not DONE writes a record (R373). -/
def ctlEnd (f : Bool) (st cls reason a0 a1 : Nat) (s : State) : State :=
  let x := getFn s f
  match x.adminBusy with
  | none => s
  | some b =>
    let s1 := setFn f { x with adminBusy := some { b with result := some st } } s
    if st = stDone then s1 else addFault (ctlRec s1 f b.entry.seq cls st reason a0 a1) true s1

/-- A queue that is stopped or halted while it is destroyed runs nothing further: its frames, its launch and
the commands that ran them are dropped. -/
def trimStopped (v : Queue) : Queue :=
  if v.state = qStopped ∨ v.state = qHalted then
    { v with cur := none, back := [], launch := none, frames := []
             chainFrom := none, inflight := v.inflight.filter (fun f => !runsBuffer v f) }
  else v

/-- Removes a queue; a direct queue's engine queue context goes with it. With the last queue whose sink is bad, its
context leaves SINK_LOST (R259). -/
def removeQ (q : Nat) (s : State) : State :=
  let s1 := dropWaits (fun w => w.key == q && (w.isQueue || qKind q != 7)) (setQ q {} s)
  sinkFound (getQ s q).ctx (if qKind q = 7 then s1 else setQc q {} s1)

/-- A queue under Q_DESTROY goes once its dispatched commands have completed, and the control command ends. -/
def finishDestroy (q : Nat) (s : State) : State :=
  let v := trimStopped (getQ s q)
  if !(v.live && v.destroying) then s
  else if v.inflight.isEmpty && v.cur.isNone && v.back.isEmpty && v.chainFrom.isNone && v.frames.isEmpty && v.launch.isNone then
    [false, true].foldl (fun t f =>
      match (getFn t f).adminBusy with
      | some b => if b.result.isNone && cmdOp b.entry.cmd == 0x25 && cmdArg b.entry.cmd 0 == q then ctlEnd f stDone 0 0 0 0 t else t
      | none => t) (removeQ q s)
  else setQ q v s

/-- Publishes an in-flight command whose result is known. -/
def publish (q : Nat) (f : InFlight) (s : State) : State :=
  let st0 := f.result.getD 0
  let (st, failed, s1) := if st0 = stDone then sigAdd q f s else (st0, none, s)
  let s2 := modQ q (fun v => { v with inflight := v.inflight.filter (fun x => x.id != f.id) }) s1
  let s3 := if st ≠ stDone || cmdCw f.entry.cmd then writeWord q st f.entry.seq s2 else s2
  let v := getQ s3 q
  let s4 := if cmdIrq f.entry.cmd && !anySinkBad s3 v.ctx then sendMsix v.owner (cmdVector f.entry.cmd) s3 else s3
  let s5 := afterWord q st f s4
  let s6 := match failed with
    | some o => feAccess q f.entry.seq (cmdSigAddr f.entry.cmd) accTally o s5
    | none => s5
  finishDestroy q (settleQ q s6)

/-- Publishes every in-flight command of a queue whose result is known, in dispatch order. -/
def publishAll (q : Nat) (s : State) : State :=
  ((getQ s q).inflight.filter (fun f => f.result.isSome)).foldl (fun t f => publish q f t) s

/-! ### Admin rings (R254) -/

/-- The admin ring is on: enabled, Ready, served by the Chanter, with its link up (R254, R280). -/
def adminOn (s : State) (f : Bool) : Bool :=
  let x := getFn s f
  s.bt.ready && s.ob.stopState != 2 && x.adminCfg.getLsbD 63 && x.linkUp && chanterUp s

/-- Bytes of host memory at an address without PASID; none where the host aborts. -/
def hostBytes (s : State) (a n : Nat) : Option (List Byte) :=
  if inRanges s.hs.aborts a || (lineChunks a n).any (fun c => locPoison s (hostBit + c.1)) then none else some (locBytes s (hostBit + a) n)

/-- The next admin command becomes the one executed; a command that breaks R244 or R254 ends at once. -/
def settleAdmin (f : Bool) (s : State) : State :=
  let x := getFn s f
  match x.adminBusy, x.adminFetched with
  | none, e :: es =>
    let c := e.cmd
    let op := cmdOp c
    let s1 := setFn f { x with adminBusy := some { entry := e }, adminFetched := es } s
    let known := op == 1 || (decide (0x20 ≤ op) && decide (op ≤ 0x2A))
    if !known || bfld c 47 17 != 0 || bfld c 8 20 != 0 || cmdCmp c != 0 || cmdChain c != 0 && !cmdChainEn c
       || (op == 1 && (cmdArg c 0 != 0 || cmdArg c 1 != 0 || cmdArg c 2 != 0))
       || (!cmdWait c && (cmdWaitAddr c != 0 || cmdThresh c != 0)) || (!cmdSig c && cmdSigAddr c != 0) then
      ctlEnd f stIllegal cIllegal rCommand (bfld c 0 64) (cmdArg c 0) s1
    else if cmdWait c || cmdChainEn c || cmdInd c || cmdSig c then ctlEnd f stIllegal cIllegal rControl (bfld c 0 64) (cmdArg c 0) s1
    else s1
  | _, _ => s

/-- Reads entries of an admin ring. -/
def takeAdmin (f : Bool) : Nat → State → State
  | 0, s => s
  | n + 1, s =>
    let x := getFn s f
    let a := x.adminRing.toNat + 64 * (x.adminCount % 2 ^ bfld x.adminCfg 0 5)
    match hostBytes s a 64 with
    | none => s
    | some bs =>
      takeAdmin f n (setFn f { x with adminCount := x.adminCount + 1, adminSeq := x.adminSeq + 1
                                      adminFetched := x.adminFetched ++ [entryOf bs x.adminSeq a false true] } s)

/-- Reads an admin ring's producer index and fetches new commands. -/
def fetchAdmin (f : Bool) (s : State) : State :=
  let x := getFn s f
  if !adminOn s f then s
  else match hostBytes s x.adminPi.toNat 8 with
    | none => s
    | some bs =>
      let n := min (leNat bs - x.adminCount) (64 - x.adminFetched.length)
      let s1 := takeAdmin f n s
      settleAdmin f (if n = 0 then s1 else fwPoint (chanterProc s) 1 (2 ^ 20 + b01 f) s1)

/-- Publishes the executed admin command: its completion word and interrupt, then the next. -/
def publishAdmin (f : Bool) (s : State) : State :=
  let x := getFn s f
  match x.adminBusy with
  | some b =>
    match b.result with
    | some st =>
      let s1 := setFn f { x with adminBusy := none } s
      let a := x.adminCq.toNat + 8 * (b.entry.seq.toNat % 2 ^ bfld x.adminCfg 5 5)
      let s2 := if (st ≠ stDone || cmdCw b.entry.cmd) && !inRanges s.hs.aborts a then
          storeAt causeEngine (hostBit + a) (leBytes 8 (completionWord st b.entry.seq)) s1 else s1
      let s3 := if cmdIrq b.entry.cmd then sendMsix f (cmdVector b.entry.cmd) s2 else s2
      if adminOn s3 f then settleAdmin f (fetchAdmin f s3) else s3
    | none => s
  | none => s

end Sys2Proof.Machine
end

