-- ==== Sys2Proof/Machine/Operands.lean ====
section
/-! DEFINITION. The operands of QIS instructions: the register files (R106, R107), the program counter, the
words of the instruction at hand, and the end of an instruction (R103, R109, R123, R124). -/

namespace Sys2Proof.Machine

/-! ### Register files (R106, R107) -/

/-- General register; g0 reads as 0. -/
def rdG (qc : QCtx) (r : BitVec 5) : W64 := if r = 0 then 0 else mget 0 qc.g r.toNat

/-- Writes a general register; a write to g0 is discarded. -/
def wrG (r : BitVec 5) (v : W64) (qc : QCtx) : QCtx := if r = 0 then qc else { qc with g := mset 0 qc.g r.toNat v }

/-- Vector register. -/
def rdV (qc : QCtx) (r : BitVec 5) : VReg := mget 0 qc.v r.toNat
def wrV (r : BitVec 5) (v : VReg) (qc : QCtx) : QCtx := { qc with v := mset 0 qc.v r.toNat v }

/-- Predicate register; p0 reads as all ones. -/
def rdP (qc : QCtx) (r : Nat) : W64 := if r = 0 then BitVec.allOnes 64 else mget 0 qc.p r

/-- Writes a predicate register; a write to p0 is discarded. -/
def wrP (r : Nat) (v : W64) (qc : QCtx) : QCtx := if r = 0 then qc else { qc with p := mset 0 qc.p r v }

/-- Element width in bits of a W field: 16, 32, 64; none for a reserved one (Table 06-2's widths). -/
def widthOf (w : BitVec 2) : Option Nat := if w = 0 then some 16 else if w = 1 then some 32 else if w = 2 then some 64 else none

/-- Elements of a register at width `w`. -/
def lanes (w : Nat) : Nat := 1024 / w

/-- Element `i` of width `w`. -/
def elem (v : VReg) (w i : Nat) : Nat := fld v.toNat (w * i) w

/-- Register whose elements of width `w` are given. -/
def ofElems (w : Nat) (f : Nat → Nat) : VReg := BitVec.ofNat 1024 ((upto (lanes w)).foldl (fun a i => a + f i % 2 ^ w * 2 ^ (w * i)) 0)

/-- Element `i` is active under guard PG. -/
def active (qc : QCtx) (pg : BitVec 3) (i : Nat) : Bool := (rdP qc pg.toNat).getLsbD i

/-! ### The instruction at hand -/

/-- Whether the queue context runs a program. -/
def isProg (qc : QCtx) : Bool := match qc.cmd with | some (_, _, b) => b | none => false

/-- The command in progress at a queue context, as its queue holds it. -/
def curFlight (s : State) (q : Nat) : Option InFlight :=
  match (getQc s q).cmd with
  | some (qu, id, _) => (getQ s qu).inflight.reverse.find? (fun f => f.id == id)
  | none => none

/-- Word at a program address as memory holds it. -/
def wordAt (s : State) (ctx va : Nat) (who : Who) : Nat :=
  match translate s ctx va accFetch who with
  | (.ok loc, _) => locNat s loc 8
  | _ => 0

/-- Who makes the accesses of an engine's instructions (R86). -/
def whoOf (q : Nat) : Who := if qKind q ≤ kDM then .core (qIndex q) else .other

/-- An instruction word has an extension word (R108). -/
def wordX (w : Nat) : Bool := fld w 51 1 == 1

/-- The words at a queue context's program counter as memory holds them. -/
def readWords (s : State) (q : Nat) : Nat × Nat :=
  let qc := getQc s q
  let w := wordAt s qc.ctx qc.pc.toNat (whoOf q)
  (w, if wordX w then wordAt s qc.ctx (qc.pc.toNat + 8) (whoOf q) else 0)

/-- The instruction word and extension word of the instruction at hand, as they were fetched, for its fault record. -/
def curWords (s : State) (q : Nat) : Nat × Nat :=
  let qc := getQc s q
  if isProg qc then
    match qc.words with
    | some (pc, w, x) => if pc = qc.pc then (w.toNat, if wordX w.toNat then x.toNat else 0) else readWords s q
    | none => readWords s q
  else match curFlight s q with
    | some f => (cmdArg f.entry.cmd 0, if wordX (cmdArg f.entry.cmd 0) then cmdArg f.entry.cmd 1 else 0)
    | none => (0, 0)

/-- The instruction is illegal for this reason. -/
def illegalNow (q reason : Nat) (s : State) : State := illegal q reason (curWords s q).1 (curWords s q).2 s

/-- The instruction of `len` bytes has ended: a program goes on behind it, an instruction command completes. -/
def doneInsn (q len : Nat) (s : State) : State :=
  if isProg (getQc s q) then modQc q (fun c => { c with pc := c.pc + BitVec.ofNat 64 len }) s else finishCmd q stDone s

/-- Every engine kind, and VX alone. -/
def anyKind (_ : Nat) : Bool := true
def onlyKind (k : Nat) (k' : Nat) : Bool := k' == k

/-! ### Long-running instructions (R103, R247) -/

/-- Sequence number of the long-running instruction at hand: its own within a program, else the command's. -/
def longSeq (s : State) (q : Nat) : BitVec 56 := if isProg (getQc s q) then (getQc s q).nextSeq else (getQc s q).seq

/-- A long-running instruction starts: within a program it takes the next sequence number. -/
def startLong (q word : Nat) (s : State) : State :=
  let qc := getQc s q
  if isProg qc then
    let s1 := setQc q { qc with nextSeq := qc.nextSeq + 1 } s
    traceEng (qKind q) (qIndex q) 1 (trTag qc.nextSeq (qCtxNo q)) (trInsn qc.ctx word) s1
  else s

/-- A long-running instruction ends with a status and its counters; with any status but DONE its program's
command ends with the same. -/
def endLong (q st : Nat) (seq : BitVec 56) (n : Nums) (len : Nat) (s : State) : State :=
  let qc := getQc s q
  if isProg qc then
    let k := engKey (qKind q) (qIndex q)
    let e := getEng s k
    let s1 := setEng k { e with bank := shadowed n seq (qCtxNo q) e.bank } s
    let s2 := traceEng (qKind q) (qIndex q) 2 (trTag seq (qCtxNo q)) (st + 2 ^ 8 * qc.ctx) s1
    if st = stDone then doneInsn q len s2 else finishCmd q st s2
  else finishCmd q st (modQc q (fun c => { c with nums := addNums c.nums n }) s)

/-- A fault of a long-running instruction that ends its context. -/
def longFault (q cls status reason a0 a1 a2 : Nat) (seq : BitVec 56) (n : Nums) (s : State) : State :=
  let r := { engRec s q cls status reason 1 a0 a1 a2 with seq := seq }
  let c := (getQc s q).ctx
  ctxReset c stCtxReset (qKind q == kRX || qKind q == kUX) (endLong q status seq n 0 (addFault r false s))

/-- A failed access of a long-running instruction. -/
def longAccess (q va acc : Nat) (o : XOut) (seq : BitVec 56) (n : Nums) (s : State) : State :=
  match o with
  | .ok _ => s
  | .bad r l a => longFault q cTranslation stXlat r va (acc % 4 + 4 * l) a seq n s
  | .poisonAt pa => longFault q cPoison stPoison 0 pa va 0 seq n s

end Sys2Proof.Machine
end

