-- ==== Sys2Proof/Machine/Flags.lean ====
section
/-! DEFINITION. VFCSR, its flags, and the results of a vector instruction's active elements (R26, R27, R41,
R107, R123, R136). -/

namespace Sys2Proof.Machine

/-! ### VFCSR (Table 02-2) -/

/-- The fields: dynamic direction, flags, short mode. -/
def vfRD (v : W64) : Nat := bfld v 0 3
def vfFlags (v : W64) : Nat := bfld v 5 5
def vfSRM (v : W64) : Nat := bfld v 10 2

/-- A value that VFCSR may hold: no reserved encoding, no reserved bit (R26, R136). -/
def vfcsrOk (v : W64) : Bool := decide (vfRD v ≤ 4) && decide (vfSRM v ≤ 2) && bfld v 3 2 == 0 && bfld v 12 52 == 0

/-- Raises flags: they are sticky (R27). -/
def raise (fl : Nat) (v : W64) : W64 := v ||| BitVec.ofNat 64 (fl % 32 * 2 ^ 5)

/-- Direction of a code of VFCSR.RD. -/
def dirOf (n : Nat) : RMode := match n with | 0 => .rne | 1 => .rtz | 2 => .rdn | 3 => .rup | _ => .rna

/-- An RM field that R26 calls illegal. -/
def rmBad (rm : BitVec 3) : Bool := rm == 5 || rm == 6

/-- Direction that an RM field selects. -/
def dirRM (rm : BitVec 3) (v : W64) : RMode := if rm = 7 then dirOf (vfRD v) else dirOf rm.toNat

/-- Generators of the command that `q` runs under a sequence number (R39, R240). -/
def genOf (s : State) (q : Nat) (seq : BitVec 56) : Gen :=
  { seed := (getCtx s (getQc s q).ctx).seed, isl := engIsland s (qKind q) (qIndex q), seq := seq.toNat }

/-- Short mode of an instruction, its draw numbered `k`. -/
def vfShort (v : W64) (g : Gen) (k : Nat) : RMode := shortMode (vfSRM v) (srDraw g k)

/-! ### An instruction of one engine kind -/

/-- The instruction of an engine kind runs here: on another kind it is illegal (R123). -/
def onKind (q k : Nat) (s : State) (body : State → State) : Host.Outcome State Fault Refusal :=
  .next (onlyWork s (if canRun s q anyKind then (if qKind q = k then body s else illegalNow q rKind s) else s))

/-- A vector instruction: `nz` tells that a field it does not use is not 0, and `bad` an illegal encoding from what holds
it and the queue context (R123). -/
def vxInsnNz (q : BitVec 20) (nz : Bool) (bad : QCtx → Bool) (body : QCtx → State → State) (s : State) : Host.Outcome State Fault Refusal :=
  onKind q.toNat kVX s (fun t =>
    if nz then illegalNow q.toNat rNonzero t else if bad (getQc t q.toNat) then illegalNow q.toNat rEncoding t else body (getQc t q.toNat) t)

def vxInsn (q : BitVec 20) (bad : QCtx → Bool) (body : QCtx → State → State) (s : State) : Host.Outcome State Fault Refusal :=
  vxInsnNz q false bad body s

/-- A reserved W. -/
def wBad (w : BitVec 2) : Bool := w == 3

/-- Width of a W field that is not reserved. -/
def wBits (w : BitVec 2) : Nat := (widthOf w).getD 64

/-! ### Results -/

/-- The flags that results raise; an open flag is raised as the implementation chooses. -/
def resFlags (free : Nat) (rs : List (Nat × Res)) : Nat :=
  rs.foldl (fun a r => a ||| r.2.flags ||| (r.2.maybe &&& Config.flagChoice (free + r.1))) 0

/-- The queue context's flags and counters after results. -/
def applyRes (free : Nat) (rs : List (Nat × Res)) (c : QCtx) : QCtx :=
  { c with vfcsr := raise (resFlags free rs) c.vfcsr, nums := countAll c.nums (rs.map (fun r => r.2.cnt)) }

/-- Results of the active elements among the first `n`. -/
def laneRes (c : QCtx) (pg : BitVec 3) (n : Nat) (f : Nat → Res) : List (Nat × Res) :=
  ((upto n).filter (active c pg)).map (fun i => (i, f i))

/-- A number with one field replaced. -/
def setFld (n lo w v : Nat) : Nat := n - fld n lo w * 2 ^ lo + v % 2 ^ w * 2 ^ lo

/-- A register with the elements of results replaced. -/
def putRes (w : Nat) (old : VReg) (rs : List (Nat × Res)) : VReg :=
  BitVec.ofNat 1024 (rs.foldl (fun a r => setFld a (w * r.1) w r.2.bits) old.toNat)

/-- A vector result: the active elements of RD, of width `w`, among the first `n`. The results may draw free
values numbered from the state's count. -/
def vecPut (q : Nat) (rd : BitVec 5) (pg : BitVec 3) (w n : Nat) (f : Nat → QCtx → Nat → Res) (s : State) : State :=
  let c := getQc s q
  let rs := laneRes c pg n (f s.free c)
  doneInsn q 8 (modQc q (fun x => applyRes s.free rs (wrV rd (putRes w (rdV c rd) rs) x)) { s with free := s.free + 64 })

/-- A predicate result: bit i of the register for the active elements among the first `n`. -/
def predPut (q : Nat) (pd : Nat) (pg : BitVec 3) (n : Nat) (f : QCtx → Nat → Bool × Nat) (s : State) : State :=
  let c := getQc s q
  let rs := ((upto n).filter (active c pg)).map (fun i => (i, f c i))
  let old := rdP c pd
  let v := (upto 64).foldl (fun a i =>
    let b := match rs.find? (fun r => r.1 == i) with | some r => r.2.1 | none => old.getLsbD i
    a + b01 b * 2 ^ i) 0
  let fl := rs.foldl (fun a r => a ||| r.2.2) 0
  doneInsn q 8 (modQc q (fun x => { wrP pd (BitVec.ofNat 64 v) x with vfcsr := raise fl x.vfcsr }) s)

end Sys2Proof.Machine
end

