-- ==== Sys2Proof/Machine/Tensor.lean ====
section
/-! DEFINITION. Tensor operands: descriptors and their checks, the place of each element, index tensors, and the accesses
and writes of one long-running command (R125 to R134). -/

namespace Sys2Proof.Machine

/-! ### Descriptors (Table 07-1) -/

def tdFmt (d : Nat) : Nat := fld d 1 5
def tdRank (d : Nat) : Nat := fld d 6 2 + 1
def tdTiled (d : Nat) : Bool := fld d 8 2 == 1
def tdSplit1 (d : Nat) : Bool := fld d 10 1 == 1
def tdKax (d : Nat) : Bool := fld d 11 1 == 1
def tdPspan (d : Nat) : Bool := fld d 12 1 == 1
def tdM (d : Nat) : Nat := fld d 64 57
def tdE (d : Nat) : Nat := fld d 128 57
def tdDim (d k : Nat) : Nat := fld d (192 + 32 * k) 32
def tdStride (d k : Nat) : Nat := if k = 0 then 0 else fld d (256 + 64 * k) 64
def tdDims (d : Nat) : List Nat := (upto 4).map (tdDim d)
def tdBM (d : Nat) : Bool := isBM (tdFmt d)
def tdBits (d : Nat) : Nat := fmtBits (tdFmt d)

/-- Round up of a quotient. -/
def cdiv (a b : Nat) : Nat := (a + b - 1) / b

/-- Bytes of `n` elements of a row (Table 07-1's row extent). -/
def tdExtent (d n : Nat) : Nat := if tdBM d then cdiv n 32 * (4 * tdBits d) else cdiv (n * tdBits d) 8

/-- Span of a TILED tensor's dimensions (R128). -/
def tdColSpan (d : Nat) : Nat := if tdPspan d then 512 else 1024
def tdSpan0 (d : Nat) : Nat := if tdKax d then tdColSpan d else 2048
def tdSpan1 (d : Nat) : Nat := if tdSplit1 d then (if tdKax d then 2048 else tdColSpan d) else tdDim d 1
def tdPieces (d : Nat) : Nat := cdiv (tdDim d 0) (tdSpan0 d) * cdiv (tdDim d 1) (tdSpan1 d)

/-- A stride breaks R130: no multiple of 8, too small, or 0 where a destination may not repeat. -/
def strideBad (dest : Bool) (stride need : Nat) (many : Bool) : Bool :=
  stride % 8 != 0 || (stride != 0 && decide (stride < need)) || (dest && stride == 0 && many)

/-- Strides of a LINEAR descriptor. -/
def linearOk (dest : Bool) (d : Nat) : Bool :=
  !tdSplit1 d && !tdKax d && !tdPspan d
  && [1, 2, 3].all (fun k =>
    if tdRank d ≤ k then tdStride d k == 0
    else !strideBad dest (tdStride d k) (if k = 1 then tdExtent d (tdDim d 0) else tdDim d (k - 1) * tdStride d (k - 1)) (decide (1 < tdDim d k)))

/-- Strides of a TILED descriptor. -/
def tiledOk (dest : Bool) (d : Nat) : Bool :=
  tdRank d == 2 && (!tdPspan d || tdFmt d == 0x0D || tdFmt d == 0x0E)
  && !strideBad dest (tdStride d 1) (tdExtent d (tdSpan0 d)) (decide (1 < tdSpan1 d))
  && !strideBad dest (tdStride d 2) (tdSpan1 d * tdStride d 1) (decide (1 < tdPieces d))
  && (if tdBM d then !strideBad dest (tdStride d 3) (tdSpan1 d * cdiv (tdSpan0 d) 32) (decide (1 < tdPieces d)) else tdStride d 3 == 0)

/-- The checks of R130 that do not depend on the instruction. -/
def tdOk (dest : Bool) (d : Nat) : Bool :=
  fld d 0 1 == 1 && fmtDefined (tdFmt d) && decide (fld d 8 2 ≤ 1) && fld d 13 51 == 0 && fld d 121 7 == 0 && fld d 185 7 == 0
  && [0, 1, 2, 3].all (fun k => if k < tdRank d then tdDim d k != 0 else tdDim d k == 1)
  && tdM d % 64 == 0 && (if tdBM d then tdE d % 64 == 0 else tdE d == 0)
  && (if tdTiled d then tiledOk dest d else linearOk dest d)

/-- Outcome of a descriptor read. -/
inductive TdRead where
  | ok (d : Nat)
  | invalid
  | poisonAt (pa : Nat)
deriving DecidableEq, Repr

/-- A read of a descriptor meets the errors of its line. -/
def meetTd (s : State) (part handle : Nat) : State :=
  match homeOf (partCount s) ((mget 0 s.fe.descBase part).toNat + 64 * handle) with
  | none => s
  | some h => readLoc h s

/-- Reads the entry of a handle of a partition's table (R125, R126); one that is not backed is invalid. -/
def readTd (s : State) (part handle : Nat) : TdRead :=
  match homeOf (partCount s) ((mget 0 s.fe.descBase part).toNat + 64 * handle) with
  | none => .invalid
  | some h => if isCoreAddr h then .invalid else if poisoned s.mem (h / 64) then .poisonAt (h / 64 * 64) else .ok (memNat s.mem h 64)

/-! ### Where an element lies (R128, R129) -/

/-- Indices i0 to i3. -/
abbrev Ix := Nat × Nat × Nat × Nat

def ixGet (x : Ix) (k : Nat) : Nat := match k with | 0 => x.1 | 1 => x.2.1 | 2 => x.2.2.1 | _ => x.2.2.2
def ixSet (x : Ix) (k v : Nat) : Ix :=
  match k with
  | 0 => (v, x.2)
  | 1 => (x.1, v, x.2.2)
  | 2 => (x.1, x.2.1, v, x.2.2.2)
  | _ => (x.1, x.2.1, x.2.2.1, v)

/-- Start of the row as stored, position within it, address of the block exponent; `tc` is FEAT_ARRAY.TILE_COLS. -/
def tdPlace (tc d : Nat) (x : Ix) : Nat × Nat × Nat :=
  let i0 := x.1
  let i1 := x.2.1
  if tdTiled d then
    let s0 := tdSpan0 d
    let s1 := tdSpan1 d
    let (a, b) := if tdKax d then (i1 / s1, i0 / s0) else (i0 / s0, i1 / s1)
    let p := a * tc + b
    let l0 := i0 % s0
    (tdM d + p * tdStride d 2 + i1 % s1 * tdStride d 1, l0, tdE d + p * tdStride d 3 + i1 % s1 * cdiv s0 32 + l0 / 32)
  else
    let i2 := x.2.2.1
    let i3 := x.2.2.2
    (tdM d + i1 * tdStride d 1 + i2 * tdStride d 2 + i3 * tdStride d 3, i0,
     tdE d + ((i3 * tdDim d 2 + i2) * tdDim d 1 + i1) * cdiv (tdDim d 0) 32 + i0 / 32)

/-- Rows of a tensor, as indices with i0 = 0. -/
def tdRows (d : Nat) : List Ix :=
  (upto (tdDim d 3)).flatMap (fun c => (upto (tdDim d 2)).flatMap (fun b => (upto (tdDim d 1)).map (fun a => (0, a, b, c))))

/-! ### The accesses of one command -/

/-- What a command has read and written so far: the state as its translations leave it, locations read, bytes to write
(each plus 1), locations that take poison, failed accesses with their kinds, counters and flags. -/
structure Job where
  s : State
  reads : List Nat := []
  writes : NMap Nat := []
  pois : List Nat := []
  errs : List (Nat × Nat × XOut) := []
  nums : Nums := {}
  flags : Nat := 0

/-- Under whom the accesses are made, whether reads consume (R86, R99), and the locations that an unordered earlier
command writes: reads of them see some mixture (R53). -/
structure Acc where
  ctx : Nat
  who : Who
  consume : Bool
  race : List Nat := []

/-- Reads one byte, and tells whether its line is poisoned; a core memory in quarantine answers with poison (R315). -/
def rdByte (c : Acc) (va : Nat) (j : Job) : (Byte × Bool) × Job :=
  match translate j.s c.ctx (va % 2 ^ 64) accRead c.who with
  | (.ok loc, s1) =>
    let p := locPoison s1 loc || coreClosed s1 loc
    let j1 := { j with s := s1, reads := loc :: j.reads }
    if p && c.consume then ((0, false), { j1 with errs := j1.errs ++ [(va, accRead, .poisonAt (lineAddr loc))] })
    else if c.race.contains loc then ((Config.mixByte s1.free, p), { j1 with s := nextFree s1 })
    else ((locByte s1 loc, p), j1)
  | (o, s1) => ((0, false), { j with s := s1, errs := j.errs ++ [(va, accRead, o)] })

/-- Reads `n` bytes, little-endian. -/
def rdNat (c : Acc) : Nat → Nat → Job → (Nat × Bool) × Job
  | _, 0, j => ((0, false), j)
  | va, n + 1, j =>
    let (b, j1) := rdByte c va j
    let (r, j2) := rdNat c (va + 1) n j1
    ((b.1.toNat + 256 * r.1, b.2 || r.2), j2)

/-- Writes one byte, as poison or not. -/
def wrByte (c : Acc) (va : Nat) (b : Byte) (poison : Bool) (j : Job) : Job :=
  match translate j.s c.ctx (va % 2 ^ 64) accWrite c.who with
  | (.ok loc, s1) =>
    { j with s := s1, writes := mset 0 j.writes loc (b.toNat + 1), pois := if poison then loc :: j.pois else j.pois }
  | (o, s1) => { j with s := s1, errs := j.errs ++ [(va, accWrite, o)] }

/-- Writes bytes with their poison. -/
def wrBytes (c : Acc) : Nat → List (Byte × Bool) → Job → Job
  | _, [], j => j
  | va, b :: bs, j => wrBytes c (va + 1) bs (wrByte c va b.1 b.2 j)

/-- Reads an element's code. -/
def rdCode (c : Acc) (tc d : Nat) (x : Ix) (j : Job) : (Nat × Bool) × Job :=
  let w := tdBits d
  let (row, l0, _) := tdPlace tc d x
  let p := w * l0
  let (r, j1) := rdNat c (row + p / 8) (cdiv (p % 8 + w) 8) j
  ((fld r.1 (p % 8) w, r.2), j1)

/-- Reads the exponent of an element's block; 0 for a format without one. -/
def rdExp (c : Acc) (tc d : Nat) (x : Ix) (j : Job) : (Nat × Bool) × Job :=
  if tdBM d then rdNat c (tdPlace tc d x).2.2 1 j else ((0, false), j)

/-- Value of an element of a floating, block or integer format. -/
def valOf (fmt code ex : Nat) : FV :=
  if isBM fmt then decodeBM (bmWidth fmt) ex (sField (bmWidth fmt) code)
  else if isInt fmt then ofInt (sField (fmtBits fmt) code) 0
  else decodeCode fmt code

/-- Reads an element's value exactly. -/
def rdVal (c : Acc) (tc d : Nat) (x : Ix) (j : Job) : (FV × Bool) × Job :=
  let (a, j1) := rdCode c tc d x j
  let (e, j2) := rdExp c tc d x j1
  ((valOf (tdFmt d) a.1 e.1, a.2 || e.2), j2)

/-! ### Runs of 32 elements -/

/-- First indices of the runs of a row, and the elements of each. -/
def tdRuns (d : Nat) : List (Nat × Nat) := (upto (cdiv (tdDim d 0) 32)).map (fun b => (32 * b, min 32 (tdDim d 0 - 32 * b)))

/-- Bytes of a run of codes with their poison (R32, R34, R35). -/
def runBytes (d : Nat) (cs : List (Nat × Bool)) : List (Byte × Bool) :=
  let w := tdBits d
  let v := cs.zipIdx.foldl (fun a p => a + p.1.1 % 2 ^ w * 2 ^ (w * p.2)) 0
  let n := if tdBM d then 4 * w else cdiv (cs.length * w) 8
  (leBytes n v).zipIdx.map (fun b => (b.1, cs.zipIdx.any (fun p => p.1.2 && decide (w * p.2 < 8 * b.2 + 8) && decide (8 * b.2 < w * p.2 + w))))

/-- Writes a run from its codes and, in a BM format, its exponent, each with its poison. -/
def wrRun (c : Acc) (tc d : Nat) (x : Ix) (cs : List (Nat × Bool)) (ex : Nat × Bool) (j : Job) : Job :=
  let (row, l0, ea) := tdPlace tc d x
  let j1 := wrBytes c (row + tdBits d * l0 / 8) (runBytes d cs) j
  if tdBM d then wrByte c ea (BitVec.ofNat 8 ex.1) ex.2 j1 else j1

/-- Applies a step to each of a list's members in turn and keeps the results in order. -/
def mapJob {α β : Type} (f : α → Job → β × Job) : List α → Job → List β × Job
  | [], j => ([], j)
  | a :: l, j =>
    let (b, j1) := f a j
    let (bs, j2) := mapJob f l j1
    (b :: bs, j2)

/-- Rounding of a destination's elements: by `rm` where long formats take an IEEE direction (VX), else by the short mode;
each element takes its own draw. -/
structure Rnd where
  rm : Option RMode := none
  short : Nat := 0
  gen : Gen := {}

/-- One value into a destination format that is not BM. -/
def roundTo (r : Rnd) (fmt k : Nat) (x : FV) : Res :=
  match r.rm with
  | some m => if isLong fmt then toLong (floatFmt fmt) m x else toShort fmt (shortMode r.short (srDraw r.gen k)) x
  | none => toShort fmt (shortMode r.short (srDraw r.gen k)) x

/-- The counter of an element: NaN goes before an overflow that its source had (Table 02-11, R79). -/
def cntOf (c : Nat) (skip ovf : Bool) : Nat := if skip then 0 else if c ≠ 1 ∧ ovf then 2 else c

/-- Writes a run of values, rounded or block-formed; `none` is an element that a skipped slice leaves +0, which no
counter counts (R133); `ovf` marks elements that count as overflowed whatever they round to (R79). -/
def wrVals (c : Acc) (tc d : Nat) (r : Rnd) (x : Ix) (vs : List (Option FV)) (ovf : List Bool) (j : Job) : Job :=
  let k := j.s.free
  let j0 := { j with s := { j.s with free := k + 32 } }
  let xs := vs.map (fun v => v.getD posZero)
  let tally := fun (cs : List Nat) => cs.zipIdx.map (fun p => cntOf p.1 ((vs.getD p.2 none).isNone) (ovf.getD p.2 false))
  if tdBM d then
    let w := tdBits d
    let b := formBlock w (fun i => shortMode r.short (srDraw r.gen (k + i))) xs
    let fl := sigFlags xs ||| (b.maybe &&& Config.flagChoice k)
    wrRun c tc d x (b.ms.map (fun m => ((m % 2 ^ w).toNat, false))) (b.e, false)
      { j0 with nums := countAll j0.nums (tally b.cnts), flags := j0.flags ||| fl }
  else
    let rs := xs.zipIdx.map (fun p => roundTo r (tdFmt d) (k + p.2) p.1)
    wrRun c tc d x (rs.map (fun r => (r.bits, false))) (0, false)
      { j0 with nums := countAll j0.nums (tally (rs.map (fun r => r.cnt))), flags := j0.flags ||| resFlags k (rs.zipIdx.map (fun p => (p.2, p.1))) }

/-- An element to be written: none where a skipped slice leaves +0; with its value, whether it is an infinity that finite
sources gave before the last rounding (R41). -/
abbrev Elem := Option (FV × Bool)

/-- Every run of a destination from a function of the indices. -/
def wrAll (c : Acc) (tc d : Nat) (r : Rnd) (f : Ix → Job → Elem × Job) (j : Job) : Job :=
  (tdRows d).foldl (fun a row =>
    (tdRuns d).foldl (fun b run =>
      let x := ixSet row 0 run.1
      let (vs, b1) := mapJob (fun i => f (ixSet x 0 (run.1 + i))) (upto run.2) b
      wrVals c tc d r x (vs.map (·.map Prod.fst)) (vs.map (fun v => (v.getD (posZero, false)).2)) b1) a) j

/-! ### Index tensors (R132, R133) -/

/-- An index tensor that fits: integer, rank 1, LINEAR, as long as the iterated dimension. -/
def idxOk (d size : Nat) : Bool := tdOk false d && isInt (tdFmt d) && tdRank d == 1 && !tdTiled d && tdDim d 0 == size

/-- The positions that an index tensor selects, none where it skips; counts what NUM_IDXRANGE counts. -/
def rdIndex (c : Acc) (tc d size : Nat) (j : Job) : List (Option Nat) × Job :=
  mapJob (fun i j1 =>
    let (r, j2) := rdCode { c with consume := true } tc d (i, 0, 0, 0) j1
    let v := sField (tdBits d) r.1
    if 0 ≤ v ∧ v < size then (some v.toNat, j2)
    else if v = -1 then (none, j2)
    else (none, { j2 with nums := { j2.nums with idx := satAdd max48 j2.nums.idx 1 } })) (upto (tdDim d 0)) j

/-! ### The end of a command -/

/-- Writes by ascending location, each with the number of the aligned 8 bytes it lies in. -/
def inWords : Nat → Nat → NMap Nat → List (Nat × Nat × Nat)
  | _, _, [] => []
  | n, last, (l, b) :: ws => let n' := if l / 8 = last then n else n + 1; (n', l, b) :: inWords n' (l / 8) ws

/-- The writes as performed, a byte standing plus 1: all of them; after a fault each aligned 8 bytes wholly or not at all
(R94, R308); where a destination overlaps a source, in each aligned 8 bytes the new value or the old one (R131). -/
def jobWrites (j : Job) : NMap Nat :=
  let k := j.s.free
  let overlap := j.writes.any (fun w => j.reads.contains w.1)
  let done := fun (n : Nat) => (j.errs.isEmpty || Config.partWritten (k + n)) && !(overlap && Config.mixOld (k + n))
  ((inWords 0 0 j.writes).filter (fun w => done w.1)).map Prod.snd

/-- Distinct lines among locations. -/
def lineCount (ls : List Nat) : Nat := (ls.map (· / 64)).eraseDups.length

/-- Performs the writes: to host memory, to device memory, and none into a core memory in quarantine, where they are
absorbed and counted (R315, R323). -/
def jobCommit (cause : Nat) (j : Job) : State :=
  let ws := jobWrites j
  let host := ws.filter (fun w => isHost w.1)
  let closed := ws.filter (fun w => coreClosed j.s w.1)
  let dev := ws.filter (fun w => !isHost w.1 && !coreClosed j.s w.1)
  let s1 := { j.s with
    hs := { j.s.hs with hostMem := host.foldl (fun m w => mset 0 m (w.1 - hostBit) (BitVec.ofNat 8 (w.2 - 1))) j.s.hs.hostMem
                        hostPoison := host.foldl (fun m w =>
                          if w.1 % 64 == 0 && (upto 64).all (fun i => mget 0 host (w.1 + i) != 0) then mset false m ((w.1 - hostBit) / 64) false
                          else m) j.s.hs.hostPoison }
    mem := memStoreAll dev j.s.mem
    free := j.s.free + ws.length + 1 }
  let kept := j.pois.filter (fun l => mget 0 ws l != 0 && !coreClosed j.s l)
  changed cause (absorbReq (lineCount (closed.map Prod.fst)) (kept.foldl (fun t l => poisonLoc l t) s1))

/-- The end of a long-running command of `len` bytes: its writes, its counters and its status. -/
def jobEnd (q len : Nat) (seq : BitVec 56) (j : Job) : State :=
  let s0 := jobCommit (causeOf (qKind q)) j
  let s1 := if qKind q = kVX then modQc q (fun c => { c with vfcsr := raise j.flags c.vfcsr }) s0 else s0
  match j.errs with
  | [] => endLong q stDone seq j.nums len s1
  | e :: es =>
    let f := (e :: es).getD (Config.firstFault j.s.free % (es.length + 1)) e
    longAccess q f.1 f.2.1 f.2.2 seq j.nums s1

/-! ### Where an accepted array command will write, and read Y (R53, R95) -/

/-- Row of the output tensor for row `i` of an array command (R151). -/
def placeRow (c : AxCmd) (i : Nat) : Option Nat :=
  let places := c.x.idxen && (c.bank == 2 || c.x.idxrole != 1)
  if places then ((c.sel.getD i none).filter (fun v => decide (v < tdDim c.d1.toNat 1))) else some i

/-- 32 output columns of a row are frozen (R149). -/
def frozen (c : AxCmd) (i b : Nat) : Bool := (mget 0 c.mask (4 * (c.rbase + i) + b / 64)).getLsbD (b % 64)

/-- Locations of addresses under a command's context. -/
def locsOf (t : State) (ctx acc : Nat) (vas : List Nat) : List Nat :=
  vas.filterMap (fun va => match translate t ctx (va % 2 ^ 64) acc .other with | (.ok l, _) => some l | _ => none)

/-- Locations that a command's outputs are written to: the rows it selects, without what is frozen. -/
def cmdOut (t : State) (c : AxCmd) : List Nat :=
  if c.ended || c.fail.isSome || !(c.bank == 2 || (c.bank == 1 && c.dt)) then []
  else
    let d := c.d1.toNat
    (upto c.m).flatMap (fun i =>
      match placeRow c i with
      | none => []
      | some o => ((tdRuns d).filter (fun run => !frozen c i (run.1 / 32))).flatMap (fun run =>
          let (r, l0, ea) := tdPlace (tileCols (partCount t)) d (run.1, o, 0, 0)
          let n := if tdBM d then 4 * tdBits d else cdiv (run.2 * tdBits d) 8
          locsOf t c.ctx accWrite ((upto n).map (r + tdBits d * l0 / 8 + ·) ++ (if tdBM d then [ea] else []))))

/-- Position of Y's element for row `i`, column `j` (Table 04-4). -/
def yAt (w : W32) (i j : Nat) : Ix := match bfld w 2 2 with | 0 => (j, i, 0, 0) | 1 => (j, 0, 0, 0) | _ => (0, i, 0, 0)

/-- Locations of Y that a command has yet to read. -/
def cmdY (t : State) (c : AxCmd) : List Nat :=
  if c.ended || c.fail.isSome || bfld c.x.opx 0 2 == 0 then []
  else
    let d := c.dY.toNat
    (upto c.m).flatMap (fun i => (upto c.n).flatMap (fun j =>
      let (r, l0, ea) := tdPlace (tileCols (partCount t)) d (yAt c.x.opx i j)
      let p := tdBits d * l0
      locsOf t c.ctx accRead ((upto (cdiv (p % 8 + tdBits d) 8)).map (r + p / 8 + ·) ++ (if tdBM d then [ea] else []))))

/-! ### A long-running instruction (R103, R123, R126) -/

/-- The first of the checks that fails gives the reason. -/
def firstBad (cs : List (Bool × Nat)) : Option Nat := (cs.find? Prod.fst).map Prod.snd

/-- A descriptor of a started command fails its checks (Table 15-3). -/
def longDesc (q handle operand : Nat) (seq : BitVec 56) (s : State) : State :=
  let r := { engRec s q cDescriptor stDescriptor 0 0 handle operand 0 with seq := seq }
  endLong q stDescriptor seq {} 0 (addFault r false s)

/-- Reads a descriptor for operand `o`, checks it, and goes on with it. -/
def withTd (q handle o : Nat) (dest : Bool) (extra : Nat → Bool) (seq : BitVec 56) (s : State) (k : Nat → State → State) : State :=
  let s := meetTd s (engPart s (qKind q) (qIndex q)) handle
  match readTd s (engPart s (qKind q) (qIndex q)) handle with
  | .invalid => longDesc q handle o seq s
  | .poisonAt pa => longFault q cPoison stPoison 0 pa 0 0 seq {} s
  | .ok d => if tdOk dest d && extra d then k d s else longDesc q handle o seq s

/-- A long-running instruction of an engine kind: illegal for the first reason that holds, else started under its
sequence number. -/
def longInsn (q kind cls minor : Nat) (cs : List (Bool × Nat)) (s : State) (body : BitVec 56 → State → State) : Host.Outcome State Fault Refusal :=
  onKind q kind s (fun t =>
    match firstBad cs with
    | some r => illegalNow q r t
    | none => let seq := longSeq t q; body seq (startLong q (cls * 2 ^ 58 + minor * 2 ^ 52) t))

/-- The index fields are unused and must be 0 (R123, R134). -/
def idxUnused (x : TExt) : Bool := x.idxh == 0 && x.idxdim == 0 && !x.idxen

end Sys2Proof.Machine
end

