-- ==== Sys2Proof/Machine/Vector.lean ====
section
/-! DEFINITION. The register instructions of VX, classes 0x08 to 0x0D (R25 to R28, R135 to R138). -/

namespace Sys2Proof.Machine

/-! ### Shared forms -/

/-- Value of element `i` of a register. -/
def elemV (c : QCtx) (r : BitVec 5) (w i : Nat) : FV := decodeL w (elem (rdV c r) w i)

/-- A floating instruction with an RM field. -/
def fInsn (q : BitVec 20) (rd : BitVec 5) (pg : BitVec 3) (w : BitVec 2) (rm : BitVec 3) (f : FloatFmt → RMode → QCtx → Nat → Res)
    (s : State) : Host.Outcome State Fault Refusal :=
  vxInsn q (fun _ => wBad w || rmBad rm)
    (fun _ t => vecPut q.toNat rd pg (wBits w) (lanes (wBits w)) (fun _ c i => f (longFmt (wBits w)) (dirRM rm c.vfcsr) c i) t) s

/-- A vector instruction on W-bit elements without an RM field. -/
def wInsn (q : BitVec 20) (rd : BitVec 5) (pg : BitVec 3) (w : BitVec 2) (f : Nat → QCtx → Nat → Res) (s : State) :
    Host.Outcome State Fault Refusal :=
  vxInsn q (fun _ => wBad w) (fun _ t => vecPut q.toNat rd pg (wBits w) (lanes (wBits w)) (fun _ c i => f (wBits w) c i) t) s

/-- RD := RA op RB. -/
def f2 (q : BitVec 20) (rd ra rb : BitVec 5) (pg : BitVec 3) (w : BitVec 2) (rm : BitVec 3) (op : FloatFmt → RMode → FV → FV → Res)
    (s : State) : Host.Outcome State Fault Refusal :=
  fInsn q rd pg w rm (fun f m c i => op f m (elemV c ra (wBits w) i) (elemV c rb (wBits w) i)) s

/-- RD := ±RA·RB ± RC. -/
def f3 (q : BitVec 20) (rd ra rb rc : BitVec 5) (pg : BitVec 3) (w : BitVec 2) (rm : BitVec 3) (np nc : Bool) (s : State) :
    Host.Outcome State Fault Refusal :=
  fInsn q rd pg w rm (fun f m c i => fmaR f m np nc (elemV c ra (wBits w) i) (elemV c rb (wBits w) i) (elemV c rc (wBits w) i)) s

/-! ### Class 0x08 -/

/-- VADD. -/
def execVadd (q : BitVec 20) (rd ra rb : BitVec 5) (pg : BitVec 3) (w : BitVec 2) (rm : BitVec 3) (s : State) : Host.Outcome State Fault Refusal :=
  f2 q rd ra rb pg w rm addR s
/-- VSUB. -/
def execVsub (q : BitVec 20) (rd ra rb : BitVec 5) (pg : BitVec 3) (w : BitVec 2) (rm : BitVec 3) (s : State) : Host.Outcome State Fault Refusal :=
  f2 q rd ra rb pg w rm subR s
/-- VMUL. -/
def execVmul (q : BitVec 20) (rd ra rb : BitVec 5) (pg : BitVec 3) (w : BitVec 2) (rm : BitVec 3) (s : State) : Host.Outcome State Fault Refusal :=
  f2 q rd ra rb pg w rm mulR s
/-- VDIV. -/
def execVdiv (q : BitVec 20) (rd ra rb : BitVec 5) (pg : BitVec 3) (w : BitVec 2) (rm : BitVec 3) (s : State) : Host.Outcome State Fault Refusal :=
  f2 q rd ra rb pg w rm divR s
/-- VSQRT. -/
def execVsqrt (q : BitVec 20) (rd ra : BitVec 5) (pg : BitVec 3) (w : BitVec 2) (rm : BitVec 3) (s : State) : Host.Outcome State Fault Refusal :=
  fInsn q rd pg w rm (fun f m c i => sqrtR f m (elemV c ra (wBits w) i)) s
/-- VFMA: RA·RB + RC. -/
def execVfma (q : BitVec 20) (rd ra rb rc : BitVec 5) (pg : BitVec 3) (w : BitVec 2) (rm : BitVec 3) (s : State) : Host.Outcome State Fault Refusal :=
  f3 q rd ra rb rc pg w rm false false s
/-- VFMS: RA·RB − RC. -/
def execVfms (q : BitVec 20) (rd ra rb rc : BitVec 5) (pg : BitVec 3) (w : BitVec 2) (rm : BitVec 3) (s : State) : Host.Outcome State Fault Refusal :=
  f3 q rd ra rb rc pg w rm false true s
/-- VFNMA: −RA·RB + RC. -/
def execVfnma (q : BitVec 20) (rd ra rb rc : BitVec 5) (pg : BitVec 3) (w : BitVec 2) (rm : BitVec 3) (s : State) : Host.Outcome State Fault Refusal :=
  f3 q rd ra rb rc pg w rm true false s
/-- VMIN. -/
def execVmin (q : BitVec 20) (rd ra rb : BitVec 5) (pg : BitVec 3) (w : BitVec 2) (s : State) : Host.Outcome State Fault Refusal :=
  wInsn q rd pg w (fun n c i => minMaxR (longFmt n) false (elemV c ra n i) (elemV c rb n i)) s
/-- VMAX. -/
def execVmax (q : BitVec 20) (rd ra rb : BitVec 5) (pg : BitVec 3) (w : BitVec 2) (s : State) : Host.Outcome State Fault Refusal :=
  wInsn q rd pg w (fun n c i => minMaxR (longFmt n) true (elemV c ra n i) (elemV c rb n i)) s
/-- VABS: the sign bit cleared. -/
def execVabs (q : BitVec 20) (rd ra : BitVec 5) (pg : BitVec 3) (w : BitVec 2) (s : State) : Host.Outcome State Fault Refusal :=
  wInsn q rd pg w (fun n c i => { bits := elem (rdV c ra) n i % 2 ^ (n - 1) }) s
/-- VNEG: the sign bit inverted. -/
def execVneg (q : BitVec 20) (rd ra : BitVec 5) (pg : BitVec 3) (w : BitVec 2) (s : State) : Host.Outcome State Fault Refusal :=
  wInsn q rd pg w (fun n c i => { bits := elem (rdV c ra) n i + 2 ^ (n - 1) }) s
/-- VREM. -/
def execVrem (q : BitVec 20) (rd ra rb : BitVec 5) (pg : BitVec 3) (w : BitVec 2) (s : State) : Host.Outcome State Fault Refusal :=
  wInsn q rd pg w (fun n c i => remR (longFmt n) (elemV c ra n i) (elemV c rb n i)) s
/-- VRINT. -/
def execVrint (q : BitVec 20) (rd ra : BitVec 5) (pg : BitVec 3) (w : BitVec 2) (rm : BitVec 3) (s : State) : Host.Outcome State Fault Refusal :=
  fInsn q rd pg w rm (fun f m c i => rintR f m (elemV c ra (wBits w) i)) s
/-- VCMP. -/
def execVcmp (q : BitVec 20) (pd : BitVec 3) (ra rb : BitVec 5) (fn : BitVec 4) (pg : BitVec 3) (w : BitVec 2) (s : State) : Host.Outcome State Fault Refusal :=
  vxInsn q (fun _ => wBad w || decide (6 < fn.toNat))
    (fun _ t => predPut q.toNat pd.toNat pg (lanes (wBits w)) (fun c i => compareR fn.toNat (elemV c ra (wBits w) i) (elemV c rb (wBits w) i)) t) s
/-- VCLASS. -/
def execVclass (q : BitVec 20) (rd ra : BitVec 5) (pg : BitVec 3) (w : BitVec 2) (s : State) : Host.Outcome State Fault Refusal :=
  wInsn q rd pg w (fun n c i => { bits := 2 ^ (classBit (classOf (longFmt n) (elemV c ra n i)) % 10) }) s

/-! ### Class 0x09 -/

/-- RD := RA op RB on integers of W bits. -/
def i2 (q : BitVec 20) (rd ra rb : BitVec 5) (pg : BitVec 3) (w : BitVec 2) (op : Nat → Nat → Nat → Nat) (s : State) : Host.Outcome State Fault Refusal :=
  wInsn q rd pg w (fun n c i => { bits := op n (elem (rdV c ra) n i) (elem (rdV c rb) n i) % 2 ^ n }) s

/-- Shift amount of an element: RB[5:0], as the INT shifts take it. -/
def elemSh (b : Nat) : Nat := b % 64

/-- VIADD. -/
def execViadd (q : BitVec 20) (rd ra rb : BitVec 5) (pg : BitVec 3) (w : BitVec 2) (s : State) : Host.Outcome State Fault Refusal :=
  i2 q rd ra rb pg w (fun _ a b => a + b) s
/-- VISUB. -/
def execVisub (q : BitVec 20) (rd ra rb : BitVec 5) (pg : BitVec 3) (w : BitVec 2) (s : State) : Host.Outcome State Fault Refusal :=
  i2 q rd ra rb pg w (fun n a b => 2 ^ n + a - b) s
/-- VIMUL. -/
def execVimul (q : BitVec 20) (rd ra rb : BitVec 5) (pg : BitVec 3) (w : BitVec 2) (s : State) : Host.Outcome State Fault Refusal :=
  i2 q rd ra rb pg w (fun _ a b => a * b) s
/-- VIAND. -/
def execViand (q : BitVec 20) (rd ra rb : BitVec 5) (pg : BitVec 3) (w : BitVec 2) (s : State) : Host.Outcome State Fault Refusal :=
  i2 q rd ra rb pg w (fun _ a b => a &&& b) s
/-- VIOR. -/
def execVior (q : BitVec 20) (rd ra rb : BitVec 5) (pg : BitVec 3) (w : BitVec 2) (s : State) : Host.Outcome State Fault Refusal :=
  i2 q rd ra rb pg w (fun _ a b => a ||| b) s
/-- VIXOR. -/
def execVixor (q : BitVec 20) (rd ra rb : BitVec 5) (pg : BitVec 3) (w : BitVec 2) (s : State) : Host.Outcome State Fault Refusal :=
  i2 q rd ra rb pg w (fun _ a b => a ^^^ b) s
/-- VISHL. -/
def execVishl (q : BitVec 20) (rd ra rb : BitVec 5) (pg : BitVec 3) (w : BitVec 2) (s : State) : Host.Outcome State Fault Refusal :=
  i2 q rd ra rb pg w (fun _ a b => a * 2 ^ elemSh b) s
/-- VISHR. -/
def execVishr (q : BitVec 20) (rd ra rb : BitVec 5) (pg : BitVec 3) (w : BitVec 2) (s : State) : Host.Outcome State Fault Refusal :=
  i2 q rd ra rb pg w (fun _ a b => a / 2 ^ elemSh b) s
/-- VISAR. -/
def execVisar (q : BitVec 20) (rd ra rb : BitVec 5) (pg : BitVec 3) (w : BitVec 2) (s : State) : Host.Outcome State Fault Refusal :=
  i2 q rd ra rb pg w (fun n a b => (sField n a / 2 ^ elemSh b % 2 ^ n).toNat) s
/-- VIMIN. -/
def execVimin (q : BitVec 20) (rd ra rb : BitVec 5) (pg : BitVec 3) (w : BitVec 2) (s : State) : Host.Outcome State Fault Refusal :=
  i2 q rd ra rb pg w (fun n a b => if sField n a < sField n b then a else b) s
/-- VIMAX. -/
def execVimax (q : BitVec 20) (rd ra rb : BitVec 5) (pg : BitVec 3) (w : BitVec 2) (s : State) : Host.Outcome State Fault Refusal :=
  i2 q rd ra rb pg w (fun n a b => if sField n a < sField n b then b else a) s
/-- VIMINU. -/
def execViminu (q : BitVec 20) (rd ra rb : BitVec 5) (pg : BitVec 3) (w : BitVec 2) (s : State) : Host.Outcome State Fault Refusal :=
  i2 q rd ra rb pg w (fun _ a b => min a b) s
/-- VIMAXU. -/
def execVimaxu (q : BitVec 20) (rd ra rb : BitVec 5) (pg : BitVec 3) (w : BitVec 2) (s : State) : Host.Outcome State Fault Refusal :=
  i2 q rd ra rb pg w (fun _ a b => max a b) s
/-- VISEQ. -/
def execViseq (q : BitVec 20) (pd : BitVec 3) (ra rb : BitVec 5) (pg : BitVec 3) (w : BitVec 2) (s : State) : Host.Outcome State Fault Refusal :=
  vxInsn q (fun _ => wBad w)
    (fun _ t => predPut q.toNat pd.toNat pg (lanes (wBits w)) (fun c i => (elem (rdV c ra) (wBits w) i == elem (rdV c rb) (wBits w) i, 0)) t) s

/-! ### Class 0x0B -/

/-- VCVTF: element i of the F2 format from element i of W, as far as both registers reach. The rest of RD keeps its value,
of which no rule speaks (DESIGN CHOICE). -/
def execVcvtf (q : BitVec 20) (rd ra fc : BitVec 5) (pg : BitVec 3) (w : BitVec 2) (rm : BitVec 3) (s : State) : Host.Outcome State Fault Refusal :=
  let g := floatFmt fc.toNat
  vxInsn q (fun _ => wBad w || rmBad rm || !isLong fc.toNat)
    (fun _ t => vecPut q.toNat rd pg g.width (min (lanes (wBits w)) (lanes g.width))
      (fun _ c i => toLong g (dirRM rm c.vfcsr) (elemV c ra (wBits w) i)) t) s
/-- VCVTFI. -/
def execVcvtfi (q : BitVec 20) (rd ra : BitVec 5) (pg : BitVec 3) (w : BitVec 2) (rm : BitVec 3) (s : State) : Host.Outcome State Fault Refusal :=
  fInsn q rd pg w rm (fun _ m c i => toIntR (wBits w) m (elemV c ra (wBits w) i)) s
/-- VCVTIF. -/
def execVcvtif (q : BitVec 20) (rd ra : BitVec 5) (pg : BitVec 3) (w : BitVec 2) (rm : BitVec 3) (s : State) : Host.Outcome State Fault Refusal :=
  fInsn q rd pg w rm (fun f m c i => toLong f m (ofInt (sField (wBits w) (elem (rdV c ra) (wBits w) i)) 0)) s
/-- VCVTE: packed from bit 0 (R32). The bits of RD above the packed results keep their value, of which no rule speaks (DESIGN
CHOICE). -/
def execVcvte (q : BitVec 20) (rd ra fc : BitVec 5) (pg : BitVec 3) (w : BitVec 2) (s : State) : Host.Outcome State Fault Refusal :=
  vxInsn q (fun _ => wBad w || !isElemFloat fc.toNat)
    (fun _ t => vecPut q.toNat rd pg (fmtBits fc.toNat) (lanes (wBits w))
      (fun n c i => toShort fc.toNat (vfShort c.vfcsr (genOf t q.toNat c.seq) (n + i)) (elemV c ra (wBits w) i)) t) s

/-- An exact conversion; a value that the format cannot hold is stated by no rule. -/
def exactTo (f : FloatFmt) (k : Nat) (x : FV) : Res :=
  let r := toLong f .rne x
  if r.flags % 8 = 0 then r else { bits := (Config.openFn k).toNat % 2 ^ f.width, maybe := 31 }

/-- VDECE. -/
def execVdece (q : BitVec 20) (rd ra fc : BitVec 5) (pg : BitVec 3) (w : BitVec 2) (s : State) : Host.Outcome State Fault Refusal :=
  let ew := fmtBits fc.toNat
  vxInsn q (fun _ => wBad w || !isElemFloat fc.toNat)
    (fun _ t => vecPut q.toNat rd pg (wBits w) (lanes (wBits w))
      (fun n c i => exactTo (longFmt (wBits w)) (n + i) (decodeCode fc.toNat (fld (rdV c ra).toNat (ew * i) ew))) t) s

/-- The register that VCVTBM writes: an inactive element takes no part and keeps its mantissa, but in a block of exponent 0 or
255, whose mantissas are all written as 0 (R33). -/
def bmReg (w : Nat) (old : VReg) (act : List Nat) (b : Block) : VReg :=
  let base := if b.e = 0 ∨ b.e = 255 then 0 else fld old.toNat 0 (32 * w)
  let ms := (act.zip b.ms).foldl (fun a p => setFld a (w * p.1) w (p.2 % 2 ^ w).toNat) base
  BitVec.ofNat 1024 (ms + b.e % 256 * 2 ^ 1016)

/-- VCVTBM. -/
def execVcvtbm (q : BitVec 20) (rd ra fc : BitVec 5) (pg : BitVec 3) (s : State) : Host.Outcome State Fault Refusal :=
  let w := bmWidth fc.toNat
  vxInsn q (fun _ => !isBM fc.toNat)
    (fun c t =>
      let act := (upto 32).filter (active c pg)
      let xs := act.map (elemV c ra 32)
      let b := formBlock w (fun i => vfShort c.vfcsr (genOf t q.toNat c.seq) (t.free + i)) xs
      let rs := (act.zip b.cnts).map (fun p => (p.1, ({ bits := 0, flags := sigFlags xs, maybe := b.maybe, cnt := p.2 } : Res)))
      doneInsn q.toNat 8 (modQc q.toNat (fun x => applyRes t.free rs (wrV rd (bmReg w (rdV c rd) act b) x)) { t with free := t.free + 64 })) s

/-- VDECBM. -/
def execVdecbm (q : BitVec 20) (rd ra fc : BitVec 5) (pg : BitVec 3) (s : State) : Host.Outcome State Fault Refusal :=
  let w := bmWidth fc.toNat
  vxInsn q (fun _ => !isBM fc.toNat)
    (fun _ t => vecPut q.toNat rd pg 32 32
      (fun n c i =>
        let r := (rdV c ra).toNat
        exactTo fmt32 (n + i) (decodeBM w (fld r 1016 8) (sField w (fld r (w * i) w)))) t) s

/-! ### Class 0x0A -/

/-- First poisoned line of `n` bytes at a location. -/
def poisonIn (s : State) (loc n : Nat) : Option Nat :=
  ((upto (n / 64 + 2)).map (fun i => loc / 64 * 64 + 64 * i)).find? (fun l => decide (l < loc + n) && locPoison s l)

/-- A load of `n` aligned bytes. -/
def loadWide (q va n : Nat) (f : Nat → QCtx → QCtx) (s : State) : State :=
  if va % n ≠ 0 then illegalNow q rAlign s
  else match translate s (getQc s q).ctx va accRead (whoOf q) with
    | (.ok loc, s1) =>
      let s2 := if 64 < n then readLoc (loc + 64) s1 else s1
      match poisonIn s2 loc n with
      | some l => xlatFault q va accRead (.poisonAt (lineAddr l)) s2
      | none => doneInsn q 8 (modQc q (f (locNat s2 loc n)) s2)
    | (o, s1) => xlatFault q va accRead o s1

/-- A store at an aligned address of `n` bytes. -/
def storeWide (q va n : Nat) (put : Nat → State → State) (s : State) : State :=
  if va % n ≠ 0 then illegalNow q rAlign s
  else match translate s (getQc s q).ctx va accWrite (whoOf q) with
    | (.ok loc, s1) => doneInsn q 8 (put loc s1)
    | (o, s1) => xlatFault q va accWrite o s1

/-- RA + IMM32. -/
def wideAddr (c : QCtx) (ra : BitVec 5) (off : W32) : Nat := (rdG c ra + off.signExtend 64).toNat

/-- Bytes of a register whose elements are active, one line of 64 bytes at a time where all of it is. -/
def activeStores (c : QCtx) (pg : BitVec 3) (v : VReg) (w : Nat) : List (Nat × List Byte) :=
  (upto 2).flatMap (fun h =>
    let n := 512 / w
    let els := (upto n).map (fun i => h * n + i)
    if els.all (active c pg) then [(64 * h, leBytes 64 (fld v.toNat (512 * h) 512))]
    else (els.filter (active c pg)).map (fun i => (w / 8 * i, leBytes (w / 8) (elem v w i))))

/-- VLD. -/
def execVld (q : BitVec 20) (rd ra : BitVec 5) (off : W32) (s : State) : Host.Outcome State Fault Refusal :=
  onKind q.toNat kVX s (fun t => loadWide q.toNat (wideAddr (getQc t q.toNat) ra off) 128 (fun v c => wrV rd (BitVec.ofNat 1024 v) c) t)
/-- VST: its guard governs elements of a width that no field gives. Elements that are not active make no access (R107): a line
with none of them active is not translated. -/
def execVst (q : BitVec 20) (rd ra : BitVec 5) (off : W32) (pg : BitVec 3) (s : State) : Host.Outcome State Fault Refusal :=
  onKind q.toNat kVX s (fun t =>
    let c := getQc t q.toNat
    let w := 2 ^ (4 + Config.vstWidth % 3)
    let va := wideAddr c ra off
    match activeStores c pg (rdV c rd) w with
    | [] => if va % 128 ≠ 0 then illegalNow q.toNat rAlign t else doneInsn q.toNat 8 t
    | st => storeWide q.toNat va 128 (fun loc u => st.foldl (fun x p => storeAt causeEngine (loc + p.1) p.2 x) u) t)
/-- PLD. -/
def execPld (q : BitVec 20) (rd ra : BitVec 5) (off : W32) (s : State) : Host.Outcome State Fault Refusal :=
  vxInsn q (fun _ => decide (8 ≤ rd.toNat))
    (fun c t => loadWide q.toNat (wideAddr c ra off) 8 (fun v x => wrP rd.toNat (BitVec.ofNat 64 v) x) t) s
/-- PST. -/
def execPst (q : BitVec 20) (rd ra : BitVec 5) (off : W32) (s : State) : Host.Outcome State Fault Refusal :=
  vxInsn q (fun _ => decide (8 ≤ rd.toNat))
    (fun c t => storeWide q.toNat (wideAddr c ra off) 8 (fun loc u => storeAt causeEngine loc (leBytes 8 (rdP c rd.toNat).toNat) u) t) s

/-! ### Class 0x0D -/

/-- VMOV. -/
def execVmov (q : BitVec 20) (rd ra : BitVec 5) (pg : BitVec 3) (w : BitVec 2) (s : State) : Host.Outcome State Fault Refusal :=
  wInsn q rd pg w (fun n c i => { bits := elem (rdV c ra) n i }) s
/-- VSPLAT. -/
def execVsplat (q : BitVec 20) (rd ra : BitVec 5) (pg : BitVec 3) (w : BitVec 2) (s : State) : Host.Outcome State Fault Refusal :=
  wInsn q rd pg w (fun _ c _ => { bits := (rdG c ra).toNat }) s
/-- VEXT: an inactive element has no effect. -/
def execVext (q : BitVec 20) (rd ra rb : BitVec 5) (pg : BitVec 3) (w : BitVec 2) (s : State) : Host.Outcome State Fault Refusal :=
  let n := wBits w
  vxInsn q (fun c => wBad w || decide (lanes n ≤ (rdG c rb).toNat))
    (fun c t =>
      let i := (rdG c rb).toNat
      doneInsn q.toNat 8 (if active c pg i then modQc q.toNat (wrG rd (BitVec.ofNat 64 (elem (rdV c ra) n i))) t else t)) s
/-- VINS: an inactive element has no effect. -/
def execVins (q : BitVec 20) (rd ra rb : BitVec 5) (pg : BitVec 3) (w : BitVec 2) (s : State) : Host.Outcome State Fault Refusal :=
  let n := wBits w
  vxInsn q (fun c => wBad w || decide (lanes n ≤ (rdG c rb).toNat))
    (fun c t =>
      let i := (rdG c rb).toNat
      doneInsn q.toNat 8 (if active c pg i then
        modQc q.toNat (wrV rd (putRes n (rdV c rd) [(i, { bits := (rdG c ra).toNat })])) t else t)) s
/-- VPERM. -/
def execVperm (q : BitVec 20) (rd ra rb : BitVec 5) (pg : BitVec 3) (w : BitVec 2) (s : State) : Host.Outcome State Fault Refusal :=
  wInsn q rd pg w (fun n c i => { bits := elem (rdV c ra) n (elem (rdV c rb) n i % lanes n) }) s

/-- Element 0 of RD takes a result, the other elements 0. -/
def reducePut (q : Nat) (rd : BitVec 5) (w : Nat) (f : Nat → QCtx → Res) (s : State) : State :=
  let r := f s.free (getQc s q)
  doneInsn q 8 (modQc q (fun x => applyRes s.free [(0, r)] (wrV rd (BitVec.ofNat 1024 (r.bits % 2 ^ w)) x)) { s with free := s.free + 64 })

/-- Sum of values in a compensated pair of the format, rounded once. -/
def sumRes (f : FloatFmt) (mode : RMode) (xs : List FV) : Res :=
  let p := pairSum f xs
  let r := toLong f mode (pairValue p)
  { r with flags := r.flags ||| sumFlags xs xs p, cnt := if r.cnt = 0 && (decodeF f 0 r.bits).isInf && xs.all FV.isFin then 2 else r.cnt }

/-- maximumNumber or minimumNumber of values; of none it is stated by no rule. -/
def extremeRes (f : FloatFmt) (isMax : Bool) (k : Nat) (xs : List FV) : Res :=
  match xs with
  | [] => { bits := (Config.openFn k).toNat % 2 ^ f.width, maybe := 31 }
  | x :: l => { l.foldl (fun a y => minMaxR f isMax (decodeF f 0 a.bits) y) (toLong f .rne x) with flags := sigFlags xs }

/-- VRSUM. -/
def execVrsum (q : BitVec 20) (rd ra : BitVec 5) (pg : BitVec 3) (w : BitVec 2) (rm : BitVec 3) (s : State) : Host.Outcome State Fault Refusal :=
  let n := wBits w
  vxInsn q (fun _ => wBad w || rmBad rm)
    (fun _ t => reducePut q.toNat rd n
      (fun _ c => sumRes (longFmt n) (dirRM rm c.vfcsr) (((upto (lanes n)).filter (active c pg)).map (elemV c ra n))) t) s
/-- VRMAX. -/
def execVrmax (q : BitVec 20) (rd ra : BitVec 5) (pg : BitVec 3) (w : BitVec 2) (s : State) : Host.Outcome State Fault Refusal :=
  let n := wBits w
  vxInsn q (fun _ => wBad w)
    (fun _ t => reducePut q.toNat rd n
      (fun k c => extremeRes (longFmt n) true k (((upto (lanes n)).filter (active c pg)).map (elemV c ra n))) t) s

/-- Predicate logic on registers 0 to 7. -/
def pInsn (q : BitVec 20) (pd : BitVec 5) (bad : Bool) (f : QCtx → W64) (s : State) : Host.Outcome State Fault Refusal :=
  vxInsn q (fun _ => bad || decide (8 ≤ pd.toNat))
    (fun _ t => doneInsn q.toNat 8 (modQc q.toNat (fun c => wrP pd.toNat (f c) c) t)) s

/-- A predicate field of 8 or more. -/
def pBad (p : BitVec 5) : Bool := decide (8 ≤ p.toNat)

/-- PAND. -/
def execPand (q : BitVec 20) (pd pa pb : BitVec 5) (s : State) : Host.Outcome State Fault Refusal :=
  pInsn q pd (pBad pa || pBad pb) (fun c => rdP c pa.toNat &&& rdP c pb.toNat) s
/-- POR. -/
def execPor (q : BitVec 20) (pd pa pb : BitVec 5) (s : State) : Host.Outcome State Fault Refusal :=
  pInsn q pd (pBad pa || pBad pb) (fun c => rdP c pa.toNat ||| rdP c pb.toNat) s
/-- PXOR. -/
def execPxor (q : BitVec 20) (pd pa pb : BitVec 5) (s : State) : Host.Outcome State Fault Refusal :=
  pInsn q pd (pBad pa || pBad pb) (fun c => rdP c pa.toNat ^^^ rdP c pb.toNat) s
/-- PNOT. -/
def execPnot (q : BitVec 20) (pd pa : BitVec 5) (s : State) : Host.Outcome State Fault Refusal :=
  pInsn q pd (pBad pa) (fun c => ~~~ rdP c pa.toNat) s
/-- PMOVG. -/
def execPmovg (q : BitVec 20) (rd pa : BitVec 5) (s : State) : Host.Outcome State Fault Refusal :=
  vxInsn q (fun _ => pBad pa) (fun _ t => doneInsn q.toNat 8 (modQc q.toNat (fun c => wrG rd (rdP c pa.toNat) c) t)) s
/-- PMOVP. -/
def execPmovp (q : BitVec 20) (pd ra : BitVec 5) (s : State) : Host.Outcome State Fault Refusal :=
  pInsn q pd false (fun c => rdG c ra) s
/-- RDVFCSR. -/
def execRdvfcsr (q : BitVec 20) (rd : BitVec 5) (s : State) : Host.Outcome State Fault Refusal :=
  onKind q.toNat kVX s (fun t => doneInsn q.toNat 8 (modQc q.toNat (fun c => wrG rd c.vfcsr c) t))
/-- WRVFCSR. -/
def execWrvfcsr (q : BitVec 20) (ra : BitVec 5) (s : State) : Host.Outcome State Fault Refusal :=
  vxInsn q (fun c => !vfcsrOk (rdG c ra)) (fun _ t => doneInsn q.toNat 8 (modQc q.toNat (fun c => { c with vfcsr := rdG c ra }) t)) s
/-- CLRVFF. -/
def execClrvff (q : BitVec 20) (ra : BitVec 5) (s : State) : Host.Outcome State Fault Refusal :=
  vxInsn q (fun c => rdG c ra &&& ~~~ (0x3E0 : W64) != 0)
    (fun _ t => doneInsn q.toNat 8 (modQc q.toNat (fun c => { c with vfcsr := c.vfcsr &&& ~~~ rdG c ra }) t)) s

/-! ### Class 0x0C (R137, R138) -/

/-- A function code that VDER has an entry for. -/
def derCode (fn : Nat) : Bool := fn == 0 || fn == 2 || fn == 3 || fn == 4 || fn == 5 || fn == 6

/-- Encodings that class 0x0C takes. -/
def actBad (w : BitVec 2) (rm : BitVec 3) (fn : BitVec 4) : Bool := decide (1 < w.toNat) || rm != 0 || decide (11 < fn.toNat)

/-- A result of class 0x0C: the NaN of its operands, or the value delivered. -/
def actRes (w k : Nat) (ops : List FV) (v : AV) : Res := (nanOf (longFmt w) ops).getD (deliver w k v)

/-- VACT. -/
def execVact (q : BitVec 20) (rd ra rb : BitVec 5) (fn : BitVec 4) (pg : BitVec 3) (w : BitVec 2) (rm : BitVec 3) (s : State) : Host.Outcome State Fault Refusal :=
  let n := wBits w
  vxInsnNz q (fn != 6 && rb != 0) (fun _ => actBad w rm fn)
    (fun _ t => vecPut q.toNat rd pg n (lanes n) (fun k c i =>
      let x := elemV c ra n i
      let a := elemV c rb n i
      actRes n (k + i) (if fn = 6 then [x, a] else [x]) (actAV fn.toNat x a)) t) s
/-- VDER. -/
def execVder (q : BitVec 20) (rd ra rb rc : BitVec 5) (fn : BitVec 4) (pg : BitVec 3) (w : BitVec 2) (rm : BitVec 3) (s : State) : Host.Outcome State Fault Refusal :=
  let n := wBits w
  vxInsnNz q (fn != 6 && rc != 0) (fun _ => actBad w rm fn || !derCode fn.toNat)
    (fun _ t => vecPut q.toNat rd pg n (lanes n) (fun k c i =>
      let y := elemV c ra n i
      let b := elemV c rb n i
      let a := elemV c rc n i
      actRes n (k + i) (if fn = 6 then [y, b, a] else [y, b]) (avMul (derAV fn.toNat y a) b)) t) s
/-- VDERI. -/
def execVderi (q : BitVec 20) (rd ra rb : BitVec 5) (fn : BitVec 4) (pg : BitVec 3) (w : BitVec 2) (rm : BitVec 3) (s : State) : Host.Outcome State Fault Refusal :=
  let n := wBits w
  vxInsn q (fun _ => actBad w rm fn)
    (fun _ t => vecPut q.toNat rd pg n (lanes n) (fun k c i =>
      let x := elemV c ra n i
      let b := elemV c rb n i
      actRes n (k + i) [x, b] (avMul (derIAV fn.toNat x none) b)) t) s

end Sys2Proof.Machine
end

