-- ==== Sys2Proof/Machine/VTensor.lean ====
section
/-! DEFINITION. The tensor instructions of VX, class 0x0E (R139, Table 07-6). -/

namespace Sys2Proof.Machine

/-! ### Exact results before the one rounding -/

/-- A sum before its rounding, with NV; a NaN operand goes first. -/
def sumFV (mode : RMode) (a b : FV) : FV × Nat :=
  if a.isNan then (a, sigFlags [a, b])
  else if b.isNan then (b, sigFlags [a, b])
  else match a, b with
    | .inf n, .inf k => if n = k then (.inf n, 0) else (qNaN, fNV)
    | .inf n, _ => (.inf n, 0)
    | _, .inf n => (.inf n, 0)
    | _, _ =>
      let e0 := min a.exp b.exp
      let t := scaled a e0 + scaled b e0
      if t = 0 then (.fin (if a.sign = b.sign ∧ a.isZero ∧ b.isZero then a.sign else mode == .rdn) 0 0, 0) else (ofInt t e0, 0)

/-- A product before its rounding. -/
def mulFV (a b : FV) : FV × Nat :=
  if a.isNan then (a, sigFlags [a, b])
  else if b.isNan then (b, sigFlags [a, b])
  else if badProd a b then (qNaN, fNV)
  else (prodFV a b, 0)

/-- maximumNumber and minimumNumber before the rounding. -/
def extremeFV (isMax : Bool) (a b : FV) : FV × Nat :=
  let sig := sigFlags [a, b]
  if a.isNan then (if b.isNan then a else b, sig)
  else if b.isNan then (a, sig)
  else
    let c := cmpFV a b
    let aLess := decide (c < 0) || (c == 0 && a.sign)
    (if aLess != isMax then a else b, 0)

/-- A function's value with its flags and whether it overflowed: exact where it is, else as computed in binary32 or binary64
within the 2 units in the last place of R138, which no rule states of VT.MAP (DEDUCED). -/
def fnFV (f : FloatFmt) (k : Nat) (v : AV) : FV × Nat × Bool :=
  match v with
  | .num n m e true => (.fin n m e, 0, false)
  | _ =>
    let r := deliver f.width k v
    (decodeF f 0 r.bits, r.flags ||| (r.maybe &&& Config.flagChoice k), r.cnt == 2)

/-- A result that no overflow marks. -/
def plainFV (r : FV × Nat) : FV × Nat × Bool := (r.1, r.2, false)

/-- The operation of VT.MAP on a pair of elements, its flags and whether it overflowed; `f` is the computing format, `k`
numbers an open value. -/
def mapFV (f : FloatFmt) (k op fn : Nat) (al : FV) (mode : RMode) (a b : FV) : FV × Nat × Bool :=
  let ops := (if op = 0 then [a] else [a, b]) ++ (if fn = 6 then [al] else [])
  let viaFn := op = 0 ∨ op = 4 ∨ op = 5
  if viaFn ∧ ops.any FV.isNan then ((ops.find? FV.isNan).getD qNaN, sigFlags ops, false)
  else match op with
    | 0 => fnFV f k (actAV fn a al)
    | 1 => plainFV (sumFV mode a b)
    | 2 => plainFV (mulFV a b)
    | 3 => plainFV (if b.isNan then sumFV mode a b else sumFV mode a b.negate)
    | 4 => fnFV f k (avMul (derAV fn a al) b)
    | 5 => fnFV f k (avMul (derIAV fn a (some al)) b)
    | 6 => plainFV (extremeFV true a b)
    | _ => plainFV (extremeFV false a b)

/-- A result that a block is formed from: one that binary32, the computing format, cannot hold overflows (R36, R139). -/
def blockRange (mode : RMode) (r : FV × Nat × Bool) : FV × Nat × Bool :=
  match r.1 with
  | .fin n m e =>
    let t := roundL fmt32 mode n m e false
    if t.flags &&& fOF = 0 then r else (decodeF fmt32 0 t.bits, r.2.1 ||| t.flags, t.cnt == 2)
  | _ => r

/-! ### Shared checks -/

/-- Descriptors that VT instructions take: floating or BM, LINEAR. -/
def vtFmt (d : Nat) : Bool := !isInt (tdFmt d) && !tdTiled d

/-- A source of a command that forms blocks when its destination is BM: not binary64 (R36). -/
def blockSource (d1 d : Nat) : Bool := !(tdBM d1 && tdFmt d == 2)

/-- Computing format: binary64 when an operand or the destination is, else binary32. -/
def computeIn (ds : List Nat) : FloatFmt := if ds.any (fun d => tdFmt d == 2) then fmt64 else fmt32

/-- Rounding fields of a VX tensor instruction. -/
def roundBad (x : TExt) : Bool := x.srnd == 3 || rmBad x.rm

/-- The queue context's rounding for such an instruction. -/
def vtRnd (s : State) (q : Nat) (seq : BitVec 56) (x : TExt) : Rnd :=
  { rm := some (dirRM x.rm (getQc s q).vfcsr), short := x.srnd.toNat, gen := genOf s q seq }

/-- Accesses of queue context `q`'s tensor instruction. -/
def vtAcc (s : State) (q : Nat) : Acc := { ctx := (getQc s q).ctx, who := whoOf q, consume := true }

/-- Tile columns of the partition's array. -/
def tcOf (s : State) : Nat := tileCols (partCount s)

/-- An index, when one is in use: its positions and the job after reading it. -/
def withIndex (q : Nat) (x : TExt) (size : Nat) (seq : BitVec 56) (s : State) (k : Option Nat → State → State) : State :=
  if x.idxen then withTd q x.idxh.toNat 4 false (fun d => idxOk d size) seq s (fun d => k (some d)) else k none s

/-! ### VT.MAP -/

/-- Checks of VT.MAP's fields (Table 07-6): what the table leaves undefined of OPX is ENCODING (R139). -/
def mapChecks (h3 : BitVec 16) (x : TExt) : List (Bool × Nat) :=
  let op := bfld x.opx 0 4
  let fn := bfld x.opx 4 4
  let viaFn := op == 0 || op == 4 || op == 5
  [(x.idxrole != 0, rNonzero), (!x.idxen && !idxUnused x, rNonzero), (op == 0 && h3 != 0, rNonzero),
   (bfld x.opx 8 8 != 0, rEncoding), (!viaFn && fn != 0, rEncoding), (!(viaFn && fn == 6) && bfld x.opx 16 16 != 0, rEncoding),
   (decide (7 < op), rEncoding), (viaFn && decide (11 < fn), rEncoding), (op == 4 && !derCode fn, rEncoding), (roundBad x, rEncoding)]

/-- One element of VT.MAP. -/
def mapElem (c : Acc) (tc d1 d2 : Nat) (d3 : Option Nat) (f : FloatFmt) (mode : RMode) (x : TExt) (sel : Option (List (Option Nat)))
    (ix : Ix) (j : Job) : Elem × Job :=
  let dim := x.idxdim.toNat
  let src := match sel with
    | none => some ix
    | some l => (l.getD (ixGet ix dim) none).map (ixSet ix dim)
  match src with
  | none => (none, j)
  | some at2 =>
    let (a, j1) := rdVal c tc d2 at2 j
    let (b, j2) := match d3 with
      | some d => rdVal c tc d ix j1
      | none => ((posZero, false), j1)
    let k := j2.s.free
    let r := mapFV f k (bfld x.opx 0 4) (bfld x.opx 4 4) (decodeF fmt16 0 (bfld x.opx 16 16)) mode a.1 b.1
    let (v, fl, o) := if tdBM d1 then blockRange mode r else r
    (some (v, o), { j2 with s := { j2.s with free := k + 1 }, flags := j2.flags ||| fl })

/-- VT.MAP. -/
def execVtMap (q : BitVec 20) (h1 h2 h3 : BitVec 16) (x : TExt) (s : State) : Host.Outcome State Fault Refusal :=
  let n := q.toNat
  longInsn n kVX 0x0E 0x00 (mapChecks h3 x) s (fun seq t =>
    withTd n h1.toNat 1 true vtFmt seq t (fun d1 t =>
    withTd n h2.toNat 2 false (fun d => vtFmt d && blockSource d1 d
        && [0, 1, 2, 3].all (fun k => tdDim d k == tdDim d1 k || (x.idxen && k == x.idxdim.toNat))) seq t (fun d2 t =>
    let two := bfld x.opx 0 4 != 0
    let go := fun (d3 : Option Nat) (t : State) =>
      withIndex n x (tdDim d1 x.idxdim.toNat) seq t (fun dx t =>
        let c := vtAcc t n
        let tc := tcOf t
        let r := vtRnd t n seq x
        let (sel, j) := match dx with
          | some d => let p := rdIndex c tc d (tdDim d2 x.idxdim.toNat) { s := t }; (some p.1, p.2)
          | none => (none, { s := t })
        let f := computeIn (d1 :: d2 :: d3.toList)
        jobEnd n 16 seq (wrAll c tc d1 r (mapElem c tc d1 d2 d3 f (r.rm.getD .rne) x sel) j))
    if two then withTd n h3.toNat 3 false (fun d => vtFmt d && blockSource d1 d && tdDims d == tdDims d1) seq t (fun d3 t => go (some d3) t) else go none t)))

/-! ### VT.REDUCE -/

/-- Checks of VT.REDUCE's fields. -/
def reduceChecks (x : TExt) : List (Bool × Nat) :=
  [(x.idxrole != 0 || !idxUnused x, rNonzero), (bfld x.opx 6 26 != 0, rEncoding), (decide (3 < bfld x.opx 0 4), rEncoding), (roundBad x, rEncoding)]

/-- The reduction of a list of values before its rounding, its flags and whether it overflowed. -/
def reduceFV (f : FloatFmt) (op : Nat) (xs : List FV) : FV × Nat × Bool :=
  match op with
  | 1 => plainFV ((xs.drop 1).foldl (fun a x => let r := extremeFV true a.1 x; (r.1, a.2 ||| r.2)) (xs.headD posZero, sigFlags xs))
  | 2 => plainFV ((xs.drop 1).foldl (fun a x => let r := extremeFV false a.1 x; (r.1, a.2 ||| r.2)) (xs.headD posZero, sigFlags xs))
  | _ =>
    let p := pairSum f (if op = 3 then xs.map (fun x => mulV f x x) else xs)
    (pairValue p, sumFlags xs (if op = 3 then xs.map (fun x => prodFV x x) else xs) p, xs.all FV.isFin && !(pairValue p).isFin)

/-- VT.REDUCE. -/
def execVtReduce (q : BitVec 20) (h1 h2 : BitVec 16) (x : TExt) (s : State) : Host.Outcome State Fault Refusal :=
  let n := q.toNat
  let dim := bfld x.opx 4 2
  longInsn n kVX 0x0E 0x01 (reduceChecks x) s (fun seq t =>
    withTd n h1.toNat 1 true (fun d => vtFmt d && tdDim d dim == 1) seq t (fun d1 t =>
    withTd n h2.toNat 2 false (fun d => vtFmt d && blockSource d1 d && [0, 1, 2, 3].all (fun k => k == dim || tdDim d k == tdDim d1 k)) seq t (fun d2 t =>
      let c := vtAcc t n
      let tc := tcOf t
      let f := computeIn [d1, d2]
      jobEnd n 16 seq (wrAll c tc d1 (vtRnd t n seq x) (fun ix j =>
        let (vs, j1) := mapJob (fun i b => let (v, b1) := rdVal c tc d2 (ixSet ix dim i) b; (v.1, b1)) (upto (tdDim d2 dim)) j
        let r := reduceFV f (bfld x.opx 0 4) vs
        let (v, fl, o) := if tdBM d1 then blockRange (dirRM x.rm (getQc t n).vfcsr) r else r
        (some (v, o), { j1 with flags := j1.flags ||| fl })) { s := t }))))

end Sys2Proof.Machine
end

