-- ==== Sys2Proof/Machine/DataMover.lean ====
section
/-! DEFINITION. The data-mover instructions, class 0x10 (R140 to R143, R99). -/

namespace Sys2Proof.Machine

/-! ### Shared checks -/

def isFloating (fmt : Nat) : Bool := isLong fmt || isElemFloat fmt || isBM fmt

/-- Sources of a conversion: every floating format except binary64 (R36, R141). -/
def cvtSource (fmt : Nat) : Bool := isFloating fmt && fmt != 2

/-- Fields that no DM instruction uses, SRND and the index fields where this one does not, OPX but for DM.FILL (R140). -/
def dmChecks (x : TExt) (usesRnd usesIdx usesOpx : Bool) : List (Bool × Nat) :=
  [(x.rm != 0 || x.idxrole != 0 || (!usesOpx && x.opx != 0) || (!usesRnd && x.srnd != 0) || (!usesIdx && !idxUnused x), rNonzero),
   (x.srnd == 3 || (usesIdx && !x.idxen), rEncoding)]

/-- Accesses of a DM command: it may name any core memory (R86). -/
def dmAcc (s : State) (q : Nat) (consume : Bool) : Acc := { ctx := (getQc s q).ctx, who := .dmCommand, consume }

/-- DIMs equal but for one dimension. -/
def dimsBut (a b k : Nat) : Bool := [0, 1, 2, 3].all (fun i => i == k || tdDim a i == tdDim b i)

/-! ### Moves -/

/-- Writes every run of a destination with codes moved from a source position, or +0 where there is none; poison
moves with its line, in its own plane. -/
def moveAll (c : Acc) (tc d1 d2 : Nat) (src : Ix → Option Ix) (j : Job) : Job :=
  (tdRows d1).foldl (fun a row =>
    (tdRuns d1).foldl (fun b run =>
      let x := ixSet row 0 run.1
      let (cs, b1) := mapJob (fun i b0 =>
        match src (ixSet x 0 (run.1 + i)) with
        | none => ((0, false), b0)
        | some y => rdCode c tc d2 y b0) (upto run.2) b
      let (e, b2) := match src x with
        | none => ((0, false), b1)
        | some y => rdExp c tc d2 y b1
      wrRun c tc d1 x cs e b2) a) j

/-- DM.COPY. -/
def execDmCopy (q : BitVec 20) (h1 h2 : BitVec 16) (x : TExt) (s : State) : Host.Outcome State Fault Refusal :=
  let n := q.toNat
  longInsn n kDM 0x10 0x00 (dmChecks x false false false) s (fun seq t =>
    withTd n h1.toNat 1 true (fun _ => true) seq t (fun d1 t =>
    withTd n h2.toNat 2 false (fun d => tdFmt d == tdFmt d1 && tdDims d == tdDims d1) seq t (fun d2 t =>
      jobEnd n 16 seq (moveAll (dmAcc t n false) (tcOf t) d1 d2 some { s := t }))))

/-- Source position of a gathered one. -/
def gatherAt (dim : Nat) (sel : List (Option Nat)) (ix : Ix) : Option Ix := (sel.getD (ixGet ix dim) none).map (ixSet ix dim)

/-- DM.GATHER. -/
def execDmGather (q : BitVec 20) (h1 h2 : BitVec 16) (x : TExt) (s : State) : Host.Outcome State Fault Refusal :=
  let n := q.toNat
  let dim := x.idxdim.toNat
  longInsn n kDM 0x10 0x03 (dmChecks x false true false) s (fun seq t =>
    withTd n h1.toNat 1 true (fun d => !tdTiled d && !(tdBM d && dim == 0)) seq t (fun d1 t =>
    withTd n h2.toNat 2 false (fun d => !tdTiled d && tdFmt d == tdFmt d1 && dimsBut d d1 dim) seq t (fun d2 t =>
    withTd n x.idxh.toNat 4 false (fun d => idxOk d (tdDim d1 dim)) seq t (fun dx t =>
      let c := dmAcc t n false
      let (sel, j) := rdIndex { c with who := whoOf n } (tcOf t) dx (tdDim d2 dim) { s := t }
      jobEnd n 16 seq (moveAll c (tcOf t) d1 d2 (gatherAt dim sel) j)))))

/-! ### Conversions -/

/-- Rounding of a DM instruction: the short mode for every destination. -/
def dmRnd (s : State) (q : Nat) (seq : BitVec 56) (x : TExt) : Rnd := { short := x.srnd.toNat, gen := genOf s q seq }

/-- Writes a destination with values converted from source positions. -/
def convertAll (c : Acc) (tc d1 d2 : Nat) (r : Rnd) (src : Ix → Ix) (j : Job) : Job :=
  wrAll c tc d1 r (fun ix b => let (v, b1) := rdVal c tc d2 (src ix) b; (some (v.1, false), b1)) j

/-- DM.CVT. -/
def execDmCvt (q : BitVec 20) (h1 h2 : BitVec 16) (x : TExt) (s : State) : Host.Outcome State Fault Refusal :=
  let n := q.toNat
  longInsn n kDM 0x10 0x01 (dmChecks x true false false) s (fun seq t =>
    withTd n h1.toNat 1 true (fun d => isFloating (tdFmt d)) seq t (fun d1 t =>
    withTd n h2.toNat 2 false (fun d => cvtSource (tdFmt d) && tdDims d == tdDims d1) seq t (fun d2 t =>
      jobEnd n 16 seq (convertAll (dmAcc t n true) (tcOf t) d1 d2 (dmRnd t n seq x) id { s := t }))))

/-- Indices 0 and 1 exchanged. -/
def swap01 (ix : Ix) : Ix := (ix.2.1, ix.1, ix.2.2)

/-- DM.TRANSPOSE: it moves when both formats are one that is not BM, else it converts. -/
def execDmTranspose (q : BitVec 20) (h1 h2 : BitVec 16) (x : TExt) (s : State) : Host.Outcome State Fault Refusal :=
  let n := q.toNat
  longInsn n kDM 0x10 0x02 (dmChecks x true false false) s (fun seq t =>
    withTd n h1.toNat 1 true (fun d => tdRank d == 2) seq t (fun d1 t =>
    withTd n h2.toNat 2 false (fun d => tdRank d == 2 && tdDim d 1 == tdDim d1 0 && tdDim d 0 == tdDim d1 1
        && (tdFmt d == tdFmt d1 || (cvtSource (tdFmt d) && isFloating (tdFmt d1)))) seq t (fun d2 t =>
      if tdFmt d1 = tdFmt d2 ∧ ¬ tdBM d1 then
        jobEnd n 16 seq (moveAll (dmAcc t n false) (tcOf t) d1 d2 (fun ix => some (swap01 ix)) { s := t })
      else
        jobEnd n 16 seq (convertAll (dmAcc t n true) (tcOf t) d1 d2 (dmRnd t n seq x) swap01 { s := t }))))

/-- DM.FILL. -/
def execDmFill (q : BitVec 20) (h1 : BitVec 16) (x : TExt) (s : State) : Host.Outcome State Fault Refusal :=
  let n := q.toNat
  longInsn n kDM 0x10 0x05 (dmChecks x true false true) s (fun seq t =>
    withTd n h1.toNat 1 true (fun d => isFloating (tdFmt d) && !tdTiled d) seq t (fun d1 t =>
      jobEnd n 16 seq (wrAll (dmAcc t n false) (tcOf t) d1 (dmRnd t n seq x) (fun _ b => (some (val32 x.opx, false), b)) { s := t })))

/-! ### Scatter-add (R142) -/

/-- Puts a contribution before those of larger keys. -/
def insertKeyed {α : Type} (k : Nat) (a : α) : List (Nat × α) → List (Nat × α)
  | [] => [(k, a)]
  | (j, b) :: l => if k ≤ j then (k, a) :: (j, b) :: l else (j, b) :: insertKeyed k a l

/-- Contributions in the order in which they reach their homes: no rule fixes it. -/
def scatterOrder {α : Type} (k : Nat) (l : List α) : List α :=
  (l.zipIdx.foldl (fun a p => insertKeyed (Config.scatterOrder (k + p.2)) p.1 a) []).map Prod.snd

/-- Bytes at a home, as earlier additions of this command left them. -/
def overlayNat (j : Job) (loc n : Nat) : Nat :=
  leNat ((upto n).map (fun i => let b := mget 0 j.writes (loc + i); if b = 0 then locByte j.s (loc + i) else BitVec.ofNat 8 (b - 1)))

/-- The sum of an element and a contribution: integers wrap, floating values round by roundTiesToEven. -/
def addElem (fmt w code : Nat) (v : FV) : Nat × Nat :=
  if isInt fmt then ((sField w code + scaled v 0) % 2 ^ w |>.toNat, 0)
  else let r := addR (floatFmt fmt) .rne (decodeCode fmt code) v; (r.bits, if r.cnt ≤ 2 then r.cnt else 0)

/-- One indivisible addition at its home. -/
def scatterOne (c : Acc) (tc d1 : Nat) (x : Ix) (v : FV) (poison : Bool) (j : Job) : Job :=
  let w := tdBits d1
  let (row, l0, _) := tdPlace tc d1 x
  let va := row + w * l0 / 8
  match translate j.s c.ctx (va % 2 ^ 64) accAtomic c.who with
  | (.ok loc, s1) =>
    let j1 := { j with s := s1 }
    let (r, cnt) := addElem (tdFmt d1) w (overlayNat j1 loc (w / 8)) v
    let bad := poison || locPoison s1 loc || j.pois.any (fun l => l / 64 == loc / 64)
    { j1 with writes := (leBytes (w / 8) r).zipIdx.foldl (fun m b => mset 0 m (loc + b.2) (b.1.toNat + 1)) j1.writes
              pois := if bad then loc :: j1.pois else j1.pois, nums := countOne j1.nums cnt }
  | (o, s1) => { j with s := s1, errs := j.errs ++ [(va, accAtomic, o)] }

/-- DM.SCATTERADD. -/
def execDmScatteradd (q : BitVec 20) (h1 h2 : BitVec 16) (x : TExt) (s : State) : Host.Outcome State Fault Refusal :=
  let n := q.toNat
  let dim := x.idxdim.toNat
  longInsn n kDM 0x10 0x04 (dmChecks x false true false) s (fun seq t =>
    withTd n h1.toNat 1 true (fun d => !tdTiled d && (isLong (tdFmt d) || isInt (tdFmt d))) seq t (fun d1 t =>
    withTd n h2.toNat 2 false (fun d => !tdTiled d && dimsBut d d1 dim
        && (if isInt (tdFmt d1) then tdFmt d == tdFmt d1 else isFloating (tdFmt d))) seq t (fun d2 t =>
    withTd n x.idxh.toNat 4 false (fun d => idxOk d (tdDim d2 dim)) seq t (fun dx t =>
      let c := dmAcc t n false
      let tc := tcOf t
      let (sel, j) := rdIndex { c with who := whoOf n } tc dx (tdDim d1 dim) { s := t }
      let elems := (tdRows d2).flatMap (fun row => (upto (tdDim d2 0)).map (fun i => ixSet row 0 i))
      let pairs := elems.filterMap (fun ix => (gatherAt dim sel ix).map (fun y => (ix, y)))
      let (vs, j1) := mapJob (fun p b => let (v, b1) := rdVal c tc d2 p.1 b; ((p.2, v), b1)) pairs j
      let k := j1.s.free
      let j2 := { j1 with s := { j1.s with free := k + vs.length } }
      jobEnd n 16 seq ((scatterOrder k vs).foldl (fun a p => scatterOne c tc d1 p.1 p.2.1 p.2.2 a) j2)))))

end Sys2Proof.Machine
end

