-- ==== Sys2Proof/Machine/Scalar.lean ====
section
/-! DEFINITION. The base instructions of every engine: integer, branch, scalar memory, tally and system
classes (R110 to R120). -/

namespace Sys2Proof.Machine

/-! ### Shared forms -/

/-- A register result of an instruction of `len` bytes. -/
def regInsn (q : Nat) (rd : BitVec 5) (len : Nat) (v : QCtx → W64) (s : State) : Host.Outcome State Fault Refusal :=
  .next (onlyRun s (if canRun s q anyKind then doneInsn q len (modQc q (fun c => wrG rd (v c) c) s) else s))

/-- INT: RD from RA and RB. -/
def intInsn (q : BitVec 20) (rd ra rb : BitVec 5) (f : W64 → W64 → W64) (s : State) : Host.Outcome State Fault Refusal :=
  regInsn q.toNat rd 8 (fun c => f (rdG c ra) (rdG c rb)) s

/-- INTI: RB replaced by the immediate, which an extension word may hold. -/
def immInsn (q : BitVec 20) (rd ra : BitVec 5) (imm : W64) (x : Bool) (f : W64 → W64 → W64) (s : State) : Host.Outcome State Fault Refusal :=
  regInsn q.toNat rd (if x then 16 else 8) (fun c => f (rdG c ra) imm) s

/-- A truth value as a register value. -/
def bit (b : Bool) : W64 := if b then 1 else 0

/-- Signed and unsigned division (R111). -/
def divS (a b : W64) : W64 := if b = 0 then BitVec.allOnes 64 else a.sdiv b
def divU (a b : W64) : W64 := if b = 0 then BitVec.allOnes 64 else a / b
def remS (a b : W64) : W64 := if b = 0 then a else a.srem b
def remU (a b : W64) : W64 := if b = 0 then a else a % b

/-- High halves of the signed and the unsigned product. -/
def mulHS (a b : W64) : W64 := BitVec.ofInt 64 (a.toInt * b.toInt / 2 ^ 64)
def mulHU (a b : W64) : W64 := BitVec.ofNat 64 (a.toNat * b.toNat / 2 ^ 64)

/-- Shift amount: the low 6 bits. -/
def shAmt (b : W64) : Nat := b.toNat % 64

/-- Zeros above the highest set bit, below the lowest, and bits set. -/
def countLz (a : W64) : W64 := BitVec.ofNat 64 (64 - Nat.size a.toNat)
def countTz (a : W64) : W64 := BitVec.ofNat 64 (((upto 64).find? (fun i => a.getLsbD i)).getD 64)
def countOnes (a : W64) : W64 := BitVec.ofNat 64 ((upto 64).filter (fun i => a.getLsbD i)).length

/-! ### INT -/

/-- ADD. -/
def execAdd (q : BitVec 20) (rd ra rb : BitVec 5) (s : State) : Host.Outcome State Fault Refusal := intInsn q rd ra rb (· + ·) s
/-- SUB. -/
def execSub (q : BitVec 20) (rd ra rb : BitVec 5) (s : State) : Host.Outcome State Fault Refusal := intInsn q rd ra rb (· - ·) s
/-- MUL. -/
def execMul (q : BitVec 20) (rd ra rb : BitVec 5) (s : State) : Host.Outcome State Fault Refusal := intInsn q rd ra rb (· * ·) s
/-- MULH. -/
def execMulh (q : BitVec 20) (rd ra rb : BitVec 5) (s : State) : Host.Outcome State Fault Refusal := intInsn q rd ra rb mulHS s
/-- MULHU. -/
def execMulhu (q : BitVec 20) (rd ra rb : BitVec 5) (s : State) : Host.Outcome State Fault Refusal := intInsn q rd ra rb mulHU s
/-- DIV. -/
def execDiv (q : BitVec 20) (rd ra rb : BitVec 5) (s : State) : Host.Outcome State Fault Refusal := intInsn q rd ra rb divS s
/-- DIVU. -/
def execDivu (q : BitVec 20) (rd ra rb : BitVec 5) (s : State) : Host.Outcome State Fault Refusal := intInsn q rd ra rb divU s
/-- REM. -/
def execRem (q : BitVec 20) (rd ra rb : BitVec 5) (s : State) : Host.Outcome State Fault Refusal := intInsn q rd ra rb remS s
/-- REMU. -/
def execRemu (q : BitVec 20) (rd ra rb : BitVec 5) (s : State) : Host.Outcome State Fault Refusal := intInsn q rd ra rb remU s
/-- AND. -/
def execAndInsn (q : BitVec 20) (rd ra rb : BitVec 5) (s : State) : Host.Outcome State Fault Refusal := intInsn q rd ra rb (· &&& ·) s
/-- OR. -/
def execOrInsn (q : BitVec 20) (rd ra rb : BitVec 5) (s : State) : Host.Outcome State Fault Refusal := intInsn q rd ra rb (· ||| ·) s
/-- XOR. -/
def execXorInsn (q : BitVec 20) (rd ra rb : BitVec 5) (s : State) : Host.Outcome State Fault Refusal := intInsn q rd ra rb (· ^^^ ·) s
/-- SHL. -/
def execShl (q : BitVec 20) (rd ra rb : BitVec 5) (s : State) : Host.Outcome State Fault Refusal := intInsn q rd ra rb (fun a b => a <<< shAmt b) s
/-- SHR. -/
def execShr (q : BitVec 20) (rd ra rb : BitVec 5) (s : State) : Host.Outcome State Fault Refusal := intInsn q rd ra rb (fun a b => a >>> shAmt b) s
/-- SAR. -/
def execSar (q : BitVec 20) (rd ra rb : BitVec 5) (s : State) : Host.Outcome State Fault Refusal := intInsn q rd ra rb (fun a b => a.sshiftRight (shAmt b)) s
/-- MIN. -/
def execMin (q : BitVec 20) (rd ra rb : BitVec 5) (s : State) : Host.Outcome State Fault Refusal := intInsn q rd ra rb (fun a b => if a.slt b then a else b) s
/-- MAX. -/
def execMax (q : BitVec 20) (rd ra rb : BitVec 5) (s : State) : Host.Outcome State Fault Refusal := intInsn q rd ra rb (fun a b => if a.slt b then b else a) s
/-- MINU. -/
def execMinu (q : BitVec 20) (rd ra rb : BitVec 5) (s : State) : Host.Outcome State Fault Refusal := intInsn q rd ra rb (fun a b => if a.ult b then a else b) s
/-- MAXU. -/
def execMaxu (q : BitVec 20) (rd ra rb : BitVec 5) (s : State) : Host.Outcome State Fault Refusal := intInsn q rd ra rb (fun a b => if a.ult b then b else a) s
/-- SLT. -/
def execSlt (q : BitVec 20) (rd ra rb : BitVec 5) (s : State) : Host.Outcome State Fault Refusal := intInsn q rd ra rb (fun a b => bit (a.slt b)) s
/-- SLTU. -/
def execSltu (q : BitVec 20) (rd ra rb : BitVec 5) (s : State) : Host.Outcome State Fault Refusal := intInsn q rd ra rb (fun a b => bit (a.ult b)) s
/-- SEQ. -/
def execSeq (q : BitVec 20) (rd ra rb : BitVec 5) (s : State) : Host.Outcome State Fault Refusal := intInsn q rd ra rb (fun a b => bit (a == b)) s
/-- CLZ. -/
def execClz (q : BitVec 20) (rd ra : BitVec 5) (s : State) : Host.Outcome State Fault Refusal := regInsn q.toNat rd 8 (fun c => countLz (rdG c ra)) s
/-- CTZ. -/
def execCtz (q : BitVec 20) (rd ra : BitVec 5) (s : State) : Host.Outcome State Fault Refusal := regInsn q.toNat rd 8 (fun c => countTz (rdG c ra)) s
/-- POPC. -/
def execPopc (q : BitVec 20) (rd ra : BitVec 5) (s : State) : Host.Outcome State Fault Refusal := regInsn q.toNat rd 8 (fun c => countOnes (rdG c ra)) s
/-- SEL. -/
def execSel (q : BitVec 20) (rd ra rb rc : BitVec 5) (s : State) : Host.Outcome State Fault Refusal :=
  regInsn q.toNat rd 8 (fun c => if rdG c rc = 0 then rdG c rb else rdG c ra) s

/-! ### INTI -/

/-- ADDI. -/
def execAddi (q : BitVec 20) (rd ra : BitVec 5) (imm : W64) (x : Bool) (s : State) : Host.Outcome State Fault Refusal := immInsn q rd ra imm x (· + ·) s
/-- ANDI. -/
def execAndi (q : BitVec 20) (rd ra : BitVec 5) (imm : W64) (x : Bool) (s : State) : Host.Outcome State Fault Refusal := immInsn q rd ra imm x (· &&& ·) s
/-- ORI. -/
def execOri (q : BitVec 20) (rd ra : BitVec 5) (imm : W64) (x : Bool) (s : State) : Host.Outcome State Fault Refusal := immInsn q rd ra imm x (· ||| ·) s
/-- XORI. -/
def execXori (q : BitVec 20) (rd ra : BitVec 5) (imm : W64) (x : Bool) (s : State) : Host.Outcome State Fault Refusal := immInsn q rd ra imm x (· ^^^ ·) s
/-- SHLI. -/
def execShli (q : BitVec 20) (rd ra : BitVec 5) (imm : W64) (x : Bool) (s : State) : Host.Outcome State Fault Refusal := immInsn q rd ra imm x (fun a b => a <<< shAmt b) s
/-- SHRI. -/
def execShri (q : BitVec 20) (rd ra : BitVec 5) (imm : W64) (x : Bool) (s : State) : Host.Outcome State Fault Refusal := immInsn q rd ra imm x (fun a b => a >>> shAmt b) s
/-- SARI. -/
def execSari (q : BitVec 20) (rd ra : BitVec 5) (imm : W64) (x : Bool) (s : State) : Host.Outcome State Fault Refusal := immInsn q rd ra imm x (fun a b => a.sshiftRight (shAmt b)) s
/-- SLTI. -/
def execSlti (q : BitVec 20) (rd ra : BitVec 5) (imm : W64) (x : Bool) (s : State) : Host.Outcome State Fault Refusal := immInsn q rd ra imm x (fun a b => bit (a.slt b)) s
/-- SLTUI. -/
def execSltui (q : BitVec 20) (rd ra : BitVec 5) (imm : W64) (x : Bool) (s : State) : Host.Outcome State Fault Refusal := immInsn q rd ra imm x (fun a b => bit (a.ult b)) s
/-- LI. -/
def execLi (q : BitVec 20) (rd : BitVec 5) (imm : W64) (x : Bool) (s : State) : Host.Outcome State Fault Refusal := immInsn q rd 0 imm x (fun _ b => b) s

/-! ### BR -/

/-- The branch target: OFF32 in 8-byte units from a base. -/
def branchTo (base : W64) (off : W32) : W64 := base + (off.signExtend 64) * 8

/-- The instruction sets the program counter: a program goes on there, an instruction command completes. DESIGN CHOICE: no
rule gives an instruction command a program counter; its branches, JAL and JALR set the one that the queue context keeps
(R104), JAL and JALR link that one + 8, and its other instructions leave it. -/
def jump (q : Nat) (target : W64) (s : State) : State :=
  let s1 := modQc q (fun c => { c with pc := target }) s
  if isProg (getQc s q) then s1 else finishCmd q stDone s1

/-- A conditional branch. -/
def branchInsn (q : BitVec 20) (ra rb : BitVec 5) (off : W32) (t : W64 → W64 → Bool) (s : State) : Host.Outcome State Fault Refusal :=
  .next (onlyRun s (
    if canRun s q.toNat anyKind then
      let c := getQc s q.toNat
      if t (rdG c ra) (rdG c rb) then jump q.toNat (branchTo c.pc off) s else doneInsn q.toNat 8 s
    else s))

/-- BEQ. -/
def execBeq (q : BitVec 20) (ra rb : BitVec 5) (off : W32) (s : State) : Host.Outcome State Fault Refusal := branchInsn q ra rb off (· == ·) s
/-- BNE. -/
def execBne (q : BitVec 20) (ra rb : BitVec 5) (off : W32) (s : State) : Host.Outcome State Fault Refusal := branchInsn q ra rb off (· != ·) s
/-- BLT. -/
def execBlt (q : BitVec 20) (ra rb : BitVec 5) (off : W32) (s : State) : Host.Outcome State Fault Refusal := branchInsn q ra rb off (fun a b => a.slt b) s
/-- BGE. -/
def execBge (q : BitVec 20) (ra rb : BitVec 5) (off : W32) (s : State) : Host.Outcome State Fault Refusal := branchInsn q ra rb off (fun a b => !a.slt b) s
/-- BLTU. -/
def execBltu (q : BitVec 20) (ra rb : BitVec 5) (off : W32) (s : State) : Host.Outcome State Fault Refusal := branchInsn q ra rb off (fun a b => a.ult b) s
/-- BGEU. -/
def execBgeu (q : BitVec 20) (ra rb : BitVec 5) (off : W32) (s : State) : Host.Outcome State Fault Refusal := branchInsn q ra rb off (fun a b => !a.ult b) s

/-- JAL. -/
def execJal (q : BitVec 20) (rd : BitVec 5) (off : W32) (s : State) : Host.Outcome State Fault Refusal :=
  .next (onlyRun s (
    if canRun s q.toNat anyKind then
      let pc := (getQc s q.toNat).pc
      jump q.toNat (branchTo pc off) (modQc q.toNat (fun c => wrG rd (pc + 8) c) s)
    else s))

/-- JALR (R112): a misaligned target is illegal. -/
def execJalr (q : BitVec 20) (rd ra : BitVec 5) (off : W32) (s : State) : Host.Outcome State Fault Refusal :=
  .next (onlyWork s (
    if canRun s q.toNat anyKind then
      let c := getQc s q.toNat
      let target := branchTo (rdG c ra) off
      if target.toNat % 8 ≠ 0 then illegalNow q.toNat rAlign s
      else jump q.toNat target (modQc q.toNat (fun x => wrG rd (c.pc + 8) x) s)
    else s))

/-! ### MEM (R86, R91, R99, R112) -/

/-- RA + IMM32. -/
def memAddr (qc : QCtx) (ra : BitVec 5) (off : W32) : Nat := (rdG qc ra + off.signExtend 64).toNat

/-- A value of `n` bytes, sign- or zero-extended to 64 bits. -/
def extend (signed : Bool) (n v : Nat) : W64 :=
  if signed && decide (2 ^ (8 * n - 1) ≤ v) then BitVec.ofNat 64 (2 ^ 64 + v - 2 ^ (8 * n)) else BitVec.ofNat 64 v

/-- A scalar access of `n` bytes at a location that an array command accepted before it, of the same queue context, has yet to
write, or, for a store, has yet to read: it comes after that command (R95). -/
def axRaces (s : State) (q loc n : Nat) (store : Bool) : Bool :=
  qKind q == kAX && ((getPart s (qIndex q)).cmds.filter (fun c => c.q == q && !c.ended)).any (fun c =>
    (cmdOut s c ++ (if store then cmdY s c else [])).any (fun l => decide (loc ≤ l) && decide (l < loc + n)))

/-- A scalar load of `n` bytes. -/
def loadInsn (q : BitVec 20) (rd ra : BitVec 5) (off : W32) (n : Nat) (signed : Bool) (s : State) : Host.Outcome State Fault Refusal :=
  .next (onlyWork s (
    if canRun s q.toNat anyKind then
      let c := getQc s q.toNat
      let va := memAddr c ra off
      if va % n ≠ 0 then illegalNow q.toNat rAlign s
      else match translate s c.ctx va accRead (whoOf q.toNat) with
        | (.ok loc, s1) =>
          if axRaces s q.toNat loc n false then s
          else if locPoison s1 loc then xlatFault q.toNat va accRead (.poisonAt (lineAddr loc)) s1
          else doneInsn q.toNat 8 (modQc q.toNat (fun x => wrG rd (extend signed n (locNat s1 loc n)) x) s1)
        | (o, s1) => xlatFault q.toNat va accRead o s1
    else s))

/-- A scalar store of `n` bytes. -/
def storeInsn (q : BitVec 20) (rd ra : BitVec 5) (off : W32) (n : Nat) (s : State) : Host.Outcome State Fault Refusal :=
  .next (onlyWork s (
    if canRun s q.toNat anyKind then
      let c := getQc s q.toNat
      let va := memAddr c ra off
      if va % n ≠ 0 then illegalNow q.toNat rAlign s
      else match translate s c.ctx va accWrite (whoOf q.toNat) with
        | (.ok loc, s1) =>
          if axRaces s q.toNat loc n true then s
          else doneInsn q.toNat 8 (markDirty (engKey (qKind q.toNat) (qIndex q.toNat)) loc
            (storeAt (causeOf (qKind q.toNat)) loc (leBytes n (rdG c rd).toNat) s1))
        | (o, s1) => xlatFault q.toNat va accWrite o s1
    else s))

/-- LD8. -/
def execLd8 (q : BitVec 20) (rd ra : BitVec 5) (off : W32) (s : State) : Host.Outcome State Fault Refusal := loadInsn q rd ra off 1 true s
/-- LD16. -/
def execLd16 (q : BitVec 20) (rd ra : BitVec 5) (off : W32) (s : State) : Host.Outcome State Fault Refusal := loadInsn q rd ra off 2 true s
/-- LD32. -/
def execLd32 (q : BitVec 20) (rd ra : BitVec 5) (off : W32) (s : State) : Host.Outcome State Fault Refusal := loadInsn q rd ra off 4 true s
/-- LD64. -/
def execLd64 (q : BitVec 20) (rd ra : BitVec 5) (off : W32) (s : State) : Host.Outcome State Fault Refusal := loadInsn q rd ra off 8 true s
/-- LD8U. -/
def execLd8u (q : BitVec 20) (rd ra : BitVec 5) (off : W32) (s : State) : Host.Outcome State Fault Refusal := loadInsn q rd ra off 1 false s
/-- LD16U. -/
def execLd16u (q : BitVec 20) (rd ra : BitVec 5) (off : W32) (s : State) : Host.Outcome State Fault Refusal := loadInsn q rd ra off 2 false s
/-- LD32U. -/
def execLd32u (q : BitVec 20) (rd ra : BitVec 5) (off : W32) (s : State) : Host.Outcome State Fault Refusal := loadInsn q rd ra off 4 false s
/-- ST8. -/
def execSt8 (q : BitVec 20) (rd ra : BitVec 5) (off : W32) (s : State) : Host.Outcome State Fault Refusal := storeInsn q rd ra off 1 s
/-- ST16. -/
def execSt16 (q : BitVec 20) (rd ra : BitVec 5) (off : W32) (s : State) : Host.Outcome State Fault Refusal := storeInsn q rd ra off 2 s
/-- ST32. -/
def execSt32 (q : BitVec 20) (rd ra : BitVec 5) (off : W32) (s : State) : Host.Outcome State Fault Refusal := storeInsn q rd ra off 4 s
/-- ST64. -/
def execSt64 (q : BitVec 20) (rd ra : BitVec 5) (off : W32) (s : State) : Host.Outcome State Fault Refusal := storeInsn q rd ra off 8 s

/-! ### TALLY (R96, R100, R114 to R118) -/

/-- A tally at a virtual address: its location, or the fault taken. A poisoned tally is consumed (R99). -/
def tallyLoc (q va : Nat) (s : State) : Except State (Nat × State) :=
  match translate s (getQc s q).ctx va accTally (whoOf q) with
  | (.ok loc, s1) => if locPoison s1 loc then .error (xlatFault q va accTally (.poisonAt (lineAddr loc)) s1) else .ok (loc, s1)
  | (o, s1) => .error (xlatFault q va accTally o s1)

/-- The addition itself, and the end of the instruction. -/
def performAdd (q va inc : Nat) (rd : BitVec 5) (s : State) : State :=
  match tallyLoc q va s with
  | .error t => t
  | .ok (loc, s1) =>
    let old := locNat s1 loc 8
    doneInsn q 8 (modQc q (fun c => wrG rd (BitVec.ofNat 64 old) c) (tallyAddAt (causeOf (qKind q)) loc inc s1))

/-- What a queue context of an engine holds until its accepted commands or open collectives have retired: its TALLY.ADDs are
performed, its program ends (R96, R97, R145). -/
def releaseHeld (kind index : Nat) (t : State) : State :=
  (qcsWhere t (fun k qc => qKind k == kind && qIndex k == index && (qc.heldAdd.isSome || qc.heldEnd.isSome))).foldl (fun u k =>
    if unretired u k then u
    else match (getQc u k).heldAdd, (getQc u k).heldEnd with
    | some (va, inc, rd), _ => performAdd k va.toNat inc.toNat rd (modQc k (fun x => { x with heldAdd := none }) u)
    | none, some st => finishCmd k st (modQc k (fun x => { x with heldEnd := none }) u)
    | none, none => u) t

/-- TALLY.ADD: it waits until every array command that its queue context accepted, and every collective that it opened, has
retired (R96, R145). -/
def execTallyAdd (q : BitVec 20) (rd ra rb : BitVec 5) (s : State) : Host.Outcome State Fault Refusal :=
  .next (onlyWork s (
    if canRun s q.toNat anyKind then
      let c := getQc s q.toNat
      let va := (rdG c ra).toNat
      if va % 8 ≠ 0 then illegalNow q.toNat rAlign s
      else if unretired s q.toNat then modQc q.toNat (fun x => { x with heldAdd := some (rdG c ra, rdG c rb, rd) }) s
      else performAdd q.toNat va (rdG c rb).toNat rd s
    else s))

/-- What a released wait gives its destination register. -/
def waitResult (w : Waiter) : W64 :=
  match w.released with
  | some (m1, m2, v) => if w.second.isSome then bit m1 + 2 * bit m2 else v
  | none => 0

/-- The queue context blocks on a registered wait, and the engine leaves it; a wait whose threshold is met
already goes on at once (R116, R117). -/
def blockOn (w : Waiter) (s : State) : State :=
  let w' := decideWaiter s causeEngine w
  match w'.released with
  | some _ => doneInsn w.key 8 (modQc w.key (fun c => wrG w.rd (waitResult w') c) s)
  | none => leaveEng w.key (modQc w.key (fun c => { c with blocked := true }) (registerWait w s))

/-- TALLY.WAIT. -/
def execTallyWait (q : BitVec 20) (rd ra rb : BitVec 5) (s : State) : Host.Outcome State Fault Refusal :=
  .next (onlyWork s (
    if canRun s q.toNat anyKind then
      let c := getQc s q.toNat
      let va := (rdG c ra).toNat
      if va % 8 ≠ 0 then illegalNow q.toNat rAlign s
      else match tallyLoc q.toNat va s with
        | .error t => t
        | .ok (loc, s1) =>
          blockOn { key := q.toNat, isQueue := false, ctx := c.ctx, host := isHost loc, addr := loc % hostBit, va := rdG c ra, thresh := rdG c rb, rd := rd } s1
    else s))

/-- TALLY.WAIT2: MOD names the register of the second threshold. -/
def execTallyWait2 (q : BitVec 20) (rd ra rb rc rt : BitVec 5) (s : State) : Host.Outcome State Fault Refusal :=
  .next (onlyWork s (
    if canRun s q.toNat anyKind then
      let c := getQc s q.toNat
      let va := (rdG c ra).toNat
      let vb := (rdG c rc).toNat
      if va % 8 ≠ 0 ∨ vb % 8 ≠ 0 then illegalNow q.toNat rAlign s
      else match tallyLoc q.toNat va s with
        | .error t => t
        | .ok (l1, s1) =>
          match tallyLoc q.toNat vb s1 with
          | .error t => t
          | .ok (l2, s2) =>
            blockOn { key := q.toNat, isQueue := false, ctx := c.ctx, host := isHost l1, addr := l1 % hostBit, va := rdG c ra, thresh := rdG c rb
                      second := some (isHost l2, l2 % hostBit, rdG c rc, rdG c rt), rd := rd } s2
    else s))

/-- TALLY.SET (R100, R118): it does not consume, so poison stays and does not fault. -/
def execTallySet (q : BitVec 20) (ra rb : BitVec 5) (s : State) : Host.Outcome State Fault Refusal :=
  .next (onlyWork s (
    if canRun s q.toNat anyKind then
      let c := getQc s q.toNat
      let va := (rdG c ra).toNat
      if va % 8 ≠ 0 then illegalNow q.toNat rAlign s
      else match translate s c.ctx va accTally (whoOf q.toNat) with
        | (.ok loc, s1) => doneInsn q.toNat 8 (storeAt (causeOf (qKind q.toNat)) loc (leBytes 8 (rdG c rb).toNat) s1)
        | (o, s1) => xlatFault q.toNat va accTally o s1
    else s))

/-- TALLY_WAIT_RELEASE: the queue context takes what its wait observed and is ready again; it runs at once
where its engine is free (R105, R228). -/
def execTallyWaitRelease (q : BitVec 20) (s : State) : Host.Outcome State Fault Refusal :=
  .next (onlyWork s (
    match s.fe.waiters.find? (fun w => !w.isQueue && w.key == q.toNat && w.released.isSome) with
    | none => s
    | some w =>
      let c := getQc s q.toNat
      if !c.blocked || !engUp s (qKind q.toNat) (qIndex q.toNat) then s
      else
        let k := engKey (qKind q.toNat) (qIndex q.toNat)
        let s1 := tickEng (qKind q.toNat) (qIndex q.toNat) (dropWaits (fun x => !x.isQueue && x.key == q.toNat) s)
        let e := getEng s1 k
        let s2 := if mayTake s q.toNat then setEng k { endIdle w.cause e with running := some q.toNat, kept := none } s1 else s1
        doneInsn q.toNat 8 (modQc q.toNat (fun x => wrG w.rd (waitResult w) { x with blocked := false }) s2)))

/-! ### SYS -/

/-- NOP. -/
def execNopInstruction (q : BitVec 20) (s : State) : Host.Outcome State Fault Refusal :=
  .next (onlyRun s (if canRun s q.toNat anyKind then doneInsn q.toNat 8 s else s))

/-- END: the program command completes with DONE. As an instruction command it completes too. -/
def execEndInsn (q : BitVec 20) (s : State) : Host.Outcome State Fault Refusal :=
  .next (onlyRun s (if canRun s q.toNat anyKind then finishCmd q.toNat stDone s else s))

/-- RDFEAT (R120). -/
def execRdfeat (q : BitVec 20) (rd : BitVec 5) (n : W32) (s : State) : Host.Outcome State Fault Refusal :=
  regInsn q.toNat rd 8 (fun _ => BitVec.ofNat 64 (featWord s (engPart s (qKind q.toNat) (qIndex q.toNat)) n.toNat)) s

/-- RDCYC (R113). -/
def execRdcyc (q : BitVec 20) (rd : BitVec 5) (s : State) : Host.Outcome State Fault Refusal :=
  let t := tickEng (qKind q.toNat) (qIndex q.toNat) s
  .next (onlyRun s (
    if canRun s q.toNat anyKind then
      doneInsn q.toNat 8 (modQc q.toNat (fun c => wrG rd (BitVec.ofNat 64 (cycOf t (engIsland s (qKind q.toNat) (qIndex q.toNat)))) c) t)
    else s))

/-- The identity word (Table 06-6). -/
def idWord (s : State) (q : Nat) : Nat :=
  engIsland s (qKind q) (qIndex q) + 2 ^ 12 * (getQc s q).ctx + 2 ^ 20 * engPart s (qKind q) (qIndex q) + 2 ^ 24 * qKind q
  + 2 ^ 28 * qCtxNo q + 2 ^ 34 * qIndex q

/-- RDID. -/
def execRdid (q : BitVec 20) (rd : BitVec 5) (s : State) : Host.Outcome State Fault Refusal :=
  regInsn q.toNat rd 8 (fun _ => BitVec.ofNat 64 (idWord s q.toNat)) s

/-- IFENCE (R109): later fetches observe earlier writes to instruction memory. -/
def execIfence (q : BitVec 20) (s : State) : Host.Outcome State Fault Refusal :=
  .next (onlyRun s (
    if canRun s q.toNat anyKind then
      let k := engKey (qKind q.toNat) (qIndex q.toNat)
      doneInsn q.toNat 8 (setEng k { getEng s k with icache := [] } s)
    else s))

/-- RDSEQ (R247). -/
def execRdseq (q : BitVec 20) (rd : BitVec 5) (s : State) : Host.Outcome State Fault Refusal :=
  regInsn q.toNat rd 8 (fun c => c.seq.setWidth 64) s

end Sys2Proof.Machine
end

