-- ==== Sys2Proof/Machine/Array.lean ====
section
/-! DEFINITION. The array engine and the bell unit of a partition: loads, passes, drains, the freeze mask and the fence
(R44 to R46, R50 to R56, R62 to R79, R144 to R151, R159, R371). -/

namespace Sys2Proof.Machine

/-! ### Accepted commands -/

/-- A pass that touches accumulator rows (R66). -/
def AxCmd.touches (c : AxCmd) : Bool := c.bank == 1 && (c.acc || !c.dt)

/-- An array command whose checks have passed takes its place before the array: it waits for its turn there (R145). -/
def axOffer (q : Nat) (seq : BitVec 56) (c : AxCmd) (t : State) : State :=
  let qc := getQc t q
  let src := match qc.cmd with | some (a, b, _) => (a, b) | none => (0, 0)
  modPart (qIndex q) (fun v =>
    { v with next := some { c with q, queue := src.1, id := src.2, byProg := isProg qc, seq, pc := pcNow qc, ctx := qc.ctx } }) t

/-- Accepts the command that waits: its program goes on, its instruction command stays in flight until it retires (R145). -/
def axAccept (p : Nat) (c : AxCmd) (t : State) : State :=
  let t1 := modPart p (fun v => setBank c.bank { getBank v c.bank with started := true }
    { v with next := none, cmds := v.cmds ++ [{ c with draw := t.free }] }) { t with free := t.free + 65536 }
  if c.byProg then doneInsn c.q 16 t1 else modQc c.q (fun x => { x with cmd := none, started := false }) (leaveEng c.q t1)

/-- The mask that a command of a context is subject to (R149). -/
def maskFor (v : AxPart) (ctx : Nat) : NMap W64 := if v.maskCtx = some ctx then v.mask else []

/-- Removes a command that has ended, its counters reaching its bank's shadow, and records its status (R145, R148). A
command that a reset ended has its status already. -/
def axEnd (p : Nat) (c : AxCmd) (st : Nat) (n : Nums) (t : State) : State :=
  let t1 := modPart p (fun v => { v with cmds := v.cmds.filter (fun x => !(x.q == c.q && x.seq == c.seq)) }) t
  if c.ended then t1
  else
    let t2 := axShadow p c st n t1
    if c.byProg then t2 else setResult c.queue c.id st t2

/-- The failure that the record of a command names, of those its accesses met (R131). -/
def failOf (j : Job) : Option AxFail :=
  match j.errs with
  | [] => none
  | e :: es =>
    let f := (e :: es).getD (Config.firstFault j.s.free % (es.length + 1)) e
    match f.2.2 with
    | .bad r l a => some { cls := cTranslation, status := stXlat, reason := r, a0 := f.1, a1 := f.2.1 % 4 + 4 * l, a2 := a }
    | .poisonAt pa => some { cls := cPoison, status := stPoison, a0 := pa, a1 := f.1 }
    | .ok _ => none

/-- Accesses of a command of the array, beside earlier commands that write these locations (R53). -/
def axAcc (c : AxCmd) (race : List Nat) : Acc := { ctx := c.ctx, who := .other, consume := true, race }

/-- Index positions of a command as they stand, counting those outside a tensor that the index selects in (R133). -/
def rdSel (a : Acc) (tc : Nat) (c : AxCmd) (sizes : List Nat) (j : Job) : List (Option Nat) × Job :=
  if !c.x.idxen then ([], j)
  else mapJob (fun i u =>
    let d := c.dIdx.toNat
    let (r, u1) := rdCode a tc d (i, 0, 0, 0) u
    let v := sField (tdBits d) r.1
    let bad := v ≠ -1 ∧ (v < 0 ∨ sizes.any (fun z => decide ((z : Int) ≤ v)))
    let u2 := if bad then { u1 with nums := { u1.nums with idx := satAdd max48 u1.nums.idx 1 } } else u1
    (if v < 0 then none else some v.toNat, u2)) (upto c.m) j

/-- Locations that the commands of a partition in flight write, for a command accepted now. -/
def raceOf (s : State) (p : Nat) : List Nat := (getPart s p).cmds.flatMap (cmdOut s)

/-- The command once its operands are read at its acceptance: what a later read of Y may see mixed, and what it reads and
writes itself. -/
def readAt (s : State) (c : AxCmd) (race : List Nat) (sel : List (Option Nat)) (j : Job) : AxCmd :=
  let c1 := { c with sel, nums := j.nums, fail := failOf j, race := if bfld c.x.opx 0 2 = 0 then [] else race }
  { c1 with own := (cmdOut s c1).filter (j.reads.contains ·) }

/-- A drain is accepted once the drain before it has retired, and reads its index (R78). -/
def acceptDrain (p : Nat) (c : AxCmd) (t : State) : State :=
  let race := raceOf t p
  let (sel, j) := rdSel (axAcc c race) (tcOf t) c [tdDim c.d1.toNat 1] { s := t }
  axAccept p (readAt t c race sel j) j.s

/-- What waits for retirements: a drain that waits for its turn is accepted, a fence that every command has left behind ends,
and held TALLY.ADDs and program ends are performed (R78, R145, R150). -/
def axAfter (p : Nat) (t : State) : State :=
  let v := getPart t p
  let t0 := match v.next with
    | some c => if c.bank = 2 ∧ ¬ v.cmds.any (fun x => x.bank == 2) then acceptDrain p c t else t
    | none => t
  let t1 := match v.fence with
    | some f => if v.cmds.isEmpty then endLong f.1 stDone f.2.2 {} 16 (modPart p (fun w => { w with fence := none }) t0) else t0
    | none => t0
  releaseHeld kAX p t1

/-- An accepted command fails in an access: its record, its status, the reset of its context (R91, R99, R145). -/
def axFault (p : Nat) (c : AxCmd) (f : AxFail) (n : Nums) (t : State) : State :=
  let r := { engRec t c.q f.cls f.status f.reason 1 f.a0 f.a1 f.a2 with ctx := c.ctx, seq := c.seq, pc := c.pc }
  axAfter p (ctxReset c.ctx stCtxReset false (axEnd p c f.status n (addFault r false t)))

/-- The end of a command after its accesses. -/
def axJobEnd (p : Nat) (c : AxCmd) (j : Job) (t : State) : State :=
  match failOf j with
  | none => axAfter p (axEnd p c stDone (addNums c.nums j.nums) t)
  | some f => axFault p c f (addNums c.nums j.nums) t

/-- A long-running AX instruction found illegal after its descriptors (R370). -/
def accumIllegal (q : Nat) (seq : BitVec 56) (s t : State) : State :=
  let w := curWords s q
  endLong q stIllegal seq {} 0 (addFault { engRec t q cIllegal stIllegal rAccum 0 w.1 w.2 0 with seq := seq } false t)

/-! ### Fields (R123, R144, Table 07-8) -/

/-- The acceptance of every array instruction of a partition is held: by an AX.FENCE, or by the command that waits for its
turn (R52, R78, R150). -/
def axHeld (s : State) (p : Nat) : Bool := (getPart s p).fence.isSome || (getPart s p).next.isSome

/-- An array instruction: without effect while its acceptance is held, else checked and carried out. -/
def axInsn (q minor : Nat) (cs : List (Bool × Nat)) (s : State) (body : BitVec 56 → State → State) : Host.Outcome State Fault Refusal :=
  longInsn q kAX 0x14 minor (if axHeld s (qIndex q) then [] else cs) s (fun seq t => if axHeld s (qIndex q) then s else body seq t)

/-- Fields that no AX instruction uses, and the index fields. -/
def axChecks (x : TExt) (usesIdx usesRnd role : Bool) : List (Bool × Nat) :=
  [(x.rm != 0 || (!usesRnd && x.srnd != 0) || (!usesIdx && !idxUnused x) || (!x.idxen && !idxUnused x) || (!role && x.idxrole != 0), rNonzero),
   (x.srnd == 3 || (x.idxen && x.idxdim != 1) || x.idxrole == 3, rEncoding)]

/-- The epilogue word's reserved bits and reserved encodings (R74, R75). -/
def epiChecks (w : W32) : List (Bool × Nat) :=
  [(bfld w 6 10 != 0, rNonzero), (bfld w 0 2 == 3 || bfld w 2 2 == 3 || bfld w 4 2 == 3, rEncoding)]

/-- Checks in the order of R123: NONZERO before ENCODING. -/
def inOrder (l : List (Bool × Nat)) : List (Bool × Nat) := l.filter (fun c => c.2 == rNonzero) ++ l.filter (fun c => c.2 != rNonzero)

/-- Formats that the bell unit writes and reads as Y (R72, R75). -/
def bellFmt (fmt : Nat) : Bool := isFloating fmt && fmt != 2

/-- A Y descriptor of the shape that BCAST asks for (Table 04-4). -/
def yOk (w : W32) (m n d : Nat) : Bool :=
  let b := bfld w 2 2
  bellFmt (tdFmt d) && !tdTiled d && tdDim d 0 == (if b = 2 then 1 else n) && tdDim d 1 == (if b = 1 then 1 else m)
  && tdDim d 2 == 1 && tdDim d 3 == 1

/-- Goes on with the Y descriptor that the epilogue names, or with none. -/
def withY (q : Nat) (w : W32) (m n : Nat) (seq : BitVec 56) (t : State) (k : Nat → State → State) : State :=
  if bfld w 0 2 = 0 then k 0 t else withTd q (bfld w 16 16) 5 false (yOk w m n) seq t k

/-! ### Loads (R44, R50, R54, R147) -/

def isPaired (fmt : Nat) : Bool := fmt == 0x0D || fmt == 0x0E

/-- AX.LOADW. -/
def execAxLoadw (q : BitVec 20) (h2 : BitVec 16) (tr : Bool) (x : TExt) (s : State) : Host.Outcome State Fault Refusal :=
  let n := q.toNat
  axInsn n 0x00
    ([(x.opx != 0, rNonzero)] ++ axChecks x false tr false ++ [(tr && x.srnd == 2, rEncoding)]) s (fun seq t =>
    withTd n h2.toNat 2 false (fun d =>
        let k := tdDim d (b01 tr)
        let c := tdDim d (1 - b01 tr)
        tdBM d && tdRank d == 2 && (!tdTiled d || (tdSplit1 d && tdKax d == tr && tdPspan d == isPaired (tdFmt d)))
        && decide (32 * cdiv k 32 ≤ arrRows (partCount t))
        && decide ((if isPaired (tdFmt d) then 2 * c else c) ≤ arrCols (partCount t))) seq t (fun d t =>
      let k := tdDim d (b01 tr)
      let c := tdDim d (1 - b01 tr)
      let rows := min 2048 (32 * cdiv k 32)
      let cmd : AxCmd := { bank := 0, q := n, tr, x, h2, d2 := BitVec.ofNat 512 d, m := k, n := c, paired := isPaired (tdFmt d)
                           rho := if tr then 2 * rows else rows }
      axOffer n seq cmd t))

/-- One stationary block of a column: its exponent and mantissas, as stored, or re-formed along the new K axis by the
transposer. -/
def rdStationary (a : Acc) (tc : Nat) (c : AxCmd) (col b : Nat) (j : Job) : (Nat × List Int) × Job :=
  let d := c.d2.toNat
  let w := tdBits d
  let ks := (upto (min 32 (c.m - 32 * b))).map (32 * b + ·)
  if c.tr then
    let (vs, j1) := mapJob (fun k u => let (v, u1) := rdVal a tc d (col, k, 0, 0) u; (v.1, u1)) ks j
    let f := formBlock w (fun _ => shortMode c.x.srnd.toNat 0) vs
    ((f.e, f.ms), { j1 with nums := countAll j1.nums f.cnts })
  else
    let (e, j1) := rdExp a tc d (32 * b, col, 0, 0) j
    let (ms, j2) := mapJob (fun k u => let (v, u1) := rdCode a tc d (k, col, 0, 0) u; (sField w v.1, u1)) ks j1
    ((e.1, ms), j2)

/-- The weights of a load. -/
def rdWeights (a : Acc) (tc : Nat) (c : AxCmd) (j : Job) : Wts × Job :=
  let d := c.d2.toNat
  (upto c.n).foldl (fun st col =>
    (upto (cdiv c.m 32)).foldl (fun st2 b =>
      let (r, j1) := rdStationary a tc c col b st2.2
      let w := st2.1
      ({ w with exps := mset 0 w.exps (col * 256 + b) r.1
                mants := r.2.zipIdx.foldl (fun m p => mset 0 m (col * 8192 + 32 * b + p.2) p.1) w.mants }, j1)) st)
    (({ ctx := c.ctx, k := c.m, n := c.n, fmt := tdFmt d } : Wts), j)

/-- The command of a bank that waits for its turn. -/
def waiting (v : AxPart) (bank : Nat) : Option AxCmd := v.next.filter (fun c => c.bank == bank)

/-- A load may write row 0 at this cycle: condition 2 of R54, without its first term when the load replaces waiting
weights (R371). -/
def loadMay (v : AxPart) (cycle : Nat) : Bool :=
  (match v.loadAt with | none => true | some (l, r) => decide (l + r ≤ cycle))
  && (v.shadow.isSome || (match v.takenAt with | none => true | some f => decide (f + 1 ≤ cycle)))

/-- LOADW_START: the array takes the load in its turn, and reads its operand. It reads all of it at this instant: what
another engine writes before the load retires is not mixed in (DESIGN CHOICE: R154 leaves the mixture open). -/
def execLoadwStart (p : Nat) (cycle : Nat) (s : State) : Host.Outcome State Fault Refusal :=
  .next (onlyWork s (
    let v := getPart s p
    match waiting v 0 with
    | some c =>
      if !loadMay v cycle ∨ !engUp s kAX p then s
      else
        let race := raceOf s p
        let (w, j) := rdWeights (axAcc c race) (tcOf s) c { s }
        let took := fun (u : AxPart) =>
          { u with loadAt := some (cycle, c.rho), takenAt := none, last := some (c.ctx, c.m, c.n, tdFmt c.d2.toNat)
                   shadow := if j.errs.isEmpty then some w else u.shadow }
        axAccept p (readAt s c race [] j) (modPart p took j.s)
    | none => s))

/-- LOADW_RETIRE: the oldest load. -/
def execLoadwRetire (p : Nat) (s : State) : Host.Outcome State Fault Refusal :=
  .next (onlyWork s (
    match (getPart s p).cmds.find? (fun c => c.bank == 0) with
    | some c =>
      if !engUp s kAX p then s
      else match c.fail with
        | some f => if c.ended then axAfter p (axEnd p c stDone c.nums s) else axFault p c f c.nums s
        | none => axAfter p (axEnd p c stDone c.nums s)
    | none => s))

/-! ### Accumulator rows (R64, R69, R70) -/

/-- Draining tile and slot of an output column (R64). -/
def colTile (paired : Bool) (j : Nat) : Nat := (if paired then 2 * j else j) / 1024
def colSlot (paired : Bool) (j : Nat) : Nat := if paired then j - 512 * colTile true j else j % 1024

/-- The row of a draining tile. -/
def tileRow (v : AxPart) (row tile : Nat) : AccRow := mget {} v.rows (16 * row + tile)

/-- Context and layout that a tile's row will have once the commands accepted so far have been applied. -/
def issuedRow (v : AxPart) (row tile : Nat) : Option (Nat × Bool) :=
  match v.cmds.reverse.find? (fun c => c.touches && !c.ended && c.fail.isNone && decide (c.rbase ≤ row) && decide (row < c.rbase + c.m)
      && (tilesOf c).contains tile) with
  | some c => some (c.ctx, c.paired)
  | none => let r := tileRow v row tile; if r.valid then some (r.ctx, r.paired) else none

/-- A row of a tile of a context's region has this layout. -/
def laidOut (v : AxPart) (ctx rbase m : Nat) (tiles : List Nat) (paired : Bool) : Bool :=
  (upto m).any (fun i => tiles.any (fun t => issuedRow v (rbase + i) t == some (ctx, paired)))

/-- The pair that a row holds for a context's output column in a layout: the zero pair where the tile's row is not valid for
the context (R69). -/
def rowPair (v : AxPart) (ctx row : Nat) (paired : Bool) (j : Nat) : Pair :=
  let r := tileRow v row (colTile paired j)
  if r.valid && r.ctx == ctx then mget (0, 0) r.slots (colSlot paired j) else (0, 0)

def pairV (p : Pair) : FV × FV := (val32 p.1, val32 p.2)
def pairB (p : FV × FV) : Pair := (bits32 p.1, bits32 p.2)

/-- Output pair of a pass at row `i`, column `j`: the array's, or its sum with the slot (R65). -/
def passPair (v : AxPart) (c : AxCmd) (i j : Nat) : Pair :=
  let p := mget (0, 0) c.sums (8192 * i + j)
  if c.acc then pairB (pairAdd fmt32 (pairV (rowPair v c.ctx (c.rbase + i) c.paired j)) (pairV p)) else p

/-- Output columns of a command that lie in a tile. -/
def tileCols_ (c : AxCmd) (t : Nat) : List Nat := (upto c.n).filter (fun j => colTile c.paired j == t)

/-- A tile's row after a pass has written it (R66, R69). DEDUCED: slots beyond the pass's columns hold the zero pair when the row
was not valid for the pass's context, as they read before. The error that makes it poison is open; it clears the poison
only where it overwrites the whole row (R71). -/
def passRow (v : AxPart) (c : AxCmd) (i t : Nat) : AccRow :=
  let old := tileRow v (c.rbase + i) t
  let whole := !c.acc && !c.paired && decide (1024 * (t + 1) ≤ c.n)
  { valid := true, ctx := c.ctx, paired := c.paired, poison := (old.poison && !whole) || Config.accError (c.draw + 16 * i + t)
    slots := (tileCols_ c t).foldl (fun sl j => mset (0, 0) sl (colSlot c.paired j) (passPair v c i j))
      (if old.valid && old.ctx == c.ctx then old.slots else []) }

/-- The rows after a pass has written its region: those of the tiles that its columns lie in. -/
def passRows (v : AxPart) (c : AxCmd) : NMap AccRow :=
  if !c.touches then v.rows
  else (upto c.m).foldl (fun m i => (tilesOf c).foldl (fun m2 t => mset {} m2 (16 * (c.rbase + i) + t) (passRow v c i t)) m) v.rows

/-- Whether a drain reads an output column of a row in the paired layout, by the tags of its tiles (R70). DESIGN CHOICE where
one row's tiles differ: a column that a paired tile holds is read there. -/
def drainPaired (v : AxPart) (ctx row j : Nat) : Bool :=
  let r := tileRow v row (colTile true j)
  r.valid && r.ctx == ctx && r.paired

/-- Tiles of a row that a command reads. -/
def readsTiles (v : AxPart) (c : AxCmd) (row : Nat) : List Nat :=
  if c.bank = 2 then ((upto c.n).map (fun j => colTile (drainPaired v c.ctx row j) j)).eraseDups
  else if c.touches && c.acc then tilesOf c else []

/-- The first row of the region, if any, that the command reads and that is poisoned (R71). No rule says what ARG0 names. -/
def regionFail (v : AxPart) (c : AxCmd) : Option AxFail :=
  if (upto c.m).any (fun i => (readsTiles v c (c.rbase + i)).any (fun t =>
      let r := tileRow v (c.rbase + i) t; r.valid && r.ctx == c.ctx && r.poison)) then
    some { cls := cPoison, status := stPoison, a0 := (Config.openWord c.draw).toNat }
  else none

/-- A drain reads its region as the rows stand; a poisoned one fails it. -/
def snapDrain (v : AxPart) (c : AxCmd) : AxCmd :=
  if c.snap then c
  else { c with snap := true, fail := c.fail.or (regionFail v c), sums := (upto c.m).foldl (fun m i =>
    (upto c.n).foldl (fun m2 j => mset (0, 0) m2 (8192 * i + j) (rowPair v c.ctx (c.rbase + i) (drainPaired v c.ctx (c.rbase + i) j) j)) m) [] }

/-! ### The epilogue and the outputs (R73 to R76, R79) -/

def epiAdd (p : FV × FV) (y : FV) : FV × FV := pairAdd fmt32 p (y, posZero)
def epiMul (p : FV × FV) (y : FV) : FV × FV :=
  let r := mulV fmt32 p.1 y
  if !r.isFin then (r, posZero) else fastTwoSum fmt32 r (fmaV fmt32 p.2 y (fmaV fmt32 p.1 y r.negate))

/-- One output element: its value, and whether it counts as overflowed. -/
def epiOne (a : Acc) (tc : Nat) (c : AxCmd) (i j : Nat) (p : Pair) (u : Job) : (FV × Bool) × Job :=
  let w := c.x.opx
  let pv := pairV p
  let pre := pairValue pv
  if bfld w 0 2 = 0 then ((pre, pre.isInf), u)
  else
    let (y, u1) := rdVal a tc c.dY.toNat (yAt w i j) u
    let v := pairValue (if bfld w 0 2 = 1 then epiAdd pv y.1 else epiMul pv y.1)
    ((v, v.isInf && (pre.isInf || !y.1.isInf)), u1)

/-- The writes of one output row beside those of the rows before it: where both write, each aligned 8 bytes hold the value of
one of them. R151 does not say which (DESIGN CHOICE: open, Config.mixOld). -/
def mergeRow (k : Nat) (old new : NMap Nat) : NMap Nat :=
  (inWords 0 0 new).foldl (fun m w => if mget 0 old w.2.1 != 0 && Config.mixOld (k + w.1) then m else mset 0 m w.2.1 w.2.2) old

/-- Writes the outputs of a command from its pairs; rows whose selection names one destination row merge by mergeRow
(R151, DESIGN CHOICE there). -/
def emitAll (a : Acc) (tc : Nat) (c : AxCmd) (pairs : Nat → Nat → Pair) (j : Job) : Job :=
  let d := c.d1.toNat
  (upto c.m).foldl (fun u i =>
    match placeRow c i with
    | none => u
    | some o =>
      let r := (tdRuns d).foldl (fun u1 run =>
        if frozen c i (run.1 / 32) then u1
        else
          let (vs, u2) := mapJob (fun k => epiOne a tc c i (run.1 + k) (pairs i (run.1 + k))) (upto run.2) u1
          wrVals a tc d { short := bfld c.x.opx 4 2, gen := genOf u1.s c.q c.seq } (run.1, o, 0, 0) (vs.map (fun v => some v.1)) (vs.map Prod.snd) u2)
        { u with writes := [] }
      { r with writes := mergeRow r.s.free u.writes r.writes, s := { r.s with free := r.s.free + r.writes.length } }) j

/-! ### Passes -/

/-- AX.PASS. -/
def execAxPass (q : BitVec 20) (h1 h2 : BitVec 16) (rbase : BitVec 12) (acc dt : Bool) (x : TExt) (s : State) : Host.Outcome State Fault Refusal :=
  let n := q.toNat
  let p := qIndex n
  let places := x.idxen && dt && x.idxrole != 1
  let gathers := x.idxen && !(dt && x.idxrole == 2)
  axInsn n 0x01
    (inOrder ([(!dt && (h1 != 0 || x.opx != 0), rNonzero)] ++ axChecks x true false (dt && x.idxen) ++ (if dt then epiChecks x.opx else []))) s (fun seq t =>
    let ctx := (getQc t n).ctx
    let last := (getPart t p).last
    let cols := match last with | some (_, _, c, _) => c | none => 0
    let outTd := fun (k : Nat → State → State) => if dt then withTd n h1.toNat 1 true (fun d => bellFmt (tdFmt d) && tdRank d == 2 && !tdTiled d) seq t k else k 0 t
    outTd (fun d1 t =>
    withTd n h2.toNat 2 false (fun d => tdBM d && tdRank d == 2 && (!tdTiled d || (!tdSplit1 d && !tdKax d && !tdPspan d))
        && (match last with | some (c, k, _, _) => c == ctx && k == tdDim d 0 | none => false)) seq t (fun d2 t =>
    let idxTd := fun (k : Nat → State → State) => if x.idxen then withTd n x.idxh.toNat 4 false (fun d => idxOk d (tdDim d 0)) seq t k else k 0 t
    idxTd (fun dx t =>
    let m := if x.idxen then tdDim dx 0 else tdDim d2 1
    if !gathers && tdDim d2 1 != m then longDesc n h2.toNat 2 seq t
    else if dt && (tdDim d1 0 != cols || (!places && tdDim d1 1 != m)) then longDesc n h1.toNat 1 seq t
    else withY n (if dt then x.opx else 0) m cols seq t (fun dy t =>
      let fmt := match last with | some (_, _, _, f) => f | none => 0
      let v := getPart t p
      let cmd : AxCmd := { bank := 1, q := n, acc, dt, rbase := rbase.toNat, m, n := cols, swidth := tdBits d2, paired := isPaired fmt, x, h1, h2
                           d1 := BitVec.ofNat 512 d1, d2 := BitVec.ofNat 512 d2, dIdx := BitVec.ofNat 512 dx, dY := BitVec.ofNat 512 dy
                           mask := if acc && dt then maskFor v ctx else [] }
      if cmd.touches && (decide (4096 < rbase.toNat + m) || (acc && laidOut v ctx rbase.toNat m (tilesOf cmd) (!isPaired fmt))) then
        accumIllegal n seq s t
      else axOffer n seq cmd t)))))

/-- The pair that leaves the south edge: the blocks of a streaming row against a column, in K order (R45, R63). -/
def columnSum (w : Wts) (sw : Nat) (blocks : List (Nat × List Int)) (col : Nat) : FV × FV :=
  blocks.zipIdx.foldl (fun p q =>
    let b := q.2
    let ex := q.1.1
    let ew := mget 0 w.exps (col * 256 + b)
    if ex = 255 ∨ ew = 255 then (qNaN, posZero)
    else if ex = 0 ∨ ew = 0 then p
    else
      let i := (q.1.2.zipIdx.map (fun e => e.1 * mget 0 w.mants (col * 8192 + 32 * b + e.2))).foldl (· + ·) 0
      let k : Int := (ex : Int) + ew - 254 - ((sw : Int) - 2) - ((bmWidth w.fmt : Int) - 2)
      let hi := decodeF fmt32 0 (toLong fmt32 .rne (ofInt i k)).bits
      let lo := if hi.isInf then posZero else addV fmt32 (ofInt i k) hi.negate
      pairAdd fmt32 p (hi, lo)) (posZero, posZero)

/-- The blocks of one streaming row. -/
def rdStream (a : Acc) (tc d row : Nat) (j : Job) : List (Nat × List Int) × Job :=
  mapJob (fun b u =>
    let (e, u1) := rdExp a tc d (32 * b, row, 0, 0) u
    let (ms, u2) := mapJob (fun k w => let (v, w1) := rdCode a tc d (32 * b + k, row, 0, 0) w; (sField (tdBits d) v.1, w1))
      (upto (min 32 (tdDim d 0 - 32 * b))) u1
    ((e.1, ms), u2)) (upto (cdiv (tdDim d 0) 32)) j

/-- The pairs of a pass. -/
def passSums (a : Acc) (tc : Nat) (c : AxCmd) (w : Wts) (sel : List (Option Nat)) (j : Job) : NMap Pair × Job :=
  let d := c.d2.toNat
  let gathers := c.x.idxen && !(c.dt && c.x.idxrole == 2)
  (upto c.m).foldl (fun st i =>
    let row := if gathers then (sel.getD i none).filter (fun v => decide (v < tdDim d 1)) else some i
    match row with
    | none => st
    | some r =>
      let (bs, j1) := rdStream a tc d r st.2
      ((upto c.n).foldl (fun m col => mset (0, 0) m (8192 * i + col) (pairB (columnSum w c.swidth bs col))) st.1, j1)) ([], j)

/-- A front may enter row 0 at this cycle: conditions 1 and 3 of R54. DEDUCED: they alone keep the cells to two passes (R52), the
tail of one and the head of the next. -/
def frontMay (v : AxPart) (cycle : Nat) : Bool :=
  (v.shadow.isNone || (match v.loadAt with | none => true | some (l, _) => decide (l + 1 ≤ cycle)))
  && (match v.frontAt with | none => true | some (f, len) => decide (f + len ≤ cycle))

/-- What a pass reads when its front enters: its index, then the streaming rows through the weights. -/
def passReads (s : State) (c : AxCmd) (race : List Nat) (w : Option Wts) : (List (Option Nat) × NMap Pair) × Job :=
  let gathers := !(c.dt && c.x.idxrole == 2)
  let sizes := (if gathers then [tdDim c.d2.toNat 1] else []) ++ (if c.dt && c.x.idxrole != 1 then [tdDim c.d1.toNat 1] else [])
  let (sel, j0) := rdSel (axAcc c race) (tcOf s) c sizes { s }
  let (sums, j) := passSums (axAcc c race) (tcOf s) c (w.getD { ctx := 0, k := 0, n := 0, fmt := 0, mants := [], exps := [] }) sel j0
  ((sel, sums), j)

/-- PASS_FRONT: the array takes the pass in its turn; its front takes in loaded weights that wait, and the stream goes
through. The pass reads all of its stream at this instant: what another engine writes before the pass retires is not mixed in
(DESIGN CHOICE: R158 leaves the mixture open). -/
def execPassFront (p : Nat) (cycle : Nat) (s : State) : Host.Outcome State Fault Refusal :=
  .next (onlyWork s (
    let v := getPart s p
    match waiting v 1 with
    | some c =>
      if !frontMay v cycle ∨ !engUp s kAX p then s
      else
        let w := if v.shadow.isSome then v.shadow else v.active
        let race := raceOf s p
        let (r, j) := passReads s c race w
        let took := fun (u : AxPart) =>
          { u with active := w, shadow := none, takenAt := if v.shadow.isSome then some cycle else u.takenAt, frontAt := some (cycle, c.m * c.swidth) }
        axAccept p { readAt s c race r.1 j with sums := r.2 } (modPart p took j.s)
    | none => s))

/-- Drains accepted before a pass read their rows before it writes them (R68). -/
def snapBefore (c : AxCmd) (v : AxPart) : AxPart :=
  let i := v.cmds.findIdx (fun x => x.q == c.q && x.seq == c.seq)
  { v with cmds := v.cmds.zipIdx.map (fun x => if x.1.bank = 2 ∧ x.2 < i then snapDrain v x.1 else x.1) }

/-- PASS_RETIRE: the oldest pass, whose outputs enter its region or leave the epilogue. -/
def execPassRetire (p : Nat) (s : State) : Host.Outcome State Fault Refusal :=
  .next (onlyWork s (
    match (getPart s p).cmds.find? (fun c => c.bank == 1) with
    | some c =>
      if !engUp s kAX p then s
      else if c.ended then axAfter p (axEnd p c stDone c.nums s)
      else
        let s1 := modPart p (snapBefore c) s
        let v := getPart s1 p
        match c.fail.or (regionFail v c) with
        | some f => axFault p c f c.nums s1
        | none =>
          let s2 := modPart p (fun u => { u with rows := passRows v c }) s1
          if c.dt then
            let j := emitAll (axAcc c c.race) (tcOf s2) c (passPair v c) { s := s2, reads := c.own }
            axJobEnd p c j (jobCommit causeArray j)
          else axAfter p (axEnd p c stDone c.nums s2)
    | none => s))

/-! ### Drains -/

/-- AX.DRAIN: it is accepted at once, or waits, holding every later acceptance, until the previous drain has retired (R78). -/
def execAxDrain (q : BitVec 20) (h1 : BitVec 16) (rbase : BitVec 12) (x : TExt) (s : State) : Host.Outcome State Fault Refusal :=
  let n := q.toNat
  let p := qIndex n
  axInsn n 0x02
    (inOrder (axChecks x true false false ++ epiChecks x.opx)) s (fun seq t =>
    let ctx := (getQc t n).ctx
    withTd n h1.toNat 1 true (fun d => bellFmt (tdFmt d) && tdRank d == 2 && !tdTiled d) seq t (fun d1 t =>
    let idxTd := fun (k : Nat → State → State) => if x.idxen then withTd n x.idxh.toNat 4 false (fun d => idxOk d (tdDim d 0)) seq t k else k 0 t
    idxTd (fun dx t =>
    let m := if x.idxen then tdDim dx 0 else tdDim d1 1
    let v := getPart t p
    let paired := laidOut v ctx rbase.toNat m (upto 8) true
    let cols := if paired then arrCols (partCount t) / 2 else arrCols (partCount t)
    if cols < tdDim d1 0 then longDesc n h1.toNat 1 seq t
    else withY n x.opx m (tdDim d1 0) seq t (fun dy t =>
      if 4096 < rbase.toNat + m then accumIllegal n seq s t
      else axAfter p (axOffer n seq { bank := 2, q := n, rbase := rbase.toNat, m, n := tdDim d1 0, x, h1, d1 := BitVec.ofNat 512 d1
                                      dIdx := BitVec.ofNat 512 dx, dY := BitVec.ofNat 512 dy, mask := maskFor v ctx } t)))))

/-- The rows as a drain meets them: after the passes accepted before it, row by row (R68, R78). -/
def rowsFor (v : AxPart) (before : List AxCmd) : AxPart :=
  (before.filter (fun c => c.touches && !c.ended && c.fail.isNone)).foldl (fun u c => { u with rows := passRows u c }) v

/-- DRAIN_RETIRE: the drain in the bell units. -/
def execDrainRetire (p : Nat) (s : State) : Host.Outcome State Fault Refusal :=
  .next (onlyWork s (
    let v := getPart s p
    let before := v.cmds.takeWhile (fun c => c.bank != 2)
    match v.cmds.find? (fun c => c.bank == 2) with
    | some c =>
      if !engUp s kAX p then s
      else if c.ended then axAfter p (axEnd p c stDone c.nums s)
      else
        let c1 := snapDrain (rowsFor v before) c
        match c1.fail with
        | some f => axFault p c f c.nums s
        | none =>
          let j := emitAll (axAcc c c.race) (tcOf s) c1 (fun r col => mget (0, 0) c1.sums (8192 * r + col)) { s, reads := c.own }
          axJobEnd p c j (jobCommit causeArray j)
    | none => s))

/-! ### The freeze mask and the fence (R149, R150) -/

/-- AX.MASK. -/
def execAxMask (q : BitVec 20) (h2 : BitVec 16) (clear : Bool) (s : State) : Host.Outcome State Fault Refusal :=
  let n := q.toNat
  let p := qIndex n
  axInsn n 0x03 [(clear && h2 != 0, rNonzero)] s (fun seq t =>
    if clear then endLong n stDone seq {} 16 (modPart p (fun v => { v with mask := [], maskCtx := none }) t)
    else
      let words := arrCols (partCount t) / 2048
      withTd n h2.toNat 2 false (fun d => tdFmt d == 0x11 && tdRank d == 2 && !tdTiled d && tdDim d 0 == words && tdDim d 1 == 4096) seq t (fun d t =>
        let a : Acc := { ctx := (getQc t n).ctx, who := .other, consume := true, race := raceOf t p }
        let (ws, j) := mapJob (fun k u =>
          let (r, u1) := rdCode a (tcOf t) d (k % words, k / words, 0, 0) u
          ((4 * (k / words) + k % words, r.1), u1)) (upto (4096 * words)) { s := t }
        let s1 := if j.errs.isEmpty then
            modPart p (fun v => { v with mask := ws.foldl (fun m w => mset 0 m w.1 (BitVec.ofNat 64 w.2)) [], maskCtx := some (getQc t n).ctx }) j.s
          else j.s
        jobEnd n 16 seq { j with s := s1 }))

/-- AX.FENCE: it ends at once where no accepted command is left, else with the last retirement. -/
def execAxFence (q : BitVec 20) (s : State) : Host.Outcome State Fault Refusal :=
  let n := q.toNat
  let p := qIndex n
  axInsn n 0x04 [] s (fun seq t =>
    if (getPart t p).cmds.isEmpty then endLong n stDone seq {} 16 t
    else modPart p (fun v => { v with fence := some (n, (getQc t n).ctx, seq) }) t)

end Sys2Proof.Machine
end

