-- ==== Sys2Proof/Machine/BringUp.lean ====
section
/-! DEFINITION. The stages of bring-up, and what the fabric manager sends to the Drone (chapter 13). -/

namespace Sys2Proof.Machine

/-! ### POWER to FABRIC -/

/-- POWER (R261): the rails are up, and HA's always-on island runs. -/
def execPower (s : State) : Host.Outcome State Fault Refusal :=
  .next (keepRegs s (
    if s.pw.powered && s.bt.stage == 0 && !s.pw.pwrGood then enterStage 1 { s with pw := { s.pw with pwrGood := true, rails := true } } else s))

/-- The bank of a name (false is A). -/
def bankOf (s : State) (b : Bool) : NMap Byte := if b then s.fl.bankB else s.fl.bankA

/-- The boot ROM accepts a bank (R263, Table 13-2). -/
def bankOk (s : State) (b : Bool) : Bool :=
  let m := bankOf s b
  mapField m 0 4 == 0x51584633 && mapField m 4 2 == 1 && mapField m 9 7 == 0 && mapField m 128 64 == 0
  && decide (mapField m 6 1 < 4) && BitVec.ofNat 256 (shaField (mapBytes m 64 64)) == mget 0 s.fl.fwKeys (mapField m 6 1)
  && !mget false s.fl.fwRevoked (mapField m 6 1)
  && recordSigned (mapBytes m 0 192) (mapBytes m 64 64) (mapBytes m 192 64)
  && mapField m 32 32 == shaField (mapBytes m 256 (mapField m 24 8))
  && decide (s.fl.svn ≤ mapField m 8 1) && decide (mapField m 8 1 ≤ 64)

/-- ROM (R263, R265): the bank named in FW_PREF first, then the other; with neither, RECOVERY, in which no rail beyond the
hubs' is enabled. -/
def execRom (s : State) : Host.Outcome State Fault Refusal :=
  .next (keepRegs s (
    if !(s.pw.powered && s.bt.stage == 1) then s
    else
      let ok := bankOk s
      let take := fun (x : Bool) =>
        let m := bankOf s x
        enterStage 2 (flushLogs { s with bt := { s.bt with
          bank := x, altOk := ok (!x), keyIdx := mapField m 6 1, imageSvn := mapField m 8 1, commitSvn := mapField m 7 1 % 2 == 1, stage := 2 } })
      if ok s.fl.fwPref then take s.fl.fwPref
      else if ok (!s.fl.fwPref) then take (!s.fl.fwPref)
      else { s with bt := { s.bt with stage := 10 }, pw := { s.pw with rails := false } }))

/-! ### The identity chain (R300) -/

/-- Bytes of a certificate that no rule gives: what it certifies decides them. -/
def certOpen (what subject n : Nat) : List Byte := (upto n).map (Config.certByte what subject)

/-- A certificate of the chain: 0 Worind's root, 1 the intermediate, 2 the device's, which names the identity public key,
x then y with the most significant byte first as X.509 has it (PRESUMED), and MODULE_ID; at most 4 KiB. -/
def certificate (s : State) (i : Nat) : List Byte :=
  if i < 2 then certOpen i 0 (Config.certLen i % 4097)
  else
    let key := s.fl.idPub.toNat
    certOpen 2 key (Config.certLen 2 % 1342) ++ (leBytes 32 (key % 2 ^ 256)).reverse ++ (leBytes 32 (key / 2 ^ 256)).reverse
    ++ certOpen 3 key (Config.certLen 3 % 1342) ++ leBytes 8 (moduleId s).toNat ++ certOpen 4 key (Config.certLen 4 % 1342)

/-- The chain of slot 0. -/
def certChain (s : State) : List Byte := certificate s 0 ++ certificate s 1 ++ certificate s 2

/-- Code of a licence under R272's checks in their order; 0 is VALID. -/
def licenceCode (s : State) (m : NMap Byte) : Nat :=
  let g := mapField m 48 1
  if mapField m 0 4 ≠ 0x51584C33 ∨ mapField m 4 2 ≠ 1 ∨ mapField m 7 1 ≠ 0 ∨ 4 ≤ mapField m 54 1 ∨ mapField m 55 1 ≠ 0 ∨ mapField m 160 32 ≠ 0 then 2
  else if 4 ≤ mapField m 6 1 ∨ BitVec.ofNat 256 (shaField (mapBytes m 96 64)) ≠ mget 0 s.fl.licKeys (mapField m 6 1)
    ∨ mget false s.fl.licRevoked (mapField m 6 1) then 3
  else if !recordSigned (mapBytes m 0 192) (mapBytes m 96 64) (mapBytes m 192 64) then 4
  else if mapField m 8 8 ≠ (moduleId s).toNat ∨ mapField m 16 32 ≠ s.fl.idKeyHash.toNat then 5
  else if g = 0 ∨ 3 < g ∨ mapField m 49 1 ≠ gradePartMax g ∨ mapField m 50 2 ≠ gradePorts g ∨ mapField m 52 2 ≠ gradeAxes g
    ∨ mapField m 54 1 ≠ gradeFlags g then 6
  else if s.fl.ceiling ≠ 1 ∧ s.fl.ceiling ≠ g then 7
  else 0

/-- LICENCE (R272, R275): a valid licence sets the grade's enables. -/
def execLicence (s : State) : Host.Outcome State Fault Refusal :=
  .next (keepRegs s (
    if !(s.pw.powered && s.bt.stage == 2) then s
    else
      let code := if s.fl.licHeld then licenceCode s s.fl.licence else 1
      let g := mapField s.fl.licence 48 1
      enterStage 3 { s with bt := { s.bt with
        licCode := code, licGrade := if s.fl.licHeld then g else 0, grade := if code = 0 then g else 0
        licInForce := if code = 0 then s.fl.licence else [] } }))

/-- FABRIC (R261, R264): clocks, UCIe links, routers and the observation ring start, and the Drone loads
the other processors; those on HB stand by. -/
def execFabric (s : State) : Host.Outcome State Fault Refusal :=
  .next (keepRegs s (
    if s.pw.powered && s.bt.stage == 3 then
      enterStage 4 (setProc 2 { getProc s 2 with state := 2 } (setProc 3 { getProc s 3 with state := 2 } s))
    else s))

/-! ### MEMORY to TOPOLOGY -/

/-- Rows under hard repair once MEMORY has repaired those that flash recorded (R83). -/
def hardRowsOf (s : State) (r : MemReport) : List (Nat × Nat × Nat × Nat) :=
  (s.fl.rowsRepaired ++ s.fl.rowsToRepair).foldl (fun l (w, c, x) =>
    let e := (w, c, x / 2 ^ 24, x % 2 ^ 24)
    if l.contains e then l else l ++ [e]) r.hardRows

/-- MEMORY (R261): training, hard repair and self-tests. Without a valid licence bring-up ends here (R275). -/
def execMemory (r : MemReport) (s : State) : Host.Outcome State Fault Refusal :=
  .next (keepRegs s (
    if !(s.pw.powered && s.bt.stage == 4) then s
    else
      let rows := hardRowsOf s r
      let mem := r.swapped.foldl (fun m (w, c) => { m with spareUsed := mset false m.spareUsed w true, spareFor := mset 0 m.spareFor w c })
        { s.mem with pprHard := (upto 16).foldl (fun m w => mset 0 m w (rows.filter (fun x => x.1 == w)).length) s.mem.pprHard }
      let s1 := { s with
        mem := mem
        fl := { s.fl with hbmTrained := true, rowsRepaired := s.fl.rowsRepaired ++ s.fl.rowsToRepair, rowsToRepair := [] }
        bt := { s.bt with memShort := !r.shortStacks.isEmpty || r.sramShort, coreMemBad := r.badCoreMem, hardRows := rows, chestRows := r.chestRows } }
      if licenceValid s1 then enterStage 5 s1 else failBring 2 2 s1))

/-- LINKS (R186): every port that the grade enables leaves OFF, those of an axis apart that an extract has set to size 1.
The stage ends when the last of them is UP or FAILED. -/
def execLinks (s : State) : Host.Outcome State Fault Refusal :=
  .next (keepRegs s (
    if s.pw.powered && s.bt.stage == 5 then
      endLinks <| (upto 12).foldl (fun t n => if portEnabled t n && !axisOff t n && (getPort t n).state == 0 then modPort n (fun p => { p with state := 1 }) t else t) s
    else s))

/-- COMPUTE (R261, R267, R269, R276). -/
def execCompute (r : ComputeReport) (s : State) : Host.Outcome State Fault Refusal :=
  .next (keepRegs s (
    if s.pw.powered && s.bt.stage == 6 && !s.fr.resets.any (fun x => x.dom == .chip) then
      let (s1, why) := computeWork true r s
      if why = 0 then enterStage 7 s1 else failBring 6 why s1
    else s))

/-- TOPOLOGY (R278): the held extract comes into force, every port is checked, and Ready may follow. -/
def execTopology (s : State) : Host.Outcome State Fault Refusal :=
  .next (keepRegs s (
    if s.pw.powered && s.bt.stage == 7 && s.bt.computeDone && droneUp s then
      match s.bt.held with
      | some e => forceExtract 2 e s
      | none => if s.bt.inForce.isSome then checkReady 2 (judgeAll s) else s
    else s))

/-- STAGE_TIMEOUT (R261): the stage that runs exceeds its limit. TOPOLOGY's limit counts only once an
extract is held. -/
def execStageTimeout (s : State) : Host.Outcome State Fault Refusal :=
  .next (keepRegs s (
    if s.pw.powered && (decide (s.bt.stage ≤ 6) || (s.bt.stage == 7 && s.bt.held.isSome)) then
      failBring s.bt.stage 1 { s with bt := { s.bt with memShort := s.bt.memShort || decide (s.bt.stage ≤ 4) } }
    else s))

/-! ### Messages of the fabric manager and the tray (R204, R222, R274, R277) -/

/-- MANIFEST_EXTRACT (R277, R279): taken in once FABRIC has ended; held until the check can run. The extract in force, sent
again, is accepted without effect. -/
def execManifestExtract (bytes : List Byte) (s : State) : Host.Outcome State Fault Refusal :=
  .next (keepRegs s (
    if !sidebandUp s then s
    else
      let e := parseExtract bytes
      let why := extractReason s bytes
      if why = 4 ∧ s.bt.inForce = some e then s
      else if why ≠ 0 then
        droneLog 2 0x0602 why e.generation.toNat { s with bt := { s.bt with mreason := why } }
      else
        let s1 := takeExtract e s
        if s1.bt.computeDone && s1.bt.stage != 9 then forceExtract 1 e s1 else { s1 with bt := { s1.bt with held := some e } }))

/-- COLL_LINE_SET (R222): a change aborts the axis's open collectives with ABORTED_PEER_DOWN. -/
def execCollLineSet (axis : BitVec 2) (val : W32) (s : State) : Host.Outcome State Fault Refusal :=
  .next (keepRegs s (
    let v := val &&& 0x80007F7F#32
    if !sidebandUp s || mget 0 s.rx.line axis.toNat == v then s
    else
      rxEach (fun x => bfld x.desc 1 2 == axis.toNat) lineSlot
        { s with rx := { s.rx with line := mset 0 s.rx.line axis.toNat v } }))

/-- ROUTE_EXC_WRITE (R204): one entry, atomically; its reserved bits are dropped and read 0 (R7). -/
def execRouteExcWrite (e : BitVec 12) (entry : W64) (s : State) : Host.Outcome State Fault Refusal :=
  .next (onlyPort s (
    if sidebandUp s then { s with et := { s.et with route := mset 0 s.et.route e.toNat (entry &&& 0x800007FFFFFFFFFF#64) } } else s))

/-- Stores a licence or refuses it (R274): the LIC_STATUS code of the refusal, or none. -/
def installLicence (m : NMap Byte) (s : State) : Option Nat × State :=
  let code := licenceCode s m
  let serial := mapField m 56 8
  if code = 0 ∧ (!s.fl.licHeld ∨ mapField s.fl.licence 56 8 < serial) then
    (none, { s with fl := { s.fl with licHeld := true, licence := m } })
  else (some code, droneLog 2 0x0601 code serial s)

/-- SB_LICENCE_INSTALL (R274, R298). -/
def execSbLicenceInstall (bytes : List Byte) (s : State) : Host.Outcome State Fault Refusal :=
  .next (onlySideband s (
    if sidebandUp s then
      let (why, s1) := installLicence (putBytes 0 bytes []) s
      emit (.reply 3 3 (b01 why.isSome) []) s1
    else s))

end Sys2Proof.Machine
end

