-- ==== Sys2Proof/Machine/GraphOps.lean ====
section
/-! DEFINITION. The graph pool as shared operations: versions, pages, what refers to them (R251, R252). -/

namespace Sys2Proof.Machine

def getGraph (s : State) (g : Nat) : Graph := mget {} s.fe.graphs g
def setGraph (g : Nat) (v : Graph) (s : State) : State := { s with fe := { s.fe with graphs := mset {} s.fe.graphs g v } }

/-- A fetched LAUNCH has bound this version. -/
def bindsVersion (g ver : Nat) (e : Entry) : Bool :=
  cmdOp e.cmd == 0x14 && fld (cmdArg e.cmd 0) 0 12 == g && (match e.bound with | some (v, _) => v == ver | none => false)

/-- Some launch, running or fetched, has bound this version. -/
def versionBound (s : State) (g ver : Nat) : Bool :=
  s.fe.queues.any (fun e => e.2.frames.any (fun f => f.graph == some (g, ver)) || (e.2.cur.toList ++ e.2.back).any (bindsVersion g ver))

/-- Frees every version that neither a current pointer nor a bound launch refers to. -/
def freeVersions (s : State) : State :=
  s.fe.graphs.foldl (fun t e =>
    let v := getGraph t e.1
    let keep := v.versions.filter (fun x => v.current == some x.1 || versionBound t e.1 x.1)
    let v' := if keep.isEmpty && !v.stored then {} else { v with versions := keep, lengths := v.lengths.filter (fun x => keep.any (fun y => y.1 == x.1)) }
    setGraph e.1 v' t) s

/-- Pages of the pool in use. -/
def usedPages (s : State) : List Nat := (s.fe.graphs.flatMap (fun e => e.2.versions.flatMap Prod.snd)).dedup

/-- Pages of the pool. -/
def poolPages (s : State) : Nat := s.fe.graphSize.toNat * 512

/-- `n` free pages, the lowest first; none where the pool has too few. -/
def allocPages (s : State) (n : Nat) : Option (List Nat) :=
  let used := usedPages s
  if poolPages s < used.length + n then none
  else some (((upto (used.length + n)).filter (fun p => !used.contains p)).take n)

/-- Home address of a pool page's byte. -/
def pageLoc (s : State) (page off : Nat) : Option Nat := homeOf (partCount s) (s.fe.graphBase.toNat + 4096 * page + off)

/-- Writes 64 bytes of a pool page. -/
def pageWrite (page slot : Nat) (bs : List Byte) (s : State) : State :=
  match pageLoc s page (64 * slot) with
  | some h => storeAt causeEngine h bs s
  | none => s

/-- Copies a pool page to another, with its poison. -/
def pageCopy (src dst : Nat) (s : State) : State :=
  (upto 64).foldl (fun t i =>
    match pageLoc t src (64 * i), pageLoc t dst (64 * i) with
    | some a, some b =>
      let t0 := readLoc a t
      let t1 := storeAt causeEngine b (memBytes t0.mem a 64) t0
      { t1 with mem := setPoison (b / 64) (poisoned t0.mem (a / 64)) t1.mem }
    | _, _ => t) s

/-- Writes commands of a graph from index `i` on into its pages. -/
def writeCommands (pages : List Nat) : Nat → List Byte → Nat → State → State
  | 0, _, _, s => s
  | n + 1, bs, i, s => writeCommands pages n (bs.drop 64) (i + 1) (pageWrite (pages.getD (i / 64) 0) (i % 64) (bs.take 64) s)

end Sys2Proof.Machine
end

