-- ==== Sys2Proof/Machine/ResetRun.lean ====
section
/-! DEFINITION. Resets that run: beginning them, how they meet, their end and their escalation
(R305 to R313, R326, R327). -/

namespace Sys2Proof.Machine

/-! ### RESET_STATUS -/

/-- The running RESET_REQ has completed. -/
def reqDone (s : State) : State :=
  { s with fr := { s.fr with rsState := 2, rsTime := Config.duration s.free % 2 ^ 32 }, free := s.free + 1 }

/-- A RESET_REQ escalated. -/
def reqEscalated (s : State) : State := { s with fr := { s.fr with rsState := 4 } }

/-- The request is one of RESET_REQ. -/
def fromHost : HeldReset → Bool
  | .req _ (.host _ _) => true
  | _ => false

/-- Some RESET_REQ is running, or is held by a stop. -/
def reqRuns (s : State) : Bool := s.fr.resets.any (·.byReq) || s.ob.dumpByReq || s.fr.heldResets.any fromHost

/-! ### Domains (R307, Table 15-4) -/

def resetRuns (s : State) (d : Domain) : Bool := s.fr.resets.any (fun r => r.dom == d)

/-- The domain `d` lies within the larger domain `big`. -/
def inDomain (s : State) (d big : Domain) : Bool :=
  match big, d with
  | .chip, .context _ => true
  | .chip, .engine k _ => decide (k ≤ kAX)
  | .chip, .core _ => true
  | .chip, .partition _ => true
  | .partition p, .context c => (getCtx s c).part == p
  | .partition p, .engine k i => decide (k ≤ kAX) && engPart s k i == p
  | .partition p, .core c => corePart (partCount s) c == p
  | .core c, .engine k i => decide (k ≤ kDM) && i == c
  | .wcIsland w, .engine k i => (k == kRX || k == kUX) && i == w
  | _, _ => false

/-- A running reset whose domain contains `d`. -/
def containing (s : State) (d : Domain) : Option RunReset := s.fr.resets.find? (fun r => inDomain s d r.dom)

/-- A request joins the running reset of domain `d`. -/
def joinReq (d : Domain) (byReq : Bool) (s : State) : State :=
  { s with fr := { s.fr with resets := s.fr.resets.map (fun r => if r.dom = d then { r with byReq := r.byReq || byReq } else r) } }

def addReset (r : RunReset) (s : State) : State := { s with fr := { s.fr with resets := s.fr.resets ++ [r] } }
def dropReset (d : Domain) (s : State) : State := { s with fr := { s.fr with resets := s.fr.resets.filter (fun r => r.dom != d) } }

/-- Begins a reset of domain `d` with its work, unless one that contains it runs already. -/
def beginReset (d : Domain) (st : Nat) (byReq : Bool) (work : State → State) (s : State) : State :=
  if resetRuns s d then joinReq d byReq s
  else match containing s d with
    | some r => joinReq r.dom byReq s
    | none => addReset { dom := d, status := st, byReq := byReq } (work s)

/-! ### Beginning resets -/

/-- An engine reset (R309), counted toward a substitution (R326). -/
def beginEngine (kind index : Nat) (byReq : Bool) (s : State) : State :=
  beginReset (.engine kind index) stEngReset byReq (fun t =>
    let k := engKey kind index
    let t1 := endEngine kind index stEngReset (edgeWriteback (fun x => x == k) t)
    setEng k { getEng t1 k with resets := (getEng t1 k).resets + 1 } t1) s

/-- A core reset (R305). -/
def beginCore (c : Nat) (s : State) : State := beginReset (.core c) stEngReset false (coreReset c) s

/-- A reset of a windchest engine island: RX and UX end with 0x31 and are in quarantine against a new
WC_EPOCH (R305, R325), once their caches' modified lines are dealt with (R316). -/
def beginWcIsland (w : Nat) (s : State) : State :=
  beginReset (.wcIsland w) stEngReset false (fun t =>
    let t0 := edgeWriteback (fun k => k == engKey kRX w || k == engKey kUX w) t
    let t1 := clearIsland kRX w (endEngine kUX w stEngReset (endEngine kRX w stEngReset t0))
    { t1 with fr := { t1.fr with wcQuar := mset false t1.fr.wcQuar w true
                                 wcEpoch := mset 0 t1.fr.wcEpoch w ((mget 0 t1.fr.wcEpoch w + 1) % 2 ^ 32) } }) s

/-- A partition reset, with or without hold (R310, R313). -/
def beginPartition (p : Nat) (hold byReq : Bool) (s : State) : State :=
  let s1 := beginReset (.partition p) stPartReset byReq (partitionEnd p) s
  { s1 with fr := { s1.fr with resets := s1.fr.resets.map (fun r => if r.dom = .partition p then { r with hold := r.hold || hold } else r) } }

/-- The count a chip reset puts into force: COUNT_REQ where the grade allows it (R18). -/
def sampledCount (s : State) : BitVec 2 := if s.fe.countReq.toNat ≤ gradePartMax s.bt.grade then s.fe.countReq else s.fe.countAct

/-- What a dump's header records of its start (R329, Table 15-13). -/
def dumpBegin (s : State) : State :=
  let s1 := tick 0xA98 s
  { s1 with ob := { s1.ob with dumpBegun := true, dumpFault := BitVec.ofNat 64 s1.fr.faultCount - 1, dumpCycle := cycOf s1 0xA98 } }

/-- A stop ends (R346): the islands unfreeze and go on as they stood. A dump that waited for the stop begins. -/
def endStop (timedOut : Bool) (s : State) : State :=
  if s.ob.stopState = 0 then s
  else
    let s1 := { s with ob := { s.ob with stopState := 0, frozen := [], timedOut := s.ob.timedOut || timedOut } }
    if s1.ob.dumpState = 1 ∧ !s1.ob.dumpBegun then dumpBegin s1 else s1

/-- A stop wave starts (R343). -/
def startStop (s : State) : State :=
  { s with ob := { s.ob with stopState := 1, stopPending := false, frozen := [], timedOut := false, spread := 0, stopCount := s.ob.stopCount + 1 } }

/-- A stop is asked for: it waits while a reset runs, and is ignored while STATE is not RUNNING (R343). -/
def askStop (s : State) : State :=
  if s.ob.stopState ≠ 0 then s
  else if s.fr.resets.isEmpty then startStop s
  else { s with ob := { s.ob with stopPending := true } }

/-- A stop that waited for a reset starts once none runs. -/
def pendingStop (s : State) : State := if s.ob.stopPending && s.fr.resets.isEmpty then startStop s else s

/-- Bring-up has reached COMPUTE, so that a chip reset repeats that stage's work; before it, bring-up goes on where it
stands (R261, R311). DEDUCED: no rule tells of a chip reset during the earlier stages. -/
def computeReached (s : State) : Bool := (decide (6 ≤ s.bt.stage) && decide (s.bt.stage ≤ 8)) || (s.bt.stage == 9 && decide (6 ≤ s.bt.failStage))

/-- A chip reset starts (R311): READY clears, every partition's compute work ends, PART_CFG is sampled, and
when the count changes the fabric work of every context ends as well. A count that the grade does not allow is refused and
recorded (R3, R18). It ends the stop of a dump before it (R346). -/
def chipStart (byReq : Bool) (s : State) : State :=
  let s1 := clearReady 0 (endStop false s)
  let s2 := startClocks (if computeReached s1 then
      { s1 with bt := { s1.bt with stage := 6, failStage := 0, failReason := 0, personalityOk := false, computeDone := false } }
    else s1)
  let s3 := (upto (partCount s2)).foldl (fun t p => partitionEnd p t) s2
  let cnt := sampledCount s3
  let change := cnt != s3.fe.countAct
  let s4 := if change then
      (upto 256).foldl (fun t c => if (getCtx t c).state = ctxFree then t else endCtxWork c stPartReset true t) s3 else s3
  let refused := cnt != s4.fe.countReq
  let s5 := { s4 with fe := { s4.fe with partRefused := refused } }
  let s6 := if refused then droneLog 2 0x0003 s5.fe.countReq.toNat s5.fe.countAct.toNat s5 else s5
  addReset { dom := .chip, status := stPartReset, fabric := change, byReq := byReq, count := cnt }
    { s6 with fr := { s6.fr with heldParts := [] } }

/-- The dump engine starts (R329); with STOP a stop wave precedes it. -/
def dumpStart (trigger : Nat) (stop : Bool) (s : State) : State :=
  let s1 := { s with ob := { s.ob with dumpState := 1, dumpTrigger := trigger, dumpStop := stop, dumpBegun := false } }
  if !stop then dumpBegin s1
  else
    let s2 := askStop s1
    if s2.ob.stopState = 2 then dumpBegin s2 else s2

/-- The registers of the ring allow a dump before this action. -/
def dumpWanted (s : State) (bit : Nat) : Bool := s.fr.escCfg.getLsbD bit && s.ob.dumpSize != 0 && s.ob.dumpState != 1

/-- A chip reset is asked for: a dump may come first, and it waits for a dump that runs (R329). One that a
fault begins ends every hold (R311). -/
def beginChip (byReq fault : Bool) (s : State) : State :=
  if resetRuns s .chip then joinReq .chip byReq s
  else if s.ob.dumpFor = 2 then { s with ob := { s.ob with dumpByReq := s.ob.dumpByReq || byReq } }
  else
    let s0 := if fault then { s with fr := { s.fr with heldParts := [] } } else s
    let s1 := if dumpWanted s0 1 then dumpStart 2 false s0 else s0
    if s1.ob.dumpState = 1 then { s1 with ob := { s1.ob with dumpFor := 2, dumpWaits := true, dumpByReq := byReq } }
    else chipStart byReq s1

/-- The notice of level 6 that asks the tray controller for a power cycle (R306, R312). -/
def powerNotice (s : State) : State := faultNotice none (droneIsland s) 0 6 s

/-- A power-cycle request: a dump may come first (R329). -/
def beginPowerCycle (byReq : Bool) (s : State) : State :=
  if dumpWanted s 2 then
    let s1 := dumpStart 3 false s
    { s1 with ob := { s1.ob with dumpFor := 3, dumpByReq := byReq } }
  else
    let s1 := powerNotice s
    if byReq then reqDone s1 else s1

/-! ### The end of a reset -/

/-- Frees a context: its queues, graphs and bindings go with it. -/
def freeCtx (c : Nat) (s : State) : State :=
  let s1 := dropQueues c (keepXlat c s)
  { s1 with fe := { s1.fe with
      ctxs := mset {} s1.fe.ctxs c {}
      graphs := s1.fe.graphs.filter (fun e => e.2.owner != c)
      binds := mdrop (fun k => mget 0 s1.fe.binds k == c + 1) s1.fe.binds } }

/-- Step 5 of a context reset (R308): the context returns to the state it had before. -/
def returnCtx (c : Nat) (s : State) : State :=
  let x := getCtx s c
  if x.state ≠ ctxResetting then s
  else enterState c (if x.prior = ctxSinkLost ∧ !anySinkBad s c then ctxActive else x.prior) s

/-- A context's reset ends: every ended command has completed, and what was to follow does. -/
def completeCtx (c : Nat) (s : State) : State :=
  let r := s.fr.resets.find? (fun x => x.dom == .context c)
  let qs := queuesWhere s (fun _ v => v.ctx == c)
  let s1 := qs.foldl (fun t q => publishAll q t) (dropReset (.context c) s)
  let s2 := returnCtx c s1
  match r with
  | some x =>
    let s3 := if x.thenFree then freeCtx c s2 else if x.thenDestroy then dropQueues c s2 else s2
    let s4 := match x.ctl with
      | some f => ctlEnd f stDone 0 0 0 0 s3
      | none => s3
    if x.thenFree || x.thenDestroy then s4 else qs.foldl (fun t q => fetchQ q t) s4
  | none => qs.foldl (fun t q => fetchQ q t) s2

/-- Publishes the ended commands of an engine's queues. -/
def publishEngine (kind index : Nat) (s : State) : State :=
  let on := fun (t : Nat) => qKind t == kind && qIndex t == index
  (queuesWhere s (fun q v => on q || v.inflight.any (fun f => on f.target))).foldl (fun t q => publishAll q t) s

/-- The smaller resets within a domain complete with it (R307). -/
def endWithin (d : Domain) (s : State) : State :=
  let rs := s.fr.resets.filter (fun r => inDomain s r.dom d)
  let s1 := rs.foldl (fun t r =>
    match r.dom with
    | .context c => completeCtx c t
    | .engine k i => publishEngine k i (dropReset r.dom t)
    | _ => dropReset r.dom t) s
  if rs.any (·.byReq) then reqDone s1 else s1

/-- The sites of a partition are loaded and stamped, fenced ones and those of a sequencer that is down apart (R313, R324,
Table 14-2). -/
def stampPart (p : Nat) (s : State) : State :=
  let q := mdrop (fun c => corePart (partCount s) c == p && !mget false s.fr.fence c && procUp s (4 + c / 64)) s.fr.quar
  { s with fr := { s.fr with quar := q } }

/-- Contexts of a partition. -/
def partCtxs (s : State) (p : Nat) : List Nat :=
  (s.fe.ctxs.map Prod.fst).filter (fun c => (getCtx s c).state != ctxFree && (getCtx s c).part == p)

/-- A partition returns to service. -/
def releasePart (p : Nat) (s : State) : State :=
  let s1 := endWithin (.partition p) (dropReset (.partition p) (stampPart p s))
  (partCtxs s1 p).foldl (fun t c => completeCtx c t) s1

/-- A chip reset ends (R311): COMPUTE's repeated work, the sampled count, the HDM check, the contexts, the topology check
with a held extract (R279), and Ready where every condition holds. -/
def completeChip (r : RunReset) (rep : ComputeReport) (s : State) : State :=
  let again := computeReached s
  let reload := fun (e : Nat × Proc) => if 4 ≤ e.1 ∧ e.1 < 36 ∧ e.2.state = 3 then (e.1, { e.2 with state := 0 }) else e
  let s0 := endWithin .chip (dropReset .chip { s with fw := { s.fw with procs := s.fw.procs.map reload } })
  let (s1, why) := if again then computeWork (!s.bt.mapBuilt) rep s0 else (s0, 0)
  let cs := (s1.fe.ctxs.map Prod.fst).filter (fun c => (getCtx s1 c).state != ctxFree)
  let s2 := cs.foldl (fun t c => if r.fabric then freeCtx c (completeCtx c t) else completeCtx c t) s1
  let s3 := checkHdm { s2 with
    fe := { s2.fe with countAct := r.count }
    bt := { s2.bt with cfgInForce := configCode { s2 with fe := { s2.fe with countAct := r.count } } } }
  if !again then s3
  else if why ≠ 0 then failBring 6 why s3
  else
    let s4 := enterStage 7 s3
    match s4.bt.held with
    | some e => if droneUp s4 then forceExtract 0 e s4 else s4
    | none => checkReady 0 (judgeAll s4)

/-! ### Escalation (R306) -/

/-- Engines that hold a queue context of a context. -/
def engsOf (s : State) (c : Nat) (fabric : Bool) : List (Nat × Nat) :=
  (qcsWhere s (fun k qc => qc.ctx == c && (fabric || decide (qKind k ≤ kAX)))).foldl (fun l k =>
    if l.contains (qKind k, qIndex k) then l else l ++ [(qKind k, qIndex k)]) []

/-- The step a reset escalates to when it misses its time. -/
def escalate (r : RunReset) (s : State) : State :=
  match r.dom with
  | .context c => (engsOf s c r.fabric).foldl (fun t e => beginEngine e.1 e.2 false t) s
  | .engine k i =>
    if k ≤ kDM then beginCore i s
    else if k = kAX then beginPartition i false false s
    else beginWcIsland i s
  | .core c => beginPartition (corePart (partCount s) c) false false s
  | .partition _ => beginChip false true s
  | .chip => beginPowerCycle false s
  | .wcIsland _ => beginPowerCycle false s

end Sys2Proof.Machine
end

