-- ==== Sys2Proof/Machine/Control.lean ====
section
/-! DEFINITION. The control commands of the admin rings (R240, R241, R251, R254, R255, R259, R260,
Table 12-15). -/

namespace Sys2Proof.Machine

/-! ### Checks -/

/-- The function's executed admin command, when it has this opcode and has not ended. -/
def adminCmd (s : State) (f : Bool) (op : Nat) : Option Entry :=
  match (getFn s f).adminBusy with
  | some b => if adminOn s f && b.result.isNone && cmdOp b.entry.cmd == op then some b.entry else none
  | none => none

/-- Reason CONTROL: bytes 0–7 of the command and its ARG0 (R370, R373). -/
def ctlIllegal (f : Bool) (e : Entry) (s : State) : State := ctlEnd f stIllegal cIllegal rControl (bfld e.cmd 0 64) (cmdArg e.cmd 0) s

/-- DESCRIPTOR_INVALID with the failing record's address. -/
def ctlDescriptor (f : Bool) (addr : Nat) (s : State) : State := ctlEnd f stDescriptor cDescriptor 0 addr 6 s

/-- ENGINE_ABSENT. -/
def ctlAbsent (f : Bool) (e : Entry) (s : State) : State := ctlEnd f stAbsent cAbsent 0 (bfld e.cmd 0 64) (cmdArg e.cmd 0) s

/-- SINK_LOST: the spec gives this status no class and no arguments, which are free values. -/
def ctlSinkLost (f : Bool) (s : State) : State :=
  let n := s.free
  ctlEnd f stSinkLost (1 + Config.openCount n % 12) 0 (Config.openWord (2 ^ 46 + n)).toNat (Config.openWord (2 ^ 46 + n + 1)).toNat
    { s with free := n + 2 }

/-- A read of host memory that the host aborts: TRANSLATION_FAULT, reason HOST_ABORT, of a read (R91). -/
def ctlAbort (f : Bool) (addr : Nat) (s : State) : State := ctlEnd f stXlat cTranslation 7 addr accRead s

/-- The function may act on the context: it is not FREE, and it owns it. -/
def ownsCtx (s : State) (f : Bool) (c : Nat) : Bool := (getCtx s c).state != ctxFree && (getCtx s c).owner == f

/-- The function may act on the queue. -/
def ownsQueue (s : State) (f : Bool) (q : Nat) : Bool := (getQ s q).live && (getQ s q).owner == f && !(getQ s q).destroying

/-- The context is in SINK_LOST (R254). -/
def inSinkLost (s : State) (c : Nat) : Bool := (getCtx s c).state == ctxSinkLost

/-! ### Contexts -/

/-- CTX_CREATE (R240). -/
def execCtxCreate (f : Bool) (s : State) : Host.Outcome State Fault Refusal :=
  .next (onlyWork s (
    match adminCmd s f 0x20 with
    | none => s
    | some e =>
      let a0 := cmdArg e.cmd 0
      let c := fld a0 0 8
      let p := fld a0 8 3
      let pa := ctxEntryPa s c
      if 2 ^ 11 ≤ a0 ∨ cmdArg e.cmd 2 ≠ 0 ∨ partCount s ≤ p ∨ (getCtx s c).state ≠ ctxFree then ctlIllegal f e s
      else match homeOf (partCount s) pa with
        | none => ctlDescriptor f pa s
        | some h =>
          let s := readLoc h s
          let ent := memNat s.mem h 16
          if poisoned s.mem (h / 64) then ctlEnd f stPoison cPoison 0 (h / 64 * 64) 0 s
          else if fld ent 0 1 = 0 ∨ fld ent 2 10 ≠ 0 ∨ fld ent 48 16 ≠ 0 ∨ fld ent 84 44 ≠ 0 then ctlDescriptor f pa s
          else
            let x : Ctx := { state := ctxActive, owner := f, part := p, seed := BitVec.ofNat 64 (cmdArg e.cmd 1) }
            let s1 := enterState c ctxActive (setCtx c x s)
            ctlEnd f stDone 0 0 0 0 (if partInReset s p then setCtx c { x with state := ctxResetting, prior := ctxActive } s1 else s1)))

/-- The context reset that a control command asks for: it ends when the reset does. -/
def ctlReset (f : Bool) (c : Nat) (fabric free : Bool) (s : State) : State :=
  markReset c (fun r => { r with thenFree := r.thenFree || free, ctl := some f }) (ctxReset c stCtxReset fabric s)

/-- CTX_DESTROY (R254, R308). -/
def execCtxDestroy (f : Bool) (s : State) : Host.Outcome State Fault Refusal :=
  .next (onlyWork s (
    match adminCmd s f 0x21 with
    | none => s
    | some e =>
      let c := cmdArg e.cmd 0
      if 256 ≤ c ∨ cmdArg e.cmd 1 ≠ 0 ∨ cmdArg e.cmd 2 ≠ 0 ∨ !ownsCtx s f c then ctlIllegal f e s
      else ctlReset f c true true s))

/-- CTX_RESET (R308): ARG1 bit 0 also ends the context's RX and UX work. -/
def execCtxReset (f : Bool) (s : State) : Host.Outcome State Fault Refusal :=
  .next (onlyWork s (
    match adminCmd s f 0x22 with
    | none => s
    | some e =>
      let c := cmdArg e.cmd 0
      if 256 ≤ c ∨ 1 < cmdArg e.cmd 1 ∨ cmdArg e.cmd 2 ≠ 0 ∨ !ownsCtx s f c then ctlIllegal f e s
      else ctlReset f c (cmdArg e.cmd 1 == 1) false s))

/-- CTX_RESUME (R260). -/
def execCtxResume (f : Bool) (s : State) : Host.Outcome State Fault Refusal :=
  .next (onlyWork s (
    match adminCmd s f 0x23 with
    | none => s
    | some e =>
      let c := cmdArg e.cmd 0
      if 256 ≤ c ∨ cmdArg e.cmd 1 ≠ 0 ∨ cmdArg e.cmd 2 ≠ 0 ∨ !ownsCtx s f c then ctlIllegal f e s
      else if inSinkLost s c then ctlSinkLost f s
      else if (getCtx s c).state ≠ ctxQuiesced ∨ (getFn s f).negAgreed = 0 ∨ anySinkBad s c then ctlIllegal f e s
      else ctlEnd f stDone 0 0 0 0 (resumeQueues c (enterState c ctxActive s))))

/-! ### Queues -/

/-- A queue record's reserved bits, sizes, alignments and identifier are sound (Table 12-12). -/
def recordOk (r : W512) : Bool :=
  bfld r 39 25 == 0 && bfld r 121 7 == 0 && bfld r 185 7 == 0 && bfld r 249 7 == 0 && bfld r 313 7 == 0 && bfld r 376 136 == 0
  && decide (6 ≤ bfld r 28 5) && decide (bfld r 28 5 ≤ 20) && decide (6 ≤ bfld r 33 5) && decide (bfld r 33 5 ≤ 20)
  && bfld r 64 57 % 64 == 0 && bfld r 128 57 % 8 == 0 && bfld r 192 57 % 8 == 0 && bfld r 256 57 % 64 == 0
  && bfld r 17 3 != 5 && bfld r 17 3 != 6 && (bfld r 17 3 != 7 || decide (bfld r 6 11 < 64))

/-- The kind of a direct queue's engine exists in no module of the grade (R4). -/
def kindAbsent (s : State) (q : Nat) : Bool := qKind q == kUX && fld (gradeEngines s.bt.grade) 4 1 == 0

/-- The queue may exist: the partition's front-end mode, the engine and its partition, a free QID (R240,
R241, R248, R249, R289). -/
def queueAllowed (s : State) (f : Bool) (q c : Nat) : Bool :=
  let p := (getCtx s c).part
  let tiered := s.fe.mode.getLsbD p
  !(getQ s q).live
  && (if qKind q = 7 then tiered && agreed s f 16
      else !tiered && engExists s (qKind q) (qIndex q) && engPart s (qKind q) (qIndex q) == p)

/-- The queue of a record, IDLE; a direct queue's engine queue context is new (R104, R247). -/
def makeQueue (f : Bool) (r : W512) (s : State) : State :=
  let q := bfld r 0 20
  let c := bfld r 20 8
  let seq0 : BitVec 56 := BitVec.ofNat 56 (bfld r 320 56)
  let v : Queue := { live := true, owner := f, ctx := c, ringLog2 := bfld r 28 5, cqLog2 := bfld r 33 5, watch := r.getLsbD 38
                     ring := BitVec.ofNat 64 (bfld r 64 57), piAddr := BitVec.ofNat 64 (bfld r 128 57)
                     ciAddr := BitVec.ofNat 64 (bfld r 192 57), cq := BitVec.ofNat 64 (bfld r 256 57)
                     state := qIdle, nextSeq := seq0, polled := isPolled s f c (bfld r 128 57) (r.getLsbD 38) }
  let s1 := setQ q { v with watchLine := indexLine (setQ q v s) q } s
  if qKind q = 7 then s1 else setQc q { live := true, ctx := c, seq := seq0, nextSeq := seq0 } s1

/-- Q_CREATE (R241, R254). -/
def execQCreate (f : Bool) (s : State) : Host.Outcome State Fault Refusal :=
  .next (onlyWork s (
    match adminCmd s f 0x24 with
    | none => s
    | some e =>
      let a := cmdArg e.cmd 0
      if cmdArg e.cmd 1 ≠ 0 ∨ cmdArg e.cmd 2 ≠ 0 then ctlIllegal f e s
      else match hostBytes s a 64 with
        | none => ctlAbort f a s
        | some bs =>
          let r : W512 := BitVec.ofNat 512 (leNat bs)
          let c := bfld r 20 8
          if !recordOk r || !ownsCtx s f c then ctlDescriptor f a s
          else if inSinkLost s c then ctlSinkLost f s
          else if kindAbsent s (bfld r 0 20) then ctlAbsent f e s
          else if !queueAllowed s f (bfld r 0 20) c then ctlIllegal f e s
          else ctlEnd f stDone 0 0 0 0 (makeQueue f r s)))

/-- Entries that Q_DESTROY drops: fetched and not dispatched, at the top level. -/
def droppedEntries (v : Queue) : Nat := v.entries.length + v.back.length + (if v.frames.isEmpty && v.launch.isNone && v.cur.isSome then 1 else 0)

/-- Q_DESTROY (R254): what is not dispatched is dropped and counted; the command ends when the dispatched
commands have completed. -/
def execQDestroy (f : Bool) (s : State) : Host.Outcome State Fault Refusal :=
  .next (onlyWork s (
    match adminCmd s f 0x25 with
    | none => s
    | some e =>
      let q := cmdArg e.cmd 0
      if 2 ^ 20 ≤ q ∨ cmdArg e.cmd 1 ≠ 0 ∨ cmdArg e.cmd 2 ≠ 0 then ctlIllegal f e s
      else if (getQ s q).live && (getQ s q).owner == f && (getQ s q).destroying then finishDestroy q s
      else if !ownsQueue s f q then ctlIllegal f e s
      else
        let v := getQ s q
        let top := v.frames.isEmpty && v.launch.isNone
        let v1 := { v with destroying := true, entries := [], back := [], cur := if top then none else v.cur, waitDone := !top && v.waitDone
                           chainFrom := if top then none else v.chainFrom
                           state := if top && v.state == qWaiting then qActive else v.state }
        let s1 := if top then dropWaits (isQueueWait q) s else s
        finishDestroy q { setQ q v1 s1 with fr := { s1.fr with qDrop := satAdd max48 s1.fr.qDrop (droppedEntries v) } }))

/-- Q_RESTART with skip: on at the command its CHAIN names, or at the one that follows. -/
def restartSkip (q : Nat) (e : Entry) (s : State) : State :=
  let v := getQ s q
  if cmdChainEn e.cmd then takeAt q (cmdChain e.cmd) v.nextSeq true (setQ q { v with nextSeq := v.nextSeq + 1 } s) else s

/-- Q_RESTART with retry: the command is fetched again from where it came, with its own number. -/
def restartRetry (q : Nat) (e : Entry) (s : State) : State := takeAt q e.addr.toNat e.seq e.chained s

/-- Leaves STOPPED or HALTED. The stopping command of a halted queue is the one it holds. Commands taken and
not dispatched come after it. -/
def restartQ (q : Nat) (retry : Bool) (s : State) : State :=
  let v := getQ s q
  let held := v.state = qHalted ∧ v.stopStatus = 0
  let stopper := if held then v.cur else v.stopped
  let v1 := { v with state := qIdle, stopStatus := 0, stopped := none, cur := none, waitDone := false
                     back := match v.cur with | some e => if held then v.back else e :: v.back | none => v.back }
  let s1 := setQ q v1 (dropWaits (isQueueWait q) s)
  let s2 := match stopper with
    | some e => if retry then restartRetry q e s1 else restartSkip q e s1
    | none => s1
  settleQ q (fetchQ q s2)

/-- Q_RESTART (R254, R255, R372). -/
def execQRestart (f : Bool) (s : State) : Host.Outcome State Fault Refusal :=
  .next (onlyWork s (
    match adminCmd s f 0x26 with
    | none => s
    | some e =>
      let q := cmdArg e.cmd 0
      if 2 ^ 20 ≤ q ∨ 1 < cmdArg e.cmd 1 ∨ cmdArg e.cmd 2 ≠ 0 ∨ !ownsQueue s f q then ctlIllegal f e s
      else if inSinkLost s (getQ s q).ctx then ctlSinkLost f s
      else if (getQ s q).state ≠ qStopped ∧ (getQ s q).state ≠ qHalted then ctlIllegal f e s
      else ctlEnd f stDone 0 0 0 0 (restartQ q (cmdArg e.cmd 1 == 1) s)))

/-- SINK_SET (R258, R259, R289). -/
def execSinkSet (f : Bool) (s : State) : Host.Outcome State Fault Refusal :=
  .next (onlyWork s (
    match adminCmd s f 0x27 with
    | none => s
    | some e =>
      let q := cmdArg e.cmd 0
      let cq := cmdArg e.cmd 1
      let lg := cmdArg e.cmd 2
      if 2 ^ 20 ≤ q ∨ cq % 64 ≠ 0 ∨ 2 ^ 57 ≤ cq ∨ lg < 6 ∨ 20 < lg ∨ !agreed s f 17 ∨ !ownsQueue s f q then ctlIllegal f e s
      else
        let v := getQ s q
        let s1 := setQ q { v with cq := BitVec.ofNat 64 cq, cqLog2 := lg, sinkBad := false, shadowHeld := false, shadowFirst := 0 } s
        ctlEnd f stDone 0 0 0 0 (sinkFound v.ctx s1)))

/-! ### Translations (R92) -/

/-- XLAT_INVAL: the context's cached translations are dropped, and every access that used them has been
performed. -/
def execXlatInval (f : Bool) (s : State) : Host.Outcome State Fault Refusal :=
  .next (onlyWork s (
    match adminCmd s f 0x28 with
    | none => s
    | some e =>
      let c := cmdArg e.cmd 0
      let va := cmdArg e.cmd 1
      let n := cmdArg e.cmd 2
      if 256 ≤ c ∨ va % 2 ^ 21 ≠ 0 ∨ n % 2 ^ 21 ≠ 0 ∨ (n ≠ 0 ∧ !agreed s f 20) ∨ !ownsCtx s f c then ctlIllegal f e s
      else if inSinkLost s c then ctlSinkLost f s
      else ctlEnd f stDone 0 0 0 0 (if n = 0 then dropXlat c s else dropXlatRange c va n s)))

/-! ### Graphs (R251, R252) -/

/-- GRAPH_STORE: waits while the pool has too few free pages. -/
def execGraphStore (f : Bool) (s : State) : Host.Outcome State Fault Refusal :=
  .next (onlyWork s (
    match adminCmd s f 0x29 with
    | none => s
    | some e =>
      let a0 := cmdArg e.cmd 0
      let g := fld a0 0 12
      let c := fld a0 12 8
      let src := cmdArg e.cmd 1
      let n := cmdArg e.cmd 2
      let pages := (n + 63) / 64
      if 2 ^ 20 ≤ a0 ∨ n = 0 ∨ !agreed s f 16 ∨ !ownsCtx s f c ∨ (getGraph s g).stored then ctlIllegal f e s
      else if inSinkLost s c then ctlSinkLost f s
      else if 65536 < n ∨ poolPages s < pages then ctlDescriptor f src s
      else
        let s1 := freeVersions s
        match allocPages s1 pages with
        | none => s1
        | some ps =>
          match hostBytes s1 src (64 * n) with
          | none => ctlAbort f src s1
          | some bs =>
            let gr := getGraph s1 g
            let s2 := writeCommands ps n bs 0 s1
            ctlEnd f stDone 0 0 0 0 (setGraph g { stored := true, owner := c, versions := minsert gr.nextVersion ps gr.versions, lengths := mset 0 gr.lengths gr.nextVersion n
                                                  current := some gr.nextVersion, nextVersion := gr.nextVersion + 1 } s2)))

/-- GRAPH_FREE: the current pointer is cleared, and versions go as launches end. -/
def execGraphFree (f : Bool) (s : State) : Host.Outcome State Fault Refusal :=
  .next (onlyWork s (
    match adminCmd s f 0x2A with
    | none => s
    | some e =>
      let g := cmdArg e.cmd 0
      let gr := getGraph s g
      if 4096 ≤ g ∨ cmdArg e.cmd 1 ≠ 0 ∨ cmdArg e.cmd 2 ≠ 0 ∨ !agreed s f 16 ∨ !gr.stored ∨ !ownsCtx s f gr.owner then ctlIllegal f e s
      else if inSinkLost s gr.owner then ctlSinkLost f s
      else ctlEnd f stDone 0 0 0 0 (freeVersions (setGraph g { gr with stored := false, current := none } s))))

end Sys2Proof.Machine
end

