-- ==== Sys2Proof/Machine/Packets.lean ====
section
/-! DEFINITION. Packets as a module meets them: header fields, the packets that wait in the receive
buffers, credits owed for them (R192, Tables 10-4 and 10-5). -/

namespace Sys2Proof.Machine

def pktDest (h : BitVec 256) : Nat := bfld h 0 17
def pktSrc (h : BitVec 256) : Nat := bfld h 17 17
def pktClass (h : BitVec 256) : Nat := bfld h 34 2
def pktLenM1 (h : BitVec 256) : Nat := bfld h 36 6
def pktCtx (h : BitVec 256) : Nat := bfld h 42 8
def pktDirect (h : BitVec 256) : Bool := h.getLsbD 50
def pktPort (h : BitVec 256) : Nat := bfld h 51 4

/-- Packet classes. -/
def clData : Nat := 0
def clSignal : Nat := 1
def clControl : Nat := 2

/-- A header: destination, source, class, flits, context, first-hop port where the sender names one, and
the class data. -/
def mkHeader (dest src cls flits ctx : Nat) (port : Option Nat) (cdata : Nat) : BitVec 256 :=
  let d := match port with
    | some p => 2 ^ 50 + p * 2 ^ 51
    | none => 0
  BitVec.ofNat 256 (dest % 2 ^ 17 + 2 ^ 17 * (src % 2 ^ 17) + 2 ^ 34 * cls + 2 ^ 36 * ((flits - 1) % 64) + 2 ^ 42 * (ctx % 256) + d + 2 ^ 64 * cdata)

/-- The first waiting packet of port `n` that satisfies a test. -/
def firstPacket (n : Nat) (t : Packet → Bool) (s : State) : Option Packet :=
  if frozenIsl s (0xA80 + 2 * n) then none else
  (s.et.inbox.find? (fun e => e.1 == n && t e.2)).map Prod.snd

/-- Removes one entry that equals `x`. -/
def dropOne (x : Nat × Packet) : List (Nat × Packet) → List (Nat × Packet)
  | [] => []
  | y :: ys => if y = x then ys else y :: dropOne x ys

/-- Credits that each end advertises: the receive slots of each VC (Table 10-4). -/
def firstCredits : NMap Nat := [(0, 1024), (1, 1024), (2, 32), (3, 32), (4, 16), (5, 16)]

/-- Receive slots that a packet of `len` flits holds while it is assembled and waits: one for each flit, or none when the VC
has fewer slots than the packet flits, whose slots empty as the flits come (R192). -/
def slotsHeld (vc len : Nat) : Nat := if len ≤ mget 0 firstCredits vc then len else 0

/-- A waiting packet leaves the receive buffer; its slots' credits are owed to the partner (R192). -/
def takePacket (n : Nat) (p : Packet) (s : State) : State :=
  let v := getPort s n
  let v' := { v with owed := mset 0 v.owed p.vc (mget 0 v.owed p.vc + slotsHeld p.vc (pktLenM1 p.header + 1)) }
  { s with et := { s.et with inbox := dropOne (n, p) s.et.inbox, ports := mset {} s.et.ports n v' } }

end Sys2Proof.Machine
end

