-- ==== Sys2Proof/Machine/Route.lean ====
section
/-! DEFINITION. How a packet leaves the module: the exceptions, the order T, S, P, D, the choice of port, the datelines,
and its flits (R191, R194, R199 to R203). -/

namespace Sys2Proof.Machine

/-- A port carries packets: UP with FWD = 1. -/
def portUsable (s : State) (n : Nat) : Bool := decide (n < 12) && (getPort s n).state == 7 && (getPort s n).fwd

/-- The other port of the same direction on T and D. -/
def portMate (n : Nat) : Nat := if n < 8 then (if n % 2 = 0 then n + 1 else n - 1) else n

/-- The port that traffic for port `n` takes: itself, or the other of its pair, or none (R197, R202). -/
def livePort (s : State) (n : Nat) : Option Nat :=
  if portUsable s n then some n else if portUsable s (portMate n) then some (portMate n) else none

/-- Port `i` of a direction of an axis (Table 10-1). -/
def portOf (axis : Nat) (plus : Bool) (i : Nat) : Nat :=
  match axis with
  | 0 => (if plus then 0 else 2) + i % 2
  | 3 => (if plus then 4 else 6) + i % 2
  | 1 => if plus then 8 else 9
  | _ => if plus then 10 else 11

/-- Parity of all bits of a number below 2^64. -/
def parity (n : Nat) : Nat := ((upto 64).filter (fun i => n / 2 ^ i % 2 == 1)).length % 2

/-! ### Flits (Tables 10-3 and 10-5) -/

/-- Flits that a body of `n` bytes behind the 32-byte header takes. -/
def flitsFor (n : Nat) : Nat := max 1 ((n + 32 + 511) / 512)

/-- Cuts bytes into payloads of 512 bytes, the last filled with zeros. -/
def cut512 : Nat → List Byte → List (List Byte)
  | 0, _ => []
  | k + 1, bs => (bs.take 512 ++ List.replicate (512 - (bs.take 512).length) 0) :: cut512 k (bs.drop 512)

/-- The flits of a packet on a VC. -/
def packetFlits (p : Packet) (vc : Nat) : List Flit :=
  let k := pktLenM1 p.header + 1
  (cut512 k (leBytes 32 p.header.toNat ++ p.body)).zipIdx.map (fun e =>
    { ty := if e.2 + 1 = k then 2 else 1, vc, payload := e.1, poison := if e.2 = 0 then p.poison else [] })

/-- Queues a packet's flits at a port. -/
def enqueue (n vc : Nat) (p : Packet) (s : State) : State :=
  modPort n (fun v => { v with txq := v.txq ++ packetFlits p vc }) s

/-! ### Routing -/

def countNoRoute (s : State) : State := { s with et := { s.et with noRoute := satAdd max32 s.et.noRoute 1 } }
def countDiscard (s : State) : State := { s with et := { s.et with rtxDiscard := satAdd max32 s.et.rtxDiscard 1 } }

/-- A reserved class or a reserved bit of the header. -/
def badHeader (h : BitVec 256) : Bool := pktClass h == 3 || bfld h 55 9 != 0

/-- Reserved bits or a reserved SUBTYPE in the class data of a packet for this module (Tables 11-7, 11-8 and 15-11). -/
def badClassData (h : BitVec 256) : Bool :=
  (pktClass h == clData && bfld h 129 127 != 0) || (pktClass h == clSignal && decide (2 ≤ bfld h 64 2))
  || (pktClass h == clControl && bfld h 64 8 == 1 && (bfld h 98 30 != 0 || bfld h 192 64 != 0))

/-- A destination with bits at or above its axes' sizes (R199). -/
def badDest (s : State) (d : Nat) : Bool :=
  (upto 4).any (fun a => decide (axisSizeOf s.et.axisSize a ≤ coordOn (BitVec.ofNat 17 d) a))

/-- An entry of the route-exception table matches the packet. -/
def excMatches (h : BitVec 256) (e : W64) : Bool :=
  bfld e 63 1 == 1 && bfld e (34 + pktClass h) 1 == 1 && bfld e 41 2 != 3
  && (pktDest h ^^^ bfld e 0 17) &&& bfld e 17 17 == 0

/-- The VC of a packet that leaves by port `n`, having come by `arrived`: dateline 0 on entering an axis, dateline 1
from the crossing of the ring's end on (R201). -/
def vcOut (s : State) (h : BitVec 256) (arrived : Option Nat) (vc n : Nat) : Nat :=
  let a := portAxis n
  let x := coordOn s.et.coord a
  let crosses := if portPlus n then x + 1 == axisSizeOf s.et.axisSize a else x == 0
  let same := match arrived with | some p => portAxis p == a | none => false
  2 * pktClass h + (if crosses || (same && vc % 2 == 1) then 1 else 0)

/-- The port by which R200 and R202 send a packet on; none when it is at its destination. -/
def routePort (s : State) (h : BitVec 256) : Option Nat :=
  let d := BitVec.ofNat 17 (pktDest h)
  match [0, 1, 2, 3].find? (fun a => coordOn d a != coordOn s.et.coord a) with
  | none => none
  | some a =>
    let n := axisSizeOf s.et.axisSize a
    let x := coordOn s.et.coord a
    let k := (coordOn d a + n - x) % n
    let plus := if k < n - k then true else if n - k < k then false else x % 2 == 0
    some (portOf a plus ((parity (pktSrc h) + parity (pktDest h) + parity (pktCtx h)) % 2))

/-- Sends a packet out by a port's direction, or discards it and counts it when no port of it is usable (R202). -/
def leaveBy (n : Nat) (vc : Nat → Nat) (p : Packet) (s : State) : State :=
  match livePort s n with
  | some k => enqueue k (vc k) p s
  | none => countNoRoute s

/-- What becomes of a packet that arrived by a port or starts here: it waits in the receive buffer when it is addressed
to this module, else it leaves by an exception, by the port its sender names, or by the rule (R199 to R203). -/
def routePacket (arrived : Option Nat) (p : Packet) (s : State) : State :=
  let h := p.header
  if badHeader h then countDiscard s
  else if badDest s (pktDest h) then countNoRoute s
  else if pktDest h = s.et.coord.toNat then
    if badClassData h then countDiscard s else { s with et := { s.et with inbox := s.et.inbox ++ [(arrived.getD 12, p)] } }
  else match s.et.route.find? (fun e => excMatches h e.2) with
    | some e =>
      if bfld e.2 41 2 = 2 then countDiscard s
      else leaveBy (bfld e.2 37 4) (fun _ => 2 * pktClass h + (if bfld e.2 41 2 = 1 then 1 else p.vc % 2)) p s
    | none =>
      if arrived.isNone && pktDirect h then leaveBy (pktPort h) (vcOut s h arrived p.vc) p s
      else match routePort s h with
      | some n => leaveBy n (vcOut s h arrived p.vc) p s
      | none => s

end Sys2Proof.Machine
end

