-- ==== Sys2Proof/Machine/Etris.lean ====
section
/-! DEFINITION. Etris ports: training, discovery, flits with credits and replay, lane sparing (R183 to R198). -/

namespace Sys2Proof.Machine

/-! ### Ports and their controllers -/

/-- The port trains or runs on this module: powered, past FABRIC, enabled by the grade. -/
def portHere (s : State) (n : Nat) : Bool := s.pw.powered && portEnabled s n

/-- A stop holds the port's link layer, or its controller (R345). -/
def linkFrozen (s : State) (n : Nat) : Bool := frozenIsl s (0xA80 + 2 * n)
def ctlFrozen (s : State) (n : Nat) : Bool := frozenIsl s (0xA80 + 2 * n + 1)

/-- The port controller runs (R198). -/
def portCtl (s : State) (n : Nat) : Bool := procUp s (54 + n) && !ctlFrozen s n

/-- The port is here, and no stop holds it: a held port's link stays UP and its lanes stay as they are (R345). -/
def portRuns (s : State) (n : Nat) : Bool := portHere s n && !linkFrozen s n && !ctlFrozen s n

/-- A port's state or peer record has changed (R186, R279). -/
def portChanged (n : Nat) (s : State) : State := recheck n (endLinks s)

/-- FAIL_REASON codes (Table 10-9). -/
def frLanes : Nat := 1
def frOrder : Nat := 2
def frNoPeer : Nat := 3
def frRetrain : Nat := 4
def frTimeout : Nat := 5

/-- The port ends in FAILED: what its transmit queue and replay buffer hold is discarded and counted (R197). -/
def failPort (n reason : Nat) (s : State) : State :=
  let p := getPort s n
  let p' := { p with state := 9, fwd := false, failReason := reason, sub := 0
                     dropped := satAdd max32 p.dropped (p.txq.length + p.replay.length), txq := [], replay := [], resend := []
                     swap := none, swapWaits := [], txCopy := none, swapActive := false, dead := [], retrainFails := 0, recordDue := false }
  portChanged n (leftUp n p (setPort n p' s))

/-- RETRAIN has failed: twice within 10 s ends the port; whether an earlier failure lies that near is open (R189). -/
def retrainFailed (n : Nat) (s : State) : State :=
  let p := getPort s n
  if p.retrainFails = 1 ∨ (p.retrainFails = 2 ∧ Config.duration s.free ≤ 10000) then failPort n frRetrain { s with free := s.free + 1 }
  else setPort n { p with sub := 3, retrainFails := 1 } { s with free := s.free + 1 }

/-- The port is in a training state, or in that step of RETRAIN. -/
def inStep (p : Port) (k : Nat) : Bool := p.state == k || (p.state == 8 && p.sub == k)

/-- The port goes to a training state, or on to that step of RETRAIN. -/
def toStep (n k : Nat) (s : State) : State := modPort n (fun p => if p.state = 8 then { p with sub := k } else { p with state := k }) s

/-! ### Lanes (R184, R188) -/

def failedCount (v : BitVec 18) : Nat := ((upto 18).filter (fun i => v.getLsbD i)).length

/-- Lowest-numbered working spare of a direction: neither in use nor failed. -/
def spareLane (used : List Nat) (failed : BitVec 18) : Option Nat := (upto 18).find? (fun i => !used.contains i && !failed.getLsbD i)

/-- Lane map of a direction, from a base order: each logical lane on a failed lane takes a spare. -/
def mapLanes (base : Nat → Nat) (failed : BitVec 18) : NMap Nat :=
  ((upto 16).foldl (fun (st : List Nat × NMap Nat) l =>
    if failed.getLsbD (base l) then
      match spareLane st.1 failed with
      | some x => (x :: st.1, mset 0 st.2 l (x + 1))
      | none => st
    else (st.1, mset 0 st.2 l (if base l = l then 0 else base l + 1))) ((upto 16).map base, [])).2

/-- Lanes that carry logical lanes, receive direction. -/
def usedRx (p : Port) : List Nat := (upto 16).map (laneOf p)

def txLane (p : Port) (l : Nat) : Nat := if mget 0 p.txLaneOf l = 0 then l else mget 0 p.txLaneOf l - 1
def usedTx (p : Port) : List Nat := (upto 16).map (txLane p)

/-- Spares in use in the transmit direction. -/
def countTx (p : Port) : Nat := ((upto 16).filter (fun l => txLane p l != l)).length

/-- Stores the port's seeds with its peer's identity (R187). -/
def storeSeeds (n : Nat) (s : State) : State :=
  let p := getPort s n
  { s with fl := { s.fl with seeds := mset {} s.fl.seeds n { stored := true, peerId := p.peerId, peerPort := p.peerPort } } }

/-! ### Training (R186 to R190) -/

/-- DETECT. -/
def execDetect (n : Nat) (failedRx failedTx : BitVec 18) (peer : Bool) (s : State) : Host.Outcome State Fault Refusal :=
  .next (onlyPort s (
    let p := getPort s n
    if !portRuns s n || !portCtl s n || p.state != 1 then s
    else
      let s1 := setPort n { p with failedRx, failedTx, laneOf := [], txLaneOf := [], inverted := 0, reversed := false, sparesTx := 0
                                   retrainFails := 0, recordDue := false } s
      if !peer then failPort n frNoPeer s1
      else if decide (2 < failedCount failedRx) || decide (2 < failedCount failedTx) then failPort n frLanes s1
      else toStep n (if (mget {} s.fl.seeds n).stored then 3 else 2) s1))

/-- EQ_FULL. -/
def execEqFull (n : Nat) (s : State) : Host.Outcome State Fault Refusal :=
  .next (onlyPort s (
    if portRuns s n && portCtl s n && (getPort s n).state == 2 then modPort n (fun p => { p with state := 4, seeded := false }) s else s))

/-- EQ_SEED. -/
def execEqSeed (n : Nat) (adapted : Bool) (s : State) : Host.Outcome State Fault Refusal :=
  .next (onlyPort s (
    let p := getPort s n
    if !portRuns s n || !portCtl s n || !inStep p 3 then s
    else if adapted then toStep n 4 (setPort n { p with seeded := true } s)
    else if p.state = 8 then retrainFailed n s
    else toStep n 2 s))

/-- ALIGN. Under full equalisation a lock not reached leaves the port in ALIGN until its limit. In RETRAIN the lane maps are
kept, but for lanes that fail now (R188, R189). -/
def execAlign (n : Nat) (r : AlignReport) (s : State) : Host.Outcome State Fault Refusal :=
  .next (onlyPort s (
    let p := getPort s n
    if !portRuns s n || !portCtl s n || !inStep p 4 then s
    else
      let rx := p.failedRx ||| r.failedRx
      let tx := p.failedTx ||| r.failedTx
      let p1 := { p with failedRx := rx, failedTx := tx }
      if 2 ≤ r.order then failPort n frOrder (setPort n p1 s)
      else if decide (2 < failedCount rx) || decide (2 < failedCount tx) then failPort n frLanes (setPort n p1 s)
      else if !r.lock then
        if p.state = 8 then retrainFailed n (setPort n p1 s)
        else if p.seeded then toStep n 2 (setPort n p1 s) else setPort n p1 s
      else
        let fresh := fun (l : Nat) => if r.order = 1 then 17 - l else l
        let p2 := if p.state = 8 then { p1 with inverted := r.inverted, laneOf := mapLanes (laneOf p) rx, txLaneOf := mapLanes (txLane p) tx }
          else { p1 with inverted := r.inverted, reversed := r.order == 1, laneOf := mapLanes fresh rx, txLaneOf := mapLanes id tx }
        toStep n 5 (setPort n { p2 with sparesTx := countTx p2 } s)))

/-- LINK_INIT: sequence numbers start at 0 with fresh credits; after RETRAIN the port is UP again with its own, and
replays what is not acknowledged; a record of a coordinate assigned meanwhile goes out (R186, R189, R190). -/
def execLinkInit (n : Nat) (s : State) : Host.Outcome State Fault Refusal :=
  .next (onlyPort s (
    let p := getPort s n
    if !portRuns s n || !portCtl s n || !inStep p 5 then s
    else if p.state = 8 then
      let s1 := if p.recordDue then emit (.discovery n (ownRecord s n)) s else s
      portChanged n (setPort n { p with state := 7, sub := 0, resend := p.replay, requested := false, recordDue := false
                                        retrainFails := if p.retrainFails = 1 then 2 else p.retrainFails } s1)
    else
      setPort n { p with state := 6, txSeq := 0, rxSeq := 0, requested := false, rxAny := false, replay := [], resend := [], txq := []
                         credits := firstCredits, owed := [], partial_ := [] } s))

/-- Stores a peer's discovery record (R190, Table 10-11). -/
def takeRecord (r : DiscRecord) (p : Port) : Port :=
  { p with peerId := r.peerId, peerPort := r.port % 16, peerGrade := r.grade % 256, peerSuffix := r.suffix % 256
           peerCoord := r.coord.getD 0, coordValid := r.coord.isSome, peerValid := true }

/-- DISCOVER. -/
def execDiscover (n : Nat) (r : DiscRecord) (s : State) : Host.Outcome State Fault Refusal :=
  .next (onlyPort s (
    let p := getPort s n
    if !portRuns s n || !portCtl s n || p.state != 6 then s
    else
      let seed := mget {} s.fl.seeds n
      let s1 := emit (.discovery n (ownRecord s n)) s
      if p.seeded && (seed.peerId != r.peerId || seed.peerPort != r.port % 16) then
        portChanged n (setPort n { takeRecord r p with state := 2, seeded := false } s1)
      else
        let s2 := setPort n { takeRecord r p with state := 7, fwd := false, failReason := 0 } s1
        portChanged n (if p.seeded then s2 else storeSeeds n s2)))

/-- PORT_STATE_TIMEOUT: the port ends in FAILED, but for EQ_SEED and ALIGN under stored seeds (R186). -/
def execPortStateTimeout (n : Nat) (s : State) : Host.Outcome State Fault Refusal :=
  .next (onlyPort s (
    let p := getPort s n
    if !portRuns s n then s
    else if p.state = 8 then failPort n frTimeout s
    else if p.state = 3 ∨ (p.state = 4 ∧ p.seeded) then toStep n 2 (setPort n { p with seeded := false } s)
    else if 1 ≤ p.state ∧ p.state ≤ 6 then failPort n frTimeout s
    else s))

/-- Enters RETRAIN: a swap in progress is abandoned, and is decided afresh later (R189, R198). -/
def enterRetrain (n : Nat) (s : State) : State :=
  let p := getPort s n
  portChanged n (leftUp n p (setPort n { p with
    state := 8, sub := 3, swap := none, swapWaits := [], txCopy := none, swapActive := false, dead := [] } s))

/-- CLK_FALLBACK (R14): the die's islands run on from its fallback oscillator without losing state; a port of it in UP enters
RETRAIN (R189). -/
def execClkFallback (die : Nat) (s : State) : Host.Outcome State Fault Refusal :=
  .next (onlyMgmt s (
    if s.pw.powered && decide (die < 64) && !mget false s.pw.fallback die then
      let s1 := addLog (dieRoot die) 3 0x0201 (dieRoot die) 0 { s with pw := { s.pw with fallback := mset false s.pw.fallback die true } }
      if 48 ≤ die ∧ die < 60 then
        let n := die - 48
        let s2 := modPort n (fun p => { p with fallbackClk := true }) s1
        if portRuns s2 n && (getPort s2 n).state == 7 then enterRetrain n s2 else s2
      else s1
    else s))

/-- RETRAIN: 0 the fallback oscillator, 1 uncorrectable codewords without a dead lane, 2 the partner. -/
def execRetrain (n : Nat) (cause : Nat) (s : State) : Host.Outcome State Fault Refusal :=
  .next (onlyPort s (
    let p := getPort s n
    let ok := match cause with | 0 => p.fallbackClk | 1 => p.dead.isEmpty | 2 => true | _ => false
    if portRuns s n && p.state == 7 && ok then enterRetrain n s else s))

/-- DISCOVERY_RECORD. -/
def execDiscoveryRecord (n : Nat) (r : DiscRecord) (s : State) : Host.Outcome State Fault Refusal :=
  .next (onlyPort s (
    if portRuns s n && (getPort s n).state == 7 then recheck n (modPort n (takeRecord r) s) else s))

/-! ### The flit's CRC (R191) -/

/-- One bit of the CRC-32 with the generator polynomial of R191. -/
def crcBit (c : W32) (b : Bool) : W32 := if c.msb != b then (c <<< 1) ^^^ 0x04C11DB7#32 else c <<< 1

def crcByte (c : W32) (x : Byte) : W32 :=
  (upto 8).foldl (fun a i => crcBit a (x.getLsbD (if Config.crcReflect then i else 7 - i))) c

/-- Bits of a word in the other order. -/
def flip32 (c : W32) : W32 := BitVec.ofNat 32 ((upto 32).foldl (fun a i => a + (if c.getLsbD i then 2 ^ (31 - i) else 0)) 0)

/-- CRC of a flit's header and payload. -/
def flitCrc (header : BitVec 96) (payload : List Byte) : W32 :=
  let c := (leBytes 12 header.toNat ++ payload).foldl crcByte Config.crcInit
  (if Config.crcReflect then flip32 c else c) ^^^ Config.crcFinal

/-! ### Transmission (R192, R193) -/

/-- Header fields of a flit (Table 10-3). -/
def fhType (h : BitVec 96) : Nat := bfld h 0 3
def fhVc (h : BitVec 96) : Nat := bfld h 3 3
def fhSeq (h : BitVec 96) : Nat := bfld h 6 12
def fhAck (h : BitVec 96) : Nat := bfld h 18 12
def fhAckv (h : BitVec 96) : Bool := h.getLsbD 30
def fhCvc (h : BitVec 96) : Nat := bfld h 32 3
def fhCount (h : BitVec 96) : Nat := bfld h 35 8

/-- Sends a flit with the acknowledgement and the credits that are due. -/
def emitFlit (n ty vc fseq : Nat) (payload : List Byte) (poison : List Nat) (s : State) : State :=
  let p := getPort s n
  let cvc := ((upto 6).find? (fun v => mget 0 p.owed v != 0)).getD 0
  let cc := min 255 (mget 0 p.owed cvc)
  let (ack, ackv) := if ty = 4 then (p.rxSeq, true) else ((p.rxSeq + 4095) % 4096, p.rxAny)
  let h : BitVec 96 := BitVec.ofNat 96 (ty + 2 ^ 3 * vc + 2 ^ 6 * fseq + 2 ^ 18 * ack + 2 ^ 30 * b01 ackv + 2 ^ 32 * cvc + 2 ^ 35 * cc)
  emit (.flit n h payload (flitCrc h payload) poison) (setPort n { p with owed := mset 0 p.owed cvc (mget 0 p.owed cvc - cc) } s)

/-- Payload of a flit that carries none. -/
def noPayload : List Byte := List.replicate 512 0

/-- First flit of the transmit queue whose VC has a credit: a class without credits blocks no other class. -/
def sendable (p : Port) : Option Nat := p.txq.findIdx? (fun f => mget 0 p.credits f.vc != 0)

/-- FLIT_TRANSMIT: a flit to be resent, else a new one, else an idle flit; in a stop idle flits alone (R345). -/
def execFlitTransmit (n : Nat) (s : State) : Host.Outcome State Fault Refusal :=
  .next (onlyPort s (
    let p := getPort s n
    if !portHere s n || p.state != 7 || !p.dead.isEmpty then s
    else if linkFrozen s n then emitFlit n 0 0 p.txSeq noPayload [] s
    else match p.resend with
    | f :: fs => emitFlit n f.ty f.vc f.fseq f.payload f.poison (setPort n { p with resend := fs } s)
    | [] =>
      match (if p.replay.length < 1024 then sendable p else none) with
      | some i =>
        let f := { p.txq.getD i { ty := 1, vc := 0, payload := [] } with fseq := p.txSeq }
        emitFlit n f.ty f.vc f.fseq f.payload f.poison (setPort n { p with
          txq := p.txq.eraseIdx i, txSeq := (p.txSeq + 1) % 4096, replay := p.replay ++ [f]
          credits := mset 0 p.credits f.vc (mget 0 p.credits f.vc - 1) } s)
      | none => emitFlit n 0 0 p.txSeq noPayload [] s))

/-! ### Reception (R191 to R194, R201) -/

/-- Asks for a replay once, from the flit expected next. -/
def askReplay (n : Nat) (s : State) : State :=
  if (getPort s n).requested then s
  else emitFlit n 4 0 (getPort s n).txSeq noPayload [] (modPort n (fun p => { p with requested := true }) s)

/-- Resends every buffered flit from the requested one on. -/
def doReplay (fseq : Nat) (p : Port) : Port :=
  { p with replays := satAdd max32 p.replays 1, resend := p.replay.dropWhile (fun f => f.fseq != fseq) }

/-- An acknowledgement releases the flits up to the one it names. -/
def takeAck (ack : Nat) (p : Port) : Port :=
  match p.replay.findIdx? (fun f => f.fseq == ack) with
  | some i => { p with replay := p.replay.drop (i + 1), resend := p.resend.filter (fun f => (p.replay.drop (i + 1)).contains f) }
  | none => p

/-- Returned credits. -/
def takeCredits (h : BitVec 96) (p : Port) : Port :=
  if fhCount h = 0 ∨ 6 ≤ fhCvc h then p
  else { p with credits := mset 0 p.credits (fhCvc h) (mget 0 p.credits (fhCvc h) + fhCount h) }

/-- A packet that stays in the receive buffer: addressed to this module and well formed. -/
def staysHere (s : State) (p : Packet) : Bool :=
  !badHeader p.header && !badDest s (pktDest p.header) && pktDest p.header == s.et.coord.toNat && !badClassData p.header

/-- Slots of the receive buffer have emptied: their credits are owed. -/
def oweCredits (n vc k : Nat) (s : State) : State := modPort n (fun p => { p with owed := mset 0 p.owed vc (mget 0 p.owed vc + k) }) s

/-- The last flit of a packet has come: the packet is routed. Without FWD the port carries link-local CONTROL traffic alone
(R190), and what else arrives is discarded; a malformed header is discarded wherever it comes (R194). -/
def packetIn (n vc : Nat) (fs : List Flit) (s : State) : State :=
  let bytes := fs.flatMap (fun f => f.payload)
  let h : BitVec 256 := BitVec.ofNat 256 (leNat (bytes.take 32))
  let p : Packet := { header := h, body := bytes.drop 32, vc, poison := (fs.headD { ty := 1, vc, payload := [] }).poison }
  let k := if slotsHeld vc (pktLenM1 h + 1) = 0 then 0 else fs.length
  if pktLenM1 h + 1 ≠ fs.length ∨ 2 * pktClass h + vc % 2 ≠ vc ∨ badHeader h then oweCredits n vc k (countDiscard s)
  else if !(getPort s n).fwd && !(pktClass h == clControl && staysHere s p) then oweCredits n vc k (countNoRoute s)
  else if staysHere s p then routePacket (some n) p s
  else oweCredits n vc k (routePacket (some n) p s)

/-- A flit accepted in order. A control flit is for the port controller: its slot empties at once, and so do the slots of a
packet longer than its VC has slots. -/
def acceptFlit (n : Nat) (f : Flit) (s : State) : State :=
  let s1 := modPort n (fun p => { p with rxSeq := (p.rxSeq + 1) % 4096, rxAny := true, requested := false }) s
  if f.ty = 3 then oweCredits n f.vc 1 s1
  else
    let held := mget [] (getPort s1 n).partial_ f.vc ++ [f]
    let len := pktLenM1 (BitVec.ofNat 256 (leNat ((held.headD f).payload.take 32))) + 1
    let s2 := if slotsHeld f.vc len = 0 then oweCredits n f.vc 1 s1 else s1
    if f.ty = 2 then packetIn n f.vc held (modPort n (fun p => { p with partial_ := mset [] p.partial_ f.vc [] }) s2)
    else modPort n (fun p => { p with partial_ := mset [] p.partial_ f.vc held }) s2

/-- A flit arrives at a link that is UP. The code's verdicts come with it: how many codewords that end with it were
corrected, how many could not be, and whether it lies in one that could not (R185, R191). -/
def receiveFlit (n : Nat) (fl : FlitIn) (s00 : State) : State :=
  let p0 := getPort s00 n
  let p := { p0 with fecCorr := satAdd max32 p0.fecCorr fl.corrected, fecUncorr := satAdd max32 p0.fecUncorr fl.uncorrected }
  let s := setPort n p s00
  let h := fl.header
  if p.state ≠ 7 then s00
  else if !fl.codewordOk || fl.uncorrected != 0 then askReplay n s
  else if fl.crc ≠ flitCrc h fl.payload ∨ fl.payload.length ≠ 512 then askReplay n (setPort n { p with crcBad := satAdd max32 p.crcBad 1 } s)
  else if 5 ≤ fhType h then s
  else if fhType h = 4 then setPort n (doReplay (fhAck h) (takeCredits h p)) s
  else
    let p1 := if fhAckv h then takeAck (fhAck h) p else p
    if fhSeq h = p.rxSeq then
      let s1 := setPort n (takeCredits h p1) s
      if fhType h = 0 then s1
      else if 6 ≤ fhVc h then modPort n (fun q => { q with rxSeq := (q.rxSeq + 1) % 4096, rxAny := true, requested := false }) s1
      else acceptFlit n { ty := fhType h, vc := fhVc h, fseq := fhSeq h, payload := fl.payload, poison := fl.poison } s1
    else
      let s1 := setPort n (if fhType h = 0 then takeCredits h p1 else p1) s
      if (fhSeq h + 4096 - p.rxSeq) % 4096 < 2048 then askReplay n s1 else s1

/-- FLIT_RECEIVE: in a stop the flit is held as channel contents (R345). -/
def execFlitReceive (n : Nat) (fl : FlitIn) (s : State) : Host.Outcome State Fault Refusal :=
  .next (onlyPort s (
    if !portHere s n || (getPort s n).state != 7 then s
    else if linkFrozen s n then modPort n (fun p => { p with held := p.held ++ [fl] }) s
    else receiveFlit n fl s))

/-- The flits that a stop held are taken in their order (R346). -/
def deliverHeld (n : Nat) (s : State) : State :=
  (getPort s n).held.foldl (fun t fl => receiveFlit n fl t) (modPort n (fun p => { p with held := [] }) s)

/-- REPLAY_REQUEST. -/
def execReplayRequest (n : Nat) (fseq : BitVec 12) (s : State) : Host.Outcome State Fault Refusal :=
  .next (onlyPort s (
    if portHere s n && (getPort s n).state == 7 then modPort n (doReplay fseq.toNat) s else s))

/-- REPLAY_REQUEST_RESEND. -/
def execReplayRequestResend (n : Nat) (s : State) : Host.Outcome State Fault Refusal :=
  .next (onlyPort s (
    let p := getPort s n
    if portHere s n && p.state == 7 && p.requested then emitFlit n 4 0 p.txSeq noPayload [] s else s))

/-! ### Lane sparing (R195 to R198) -/

/-- Logical lane on a received physical lane. -/
def logicalOf (p : Port) (lane : Nat) : Option Nat := (upto 16).find? (fun l => laneOf p l == lane)

def setBit18 (v : BitVec 18) (i : Nat) : BitVec 18 := v ||| BitVec.ofNat 18 (2 ^ i)

/-- Starts a swap of a logical lane onto the lowest-numbered working spare, with a SWAP_REQ control flit; no rule gives the
flit's payload. With no spare left the port fails (R197). The decision is a trace point (R293). -/
def startSwap (n l : Nat) (s00 : State) : State :=
  let s := fwPoint (54 + n) 6 l s00
  let p := getPort s n
  match spareLane (usedRx p) p.failedRx with
  | some x =>
    let f : Flit := { ty := 3, vc := 4, payload := (upto 512).map (fun i => Config.mixByte (s.free + i)) }
    setPort n { p with swap := some (l, x, false), swapActive := true, txq := p.txq ++ [f] } { s with free := s.free + 512 }
  | none => failPort n frLanes (setPort n { p with failedRx := setBit18 p.failedRx (laneOf p l) } s)

/-- The next swap decision that waits, when no swap is in progress, no dead lane is to be replaced first, and the controller
runs (R198). -/
def nextSwap (n : Nat) (s : State) : State :=
  let p := getPort s n
  match p.swapWaits with
  | l :: ls =>
    if p.swap.isNone && p.dead.isEmpty && p.state == 7 && portCtl s n then startSwap n l (setPort n { p with swapWaits := ls } s) else s
  | [] => s

/-- A logical lane is being swapped, or waits for its swap. -/
def swapping (p : Port) (l : Nat) : Bool := p.swapWaits.contains l || (match p.swap with | some (k, _, _) => k == l | none => false)

/-- LANE_DEGRADE: `symbols` corrected on received physical lane `lane` within a 1 s window. -/
def execLaneDegrade (n lane symbols : Nat) (s : State) : Host.Outcome State Fault Refusal :=
  .next (onlyPort s (
    let p := getPort s n
    if !portRuns s n || p.state != 7 then s
    else
      let s1 := setPort n { p with sym := mset 0 p.sym lane (satAdd max32 (mget 0 p.sym lane) symbols) } s
      match logicalOf p lane with
      | some l =>
        if decide (symbols ≤ 10000) || p.dead.contains l || swapping p l then s1
        else nextSwap n (modPort n (fun v => { v with swapWaits := v.swapWaits ++ [l] }) s1)
      | none => s1))

/-- SWAP_REQ: the partner asks for a copy of logical lane `lane` on physical lane `spare`. -/
def execSwapReq (n lane spare : Nat) (s : State) : Host.Outcome State Fault Refusal :=
  .next (onlyPort s (
    let p := getPort s n
    if portRuns s n && p.state == 7 && portCtl s n && p.txCopy.isNone && decide (lane < 16) then
      setPort n { p with txCopy := some (lane, spare), swapActive := true } s
    else s))

/-- SPARE_TRAINED: `agreed` consecutive symbols agree with the lane. -/
def execSpareTrained (n : Nat) (agreed : Nat) (s : State) : Host.Outcome State Fault Refusal :=
  .next (onlyPort s (
    let p := getPort s n
    match p.swap with
    | some (l, x, _) => if portRuns s n && p.state == 7 && decide (10 ^ 9 ≤ agreed) then setPort n { p with swap := some (l, x, true) } s else s
    | none => s))

/-- Received logical lane `l` moves to physical lane `x`: the old lane is marked failed, the seeds are stored, the swap is
logged (R187, R195). -/
def moveRx (n l x : Nat) (s : State) : State :=
  let p := getPort s n
  let old := laneOf p l
  let p' := { p with laneOf := mset 0 p.laneOf l (if x = l then 0 else x + 1), failedRx := setBit18 p.failedRx old }
  portLog n 1 0x0501 n old (storeSeeds n (setPort n p' s))

/-- LANE_SWITCH: a trained receive swap takes effect, else the transmit copy that the partner asked for. -/
def execLaneSwitch (n : Nat) (s : State) : Host.Outcome State Fault Refusal :=
  .next (onlyPort s (
    let p := getPort s n
    if !portRuns s n || p.state != 7 then s
    else match p.swap, p.txCopy with
    | some (l, x, true), _ =>
      nextSwap n (moveRx n l x (setPort n { p with swap := none, swapActive := p.txCopy.isSome } s))
    | _, some (l, x) =>
      let old := txLane p l
      let p1 := { p with txCopy := none, swapActive := p.swap.isSome, failedTx := setBit18 p.failedTx old
                         txLaneOf := mset 0 p.txLaneOf l (if x = l then 0 else x + 1) }
      portLog n 1 0x0501 n (old + 32) (storeSeeds n (setPort n { p1 with sparesTx := countTx p1 } s))
    | _, none => s))

/-- Spares that are no dead lane's to take: those in use, and the one that a swap trains. -/
def sparesBusy (p : Port) : List Nat := usedRx p ++ (match p.swap with | some (_, x, _) => [x] | none => [])

/-- Working spares that dead lanes may take. -/
def sparesFree (p : Port) : List Nat := (upto 18).filter (fun i => !(sparesBusy p).contains i && !p.failedRx.getLsbD i)

/-- The swap in progress is given up, and its decision waits again when `again` says so (R198). -/
def dropSwap (again : Bool) (p : Port) : Port :=
  match p.swap with
  | some (l, _, _) => { p with swap := none, swapActive := p.txCopy.isSome, swapWaits := if again then l :: p.swapWaits else p.swapWaits }
  | none => p

/-- DEAD_LANE: a received physical lane has been dead for 10 µs. A dead lane that was to be swapped is swapped no longer, and
a swap onto a spare that dies is decided afresh (R196 to R198). -/
def execDeadLane (n lane : Nat) (s : State) : Host.Outcome State Fault Refusal :=
  .next (onlyPort s (
    let p := getPort s n
    if !portRuns s n || p.state != 7 then s
    else match logicalOf p lane with
    | none =>
      let hit := match p.swap with | some (_, x, _) => x == lane | none => false
      let p1 := { p with failedRx := setBit18 p.failedRx lane }
      nextSwap n (setPort n (if hit then dropSwap true p1 else p1) s)
    | some l =>
      if p.dead.contains l then s
      else
        let mine := match p.swap with | some (k, _, _) => k == l | none => false
        let p1 := { (if mine then dropSwap false p else p) with swapWaits := p.swapWaits.filter (· != l) }
        if p1.dead.length < (sparesFree p1).length then setPort n { p1 with dead := p1.dead ++ [l] } s
        else failPort n frLanes (setPort n { p1 with failedRx := setBit18 p.failedRx lane } s)))

/-- DEAD_LANE_RESUME: the port carries flits again on the trained spares, the lowest-numbered first. -/
def execDeadLaneResume (n : Nat) (s : State) : Host.Outcome State Fault Refusal :=
  .next (onlyPort s (
    let p := getPort s n
    if !portRuns s n || p.state != 7 || !portCtl s n || p.dead.isEmpty then s
    else if (sparesFree p).length < p.dead.length then failPort n frLanes s
    else nextSwap n ((p.dead.zip (sparesFree p)).foldl (fun t e => moveRx n e.1 e.2 t) (setPort n { p with dead := [] } s))))

end Sys2Proof.Machine
end

