-- ==== Sys2Proof/Machine/Collect.lean ====
section
/-! DEFINITION. Collectives: the places of a piece's bytes, sums, packets, and what a member does with the pieces it
has (R211 to R213, R215 to R221, R224 to R227). -/

namespace Sys2Proof.Machine

/-! ### Descriptor fields (Table 11-2) -/

def cdAxis (v : Slot) : Nat := bfld v.desc 1 2
def cdB (v : Slot) : Nat := 128 * 2 ^ bfld v.desc 3 2
def cdMean (v : Slot) : Bool := bfld v.desc 6 1 == 1
def cdTag (v : Slot) : Nat := bfld v.desc 16 32
def cdRows (v : Slot) : Nat := bfld v.desc 64 24
def cdN (v : Slot) : Nat := bfld v.desc 88 24
def cdRow0 (v : Slot) : Nat := bfld v.desc 112 24
def cdBase (v : Slot) : Nat := bfld v.desc 160 57
def cdPitch (v : Slot) : Nat := bfld v.desc 256 32
def cdOut (v : Slot) : Nat := bfld v.desc 416 57
def cdHdr (v : Slot) : Nat := bfld v.desc 480 57
def cdHist (v : Slot) : Nat := bfld v.desc 544 57
def cdDone (v : Slot) : Nat := bfld v.desc 608 57
def cdHandle (v : Slot) : Nat := bfld v.desc 672 16

/-! ### Blocks and chunks (R212, R213) -/

/-- Block columns and blocks of the bucket. -/
def cdNbc (v : Slot) : Nat := cdiv (cdN v) (cdB v)
def cdBlocks (v : Slot) : Nat := cdiv (cdRows v) (cdB v) * cdNbc v

/-- Bucket blocks of chunk `j`, in header order. -/
def chunkBlocks (v : Slot) (j : Nat) : List Nat :=
  let q := cdBlocks v / v.n
  let r := cdBlocks v % v.n
  (upto q).map (j * q + ·) ++ (if j < r then [q * v.n + j] else [])

/-- Layer block of a bucket block. -/
def layerBlock (v : Slot) (k : Nat) : Nat := (cdRow0 v / cdB v + k / cdNbc v) * cdNbc v + k % cdNbc v

/-! ### The bytes of a piece (R215, R220, R224)

A piece is a list of bytes; each place it is read from or written to is a list of virtual addresses of the same length.
Elements beyond the band have a position in the piece and no address. -/

/-- Quarter `r` of chunk `j` in the bucket layout at `base`. -/
def bucketVas (v : Slot) (base j r : Nat) : List (Option Nat) :=
  let b := cdB v
  (chunkBlocks v j).flatMap (fun k => (upto (b / 4)).flatMap (fun y => (upto b).flatMap (fun x =>
    let row := k / cdNbc v * b + r * (b / 4) + y
    let col := k % cdNbc v * b + x
    (upto 4).map (fun t => if row < cdRows v ∧ col < cdN v then some (base + row * cdPitch v + 4 * col + t) else none))))

/-- Quarter `r` of the chunk buffer: block i at OUT + i·4b². -/
def chunkVas (v : Slot) (j r : Nat) : List (Option Nat) :=
  let b := cdB v
  (upto (chunkBlocks v j).length).flatMap (fun i => (upto (b * b)).map (fun t => some (cdOut v + i * (4 * b * b) + r * (b * b) + t)))

/-- Quarter `r` of chunk `j` in the working-weight tensor: per row, its mantissas and then its exponents (R220, R224). Each
byte comes with how many of its bits, from the lowest, belong to elements of the band (R212). -/
def tensorPlaces (v : Slot) (j r : Nat) : List (Option (Nat × Nat)) :=
  let d := v.wdesc.toNat
  let b := cdB v
  let w := tdBits d
  let stop := cdRow0 v + cdRows v
  (chunkBlocks v j).flatMap (fun k =>
    let r0 := cdRow0 v + k / cdNbc v * b
    let c0 := k % cdNbc v * b
    (upto (b / 4)).flatMap (fun y =>
      let i1 := c0 + r * (b / 4) + y
      let (row, _, ea) := tdPlace 1 d (r0, i1, 0, 0)
      let mants := (upto (cdiv (b * w) 8)).map (fun t =>
        if i1 < tdDim d 1 ∧ 8 * t < (stop - r0) * w then some (row + r0 * w / 8 + t, min 8 ((stop - r0) * w - 8 * t)) else none)
      let exps := if tdBM d then (upto (b / 32)).map (fun t =>
        if i1 < tdDim d 1 ∧ r0 + 32 * t < stop then some (ea + t, 8) else none) else []
      mants ++ exps))

/-- Length of quarter `r` of chunk `j` in bytes. -/
def pieceLen (v : Slot) (j : Nat) : Nat := if v.kind = cAG then (tensorPlaces v j 0).length else (chunkBlocks v j).length * cdB v * cdB v

/-- Accesses of a collective: they are translated under the command's context, and go on so when the context is gone
(R208); they move poison with the data. -/
def rxWho (v : Slot) : Who := match v.kept with | some e => .kept e.1 e.2 | none => .other
def rxAcc (v : Slot) : Acc := { ctx := v.ctx, who := rxWho v, consume := false }

/-- Reads the bytes of a piece with their poison; a position without an address holds an open byte. -/
def readPiece (a : Acc) (vas : List (Option Nat)) (j : Job) : List (Byte × Bool) × Job :=
  mapJob (fun va j1 => match va with
    | some x => rdByte a x j1
    | none => ((Config.mixByte j1.s.free, false), { j1 with s := nextFree j1.s })) vas j

/-- Writes the bytes of a piece. -/
def writePiece (a : Acc) (vas : List (Option Nat)) (bs : List (Byte × Bool)) (j : Job) : Job :=
  (vas.zip bs).foldl (fun u e => match e.1 with | some x => wrByte a x e.2.1 e.2.2 u | none => u) j

/-- A byte of which the low `n` bits are `a`'s and the others `b`'s. -/
def lowBits (n : Nat) (a b : Byte) : Byte := BitVec.ofNat 8 (a.toNat % 2 ^ n + b.toNat / 2 ^ n * 2 ^ n)

/-- Reads the bytes of a piece of a tensor: bits beyond the band are open. -/
def readPlaces (a : Acc) (ps : List (Option (Nat × Nat))) (j : Job) : List (Byte × Bool) × Job :=
  mapJob (fun p j1 => match p with
    | some (x, n) =>
      let (b, j2) := rdByte a x j1
      if n = 8 then (b, j2) else ((lowBits n b.1 (Config.mixByte j2.s.free), b.2), { j2 with s := nextFree j2.s })
    | none => ((Config.mixByte j1.s.free, false), { j1 with s := nextFree j1.s })) ps j

/-- Writes the low bits of a byte; the others keep their values. -/
def wrBits (a : Acc) (va n : Nat) (b : Byte × Bool) (j : Job) : Job :=
  match translate j.s a.ctx (va % 2 ^ 64) accWrite a.who with
  | (.ok loc, _) => wrByte a va (lowBits n b.1 (locByte j.s loc)) b.2 j
  | _ => wrByte a va b.1 b.2 j

/-- Writes the bytes of a piece of a tensor; elements beyond the band are left alone. -/
def writePlaces (a : Acc) (ps : List (Option (Nat × Nat))) (bs : List (Byte × Bool)) (j : Job) : Job :=
  (ps.zip bs).foldl (fun u e => match e.1 with | some (x, n) => if n = 8 then wrByte a x e.2.1 e.2.2 u else wrBits a x n e.2 u | none => u) j

/-! ### Sums (R211) -/

/-- Binary32 words of bytes, little-endian, each poisoned with any byte of it. -/
def toWords : List (Byte × Bool) → List (W32 × Bool)
  | a :: b :: c :: d :: l => (BitVec.ofNat 32 (leNat [a.1, b.1, c.1, d.1]), a.2 || b.2 || c.2 || d.2) :: toWords l
  | _ => []

def ofWords (ws : List (W32 × Bool)) : List (Byte × Bool) := ws.flatMap (fun w => (leBytes 4 w.1.toNat).map (·, w.2))

/-- A running sum: each element's bits, whether it is poisoned, whether an addition has overflowed. -/
abbrev Sum := Option (List (W32 × Bool × Bool))

/-- Adds a term that is present; a missing term is left out. -/
def addTerm (a : Sum) (x : Option (List (W32 × Bool))) : Sum :=
  match a, x with
  | a, none => a
  | none, some l => some (l.map (fun w => (w.1, w.2, false)))
  | some s, some l => some ((s.zip l).map (fun e =>
      let r := addR fmt32 .rne (val32 e.1.1) (val32 e.2.1)
      (BitVec.ofNat 32 r.bits, e.1.2.1 || e.2.2, e.1.2.2 || r.cnt == 2)))

/-- Poison by 64-byte unit: a unit is poisoned with any byte of it. -/
def unitPoison (bs : List (Byte × Bool)) : List Nat :=
  ((bs.zipIdx.filter (fun e => e.1.2)).map (fun e => e.2 / 64)).eraseDups

/-- Bytes of a unit that is poisoned are all poisoned. -/
def spread (bs : List (Byte × Bool)) : List (Byte × Bool) :=
  let p := unitPoison bs
  bs.zipIdx.map (fun e => (e.1.1, p.contains (e.2 / 64)))

/-! ### Pieces at this member -/

/-- Key of a piece: stage 0 reduction or 1 gather, chunk, quarter, stream. -/
def pieceKey (stage j r : Nat) (plus : Bool) : Nat := ((stage * 128 + j) * 4 + r) * 2 + b01 plus

/-- Key of the bytes of a permute's receive entry, by position. -/
def shardKey (i : Nat) : Nat := 4096 + i

def getPiece (v : Slot) (key : Nat) : Piece := mget {} v.pieces key
def setPiece (key : Nat) (p : Piece) (v : Slot) : Slot := { v with pieces := mset {} v.pieces key p }

/-- The piece has been received: its header, and LENGTH units unless it is empty (R221). -/
def complete (p : Piece) : Bool := p.hasHdr && (p.empty || decide (p.len ≤ p.units))

/-- The LENGTH of a piece is not what the descriptor implies (R221). -/
def odd (v : Slot) (j : Nat) (p : Piece) : Bool := p.hasHdr && !p.empty && 64 * p.len != pieceLen v j

/-- Bytes of a piece as received. -/
def pieceBytes (len : Nat) (p : Piece) : List (Byte × Bool) := (upto len).map (fun i => (mget 0 p.data i, mget false p.poison (i / 64)))

/-- Marks a piece as done with; its bytes are kept no longer. -/
def pieceSent (p : Piece) : Piece := { hasHdr := true, mask := p.mask, empty := p.empty, sent := true }

/-! ### Packets (R210, R220, Tables 11-7 and 11-8) -/

/-- Coordinate of the adjacent member. -/
def neighbour (s : State) (v : Slot) (plus : Bool) : Nat :=
  let a := cdAxis v
  let x := if plus then (v.me + 1) % v.n else (v.me + v.n - 1) % v.n
  s.et.coord.toNat - coordOn s.et.coord a * 2 ^ axisLo a + x * 2 ^ axisLo a

/-- 64-byte units of a DATA packet at most, and what is left of a piece of `len` bytes behind unit `o`. -/
def maxUnits : Nat := 511

/-- Sends bytes in DATA packets of at most 32,704 bytes; `cdata` is the class data without its offset. -/
def sendData (dest ctx : Nat) (port : Option Nat) (cdata : Nat) (bs : List (Byte × Bool)) (s : State) : State :=
  let units := bs.length / 64
  let poison := unitPoison bs
  (upto (cdiv units maxUnits)).foldl (fun t i =>
    let part := (bs.drop (64 * maxUnits * i)).take (64 * maxUnits)
    let p : Packet :=
      { header := mkHeader dest s.et.coord.toNat clData (flitsFor part.length) ctx port (cdata + 2 ^ 43 * (maxUnits * i))
        body := part.map Prod.fst
        poison := (poison.filter (fun u => u / maxUnits == i)).map (· % maxUnits) }
    routePacket none p t) s

/-- Sends a piece to the adjacent member: its data, unless it is empty, and its header. An empty piece has no data, and
its LENGTH is 0. -/
def sendPiece (v : Slot) (stage j r : Nat) (plus : Bool) (mask : BitVec 128) (bs : Option (List (Byte × Bool))) (s : State) : State :=
  let port := some (portOf (cdAxis v) plus (r % 2))
  let dest := neighbour s v plus
  let s1 := match bs with
    | some l => sendData dest v.ctx port (cdTag v + 2 ^ 32 * j + 2 ^ 39 * r + 2 ^ 42 * stage) l s
    | none => s
  let cd := 2 ^ 2 * cdTag v + 2 ^ 34 * j + 2 ^ 41 * r + 2 ^ 43 * b01 bs.isNone + 2 ^ 44 * stage
    + 2 ^ 45 * (match bs with | some l => l.length / 64 | none => 0) + 2 ^ 64 * mask.toNat
  routePacket none { header := mkHeader dest s.et.coord.toNat clSignal 1 v.ctx port cd, body := [] } s1

/-! ### Endings (R227, Table 11-10) -/

/-- The record of a fault of a collective. -/
def rxRec (s : State) (v : Slot) (cls st reason level a0 a1 a2 : Nat) : FaultRec :=
  { engRec s v.q cls st reason level a0 a1 a2 with ctx := v.ctx, seq := v.seq, pc := v.pc }

/-- An access of a collective fails in translation: it is aborted as by a context reset, and its context is reset with
the fabric work (R91, R308). A context that is gone is not reset. -/
def rxXlat (k va acc : Nat) (o : XOut) (s : State) : State :=
  let v := getSlot s k
  let st := match o with | .poisonAt _ => stPoison | _ => stXlat
  let s1 := setResult v.queue v.id st (modSlot k (abortSlot st) s)
  let reset := fun (t : State) => if v.kept.isSome then t else ctxReset v.ctx stCtxReset true t
  match o with
  | .ok _ => s
  | .bad r l a => reset (addFault (rxRec s v cTranslation stXlat r 1 va (acc + 4 * l) a) false s1)
  | .poisonAt pa => reset (addFault (rxRec s v cPoison stPoison 0 1 pa va 0) false s1)

/-- The first failed access of a job, if any. -/
def rxErrs (k : Nat) (errs : List (Nat × Nat × XOut)) (s : State) : State :=
  match errs with
  | [] => s
  | e :: _ => rxXlat k e.1 e.2.1 e.2.2 s

/-- Performs a collective's writes, as operations of an idle cause: a packet that delivers them, or the collective's last
wait (R228). -/
def rxCommit (k cause : Nat) (j : Job) : State := rxErrs k j.errs (jobCommit cause j)

/-- First poisoned byte of what was read: its home line and its virtual address. -/
def firstPoison (s : State) (v : Slot) (vas : List (Option Nat)) (bs : List (Byte × Bool)) : Option (Nat × Nat) :=
  match (vas.zip bs).find? (fun e => e.1.isSome && e.2.2) with
  | some e =>
    let va := e.1.getD 0
    match translate s v.ctx va accRead (rxWho v) with
    | (.ok l, _) => some (l / 64 * 64, va)
    | _ => none
  | none => none

/-- Reads this member's contribution to a chunk that it decided IN, its four quarters at once: they carry one mask (R218), so
a chunk of which one byte cannot be read goes without the term. Poison in it marks the collective (Table 11-10). -/
def fetchTerms (k j : Nat) (s : State) : State :=
  let v := getSlot s k
  if mget 0 v.decisions j ≠ dIn ∨ mget 0 v.fetched j ≠ 0 then s
  else
    let vas := (upto 4).map (fun r => bucketVas v (cdBase v) j r)
    let (bs, u) := mapJob (readPiece (rxAcc v)) vas { s }
    if u.errs.isEmpty then
      let s1 := modSlot k (fun w => { w with
        fetched := mset 0 w.fetched j 1
        terms := bs.zipIdx.foldl (fun m e => mset [] m (4 * j + e.2) e.1) w.terms }) u.s
      match firstPoison u.s v vas.flatten bs.flatten with
      | some p => modSlot k (fun w => { w with poisonAt := some (w.poisonAt.getD p), ending := some (w.ending.getD stPoison) }) s1
      | none => s1
    else rxErrs k u.errs (modSlot k (fun w => { w with fetched := mset 0 w.fetched j 2 }) u.s)

/-- This member's term of quarter `r` of chunk `j`, where it contributes. -/
def termOf (v : Slot) (j r : Nat) : Option (List (Byte × Bool)) :=
  if mget 0 v.fetched j = 1 then some (mget [] v.terms (4 * j + r)) else none

/-! ### Reduction streams (R210, R211, R216, R217) -/

def memberBit (v : Slot) : BitVec 128 := BitVec.ofNat 128 (2 ^ v.me)

/-- Forwards quarter `r` of chunk `j` along a stream of which this member is one, once it is received and decided; a piece of
another LENGTH than the descriptor's goes on unchanged. -/
def pumpReduce (k j : Nat) (x : Nat × Bool) (s : State) : State :=
  let v := getSlot s k
  let key := pieceKey 0 j x.1 x.2
  let p := getPiece v key
  match onReduce v x.2 x.1 j with
  | none => s
  | some d =>
    let starts := d == reduceSpan v x.2 x.1 j
    if p.sent || mget 0 v.decisions j == 0 || !(starts || complete p) then s
    else if !starts && odd v j p then
      modSlot k (setPiece key (pieceSent p)) (sendPiece v 0 j x.1 x.2 p.mask (some (pieceBytes (64 * p.len) p)) s)
    else
      let came := if starts || p.empty then none else some (toWords (pieceBytes (pieceLen v j) p))
      let mask := if starts then 0 else p.mask
      let s1 := fetchTerms k j s
      let own := termOf (getSlot s1 k) j x.1
      let sum := addTerm (addTerm none came) (own.map toWords)
      let bs := sum.map (fun l => spread (ofWords (l.map (fun e => (e.1, e.2.1)))))
      let mask' := if own.isSome then mask ||| memberBit v else mask
      modSlot k (setPiece key (pieceSent p)) (sendPiece v 0 j x.1 x.2 mask' bs s1)

/-- Streams that reach this member for its own chunk. -/
def ownStreams (v : Slot) : List (Nat × Bool) := streams.filter (fun x => reduceSpan v x.2 x.1 v.me != 0)

/-- One quarter of the owner's chunk: (p₊ + p₋) + x (R211), for this contribution. -/
def reducedQuarter (v : Slot) (r : Nat) (own : Option (List (Byte × Bool))) : Sum :=
  let part := fun (plus : Bool) =>
    let p := getPiece v (pieceKey 0 v.me r plus)
    if p.hasHdr && !p.empty && !odd v v.me p then some (toWords (pieceBytes (pieceLen v v.me) p)) else none
  addTerm (addTerm (addTerm none (part true)) (part false)) (own.map toWords)

/-- Contributor mask of the owner's chunk. -/
def ownMask (v : Slot) (mine : Bool) : BitVec 128 :=
  (ownStreams v).foldl (fun m x =>
    let p := getPiece v (pieceKey 0 v.me x.1 x.2)
    if odd v v.me p then m else m ||| p.mask) (if mine then memberBit v else 0)

def popcount (m : BitVec 128) : Nat := ((upto 128).filter (fun i => m.getLsbD i)).length

/-- An element of RX.AR as written: divided by the popcount with MEAN = 1, +0 where the mask is 0 (R225). -/
def meanWord (v : Slot) (mask : BitVec 128) (w : W32) : Res :=
  if mask = 0 then { bits := 0 }
  else if cdMean v then divR fmt32 .rne (val32 w) (ofInt (popcount mask) 0)
  else { bits := w.toNat, cnt := if (val32 w).isNan then 1 else 0 }

/-- Counts elements written at OUT: a NaN in NUM_NAN, else what its last operation counts (R41, R227). -/
def countOut (vas : List (Option Nat)) (ws : List (W32 × Nat)) (n : Nums) : Nums :=
  countAll n (ws.zipIdx.map (fun e =>
    if (vas.getD (4 * e.2) none).isNone then 0 else if (val32 e.1.1).isNan then 1 else e.1.2))

/-- What a sum counts: an addition that overflowed, in NUM_OVF. -/
def sumCount (o : Bool) : Nat := if o then 2 else 0

/-- The chunk header of Table 11-5. -/
def chunkHeader (v : Slot) (mask : BitVec 128) : List Byte :=
  let bl := chunkBlocks v v.me
  leBytes 16 mask.toNat ++ leBytes 2 bl.length ++ leBytes 2 0 ++ leBytes 4 (cdTag v) ++ leBytes 8 0 ++ bl.flatMap (fun k => leBytes 4 (layerBlock v k))

/-- Writes one quarter of RX.AR's output and the chunk's mask (R225). -/
def writeAr (k cause j r : Nat) (mask : BitVec 128) (ws : List (W32 × Bool × Bool)) (s : State) : State :=
  let v := getSlot s k
  if v.halted then s
  else
    let vas := bucketVas v (cdOut v) j r
    let rs := ws.map (fun e => let m := meanWord v mask e.1; (BitVec.ofNat 32 m.bits, e.2.1, if e.2.2 then sumCount true else m.cnt))
    let u := writePiece (rxAcc v) vas (ofWords (rs.map (fun e => (e.1, e.2.1)))) { s }
    let u1 := wrBytes (rxAcc v) (cdHdr v + 16 * j) ((leBytes 16 mask.toNat).map (·, false)) u
    modSlot k (fun w => { w with nums := countOut vas (rs.map (fun e => (e.1, e.2.2))) w.nums }) (rxCommit k cause u1)

/-- Sends a quarter of the owner's chunk outward in both gather streams (R210, R224, R225). -/
def sendGather (k r : Nat) (mask : BitVec 128) (bs : List (Byte × Bool)) (s : State) : State :=
  let v := getSlot s k
  [true, false].foldl (fun t plus => if gatherSpan v plus r v.me = 0 then t else sendPiece v 1 v.me r plus mask (some bs) t) s

/-- The owner's part of a reduction, once every stream has come in and it has decided: RX.RS writes chunk and header,
RX.AR writes its output and sends the gather (R211, R215, R217, R225). -/
def pumpOwner (k : Nat) (s : State) : State :=
  let v := getSlot s k
  let j := v.me
  if v.ownDone || !(liveChunks v).contains j || mget 0 v.decisions j == 0
    || !(ownStreams v).all (fun x => complete (getPiece v (pieceKey 0 j x.1 x.2))) then s
  else
    let s1 := fetchTerms k j s
    let v1 := getSlot s1 k
    let mask := ownMask v (mget 0 v1.fetched j == 1)
    let quarters := (upto 4).map (fun r =>
      (reducedQuarter v r (termOf v1 j r)).getD (List.replicate (pieceLen v j / 4) (0, false, false)))
    let s2 := modSlot k (fun w => { w with ownDone := true }) s1
    let s3 := { s2 with rx := { s2.rx with short := if popcount mask < v.n then satAdd max32 s2.rx.short 1 else s2.rx.short } }
    if v.kind = cRS then
      if (getSlot s3 k).halted then s3
      else
        let u := quarters.zipIdx.foldl (fun u e =>
          writePiece (rxAcc v) (chunkVas v j e.2) (spread (ofWords (e.1.map (fun w => (w.1, w.2.1))))) u) ({ s := s3 } : Job)
        let u1 := wrBytes (rxAcc v) (cdHdr v) ((chunkHeader v mask).map (·, false)) u
        modSlot k (fun w => { w with nums := quarters.zipIdx.foldl (fun n e =>
          countOut (bucketVas v 0 j e.2) (e.1.map (fun x => (x.1, sumCount x.2.2))) n) w.nums }) (rxCommit k v.cause u1)
    else
      quarters.zipIdx.foldl (fun t e =>
        writeAr k v.cause j e.2 mask e.1 (sendGather k e.2 mask (spread (ofWords (e.1.map (fun w => (w.1, w.2.1))))) t)) s3

/-! ### Gather streams (R224, R225) -/

/-- A received piece of another owner's chunk is written, and forwarded unless the stream ends here. -/
def pumpGather (k j : Nat) (x : Nat × Bool) (s : State) : State :=
  let v := getSlot s k
  let key := pieceKey 1 j x.1 x.2
  let p := getPiece v key
  match onGather v x.2 x.1 j with
  | none => s
  | some d =>
    if p.sent || !complete p then s
    else
      let bs := pieceBytes (64 * p.len) p
      let s1 := if d < gatherSpan v x.2 x.1 j then sendPiece v 1 j x.1 x.2 p.mask (if p.empty then none else some bs) s else s
      let s2 := modSlot k (setPiece key (pieceSent p)) s1
      if odd v j p then s2
      else if v.kind = cAR then writeAr k (1 + cdAxis v) j x.1 p.mask ((toWords bs).map (fun w => (w.1, w.2, false))) s2
      else if v.halted then s2
      else rxCommit k (1 + cdAxis v) (writePlaces (rxAcc v) (tensorPlaces v j x.1) bs { s := s2 })

/-- The owner of an all-gather starts when its input is ready (R224). It moves values, so poison does not fault it (R99). -/
def pumpSource (k : Nat) (s : State) : State :=
  let v := getSlot s k
  if v.ownDone || !v.ready || v.halted || !(liveChunks v).contains v.me then s
  else
    (upto 4).foldl (fun t r =>
      let (bs, u) := readPlaces (rxAcc v) (tensorPlaces v v.me r) { s := t }
      if u.errs.isEmpty then sendGather k r 0 (spread bs) u.s else rxErrs k u.errs u.s)
      (modSlot k (fun w => { w with ownDone := true }) s)

/-! ### The deadline history (R219) -/

/-- Once every chunk is decided, the slack goes into the record, in one update. -/
def pumpHistory (k : Nat) (s : State) : State :=
  let v := getSlot s k
  if v.recorded || !v.normal || !(undecided v).isEmpty then s
  else
    let s0 := modSlot k (fun w => { w with recorded := true }) s
    match readVa s0 v.ctx (cdHist v) 66 accTally (rxWho v) with
    | (.fail a o, s1) => rxXlat k a accTally o s1
    | (.ok bs, s1) =>
      let at_ := fun (i : Nat) => (bs.getD i 0).toNat
      let slack := if v.outSeen then v.dl else v.slack
      let u := wrBytes (rxAcc v) (cdHist v + 4 * (at_ 65 % 16)) ((leBytes 4 slack).map (·, false)) { s := s1 }
      let u1 := wrBytes (rxAcc v) (cdHist v + 64) ((leBytes 2 (min 16 (at_ 64 + 1) + 256 * ((at_ 65 + 1) % 16))).map (·, false)) u
      rxCommit k v.cause u1

/-! ### Permute (R226, Table 11-9) -/

def peAddr (e : BitVec 256) : Nat := bfld e 0 57
def peLen (e : BitVec 256) : Nat := bfld e 64 32
def pePeer (e : BitVec 256) : Nat := bfld e 96 17
def peRecv (e : BitVec 256) : Bool := e.getLsbD 113
def peStaged (e : BitVec 256) : Bool := e.getLsbD 114
def peEntry (e : BitVec 256) : Nat := bfld e 115 9
def peStage (e : BitVec 256) : Nat := bfld e 128 64

/-- Addresses of a shard's bytes. -/
def runVas (base n : Nat) : List (Option Nat) := (upto n).map (fun i => some (base + i))

/-- Where a receive entry's bytes are written as they arrive. -/
def recvBase (v : Slot) (e : BitVec 256) : Nat := if peStaged e then (cdHdr v + peStage e) % 2 ^ 64 else peAddr e

/-- An address that a receive entry with STAGED = 0 may overwrite: what is sent from it is some mixture. -/
def mayClash (v : Slot) (a : Nat) : Bool :=
  v.entries.any (fun e => peRecv e && !peStaged e && decide (peAddr e ≤ a) && decide (a < peAddr e + peLen e))

/-- Bytes of a packet's data: as many units as its flits hold, or what is left. -/
def dataUnits (p : Packet) (left : Nat) : Nat := min (8 * (pktLenM1 p.header + 1) - 1) left

/-- Positions of entries that satisfy a test. -/
def entriesWhere (v : Slot) (t : Nat → BitVec 256 → Bool) : List (Nat × BitVec 256) :=
  (v.entries.zipIdx.filter (fun e => t e.2 e.1)).map (fun e => (e.2, e.1))

/-- A permute shard's data reach their receive entry; `cause` is the idle cause of what brought them. -/
def recvShard (k cause : Nat) (p : Packet) (s : State) : State :=
  let v := getSlot s k
  let entry := bfld p.header 96 9
  let off := bfld p.header 107 22
  match entriesWhere v (fun i e => peRecv e && peEntry e == entry && pePeer e == pktSrc p.header && !mget false v.stored i) with
  | [] => s
  | (i, e) :: _ =>
    let u := dataUnits p (peLen e / 64 - off)
    let bs := (p.body.take (64 * u)).zipIdx.map (fun b => (b.1, p.poison.contains (b.2 / 64)))
    let pc := getPiece v (shardKey i)
    let s1 := modSlot k (fun w => { setPiece (shardKey i) { pc with units := pc.units + u } w with cause }) s
    if v.halted then s1 else rxCommit k cause (writePiece (rxAcc v) (runVas (recvBase v e + 64 * off) (64 * u)) bs { s := s1 })

/-- A send entry to this peer, of this number, is acknowledged. -/
def recvAck (k cause entry peer : Nat) (s : State) : State :=
  modSlot k (fun v =>
    match entriesWhere v (fun i e => !peRecv e && peEntry e == entry && pePeer e == peer && !mget false v.acked i) with
    | (i, _) :: _ => { v with acked := mset false v.acked i true, cause }
    | [] => v) s

/-- Sends shards or acknowledgements under R200; what is addressed to this module stays on it. -/
def sendShard (k : Nat) (e : BitVec 256) (bs : List (Byte × Bool)) (s : State) : State :=
  let v := getSlot s k
  let cd := cdTag v + 2 ^ 32 * peEntry e + 2 ^ 41
  let t := sendData (pePeer e) v.ctx none cd bs { s with et := { s.et with inbox := [] } }
  t.et.inbox.foldl (fun u p => recvShard k causeEngine p.2 u) { t with et := { t.et with inbox := s.et.inbox } }

def sendAck (k : Nat) (e : BitVec 256) (s : State) : State :=
  let v := getSlot s k
  if pePeer e = s.et.coord.toNat then recvAck k causeEngine (peEntry e) (pePeer e) s
  else
    let cd := 1 + 2 ^ 2 * cdTag v + 2 ^ 34 * peEntry e
    routePacket none { header := mkHeader (pePeer e) s.et.coord.toNat clSignal 1 v.ctx none cd, body := [] } s

/-- A permute's work: it sends its shards, acknowledges what it has stored, and copies staged shards once every send is
acknowledged (R226). -/
def pumpPermute (k : Nat) (s : State) : State :=
  let v := getSlot s k
  if v.halted then s
  else
    let s1 :=
      if v.shardsSent || !v.ready then s
      else
        (entriesWhere v (fun _ e => !peRecv e)).foldl (fun t ie =>
          let (bs, u) := readPiece (rxAcc v) (runVas (peAddr ie.2) (peLen ie.2)) { s := t }
          let mixed := bs.zipIdx.map (fun b =>
            if mayClash v (peAddr ie.2 + b.2) then (Config.mixByte (u.s.free + b.2), b.1.2) else b.1)
          let t1 := { u.s with free := u.s.free + bs.length }
          if u.errs.isEmpty then sendShard k ie.2 (spread mixed) t1 else rxErrs k u.errs t1)
          (modSlot k (fun w => { w with shardsSent := true }) s)
    let v1 := getSlot s1 k
    let s2 := (entriesWhere v1 (fun i e => peRecv e && !mget false v1.stored i && decide (peLen e ≤ 64 * (getPiece v1 (shardKey i)).units))).foldl
      (fun t ie => sendAck k ie.2 (modSlot k (fun w => { w with stored := mset false w.stored ie.1 true }) t)) s1
    let v2 := getSlot s2 k
    if (entriesWhere v2 (fun i e => !peRecv e && !mget false v2.acked i)).isEmpty then
      (entriesWhere v2 (fun i e => peRecv e && peStaged e && mget false v2.stored i && !mget false v2.copied i)).foldl (fun t ie =>
        let (bs, u) := readPiece (rxAcc v2) (runVas (recvBase v2 ie.2) (peLen ie.2)) { s := t }
        modSlot k (fun w => { w with copied := mset false w.copied ie.1 true })
          (rxCommit k v2.cause (writePiece (rxAcc v2) (runVas (peAddr ie.2) (peLen ie.2)) bs u))) s2
    else s2

/-! ### One collective's work, and its end (R207, R227) -/

/-- A poisoned FILL_TALLY faults the collective that watches it (R99). -/
def tallyFault (k : Nat) (s : State) : State :=
  let v := getSlot s k
  if v.ready || v.halted || !locPoison s v.fillLoc then s
  else rxXlat k (bfld v.desc 288 57) accTally (.poisonAt (lineAddr v.fillLoc)) s

/-- What a collective does with what it has. -/
def pumpSlot (k : Nat) (s00 : State) : State :=
  let live := (getSlot s00 k).live && engUp s00 kRX (k / 64)
  let s := if live then tallyFault k s00 else s00
  let v := getSlot s k
  if !live then s
  else if v.kind = cPERM then pumpPermute k s
  else
    let others := (liveChunks v).filter (· != v.me)
    let each := fun (f : Nat → Nat × Bool → State → State) (t : State) => others.foldl (fun t1 j => streams.foldl (fun t2 x => f j x t2) t1) t
    let s1 := if reduces v then pumpHistory k (pumpOwner k (each (pumpReduce k) s)) else pumpSource k s
    if v.kind = cRS then s1 else each (pumpGather k) s1

/-- Every open collective goes on with what it has. -/
def rxPump (s : State) : State := (mkeys s.rx.slots).foldl (fun t k => pumpSlot k t) s

/-- Every piece that passes this member has been sent on. -/
def transitDone (v : Slot) : Bool :=
  let others := (liveChunks v).filter (· != v.me)
  others.all (fun j => streams.all (fun x =>
    (!reduces v || (onReduce v x.2 x.1 j).isNone || (getPiece v (pieceKey 0 j x.1 x.2)).sent)
    && (v.kind == cRS || (onGather v x.2 x.1 j).isNone || (getPiece v (pieceKey 1 j x.1 x.2)).sent)))

/-- A piece that has begun to arrive has yet to be sent on. -/
def begun (v : Slot) : Bool :=
  (liveChunks v).any (fun j => j != v.me && streams.any (fun x => [0, 1].any (fun stage =>
    let p := getPiece v (pieceKey stage j x.1 x.2)
    !p.sent && (p.hasHdr || p.units != 0))))

/-- This member's part of the collective is done (R207, R227). A collective whose line has changed forwards what has begun
to reach it, and waits for no piece of the old ring (R222). -/
def partDone (v : Slot) : Bool :=
  let own := v.ownDone || !(liveChunks v).contains v.me
  if v.halted then
    v.kind == cPERM || (if v.ending = some stPeerDown then !begun v else transitDone v && (own || v.kind != cAR))
  else if v.kind = cPERM then
    v.shardsSent && (entriesWhere v (fun i e =>
      if peRecv e then !mget false v.stored i || (peStaged e && !mget false v.copied i) else !mget false v.acked i)).isEmpty
  else transitDone v && own && (!reduces v || (undecided v).isEmpty)

end Sys2Proof.Machine
end

