-- ==== Sys2Proof/Machine/HostLink.lean ====
section
/-! DEFINITION. Host links, the HDM window, host states, feature negotiation and the registers that the
host writes (chapters 12 and 14). -/

namespace Sys2Proof.Machine

/-! ### Functions and the HDM window (R231 to R234) -/

/-- FUNCTION_LEVEL_RESET (R232). -/
def execFunctionLevelReset (f : Bool) (s : State) : Host.Outcome State Fault Refusal :=
  .next (keepRegs s (if s.pw.powered then unlessStopped (.fn f) (functionReset f) s else s))

/-- Function 1 takes over: every context of function 0 is its own, host translations are dropped, and its
host state is ATTACHED with a new deadline and no quiesce of it runs (R231, R260). -/
def promote (s : State) : State :=
  let fe := { s.fe with
    ctxs := s.fe.ctxs.map (fun e => if e.2.state ≠ ctxFree then (e.1, { e.2 with owner := true }) else e)
    queues := s.fe.queues.map (fun e => if e.2.live then (e.1, { e.2 with owner := true }) else e) }
  rewatch true (modFn true (fun v => { v with attach := 0, quiescing := false }) (dropHostXlat { s with fe := fe, hs := { s.hs with failover := true } }))

/-- Function 1 exists in STANDBY and has not taken over. -/
def standbyReady (s : State) : Bool :=
  s.pw.powered && !s.hs.l1Act && !s.hs.failover && fld (gradeHostLinks s.bt.grade) 1 1 == 1 && licenceValid s

/-- FUNCTION1_PROMOTION (R231): link 0 down for 1 s, or a Drone takeover. -/
def execFunction1Promotion (takeover : Bool) (s : State) : Host.Outcome State Fault Refusal :=
  .next (keepRegs s (
    if standbyReady s && ((takeover && (getProc s 2).activeRole) || !s.hs.f0.linkUp) then promote s else s))

/-- HOST_LINK0_DOWN (R234). -/
def execHostLink0Down (s : State) : Host.Outcome State Fault Refusal :=
  .next (onlyMgmt s (if s.hs.f0.linkUp then linkDown false s else s))

/-- Device physical address behind a window address, when the decoder is committed on a link that is up
and the module is not stopped (R233, R345). -/
def hdmTarget (s : State) (addr : W64) (len : Nat) : Option Nat :=
  if s.hs.f0.linkUp && s.hs.hdmLocked && s.ob.stopState == 0 && decide (addr.toNat + len ≤ s.hs.hdmSize * 2 ^ 30) then
    some (s.hs.hdmBase * 2 ^ 30 + addr.toNat)
  else none

/-- HDM_READ (R233, R99): the line, marked poisoned when it is, or while BAD is set. -/
def execHdmRead (addr : W64) (s : State) : Host.Outcome State Fault Refusal :=
  .next (onlyWork s (
    match hdmTarget s addr 1 with
    | none => s
    | some pa =>
      match (if s.hs.hdmBad then none else homeOf (partCount s) (pa / 64 * 64)) with
      | none => emit (.hdmData addr [] true) s
      | some h =>
        let t := { s with mem := readLine (h / 64) s.mem, hs := { s.hs with hdmHolds := mset false s.hs.hdmHolds (h / 64) true } }
        emit (.hdmData addr (memBytes t.mem h 64) (poisoned t.mem (h / 64))) t))

/-- Bytes written through the window, piece by piece at their homes. -/
def hdmStore : List (Nat × Nat) → List Byte → State → State
  | [], _, s => s
  | (pa, n) :: cs, bs, s =>
    hdmStore cs (bs.drop n) (match homeOf (partCount s) pa with | some h => storeAt causeHost h (bs.take n) s | none => s)

/-- Capacity in GiB that the decoder reports: 0 while BAD is set (R233). -/
def hdmCapacity (s : State) : Nat := if s.hs.hdmBad then 0 else s.hs.hdmSize

/-- HDM_WRITE (R233, R94): performed coherently at the home, or discarded while BAD is set. -/
def execHdmWrite (addr : W64) (bytes : List Byte) (s : State) : Host.Outcome State Fault Refusal :=
  .next (onlyWork s (
    match hdmTarget s addr bytes.length with
    | none => s
    | some pa =>
      if s.hs.hdmBad then s else hdmStore (lineChunks pa bytes.length) bytes s))

/-- What a write of HDM_CFG does (R233, Table 12-8): only while the decoder is uncommitted, kept in flash, checked against
the partitions in force; the HDM feature must be agreed (R289). -/
def hdmCfgSet (f : Bool) (v : W64) (s : State) : State :=
  if s.hs.hdmLocked || !agreed s f 18 then s
  else checkHdm { s with
    fl := { s.fl with hdmSize := bfld v 0 10, hdmBase := bfld v 16 16 }
    hs := { s.hs with hdmSize := bfld v 0 10, hdmBase := bfld v 16 16 } }

/-- HDM_CFG_WRITE. The host may uncommit the decoder before the write and commit it after. -/
def execHdmCfgWrite (f : Bool) (v : W64) (uncommit commit : Bool) (s : State) : Host.Outcome State Fault Refusal :=
  .next (onlyMgmt s (
    if !(droneUp s && pageServed s f 0x20098 && (getFn s f).linkUp) then s
    else
      let s0 := if uncommit then { s with hs := { s.hs with hdmLocked := false } } else s
      let s1 := hdmCfgSet f v s0
      if commit && hdmCapacity s1 != 0 then { s1 with hs := { s1.hs with hdmLocked := true } } else s1))

/-! ### Host states (R260, Table 12-17, R291) -/

/-- A function with a host state: its link has trained since cold power-on. -/
def hasHost (s : State) (f : Bool) : Bool := s.pw.powered && (getFn s f).trainedEver

/-- Moves a host state, with its HOST_STATE record. -/
def setAttach (f : Bool) (a : Nat) (s : State) : State :=
  droneLog 1 0x0604 (b01 f) a (modFn f (fun v => { v with attach := a }) s)

/-- What a write of HOST_HEARTBEAT does (R260): recorded in hub hardware; the function is ATTACHED. -/
def heartbeat (f : Bool) (s : State) : State := if hasHost s f && (getFn s f).attach != 0 then setAttach f 0 s else s

/-- HOST_HEARTBEAT (R260). -/
def execHostHeartbeat (f : Bool) (s : State) : Host.Outcome State Fault Refusal :=
  .next (onlyMgmt s (if (getFn s f).linkUp then heartbeat f s else s))

/-- HEARTBEAT_TIMEOUT (R260): 10 s without a heartbeat. NEG_AGREED returns to 0 (R289). -/
def execHeartbeatTimeout (f : Bool) (s : State) : Host.Outcome State Fault Refusal :=
  .next (onlyMgmt s (
    if hasHost s f && (getFn s f).attach == 0 then
      modFn f (fun v => { v with negAgreed := 0 }) (setAttach f 1 s)
    else s))

/-- The Drone stops fetching on every queue of the function's contexts: completion words go to shadows. -/
def beginQuiesce (f : Bool) (s : State) : State :=
  let s1 := modFn f (fun v => { v with quiescing := true }) s
  { s1 with fe := { s1.fe with queues := s1.fe.queues.map (fun e =>
      if e.2.live ∧ e.2.owner = f then (e.1, { e.2 with sinkBad := true }) else e) } }

/-- ORPHAN_GRACE_EXPIRY (R260, R291): the transition is recorded by the hub; the Drone acts on it when it
serves. -/
def execOrphanGraceExpiry (f : Bool) (s : State) : Host.Outcome State Fault Refusal :=
  .next (onlyMgmt s (
    if hasHost s f && (getFn s f).attach == 1 then
      let s1 := setAttach f 2 s
      if droneUp s then beginQuiesce f s1 else s1
    else s))

/-- A dispatched command of a queue has completed, its queue context is blocked in a wait, or it is an IF, LOOP or CALL
whose buffer is fetched no further. -/
def settled (s : State) (q : Nat) (x : InFlight) : Bool :=
  x.result.isSome || (getQc s x.target).blocked || (getQ s q).frames.any (fun f => f.kind != 3 && f.id == x.id)

/-- QUIESCE_COMPLETE (R260): contexts QUIESCED, queues HALTED, the admin ring disabled. -/
def execQuiesceComplete (f : Bool) (s : State) : Host.Outcome State Fault Refusal :=
  .next (onlyMgmt s (
    let qs := queuesWhere s (fun _ v => v.owner == f)
    if (getFn s f).quiescing && qs.all (fun q => (getQ s q).inflight.all (settled s q)) then
      let s1 := qs.foldl (fun t q => modQ q (fun v => { v with state := qHalted }) t) s
      let s2 := (ownedCtxs s f).foldl (fun t c =>
        let x := getCtx t c
        setCtx c (if x.state = ctxResetting then { x with prior := ctxQuiesced } else { x with state := ctxQuiesced }) t) s1
      let s3 := modFn f (fun v => { v with quiescing := false, adminCfg := v.adminCfg &&& 0x3FF#64 }) s2
      if (getFn s f).attach = 2 then setAttach f 3 s3 else s3
    else s))

/-! ### Negotiation and the admin ring's switch (R289) -/

/-- A host write of function `f` to a Drone-served register is performed. -/
def writable (s : State) (f : Bool) (off : Nat) : Bool := (getFn s f).linkUp && pageServed s f off && droneUp s

/-- What the Drone agrees to for an offer (R289, Table 14-3). -/
def agree (v : W64) : W64 :=
  if bfld v 0 8 = 1 then
    let minor := min (bfld v 8 8) 3
    let allowed : Nat := 7 + (if 1 ≤ minor then 8 else 0) + (if 2 ≤ minor then 16 else 0) + (if 3 ≤ minor then 32 else 0)
    BitVec.ofNat 64 (1 + 2 ^ 8 * minor) ||| ((v &&& BitVec.ofNat 64 (allowed * 2 ^ 16)))
  else 0

/-- What a write of NEG_HOST_FEATURES does (R289). -/
def negSet (f : Bool) (v : W64) (s : State) : State :=
  let s1 := modFn f (fun x => { x with negHost := v &&& 0x3FFFFF#64, negAgreed := agree v }) s
  if bfld v 0 8 = 1 then s1 else droneLog 2 0x0603 (b01 f) (bfld v 0 8) s1

/-- NEG_HOST_FEATURES (R289). -/
def execNegHostFeatures (f : Bool) (v : W64) (s : State) : Host.Outcome State Fault Refusal :=
  .next (onlyMgmt s (if writable s f 0x18 then negSet f v s else s))

/-- What a write of ADMIN_CFG does (R289, Table 12-3): ENABLE needs an agreement and log values from 6 to 12. When ENABLE
becomes 1 the submission counter starts at 0. -/
def adminCfgSet (f : Bool) (v : W64) (s : State) : State :=
  let x := getFn s f
  let en := v.getLsbD 63
  let logsOk := decide (6 ≤ bfld v 0 5) && decide (bfld v 0 5 ≤ 12) && decide (6 ≤ bfld v 5 5) && decide (bfld v 5 5 ≤ 12)
  if en && (x.negAgreed == 0 || !logsOk) then s
  else
    let x1 := { x with adminCfg := v &&& 0x80000000000003FF#64 }
    if en && !x.adminCfg.getLsbD 63 then
      setFn f { x1 with adminSeq := 0, adminCount := 0, adminFetched := [], adminPolled := !canWatch s f (adminLine s f) } s
    else setFn f x1 s

/-- ADMIN_CFG_WRITE (R289). -/
def execAdminCfgWrite (f : Bool) (v : W64) (s : State) : Host.Outcome State Fault Refusal :=
  .next (onlyMgmt s (if writable s f 0x48 then adminCfgSet f v s else s))

/-- A partition has a queue. -/
def partHasQueue (s : State) (p : Nat) : Bool := s.fe.queues.any (fun e => e.2.live && (getCtx s e.2.ctx).part == p)

/-- What a write of PART_FRONT_MODE does (Table 12-6, R248, R289): a bit changes only while its partition has no queue;
a function that has not agreed TIERED cannot set a bit. -/
def frontModeSet (f : Bool) (v : W64) (s : State) : State :=
  let cleared : BitVec 8 := s.fe.modeRefused &&& ~~~(v.extractLsb' 8 8)
  let want : BitVec 8 := v.extractLsb' 0 8
  if want != 0 && !agreed s f 16 then { s with fe := { s.fe with modeRefused := cleared } }
  else
    let busy : BitVec 8 := (upto 8).foldl (fun b p => if partHasQueue s p then b ||| BitVec.ofNat 8 (2 ^ p) else b) 0
    let change := want ^^^ s.fe.mode
    { s with fe := { s.fe with mode := s.fe.mode ^^^ (change &&& ~~~busy), modeRefused := cleared ||| (change &&& busy) } }

/-- PART_FRONT_MODE_WRITE. -/
def execPartFrontModeWrite (f : Bool) (v : W64) (s : State) : Host.Outcome State Fault Refusal :=
  .next (onlyMgmt s (if writable s f 0x20008 then frontModeSet f v s else s))

/-! ### Registers with no row of their own (R235) -/

/-- A 64-bit register's new value under a 4-byte or 8-byte write of `v`: a write to one half changes only
that half. `old` fills the other half. -/
def mergeHalf (off size v old : Nat) : Nat :=
  if size = 8 then v
  else if off % 8 = 0 then old / 2 ^ 32 * 2 ^ 32 + v % 2 ^ 32
  else old % 2 ^ 32 + 2 ^ 32 * (v % 2 ^ 32)

/-- A device physical range lies wholly in backed HBM or chest memory. -/
def backedRange (s : State) (a len : Nat) : Bool :=
  !isCoreAddr a && (homeOf (partCount s) a).isSome && (homeOf (partCount s) (a + len - 1)).isSome
  && ((decide (a < 0x090000000000) && (if a < 2 ^ 40 then a / 2 ^ 36 == (a + len - 1) / 2 ^ 36 else a / 2 ^ 40 == (a + len - 1) / 2 ^ 40))
      || (decide (chestBase ≤ a) && a / 2 ^ 30 == (a + len - 1) / 2 ^ 30))

def anyCtx (s : State) (t : Ctx → Bool) : Bool := s.fe.ctxs.any (fun e => e.2.state != ctxFree && t e.2)
def anyGraph (s : State) : Bool := s.fe.graphs.any (fun e => e.2.stored || !e.2.versions.isEmpty)

/-- A dword of the MSI-X table: unmasking a vector whose pending bit is set sends its message. -/
def writeMsix (f : Bool) (k v : Nat) (s : State) : State :=
  let v' := if k % 4 = 3 then (v % 2) ^^^ 1 else v % 2 ^ 32
  let s1 := modFn f (fun x => { x with msix := mset 0 x.msix k (BitVec.ofNat 32 v') }) s
  let n := k / 4
  if k % 4 = 3 ∧ v % 2 = 0 ∧ mget false (getFn s1 f).pba n then
    emit (.msix f n) (modFn f (fun x => { x with pba := mset false x.pba n false }) s1)
  else s1

/-- A known mailbox command (Table 14-7). -/
def mbxKnown (c : Nat) : Bool := decide (1 ≤ c) && decide (c ≤ 5)

/-- A write of MBX_CTRL (R292): with GO while a command runs, the writer reads IN_USE; else the command
runs, or ends at once in BAD_ARGS. -/
def writeMbxCtrl (f : Bool) (v : Nat) (s : State) : State :=
  if fld v 63 1 = 0 then
    if s.hs.mbxState = 1 then s else { s with hs := { s.hs with mbxCtrl := BitVec.ofNat 64 (v % 2 ^ 20) } }
  else if s.hs.mbxState = 1 then modFn f (fun x => { x with mbxInUse := true }) s
  else
    let bad := decide (4096 < fld v 8 12) || !mbxKnown (fld v 0 8)
    { s with hs := { s.hs with mbxCtrl := BitVec.ofNat 64 (v % 2 ^ 20), mbxOwner := f, mbxDetail := 0, mbxState := if bad then 4 else 1
                               f0 := { s.hs.f0 with mbxInUse := false }, f1 := { s.hs.f1 with mbxInUse := false } } }

/-- Writes a 32-bit register at an offset. -/
def write32 (s : State) (o v : Nat) : State :=
  if 0x22000 ≤ o ∧ o < 0x22400 then
    if o % 0x40 = 0x0C ∧ 1 ≤ v % 256 ∧ v % 256 ≤ 168 then
      { s with mem := { s.mem with scrub := mset 0 s.mem.scrub ((o - 0x22000) / 0x40) (if v % 256 = 24 then 0 else v % 256) } }
    else s
  else match o with
    | 0x20000 => { s with fe := { s.fe with countReq := BitVec.ofNat 2 v, partRefused := s.fe.partRefused && fld v 16 1 == 0 } }
    | 0x21000 => if v = 0 then s else { s with rx := { s.rx with deadlineInit := v } }
    | 0x21004 => if v = 0 then s else { s with rx := { s.rx with deadlineMin := v } }
    | 0x21008 => if v = 0 then s else { s with rx := { s.rx with deadlineMax := v } }
    | _ => s

/-- A THERM_CFG field: from 70.0 °C to its default, other values ignored (Table 14-8). -/
def thermField (old v : Nat) : Nat := if 700 ≤ v ∧ v ≤ 950 then v else old

/-- Writes a 64-bit register at an 8-byte aligned offset: `v` is the merged value, `z` the same with 0 in
the half that was not written (for W1C fields). -/
def write64 (f : Bool) (o v z : Nat) (s : State) : State :=
  if 0x20040 ≤ o ∧ o < 0x20080 then
    let p := (o - 0x20040) / 8
    if anyCtx s (fun c => c.part == p) || v % 2 ^ 22 != 0 || !backedRange s v (2 ^ 22) then s
    else { s with fe := { s.fe with descBase := mset 0 s.fe.descBase p (BitVec.ofNat 64 v) } }
  else if 0x101000 ≤ o ∧ o < 0x101200 then
    let w := (o - 0x101000) / 0x20
    match o % 0x20 with
    | 0x00 => { s with ob := { s.ob with traceBase := mset 0 s.ob.traceBase w (v % 2 ^ 30 / 4096 * 4096), traceWptr := mset 0 s.ob.traceWptr w 0 } }
    | 0x08 => { s with ob := { s.ob with traceSize := mset 0 s.ob.traceSize w (min (v / 4096 * 4096) (64 * 2 ^ 20)), traceWptr := mset 0 s.ob.traceWptr w 0 } }
    | _ => s
  else match o with
  | 0x10 => if 10 ≤ v ∧ v ≤ 3600 then modFn f (fun x => { x with grace := v }) s else s
  | 0x28 => if 1 ≤ v ∧ v ≤ 1000 then modFn f (fun x => { x with poll := v }) s else s
  | 0x30 => modFn f (fun x => { x with adminRing := BitVec.ofNat 64 (v / 64 * 64) }) s
  | 0x38 => modFn f (fun x => { x with adminPi := BitVec.ofNat 64 (v / 8 * 8) }) s
  | 0x40 => modFn f (fun x => { x with adminCq := BitVec.ofNat 64 (v / 64 * 64) }) s
  | 0x20010 => if anyCtx s (fun _ => true) then s else { s with fe := { s.fe with xlatBase := BitVec.ofNat 64 (fld v 12 36 * 4096) } }
  | 0x20080 => if anyGraph s then s else { s with fe := { s.fe with graphBase := BitVec.ofNat 64 (v / 2 ^ 21 * 2 ^ 21) } }
  | 0x20088 => if anyGraph s then s else { s with fe := { s.fe with graphSize := BitVec.ofNat 64 v } }
  | 0x20090 => if agreed s f 19 || v % 2 == 0 then { s with fl := { s.fl with l1Mode := v % 2 == 1 } } else s
  | 0x24018 => { s with fl := { s.fl with fwPref := v % 2 == 1 } }
  | 0x25400 => { s with pw := { s.pw with thermCfg := BitVec.ofNat 32 (thermField (bfld s.pw.thermCfg 0 16) (fld v 0 16) + 2 ^ 16 * thermField (bfld s.pw.thermCfg 16 16) (fld v 16 16)) } }
  | 0x25408 => if 1000 ≤ v % 8192 ∧ v % 8192 ≤ 4200 then { s with pw := { s.pw with pwrCap := v % 8192 } } else s
  | 0x28008 => { s with fl := { s.fl with clamp := v % 2 == 1 } }
  | 0x29010 => { s with fl := { s.fl with pwrEvents := s.fl.pwrEvents &&& ~~~(BitVec.ofNat 64 z) } }
  | 0x60800 => modFn f (fun x => { x with qSel := v % 2 ^ 20 }) s
  | 0x80020 => { s with fr := { s.fr with escCfg := BitVec.ofNat 64 (v % 8) } }
  | 0x80028 => if 100 ≤ v ∧ v ≤ 600000 then { s with fr := { s.fr with waitDl := v } } else s
  | 0x86010 => { s with ob := { s.ob with dumpBase := BitVec.ofNat 64 (fld v 12 36 * 4096) } }
  | 0x86018 => { s with ob := { s.ob with dumpSize := BitVec.ofNat 64 v } }
  | 0x100000 => if fld v 63 1 = 0 then modFn f (fun x => { x with sampleSel := BitVec.ofNat 64 (v % 2 ^ 25) }) s else s
  | 0x100100 => { s with ob := { s.ob with traceCtrl := BitVec.ofNat 64 (fld v 0 5 + 2 ^ 16 * fld v 16 32) } }
  | 0x100110 => if v ≤ 10000 then { s with ob := { s.ob with syncPeriod := v } } else s
  | 0x100210 => if 1 ≤ v ∧ v ≤ 60000 then { s with ob := { s.ob with stopLimit := v } } else s
  | 0x100300 => if fld v 63 1 = 0 then { s with ob := { s.ob with loopCtrl := BitVec.ofNat 64 (v % 2 ^ 48) } } else s
  | 0x200010 => { s with fr := { s.fr with logSevMin := v % 4 } }
  | 0x200018 => if agreed s f 21 then { s with fw := { s.fw with traceEn := BitVec.ofNat 6 v } } else s
  | 0x201000 => writeMbxCtrl f v s
  | _ => s

/-- Offsets that hold 32-bit writable registers. -/
def is32 (o : Nat) : Bool :=
  o / 8 * 8 == 0x20000 || (decide (0x21000 ≤ o) && decide (o < 0x21040)) || (decide (0x22000 ≤ o) && decide (o < 0x22400))

/-- A host write of 4 or 8 bytes to registers without a row of their own, performed (R235). -/
def performWrite (f : Bool) (o size : Nat) (v : Nat) (s : State) : State :=
  if 0x202000 ≤ o ∧ o < 0x203000 then
    { s with hs := { s.hs with mbxData := putBytes (o - 0x202000) (leBytes size v) s.hs.mbxData } }
  else if 0x300000 ≤ o ∧ o < 0x308000 then
    if size = 8 then writeMsix f ((o - 0x300000) / 4 + 1) (v / 2 ^ 32) (writeMsix f ((o - 0x300000) / 4) (v % 2 ^ 32) s)
    else writeMsix f ((o - 0x300000) / 4) v s
  else if is32 o then
    if size = 8 then write32 (write32 s o (v % 2 ^ 32)) (o + 4) (v / 2 ^ 32) else write32 s o (v % 2 ^ 32)
  else
    let o8 := o / 8 * 8
    write64 f o8 (mergeHalf o size v (reg64 s f o8)) (mergeHalf o size v 0) s

end Sys2Proof.Machine
end

