-- ==== Sys2Proof/Machine/Resets.lean ====
section
/-! DEFINITION. Faults of engines, the array and the fabric, the resets, epochs, substitution, audits and
peer-down notices (chapter 15). -/

namespace Sys2Proof.Machine

/-! ### Engine, array and fabric faults (R302, R303) -/

/-- Physical site of a core engine, 0 of any other (Table 15-3). -/
def siteArg (s : State) (kind index : Nat) : Nat := if kind ≤ kDM then psite s index else 0

/-- The queue context that an engine's fault is charged to: the running one, else one with a command in
progress that is not blocked. -/
def faultQc (s : State) (kind index : Nat) (t : QCtx → Bool) : Option Nat :=
  let on := fun (k : Nat) (qc : QCtx) => qKind k == kind && qIndex k == index && qc.cmd.isSome && !qc.blocked && t qc
  match (getEng s (engKey kind index)).running with
  | some q => if t (getQc s q) then some q else (qcsWhere s on).head?
  | none => (qcsWhere s on).head?

/-- Work that an engine's hardware holds beside its queue contexts, of a context that satisfies a test: accepted AX
commands, open collectives. -/
def deviceWork (s : State) (kind index : Nat) (t : Nat → Bool) : Option (Nat × Nat × BitVec 56) :=
  if kind = kAX then ((getPart s index).cmds.find? (fun x => !x.ended && t x.ctx)).map (fun x => (x.ctx, x.q, x.seq))
  else if kind = kRX then (s.rx.slots.find? (fun e => e.1 / 64 == index && e.2.live && t e.2.ctx)).map (fun e => (e.2.ctx, e.2.q, e.2.seq))
  else none

/-- The record of a fault of an engine, naming the command concerned when there is one of a context that satisfies a
test. -/
def engineRec (s : State) (kind index : Nat) (t : Nat → Bool) (who : Option Nat) (cls status level a0 : Nat) : FaultRec :=
  let a1 := siteArg s kind index
  match who with
  | some q => engRec s q cls status 0 level a0 a1 0
  | none =>
    let base : FaultRec := { island := engIsland s kind index, cls, status, kind, part := engPart s kind index, level
                             arg0 := BitVec.ofNat 64 a0, arg1 := BitVec.ofNat 64 a1 }
    match deviceWork s kind index t with
    | some (c, q, seq) => { base with ctx := c, qctx := qCtxNo q, ctxv := true, seq := seq }
    | none => base

/-- ENGINE_HANG (R302): an engine with a command in progress makes no progress for 100 ms. No rule gives
the syndrome. -/
def execEngineHang (kind index : Nat) (s : State) : Host.Outcome State Fault Refusal :=
  .next (keepRegs s (
    let who := faultQc s kind index (fun _ => true)
    if !engUp s kind index || (who.isNone && (deviceWork s kind index (fun _ => true)).isNone) then s
    else
      let r := engineRec s kind index (fun _ => true) who cHang stEngReset 2 (Config.openWord (2 ^ 45 + s.free)).toNat
      beginEngine kind index false (addFault r false { s with free := s.free + 1 })))

/-- The reset that follows an engine's error (Table 15-4, R326). -/
def engineEscalation (kind index : Nat) (s : State) : State :=
  if kind ≤ kDM then beginCore index s else beginEngine kind index false s

/-- ENGINE_ERROR (R302): a context reset of the context named, then the engine's escalation. A record that names no
context names no command, so its status is 0 (Table 15-2). -/
def execEngineError (kind index : Nat) (ctx : Option Byte) (syndrome : W64) (s : State) : Host.Outcome State Fault Refusal :=
  .next (keepRegs s (
    if !engUp s kind index then s
    else
      let level := if kind ≤ kDM then 3 else 2
      match ctx with
      | some c =>
        let who := faultQc s kind index (fun qc => qc.ctx == c.toNat)
        let r := engineRec s kind index (· == c.toNat) who cEngine stCtxReset level syndrome.toNat
        let r' := { r with ctx := c.toNat, ctxv := true }
        engineEscalation kind index (ctxReset c.toNat stCtxReset (kind == kRX || kind == kUX) (addFault r' false s))
      | none =>
        let r : FaultRec := { island := engIsland s kind index, cls := cEngine, kind, part := engPart s kind index, level
                              arg0 := syndrome, arg1 := BitVec.ofNat 64 (siteArg s kind index) }
        engineEscalation kind index (addFault r false s)))

/-- ARRAY_ERROR (R302): a context reset, then a chip reset. The eight array islands of a die hold 256 rows
each. -/
def execArrayError (cd row col : Nat) (ctx : Option Byte) (s : State) : Host.Outcome State Fault Refusal :=
  .next (keepRegs s (
    if !(s.pw.powered && s.bt.computeDone) || frozenIsl s (0x900 + 8 * cd + min 7 (row / 256)) then s
    else
      let r : FaultRec := { island := 0x900 + 8 * cd + min 7 (row / 256), cls := cArray, kind := kAX
                            part := cdPart (partCount s) cd, level := 5, arg0 := BitVec.ofNat 64 cd, arg1 := BitVec.ofNat 64 row, arg2 := BitVec.ofNat 64 col }
      match ctx with
      | some c =>
        let p := cdPart (partCount s) cd
        let of := engineRec s kAX p (· == c.toNat) (faultQc s kAX p (fun qc => qc.ctx == c.toNat)) cArray stCtxReset 5 0
        let r' := { r with ctx := c.toNat, ctxv := true, status := stCtxReset, qctx := of.qctx, seq := of.seq, pc := of.pc }
        beginChip false true (ctxReset c.toNat stCtxReset false (addFault r' false s))
      | none => beginChip false true (addFault r false s)))

/-- A fabric error: its record, and with AUTO_POWER the request for a power cycle (R306). -/
def fabricError (link cls kind island : Nat) (s : State) : State :=
  let auto := s.fr.escCfg.getLsbD 0
  let r : FaultRec := { island, cls := cFabric, kind := 7, level := if auto then 6 else 0
                        arg0 := BitVec.ofNat 64 link, arg1 := BitVec.ofNat 64 cls, arg2 := BitVec.ofNat 64 kind }
  let s1 := addFault r false s
  if auto then unlessStopped (.req 4 (.fault 0 0)) (beginPowerCycle false) s1 else s1

/-- FABRIC_ERROR (R302, R373). -/
def execFabricError (link cls kind island : Nat) (s : State) : Host.Outcome State Fault Refusal :=
  .next (keepRegs s (if s.pw.powered then fabricError link cls kind island s else s))

/-! ### RESET_REQ (R312, Table 15-5) -/

/-- Levels of RESET_REQ. -/
def lvEngine : Nat := 1
def lvPartition : Nat := 2
def lvChip : Nat := 3
def lvPower : Nat := 4
def lvRelease : Nat := 5

def reqLevel (v : W64) : Nat := bfld v 0 3
def reqKind (v : W64) : Nat := bfld v 3 3
def reqIndex (v : W64) : Nat := bfld v 6 11
def reqPart (v : W64) : Nat := bfld v 17 3
def reqHold (v : W64) : Bool := v.getLsbD 20

/-- The function owns every context of the partition, or of the module. -/
def ownsPart (s : State) (f : Bool) (p : Nat) : Bool := s.fe.ctxs.all (fun e => e.2.state == ctxFree || e.2.part != p || e.2.owner == f)
def ownsAll (s : State) (f : Bool) : Bool := s.fe.ctxs.all (fun e => e.2.state == ctxFree || e.2.owner == f)

/-- Some partition is held. -/
def anyHeld (s : State) : Bool := s.fr.heldParts.any (·.2) || s.fr.resets.any (·.hold)

/-- Partition `p` is held, or its reset will hold it. -/
def isHeld (s : State) (p : Nat) : Bool := mget false s.fr.heldParts p || s.fr.resets.any (fun r => r.dom == .partition p && r.hold)

/-- The request is refused (R312). -/
def reqRefused (s : State) (f : Bool) (v : W64) : Bool :=
  let l := reqLevel v
  let p := reqPart v
  reqRuns s || bfld v 21 42 != 0 || (reqHold v && l != lvPartition)
  || (if l = lvEngine then !engExists s (reqKind v) (reqIndex v)
      else if l = lvPartition then decide (partCount s ≤ p) || !ownsPart s f p || isHeld s p
      else if l = lvRelease then decide (partCount s ≤ p) || !ownsPart s f p || !mget false s.fr.heldParts p
      else if l = lvChip then !ownsAll s f || anyHeld s
      else if l = lvPower then !ownsAll s f
      else true)

/-- LEVEL is not one of the five (R312: a reserved LEVEL is refused). -/
def reservedLevel (l : Nat) : Bool := l == 0 || decide (5 < l)

/-- A reset of this level starts, as RESET_REQ (Table 15-5) or as a fault asks. -/
def startReset (l : Nat) : ResetReq → State → State
  | .host _ v, s =>
    if l = lvEngine then beginEngine (reqKind v) (reqIndex v) true s
    else if l = lvPartition then beginPartition (reqPart v) (reqHold v) true s
    else if l = lvChip then beginChip true false s
    else if l = lvPower then beginPowerCycle true s
    else addReset { dom := .partition (reqPart v), status := stPartReset, byReq := true }
      { s with fr := { s.fr with heldParts := mset false s.fr.heldParts (reqPart v) false } }
  | .fault a b, s =>
    if l = lvEngine then beginEngine a b false s
    else if l = lvPartition then beginPartition a false false s
    else if l = lvChip then beginChip false true s
    else if l = lvPower then beginPowerCycle false s
    else s

/-- A request starts its reset, or a stop holds it: a chip reset that waits for the stop's own dump is not held
(R345, R346). -/
def orHold (l : Nat) (r : ResetReq) (s : State) : State :=
  if l = lvChip ∧ s.ob.dumpState = 1 then startReset l r s else unlessStopped (.req l r) (startReset l r) s

/-- What a write of RESET_REQ with GO does: accepted, it starts the reset; refused, it says so. -/
def resetTake (f : Bool) (v : W64) (s : State) : State :=
  let mark := fun (st : Nat) => { s with fr := { s.fr with rsState := st, rsLevel := reqLevel v, rsFunc := f } }
  if reqRefused s f v then mark 3 else orHold (reqLevel v) (.host f v) (mark 1)

/-- A RESET_REQ write at a row of level `l`. A write whose LEVEL belongs to another row is that row's. -/
def resetReq (l : Nat) (f : Bool) (v : W64) (s : State) : State :=
  if !(writable s f 0x80010 && v.getLsbD 63) || !(reqLevel v == l || reservedLevel (reqLevel v)) then s else resetTake f v s

/-- ENGINE_RESET (R309, R312). -/
def execEngineReset (req : ResetReq) (s : State) : Host.Outcome State Fault Refusal :=
  .next (keepRegs s (
    match req with
    | .host f v => resetReq lvEngine f v s
    | .fault k i => if s.pw.powered && engExists s k i then orHold lvEngine req s else s))

/-- PARTITION_RESET (R310, R312, R313). -/
def execPartitionReset (req : ResetReq) (s : State) : Host.Outcome State Fault Refusal :=
  .next (keepRegs s (
    match req with
    | .host f v => resetReq lvPartition f v s
    | .fault p _ => if s.pw.powered && s.bt.computeDone && decide (p < partCount s) then orHold lvPartition req s else s))

/-- PARTITION_RELEASE (R313): the hold ends, and the cluster sequencers load and stamp the sites. Only
RESET_REQ releases a partition. -/
def execPartitionRelease (req : ResetReq) (s : State) : Host.Outcome State Fault Refusal :=
  .next (keepRegs s (
    match req with
    | .host f v => resetReq lvRelease f v s
    | .fault _ _ => s))

/-- CHIP_RESET (R311, R312). -/
def execChipReset (req : ResetReq) (s : State) : Host.Outcome State Fault Refusal :=
  .next (keepRegs s (
    match req with
    | .host f v => resetReq lvChip f v s
    | .fault _ _ => if s.pw.powered && s.bt.computeDone then orHold lvChip req s else s))

/-- POWER_CYCLE_REQUEST (R306, R312). -/
def execPowerCycleRequest (req : ResetReq) (s : State) : Host.Outcome State Fault Refusal :=
  .next (keepRegs s (
    match req with
    | .host f v => resetReq lvPower f v s
    | .fault _ _ => if droneUp s then orHold lvPower req s else s))

/-- CONTEXT_RESET (R308): the reset itself, as a fault of the context or a control command begins it. -/
def execContextReset (c : Byte) (fabric : Bool) (s : State) : Host.Outcome State Fault Refusal :=
  .next (keepRegs s (if s.pw.powered then unlessStopped (.ctx c.toNat fabric) (ctxReset c.toNat stCtxReset fabric) s else s))

/-- WINDCHEST_ENGINE_ISLAND_RESET (R305, R325). -/
def execWindchestEngineIslandReset (w : Nat) (s : State) : Host.Outcome State Fault Refusal :=
  .next (keepRegs s (if s.pw.powered then unlessStopped (.wcIsland w) (beginWcIsland w) s else s))

/-! ### The end of a reset, and its escalation -/

/-- A larger reset that runs, or a hold, covers this domain: it completes with that (R307, R313). -/
def covered (s : State) (d : Domain) : Bool :=
  (containing s d).isSome || (upto 8).any (fun p => mget false s.fr.heldParts p && inDomain s d (.partition p))

/-- What completing a running reset of a domain does. -/
def completeReset (d : Domain) (r : RunReset) (rep : ComputeReport) (s : State) : State :=
  match d with
  | .context c => completeCtx c s
  | .engine k i => publishEngine k i (dropReset d s)
  | .core c => publishEngine kDM c (publishEngine kVX c (endWithin d (dropReset d s)))
  | .wcIsland w => publishEngine kUX w (publishEngine kRX w (endWithin d (dropReset d s)))
  | .partition p =>
    if r.hold then { dropReset d s with fr := { (dropReset d s).fr with heldParts := mset false s.fr.heldParts p true } }
    else releasePart p s
  | .chip => completeChip r rep s

/-- RESET_COMPLETE (R305 to R313): the domain returns to service, or is held. `rep` is what a chip reset's
repeated tests found. -/
def execResetComplete (dom : Domain) (r : ComputeReport) (s : State) : Host.Outcome State Fault Refusal :=
  .next (keepRegs s (
    match s.fr.resets.find? (fun x => x.dom == dom) with
    | none => s
    | some x =>
      if covered s dom then s
      else
        let s1 := completeReset dom x r s
        pendingStop (if x.byReq then reqDone s1 else s1)))

/-- RESET_TIMEOUT (R306): the reset goes on within the larger one. -/
def execResetTimeout (dom : Domain) (s : State) : Host.Outcome State Fault Refusal :=
  .next (keepRegs s (
    match s.fr.resets.find? (fun x => x.dom == dom) with
    | none => s
    | some x =>
      if covered s dom then s
      else if x.byReq then
        escalate x (reqEscalated { s with fr := { s.fr with resets := s.fr.resets.map (fun r => if r.dom = dom then { r with byReq := false } else r) } })
      else escalate x s))

/-! ### Edges, epochs and substitution (R315, R323 to R327) -/

/-- Some domain with an edge is in reset, held or in quarantine. -/
def edgeOpen (s : State) : Bool :=
  s.pw.powered && (s.fr.resets.any (fun r => match r.dom with | .context _ => false | _ => true)
    || s.fr.heldParts.any (·.2) || s.fr.quar.any (·.2) || s.fr.wcQuar.any (·.2))

/-- Answers at an edge. -/
def ansPoison : Nat := 0
def ansError : Nat := 1
def ansInvalid : Nat := 2

/-- EDGE_ABSORB (R315, R323, Table 15-7). -/
def execEdgeAbsorb (t : EdgeTxn) (s : State) : Host.Outcome State Fault Refusal :=
  .next (keepRegs s (
    if !edgeOpen s then s
    else match t with
      | .memRead _ => emit (.edge ansPoison) s
      | .memWrite => emit (.edge ansError) (absorbReq 1 s)
      | .memTally => emit (.edge ansError) (absorbTally s)
      | .response => { s with fr := { s.fr with absRsp := satAdd max48 s.fr.absRsp 1 } }
      | .snoop => emit (.edge ansInvalid) s
      | .stampOrWake => s
      | .debugAccess => emit (.edge ansError) s
      | .fromSite => { s with fr := { s.fr with epochRefused := satAdd max32 s.fr.epochRefused 1 } }))

/-- Engine resets that count toward a substitution (R326). -/
def engineResets (s : State) (c : Nat) : Nat := (getEng s (engKey kVX c)).resets + (getEng s (engKey kDM c)).resets

/-- SPARE_SUBSTITUTION (R268, R326, R327): after a core reset began, or three engine resets. `failing` are
further sites of the cluster found bad meanwhile. -/
def execSpareSubstitution (core : Nat) (failing : List Nat) (s : State) : Host.Outcome State Fault Refusal :=
  .next (keepRegs s (
    let cd := core / 64
    if !(s.pw.powered && s.bt.computeDone) || !procUp s (4 + cd) || !(resetRuns s (.core core) || decide (3 ≤ engineResets s core)) then s
    else
      let s1 := beginCore core s
      let s2 := { s1 with bt := { s1.bt with siteBad := failing.foldl (fun m i => if i < 72 ∧ !siteHolds s1 cd i then mset false m (72 * cd + i) true else m) s1.bt.siteBad } }
      let clear := fun (t : State) (k : Nat) => setEng (engKey k core) { getEng t (engKey k core) with resets := 0 } t
      substitute core (clear (clear s2 kVX) kDM)))

/-- EPOCH_STAMP (R324, R325): a site or island whose reset has ended is loaded and stamped, and leaves quarantine. A stamp of
another epoch is refused; a fenced core is never stamped. -/
def execEpochStamp (rx : Bool) (id : Nat) (epoch : W32) (s : State) : Host.Outcome State Fault Refusal :=
  .next (keepRegs s (
    if !s.pw.powered then s
    else if rx then
      if id < 16 ∧ mget 0 s.fr.wcEpoch id = epoch.toNat ∧ mget false s.fr.wcQuar id ∧ procUp s (36 + id) ∧ !resetRuns s (.wcIsland id) then
        fwPoint (36 + id) 4 id { s with fr := { s.fr with wcQuar := mset false s.fr.wcQuar id false } }
      else s
    else if id < 2048 ∧ mget false s.fr.quar id ∧ !mget false s.fr.fence id ∧ procUp s (4 + id / 64) ∧ !resetRuns s (.core id)
        ∧ !partInReset s (corePart (partCount s) id) ∧ mget 0 s.fr.partEpoch (corePart (partCount s) id) = epoch.toNat then
      fwPoint (4 + id / 64) 4 id { s with fr := { s.fr with quar := mset false s.fr.quar id false } }
    else s))

/-! ### Wait deadlock (R320 to R322) -/

/-- The waiters of a context that are not released. -/
def ctxWaits (s : State) (c : Nat) : List Waiter := s.fe.waiters.filter (fun w => w.ctx == c && w.released.isNone)

/-- An engine queue context, or a queue, has an unreleased wait. -/
def waitsNow (s : State) (isQueue : Bool) (k : Nat) : Bool := s.fe.waiters.any (fun w => w.isQueue == isQueue && w.key == k && w.released.isNone)

/-- A queue with a command in progress is blocked in a wait. -/
def queueBlocked (s : State) (q : Nat) : Bool :=
  let v := getQ s q
  (v.state == qWaiting && waitsNow s true q && v.inflight.all (fun f => f.result.isSome || ((getQc s f.target).blocked && waitsNow s false f.target)))
  || (v.state != qWaiting && v.inflight.any (fun f => f.result.isNone)
      && v.inflight.all (fun f => f.result.isSome || ((getQc s f.target).blocked && waitsNow s false f.target)))

/-- A queue has a command in progress. -/
def queueBusy (s : State) (q : Nat) : Bool :=
  let v := getQ s q
  v.state == qWaiting || v.cur.isSome || v.launch.isSome || v.inflight.any (fun f => f.result.isNone)

/-- The conditions of R321 hold now. -/
def deadlocked (s : State) (c : Nat) : Bool :=
  let qs := queuesWhere s (fun _ v => v.ctx == c)
  qs.any (queueBlocked s)
  && qs.all (fun q => !queueBusy s q || queueBlocked s q)
  && (qcsWhere s (fun _ qc => qc.ctx == c && qc.cmd.isSome && !qc.blocked)).isEmpty
  && s.ax.all (fun e => e.2.cmds.all (fun x => x.ctx != c))
  && s.rx.slots.all (fun e => !(e.2.live && e.2.ctx == c))
  && (ctxWaits s c).all (fun w => !w.host && match w.second with | some (h, _) => !h | none => true)

/-- The queue whose command a waiter belongs to, with that command's submission number. -/
def waiterQueue (s : State) (w : Waiter) : Nat × BitVec 56 :=
  if w.isQueue then (w.key, match (getQ s w.key).cur with | some e => e.seq | none => 0)
  else match (getQc s w.key).cmd with
    | some (qu, id, _) => (qu, match (getQ s qu).inflight.find? (fun f => f.id == id) with | some f => f.entry.seq | none => 0)
    | none => (w.key, 0)

/-- A blocked command completes with WAIT_DEADLOCK; the queue's record names the tally. -/
def endWait (record : Bool) (w : Waiter) (s : State) : State :=
  let (qu, seq) := waiterQueue s w
  let a2 := match w.second with | some (_, _, va, _) => va.toNat | none => 0
  let s1 := if record then addFault (feRec s qu seq cWaitDl stWaitDl 0 1 w.va.toNat w.thresh.toNat a2) false s else s
  if w.isQueue then modQ qu (endHeld stWaitDl) s1
  else match (getQc s w.key).cmd with
    | some (_, id, _) => setResult qu id stWaitDl s1
    | none => s1

/-- Every blocked command of a context completes, with one record for each blocked queue, that of its first wait. -/
def endWaits (c : Nat) (s : State) : State :=
  ((ctxWaits s c).foldl (fun (a : List Nat × State) w =>
    let qu := (waiterQueue s w).1
    (qu :: a.1, endWait (!a.1.contains qu) w a.2)) ([], s)).2

/-- The sequencers that watch the context's queue contexts all run (R321, Table 14-2). -/
def allWatched (s : State) (c : Nat) : Bool := (qcsWhere s (fun q qc => qc.ctx == c && sequencerDown s q)).isEmpty

/-- WAIT_DEADLOCK (R322). -/
def execWaitDeadlock (c : Byte) (s : State) : Host.Outcome State Fault Refusal :=
  .next (keepRegs s (
    if s.pw.powered && chanterUp s && s.ob.stopState != 2 && allWatched s c.toNat && deadlocked s c.toNat then
      ctxReset c.toNat stCtxReset true (endWaits c.toNat s)
    else s))

/-! ### Credit audits (R319) -/

/-- An audit starts. -/
def startAudit (s : State) : State := { s with fr := { s.fr with ledState := 1 } }

/-- LEDGER_AUDIT_PERIOD: every 10 s. -/
def execLedgerAuditPeriod (s : State) : Host.Outcome State Fault Refusal :=
  .next (keepRegs s (if droneUp s then startAudit s else s))

/-- AUDIT: a write of LEDGER_CTRL.AUDIT. -/
def execAudit (f : Bool) (s : State) : Host.Outcome State Fault Refusal :=
  .next (keepRegs s (if writable s f 0x81000 then startAudit s else s))

/-- Key of a ledger entry: link, class, direction. -/
def ledKey (l c d : Nat) : Nat := 8 * l + 2 * c + d

/-- The figures an audit brings back: equal at both ends of every link but the mismatching one. No rule
gives how many credits are outstanding. -/
def auditFigures (bad : Option Nat) (n : Nat) (fr : Fr) : Fr :=
  (upto 304).foldl (fun t k =>
    let sent := Config.openCount (n + k) % 2 ^ 32
    let held := if bad = some k then (sent + 1 + Config.openCount (n + 304) % (2 ^ 32 - 1)) % 2 ^ 32 else sent
    { t with ledSent := mset 0 t.ledSent k sent, ledHeld := mset 0 t.ledHeld k held }) fr

/-- AUDIT_COMPLETE: link, class, direction and ledger kind (true: buffer slots) of the first mismatch. -/
def execAuditComplete (mismatch : Option (Nat × Nat × Bool × Bool)) (s : State) : Host.Outcome State Fault Refusal :=
  .next (keepRegs s (
    if s.fr.ledState ≠ 1 then s
    else
      match mismatch with
      | none =>
        let fr := auditFigures none s.free s.fr
        { s with fr := { fr with ledState := 2, ledLink := 0, ledClass := 0, ledDir := false, ledKind := 0, audits := satAdd max32 fr.audits 1 }
                 free := s.free + 305 }
      | some (l, c, d, k) =>
        let fr := auditFigures (some (ledKey (l % 38) (c % 4) (b01 d))) s.free s.fr
        fabricError (l % 38) (c % 4) (b01 k) (droneIsland s)
          { s with fr := { fr with ledState := 3, ledLink := l % 38, ledClass := c % 4, ledDir := d, ledKind := b01 k, audits := satAdd max32 fr.audits 1 }
                   free := s.free + 305 }))

/-! ### Peer-down notices (R328) -/

/-- A waiting packet is a peer-down notice. -/
def isPeerDown (p : Packet) : Bool := pktClass p.header == clControl && bfld p.header 64 8 == 1

/-- The record of a notice for a context, or of one that resets none. -/
def peerRec (s : State) (ctx : Option Nat) (down port : Nat) (id : W64) : FaultRec :=
  { island := droneIsland s, cls := cPeerDown, status := stPeerDown, ctx := ctx.getD 0, ctxv := ctx.isSome, kind := 7
    part := match ctx with | some c => (getCtx s c).part | none => 0
    level := 1, arg0 := BitVec.ofNat 64 down, arg1 := id, arg2 := BitVec.ofNat 64 port }

/-- Contexts that a notice names and that are not FREE. -/
def noticeCtxs (s : State) (h : BitVec 256) : List Nat :=
  if h.getLsbD 97 then (s.fe.ctxs.map Prod.fst).filter (fun c => (getCtx s c).state != ctxFree)
  else if (getCtx s (bfld h 89 8)).state = ctxFree then [] else [bfld h 89 8]

/-- PEER_DOWN: the first such notice that waits at port `n`. `sinceMs` is the time since a notice of the
same NOTICE_ID was accepted. -/
def execPeerDown (n : Nat) (sinceMs : Nat) (s : State) : Host.Outcome State Fault Refusal :=
  .next (keepRegs s (
    match firstPacket n isPeerDown s with
    | none => s
    | some p =>
      let h := p.header
      let id : W64 := BitVec.ofNat 64 (bfld h 128 64)
      let s1 := takePacket n p s
      if !(getPort s n).fwd || !s.et.coordValid || pktDest h != s.et.coord.toNat || (s.fr.notices.contains id && decide (sinceMs ≤ 10000)) then s1
      else
        let s2 := { s1 with fr := { s1.fr with notices := if s1.fr.notices.contains id then s1.fr.notices else s1.fr.notices ++ [id] } }
        let cs := noticeCtxs s2 h
        if cs.isEmpty then addFault (peerRec s2 none (bfld h 72 17) n id) false s2
        else cs.foldl (fun t c => ctxReset c stPeerDown false (addFault (peerRec t (some c) (bfld h 72 17) n id) false t)) s2))

end Sys2Proof.Machine
end

