-- ==== Sys2Proof/Machine/Observe.lean ====
section
/-! DEFINITION. Counter samples, trace, the stop wave, the crash dump, loop-backs and self-tests (R329 to R331, R335
to R348). -/

namespace Sys2Proof.Machine

/-! ### Samples (R336 to R338, Tables 16-2, 16-3 and 16-6) -/

def ssKind (v : W64) : Nat := bfld v 0 3
def ssIndex (v : W64) : Nat := bfld v 3 11
def ssBank (v : W64) : Nat := bfld v 14 2
def ssCounter (v : W64) : Nat := bfld v 16 8
def ssLast (v : W64) : Bool := v.getLsbD 24

/-- A per-command counter by its code. -/
def numOf (n : Nums) (c : Nat) : Nat :=
  match c with
  | 0x00 => n.nan
  | 0x01 => n.ovf
  | 0x02 => n.sat
  | 0x03 => n.flush
  | 0x04 => n.idx
  | 0x08 => n.updDone
  | 0x09 => n.updSkip
  | _ => n.updReplay

def perCommand (c : Nat) : Bool := decide (c ≤ 0x04) || (decide (0x08 ≤ c) && decide (c ≤ 0x0A))
def knownCounter (c : Nat) : Bool :=
  perCommand c || (decide (0x10 ≤ c) && decide (c ≤ 0x12)) || (decide (0x21 ≤ c) && decide (c ≤ 0x2C)) || (decide (0x31 ≤ c) && decide (c ≤ 0x39))

/-- The engine kind keeps the counter (Table 16-2). -/
def keepsCounter (kind c : Nat) : Bool :=
  if c = 0x04 then decide (kind ≤ kAX) else if 0x08 ≤ c ∧ c ≤ 0x0A then kind == kUX else true

/-- A cumulative counter of an engine. -/
def cumulative (e : Eng) (c : Nat) : Nat :=
  match c with
  | 0x10 => e.busy
  | 0x11 => e.stall
  | 0x12 => e.idle
  | _ => if c < 0x30 then mget 0 e.stallBy (c - 0x20) else mget 0 e.idleBy (c - 0x30)

/-- ERROR of a sample, 0 none (Table 16-3): a reserved encoding, an absent engine, a counter that the kind does not keep. -/
def sampleError (s : State) (v : W64) : Nat :=
  if 5 ≤ ssKind v ∨ !knownCounter (ssCounter v) ∨ (if ssKind v = kAX then ssBank v == 3 else ssBank v != 0) then 3
  else if !engExists s (ssKind v) (ssIndex v) then 1
  else if !keepsCounter (ssKind v) (ssCounter v) then 2
  else 0

/-- SAMPLE_TAG. -/
def sampleTag (seq : BitVec 56) (qctx : Nat) (tagv shadow : Bool) : W64 :=
  BitVec.ofNat 64 (seq.toNat + 2 ^ 56 * (qctx % 64) + 2 ^ 62 * b01 tagv + 2 ^ 63 * b01 shadow)

/-- The counter bank that a sample names. -/
def sampleBank (s : State) (v : W64) : Bank :=
  if ssKind v = kAX then getBank (getPart s (ssIndex v)) (ssBank v) else (getEng s (engKey (ssKind v) (ssIndex v))).bank

/-- The open collective of an engine accepted last. -/
def newestSlot (s : State) (w : Nat) : Option Slot :=
  (s.rx.slots.filter (fun e => e.1 / 64 == w && e.2.live)).foldl (fun best e =>
    match best with
    | some b => if b.order < e.2.order then some e.2 else best
    | none => some e.2) none

/-- The command whose live counters a LIVE sample returns, with its tag: for a bank of AX, and for RX, whose commands
overlap as well, the newest one accepted and not completed (R148); else the engine's running command. -/
def liveCommand (s : State) (v : W64) : Option (Nums × BitVec 56 × Nat) :=
  if ssKind v = kAX then
    (((getPart s (ssIndex v)).cmds.filter (fun c => c.bank == ssBank v && !c.ended)).getLast?).map (fun c => (c.nums, c.seq, qCtxNo c.q))
  else
    match (if ssKind v = kRX then newestSlot s (ssIndex v) else none) with
    | some c => some (c.nums, c.seq, qCtxNo c.q)
    | none =>
      match (getEng s (engKey (ssKind v) (ssIndex v))).running with
      | some q => if (getQc s q).started then some ((getQc s q).nums, (getQc s q).seq, qCtxNo q) else none
      | none => none

/-- Value and tag of a sample of a per-command counter; `start` says that a command of the bank starts in the very cycle
of the sample. Where no command of VX, DM or UX runs, the live counters still hold those of the command that ended last. -/
def perCommandSample (s : State) (v : W64) (start : Bool) : Nat × W64 :=
  let b := sampleBank s v
  let c := ssCounter v
  let shadow := fun (sh : Bool) => (numOf b.shadow c, sampleTag b.shadowSeq b.shadowQctx b.ended sh)
  if !b.started then (0, sampleTag 0 0 false false)
  else if ssLast v || start then shadow true
  else match liveCommand s v with
    | some (n, seq, qx) => (numOf n c, sampleTag seq qx true false)
    | none => shadow (ssKind v == kAX || ssKind v == kRX)

/-- Value and tag of a sample. -/
def sampleOf (s : State) (v : W64) (start : Bool) : Nat × W64 :=
  if perCommand (ssCounter v) then perCommandSample s v start
  else (cumulative (getEng s (engKey (ssKind v) (ssIndex v))) (ssCounter v), sampleTag 0 0 false false)

/-- What a write of SAMPLE_SEL with GO does. -/
def sampleSet (f : Bool) (v : W64) (start : Bool) (s : State) : State :=
  if (getFn s f).sampleStatus.toNat % 4 == 1 then s
  else
    let sel : W64 := BitVec.ofNat 64 (v.toNat % 2 ^ 25)
    let e := sampleError s v
    if e ≠ 0 then modFn f (fun x => { x with sampleSel := sel, sampleStatus := BitVec.ofNat 64 (3 + 4 * e) }) s
    else
      let isl := engIsland s (ssKind v) (ssIndex v)
      let s1 := tickEng (ssKind v) (ssIndex v) s
      let (n, tag) := sampleOf s1 v start
      modFn f (fun x => { x with sampleSel := sel, sampleStatus := 2, sampleValue := BitVec.ofNat 64 n, sampleTag := tag
                                 sampleCycle := BitVec.ofNat 64 (cycOf s1 isl) }) s1

/-- SAMPLE: a write of SAMPLE_SEL with GO. -/
def execSample (f : Bool) (v : W64) (start : Bool) (s : State) : Host.Outcome State Fault Refusal :=
  .next (onlyObserve s (if writable s f 0x100000 && v.getLsbD 63 then sampleSet f v start s else s))

/-! ### Trace (R339 to R342) -/

/-- Windchest whose collector drains an island's records (R340, Table 01-2). -/
def islandWc (isl : Nat) : Nat :=
  if isl < 0x900 then cdWc (isl / 72)
  else if isl < 0xA00 then cdWc ((isl - 0x900) / 8)
  else if isl < 0xA20 then cdWc (isl - 0xA00)
  else if isl < 0xA60 then (isl - 0xA20) / 4
  else if isl < 0xA70 then isl - 0xA60
  else if isl < 0xA80 then isl - 0xA70
  else if isl < 0xA98 then portWc ((isl - 0xA80) / 2)
  else if isl < 0xA9E ∨ isl = 0xAA4 then 0
  else 7

/-- Buffer, KIND field and collector of the records that an island makes for itself: its first engine's, else its
processor's, else a buffer of its own. -/
def islandUnit (s : State) (isl : Nat) : Nat × Nat × Nat :=
  match islandEng s isl with
  | some (k, i) => (engKey k i, k, engWc k i s)
  | none =>
    match (upto 66).find? (fun i => procIsland i == isl) with
    | some i => (procUnit i, 7, procWc i)
    | none => (0x20000 + isl, 7, islandWc isl)

/-- A record that an island makes for itself (MARKER, STOP), when it is enabled. -/
def islandTrace (isl ty d0 : Nat) (s : State) : State :=
  let (u, k, w) := islandUnit s isl
  if typeOn s ty && (k == 7 || kindOn s k) then pushTrace u isl k ty w d0 0 s else s

/-- Collector of a trace buffer's unit. -/
def unitWc (s : State) (u : Nat) : Nat :=
  if u < 0x10000 then engWc (u / 2048) (u % 2048) s
  else if u < 0x20000 then procWc (u - 0x10000)
  else islandWc (u - 0x20000)

/-- Some fabric island of a windchest is frozen. -/
def wcFrozen (s : State) (w : Nat) : Bool := (upto 4).any (fun i => frozenIsl s (0xA20 + 4 * w + i)) || frozenIsl s (0xA60 + w)

/-- The collector of windchest `w` moves the oldest record of a buffer into its ring (R340). -/
def drainOne (w u : Nat) (s : State) : State :=
  match mget [] s.ob.buffers u with
  | [] => s
  | r :: rs =>
    if unitWc s u ≠ w then s
    else
      let n := mget 0 s.ob.traceWptr w
      let slot := mget 0 s.ob.traceBase w + 32 * (n % (mget 0 s.ob.traceSize w / 32))
      let s1 := { s with ob := { s.ob with buffers := mset [] s.ob.buffers u rs, traceWptr := mset 0 s.ob.traceWptr w ((n + 1) % 2 ^ 64) } }
      if slot + 32 ≤ 0x28000000 then storeAt causeEngine (chestBase + w * 2 ^ 30 + slot) (traceBytes r) s1 else s1

/-- TRACE_DRAIN: the units whose oldest records the collector takes, in the order it takes them. A ring of size 0 takes
none. -/
def execTraceDrain (wc : Nat) (units : List Nat) (s : State) : Host.Outcome State Fault Refusal :=
  .next (onlyObserve s (
    if !s.pw.powered || decide (16 ≤ wc) || mget 0 s.ob.traceSize wc == 0 || wcFrozen s wc then s
    else units.foldl (fun t u => drainOne wc u t) s))

/-- COUNTERS: each CNT_PERIOD × 1,024 island cycles of an engine. -/
def execCounters (kind index : Nat) (s : State) : Host.Outcome State Fault Refusal :=
  .next (onlyObserve s (
    if !engUp s kind index || bfld s.ob.traceCtrl 26 22 == 0 || !kindOn s kind || !typeOn s 6 then s
    else
      let s1 := tickEng kind index s
      let e := getEng s1 (engKey kind index)
      putTrace (engKey kind index) (engIsland s1 kind index) kind 6 (engWc kind index s1) e.busy e.stall s1))

/-- MARKER: HA's numbered marker reaches every island. -/
def execMarker (s : State) : Host.Outcome State Fault Refusal :=
  .next (onlyObserve s (
    if !s.pw.powered || s.ob.syncPeriod == 0 then s
    else
      let s1 := if typeOn s 7 then (upto 2726).foldl (fun t isl =>
          if frozenIsl t isl then t else islandTrace isl 7 (Config.firstNumber 1 + s.ob.markers) t) s else s
      { s1 with ob := { s1.ob with markers := s.ob.markers + 1 } }))

/-! ### The stop wave (R343 to R346) -/

/-- STOP: a write of STOP_CTRL.GO. -/
def execStop (f : Bool) (s : State) : Host.Outcome State Fault Refusal :=
  .next (onlyObserve s (if writable s f 0x100200 then askStop s else s))

/-- Islands that a stop freezes: those of the compute and fabric domains. -/
def stopIslands : Nat := 2712

/-- STOP_MARKER: the first stop marker reaches an island; with the last one the module is stopped, and a dump that
waited for it begins. -/
def execStopMarker (island : Nat) (s : State) : Host.Outcome State Fault Refusal :=
  .next (onlyObserve s (
    if s.ob.stopState ≠ 1 ∨ stopIslands ≤ island ∨ frozenIsl s island then s
    else
      let s1 := islandTrace island 10 (Config.firstNumber 0 + (s.ob.stopCount - 1)) s
      let s2 := { s1 with ob := { s1.ob with frozen := mset false s1.ob.frozen island true } }
      if frozenCount s2 = stopIslands then
        let s3 := { s2 with ob := { s2.ob with stopState := 2, spread := Config.duration s2.free % 2 ^ 32 }, free := s2.free + 1 }
        if s3.ob.dumpState = 1 ∧ !s3.ob.dumpBegun then dumpBegin s3 else s3
      else s2))

/-- A reset that a stop held starts. -/
def startHeld (h : HeldReset) (s : State) : State :=
  match h with
  | .req l r => startReset l r s
  | .ctx c fabric => ctxReset c stCtxReset fabric s
  | .fn f => functionReset f s
  | .wcIsland w => beginWcIsland w s

/-- After a stop: channel contents first, then the resets that were held, then the front end goes on. -/
def afterStop (s : State) : State :=
  let s1 := (upto 12).foldl (fun t n => deliverHeld n t) s
  let s2 := s1.fr.heldResets.foldl (fun t h => startHeld h t) { s1 with fr := { s1.fr with heldResets := [] } }
  let s3 := (queuesWhere s2 (fun _ _ => true)).foldl (fun t q => fetchQ q t) s2
  rxPump ([false, true].foldl (fun t f => if adminOn t f then settleAdmin f (fetchAdmin f t) else t) s3)

/-- Ends the stop and lets everything go on. -/
def resumeAll (timedOut : Bool) (s : State) : State :=
  if s.ob.stopState = 0 then s else afterStop (endStop timedOut s)

/-- RESUME: a write of STOP_CTRL.RESUME. -/
def execResume (f : Bool) (s : State) : Host.Outcome State Fault Refusal :=
  .next (keepRegs s (if writable s f 0x100200 then resumeAll false s else s))

/-- STOP_LIMIT_EXPIRY: STOP_LIMIT has elapsed with no dump running. -/
def execStopLimitExpiry (s : State) : Host.Outcome State Fault Refusal :=
  .next (keepRegs s (if s.ob.dumpState = 1 then s else resumeAll true s))

/-! ### The crash dump (R329 to R331) -/

/-- What a write of DUMP_CTRL does. -/
def dumpSet (v : W64) (s : State) : State :=
  if v.getLsbD 0 && s.ob.dumpSize != 0 && s.ob.dumpState != 1 then dumpStart 1 (v.getLsbD 1) s else s

/-- DUMP: a write of DUMP_CTRL.GO. The dumps before resets start with them. -/
def execDump (f : Bool) (v : W64) (s : State) : Host.Outcome State Fault Refusal :=
  .next (onlyObserve s (if writable s f 0x86000 then dumpSet v s else s))

/-- The island is fused off in the grade: the port dies of absent ports. -/
def fusedOff (s : State) (isl : Nat) : Bool := decide (0xA80 ≤ isl) && decide (isl < 0xA98) && !portEnabled s ((isl - 0xA80) / 2)

/-- A section of the dump: status, whether it bypasses a segment of the observation ring, data words. Which units have
one, how they answered, and what their data hold is open. -/
structure Section where
  island : Nat
  part : Nat
  status : Nat
  bypassed : Bool
  words : Nat
  tag : Nat
deriving DecidableEq, Repr

/-- The sections, in ascending island ID and then UNIT. `n` numbers the open choices. -/
def dumpSections (s : State) (n : Nat) : List Section :=
  (upto 2726).flatMap (fun isl => ((upto 6).filter (fun u => Config.dumpHas (n + 8 * isl + u))).map (fun u =>
    let t := n + 8 * isl + u
    let st := if fusedOff s isl then 3 else Config.dumpStatus t % 3
    { island := isl, part := u, status := st
      bypassed := st != 3 && Config.dumpHas (t + 2 ^ 20), words := if 2 ≤ st then 0 else Config.openCount t, tag := t }))

/-- Bytes of a section (Table 15-14). A unit that returned nothing has CYCLE 0. -/
def sectionBytes (s : State) (x : Section) : List Byte :=
  leBytes 2 x.island ++ leBytes 1 x.part ++ leBytes 1 x.status ++ leBytes 1 (b01 x.bypassed) ++ leBytes 3 0
  ++ leBytes 8 (if x.status != 0 && x.words == 0 then 0 else cycOf s x.island) ++ leBytes 8 (8 * x.words) ++ leBytes 8 0
  ++ (upto x.words).flatMap (fun i => leBytes 8 (Config.openWord (x.tag + 2 ^ 24 * i)).toNat)

/-- How many sections of these lengths are written whole into `room` bytes (R330). -/
def wholeSections : Nat → List Nat → Nat
  | _, [] => 0
  | room, n :: ns => if n ≤ room then wholeSections (room - n) ns + 1 else 0

/-- The dump's header (Table 15-13). -/
def dumpHeader (s : State) (stopped truncated bypass : Bool) (sections len : Nat) : List Byte :=
  leBytes 4 0x51584433 ++ leBytes 2 1 ++ leBytes 1 s.ob.dumpTrigger ++ leBytes 1 (b01 stopped + 2 * b01 truncated + 4 * b01 bypass)
  ++ leBytes 8 (moduleId s).toNat ++ leBytes 8 s.ob.dumpFault.toNat ++ leBytes 4 sections ++ leBytes 4 0
  ++ leBytes 8 len ++ leBytes 8 s.ob.dumpCycle ++ leBytes 16 0

/-- Stores bytes line by line at device physical addresses; what is not backed takes none. -/
def storePa : Nat → Nat → List Byte → State → State
  | 0, _, _, s => s
  | n + 1, pa, bs, s =>
    storePa n (pa + 64) (bs.drop 64) (match homeOf (partCount s) pa with
      | some h => storeAt causeEngine h (bs.take 64) s
      | none => s)

/-- Writes the dump, and says in DUMP_STATUS how it ended. -/
def writeDump (s : State) : State :=
  let secs := dumpSections s s.free
  let body := secs.flatMap (sectionBytes s)
  let size := s.ob.dumpSize.toNat * 2 ^ 20
  let truncated := decide (size ≤ 64 + body.length)
  let len := min size (64 + body.length)
  let whole := secs.take (wholeSections (size - 64) (secs.map (fun x => 32 + 8 * x.words)))
  let bytes := (dumpHeader s s.ob.dumpStop truncated (secs.any (·.bypassed)) whole.length len ++ body).take len
  let s1 := storePa (len / 64 + 1) s.ob.dumpBase.toNat bytes s
  { s1 with ob := { s1.ob with dumpState := if truncated then 3 else 2, dumpBegun := false
                               dumpNotOk := min 65535 (whole.filter (fun x => x.status != 0)).length
                               dumpMs := Config.duration s.free % 2 ^ 32 }
            free := s.free + 2 ^ 21 }

/-- What a dump precedes goes on. -/
def afterDump (s : State) : State :=
  let clear := { s with ob := { s.ob with dumpFor := 0, dumpWaits := false, dumpByReq := false } }
  let s1 := if s.ob.dumpFor = 2 then chipStart s.ob.dumpByReq clear
    else if s.ob.dumpFor = 3 then (if s.ob.dumpByReq then reqDone (powerNotice clear) else powerNotice clear)
    else clear
  if s.ob.stopState ≠ 0 ∧ s1.ob.stopState = 0 then afterStop s1 else s1

/-- DUMP_END. -/
def execDumpEnd (s : State) : Host.Outcome State Fault Refusal :=
  .next (keepRegs s (if s.ob.dumpState = 1 ∧ s.ob.dumpBegun then afterDump (writeDump s) else s))

/-- DUMP_WAIT_EXPIRY: the chip reset has waited for 10 s; the dump runs on. -/
def execDumpWaitExpiry (s : State) : Host.Outcome State Fault Refusal :=
  .next (keepRegs s (if s.ob.dumpState = 1 ∧ s.ob.dumpFor = 2 then afterDump s else s))

/-! ### Loop-backs and self-tests (R347, R348, Tables 16-5 and 16-6) -/

def lcIface (v : W64) : Nat := bfld v 0 4
def lcDepth (v : W64) : Nat := bfld v 4 4
def lcTarget (v : W64) : Nat := bfld v 8 8
def lcDuration (v : W64) : Nat := bfld v 16 32

/-- Bring-up runs. -/
def bringingUp (s : State) : Bool := decide (1 ≤ s.bt.stage) && decide (s.bt.stage ≤ 7)
def bringFailed (s : State) : Bool := s.bt.stage == 9

/-- Core memory, accumulator memory and chest memory among the memory units: what a self-test of SRAM needs. -/
def sramReady (s : State) (u : Nat) : Bool :=
  if u < 16 then bringingUp s || bringFailed s
  else if u < 48 then partInReset s (cdPart (partCount s) (u - 16))
  else decide (u - 48 < 2048) && partInReset s (corePart (partCount s) (u - 48))

/-- The conditions of Table 16-5; `ready` says that the partner agrees, or that the host's port directs the module into
Loopback. -/
def loopReady (s : State) (v : W64) (ready : Bool) : Bool :=
  let t := lcTarget v
  let etris := portEnabled s t && !(getPort s t).fwd
  let hostLinkHere := decide (t < 2) && (t == 0 || fld (gradeHostLinks s.bt.grade) 1 1 == 1)
  lcDuration v != 0 && (match lcIface v, lcDepth v with
    | 0, 1 => etris
    | 0, 2 => etris
    | 0, 3 => etris
    | 0, 4 => etris && ready
    | 0, 5 => etris && ready
    | 1, 1 => decide (t < 38) && (!fabricEnded s || bringFailed s)
    | 1, 2 => decide (t < 38) && (!fabricEnded s || bringFailed s)
    | 2, 1 => decide (t < 16) && (partInReset s (wcPart (partCount s) t) || bringingUp s)
    | 3, 1 => hostLinkHere && ready
    | 3, 2 => hostLinkHere && !(getFn s (t == 1)).linkUp
    | 4, 1 => decide (t < 16) && partInReset s (wcPart (partCount s) t)
    | 5, 1 => sramReady s (Config.memoryUnit t)
    | 5, 2 => decide (t < partCount s) && partInReset s t
    | _, _ => false)

/-- What a write of LOOP_CTRL with GO does. One made while a test runs is refused, and that test goes on. -/
def loopSet (v : W64) (ready : Bool) (s : State) : State :=
  if loopReady s v ready && !s.ob.loopRuns then
    { s with ob := { s.ob with loopCtrl := BitVec.ofNat 64 (v.toNat % 2 ^ 48), loopRuns := true, loopState := 1, loopBits := 0 } }
  else { s with ob := { s.ob with loopState := 4 } }

/-- LOOPBACK: a write of LOOP_CTRL with GO. -/
def execLoopback (f : Bool) (v : W64) (ready : Bool) (s : State) : Host.Outcome State Fault Refusal :=
  .next (onlyObserve s (if writable s f 0x100300 && v.getLsbD 63 then loopSet v ready s else s))

/-- The port trains again from DETECT, unless its axis has size 1 (R348, R186). -/
def trainAgain (n : Nat) (s : State) : State :=
  let p := getPort s n
  if axisOff s n then s
  else portChanged n (leftUp n p (setPort n { p with
    state := 1, sub := 0, failReason := 0, swap := none, swapWaits := [], txCopy := none, swapActive := false, dead := [] } s))

/-- The memory tested is left as poison until it is written (R348, R87). -/
def poisonUnit (u : Nat) (s : State) : State :=
  if u < 16 then { s with mem := poisonChest u s.mem }
  else if u < 48 then modPart (cdPart (partCount s) (u - 16)) (fun v => { v with rows := [] }) s
  else { s with mem := poisonCore (u - 48) s.mem }

/-- The array self-test of a partition's tiles makes soft entries (R59). -/
def testTiles (p : Nat) (ds : List ArrayDefect) (s : State) : State :=
  let mine := fun (t : Nat) => cdPart (partCount s) t == p
  let tiles := s.bt.tiles.map (fun e => if mine e.1 then (e.1, { e.2 with unrepairable := false }) else e)
  (ds.filter (fun d => mine d.tile)).foldl applyDefect { s with bt := { s.bt with tiles := tiles } }

/-- What the end of a test leaves behind. -/
def afterLoop (defects : List ArrayDefect) (s : State) : State :=
  let v := s.ob.loopCtrl
  match lcIface v, lcDepth v with
  | 0, _ => if s.pw.powered && portEnabled s (lcTarget v) then trainAgain (lcTarget v) s else s
  | 5, 1 => poisonUnit (Config.memoryUnit (lcTarget v)) s
  | 5, 2 => testTiles (lcTarget v) defects s
  | _, _ => s

/-- LOOPBACK_END: the bits that differed, and what the array self-test found. -/
def execLoopbackEnd (errors : Nat) (defects : List ArrayDefect) (s : State) : Host.Outcome State Fault Refusal :=
  .next (keepRegs s (
    if !s.ob.loopRuns then s
    else afterLoop defects { s with
      ob := { s.ob with loopRuns := false, loopState := if errors = 0 then 2 else 3, loopErrors := s.ob.loopErrors + BitVec.ofNat 64 errors
                        loopBits := Config.openCount s.free }
      free := s.free + 1 }))

end Sys2Proof.Machine
end

