-- ==== Sys2Proof/Machine/HostWrite.lean ====
section
/-! DEFINITION. A host write to any register of BAR0: the registers with a row of their own do what that row does (R235,
R236, R284). -/

namespace Sys2Proof.Machine

/-- A host write of 4 or 8 bytes, performed. A write to one half of a 64-bit register changes only that half: `m` is the
merged value, `z` the same with 0 in the half that is not written. Whether a counter's command and a loop-back's end are
there for a write that the hub had queued is open. -/
def hostWrite (f : Bool) (o size v : Nat) (s : State) : State :=
  let o8 := o / 8 * 8
  let m : W64 := BitVec.ofNat 64 (mergeHalf o size v (reg64 s f o8))
  let z : W64 := BitVec.ofNat 64 (mergeHalf o size v 0)
  let chance := Config.openCount s.free % 2 == 1
  if o8 = 0x8 then heartbeat f s
  else if o8 = 0x18 then negSet f m s
  else if o8 = 0x48 then adminCfgSet f m s
  else if o8 = 0x20008 then frontModeSet f ((m &&& 0xFF#64) ||| (z &&& 0xFF00#64)) s
  else if o8 = 0x20098 then hdmCfgSet f m s
  else if o8 = 0x80010 then (if z.getLsbD 63 then resetTake f z s else s)
  else if o8 = 0x81000 then (if z.getLsbD 0 then startAudit s else s)
  else if o8 = 0x86000 then dumpSet z s
  else if o8 = 0x100000 ∧ z.getLsbD 63 then sampleSet f m chance (nextFree s)
  else if o8 = 0x100200 then (fun t => if z.getLsbD 1 then resumeAll false t else t) (if z.getLsbD 0 then askStop s else s)
  else if o8 = 0x100300 ∧ z.getLsbD 63 then loopSet m chance (nextFree s)
  else performWrite f o size v s

/-- REGISTER_WRITE (R235, R236). -/
def execRegisterWrite (f : Bool) (off : BitVec 24) (size : Nat) (v : W64) (s : State) : Host.Outcome State Fault Refusal :=
  .next (keepQueue s (
    let o := off.toNat
    if accessOk o size && (getFn s f).linkUp && pageServed s f o && (droneUp s || hubServed o) then hostWrite f o size v.toNat s else s))

end Sys2Proof.Machine
end

