-- ==== Sys2Proof/Machine/Firmware.lean ====
section
/-! DEFINITION. The mailbox commands, fuse-blowing, and the restart and takeover of firmware processors
(R61, R274, R283 to R292). -/

namespace Sys2Proof.Machine

/-! ### Mailbox (R292, Tables 14-5 and 14-7) -/

/-- Mailbox states. -/
def mbxOk : Nat := 2
def mbxRefused : Nat := 3
def mbxBadArgs : Nat := 4
def mbxRestarted : Nat := 5

/-- The mailbox runs this command for this function. -/
def mbxRuns (s : State) (f : Bool) (cmd : Nat) : Bool :=
  droneUp s && s.hs.mbxState == 1 && bfld s.hs.mbxCtrl 0 8 == cmd && s.hs.mbxOwner == f

/-- LEN of the running command. -/
def mbxLen (s : State) : Nat := bfld s.hs.mbxCtrl 8 12

/-- The running command ends; the functions that read IN_USE read its end. -/
def mbxEnd (st detail : Nat) (s : State) : State :=
  { s with hs := { s.hs with mbxState := st, mbxDetail := detail
                             f0 := { s.hs.f0 with mbxInUse := false }, f1 := { s.hs.f1 with mbxInUse := false } } }

/-- `n` bytes of MBX_DATA from byte `o`. -/
def mbxBytes (s : State) (o n : Nat) : List Byte := (upto n).map (fun i => mget 0 s.hs.mbxData (o + i))

/-- LICENCE_INSTALL (R274): 256 bytes of MBX_DATA. -/
def execLicenceInstall (f : Bool) (s : State) : Host.Outcome State Fault Refusal :=
  .next (onlyMgmt s (
    if !mbxRuns s f 1 then s
    else if mbxLen s ≠ 256 then mbxEnd mbxBadArgs 0 s
    else
      let (why, s1) := installLicence (putBytes 0 (mbxBytes s 0 256) []) s
      match why with
      | none => mbxEnd mbxOk 0 s1
      | some code => mbxEnd mbxRefused code s1))

/-! ### Fuses (R61) -/

/-- The entries an authorisation names are soft entries of their tile. -/
def entriesSoft (t : TileRep) (a : RepairAuth) : Bool :=
  (a.block || !a.cols.isEmpty) && (!a.block || (t.blk.isSome && t.blkSoft)) && a.cols.all (fun c => t.cols.contains (c, true))

/-- Why a repair authorisation is refused, 0 when it is taken (Table 14-6, FUSE_REFUSED). -/
def repairReason (s : State) (a : RepairAuth) : Nat :=
  if !(a.verdict.keyOk && a.verdict.sigOk && a.verdict.digestOk) || a.moduleId != moduleId s || decide (32 ≤ a.tile) then 1
  else if !mget false s.fr.heldParts (cdPart (partCount s) a.tile) then 2
  else if !entriesSoft (mget {} s.bt.tiles a.tile) a then 3
  else 0

/-- REPAIR_AUTH (R61): verified, the chest controller begins to blow the named entries; the command runs
until the last of them is blown. While an entry that a restart left begun is still being blown, it waits (R287). -/
def execRepairAuth (f : Bool) (a : RepairAuth) (s : State) : Host.Outcome State Fault Refusal :=
  .next (onlyMgmt s (
    if !mbxRuns s f 2 || s.hs.blowMbx || s.hs.blowNext.isSome then s
    else
      let why := repairReason s a
      if why ≠ 0 then mbxEnd mbxRefused why (droneLog 2 0x0403 a.tile why s)
      else if s.hs.blowing.isSome then { s with hs := { s.hs with blowNext := some (a.tile, a.block, a.cols) } }
      else { s with hs := { s.hs with blowing := some (a.tile, a.block, a.cols), blowMbx := true } }))

/-- A line of a tile is fused. -/
def fuseLine (block : Bool) (line : Nat) (t : TileRep) : TileRep :=
  if block then { t with blk := some line, blkSoft := false, field := true }
  else { t with cols := if t.cols.any (fun e => e.1 == line) then t.cols.map (fun e => if e.1 = line then (line, false) else e)
                        else addCol line false t.cols
                field := true }

/-- An entry is blown: in the fuses and in the register view, with its FUSE_BLOWN record. -/
def blowEntry (tile : Nat) (block : Bool) (line entry : Nat) (s : State) : State :=
  let s1 := { s with
    fl := { s.fl with fusedTiles := mmod {} s.fl.fusedTiles tile (fuseLine block line)
                      fieldLines := mset false s.fl.fieldLines (2048 * tile + (if block then 1040 else 0) + line) true }
    bt := { s.bt with tiles := mmod {} s.bt.tiles tile (fuseLine block line) } }
  addLog (0xA60 + cdWc tile) 1 0x0402 tile entry s1

/-- The fuse-blow ends: its mailbox command with it, when that still runs, and an authorisation that waited begins, with
the entries that are still soft. -/
def blowEnd (st detail : Nat) (s : State) : State :=
  let s1 := if s.hs.blowMbx then mbxEnd st detail s else s
  let s2 := { s1 with hs := { s1.hs with blowing := none, blowMbx := false, blowNext := none } }
  match s.hs.blowNext with
  | none => s2
  | some (t, blk, cols) =>
    let v := mget {} s.bt.tiles t
    let rest := (t, blk && v.blk.isSome && v.blkSoft, cols.filter (fun c => v.cols.contains (c, true)))
    if rest.2.1 || !rest.2.2.isEmpty then { s2 with hs := { s2.hs with blowing := some rest, blowMbx := true } } else mbxEnd mbxOk 0 s2

/-- What remains to be blown: the next entry is begun only while the partition is held (R61). -/
def blowRest (rest : Nat × Bool × List Nat) (s : State) : State :=
  if !(rest.2.1 || !rest.2.2.isEmpty) then blowEnd mbxOk 0 s
  else if mget false s.fr.heldParts (cdPart (partCount s) rest.1) then { s with hs := { s.hs with blowing := some rest } }
  else blowEnd mbxRefused 2 (droneLog 2 0x0403 rest.1 2 s)

/-- Chest controller of a tile's windchest. -/
def tileChest (t : Nat) : Nat := 36 + cdWc t

/-- FUSE_ENTRY_BLOWN (R61): the block entry first, then the columns in the order named. Entry numbers in
the record: a column's position in its tile, 16 for the block. While the chest controller is down only an entry already
begun is blown (Table 14-2, R287). -/
def execFuseEntryBlown (tile : Nat) (s : State) : Host.Outcome State Fault Refusal :=
  .next (onlyMgmt s (
    match s.hs.blowing with
    | none => s
    | some (t, blk, cols) =>
      if t ≠ tile ∨ (s.hs.blowMbx ∧ !procUp s (tileChest t)) then s
      else
        let v := mget {} s.bt.tiles t
        match blk, v.blk, cols with
        | true, some b, _ => blowRest (t, false, cols) (blowEntry t true b 16 s)
        | true, none, _ => blowRest (t, false, cols) s
        | false, _, c :: cs => blowRest (t, false, cs) (blowEntry t false c (v.cols.findIdx (fun e => e.1 == c)) s)
        | false, _, [] => blowEnd mbxOk 0 s))

/-! ### Firmware banks and certificates -/

/-- FW_WRITE: data for the bank that did not boot. -/
def execFwWrite (f : Bool) (s : State) : Host.Outcome State Fault Refusal :=
  .next (onlyMgmt s (
    if !mbxRuns s f 3 then s
    else
      let bank := leNat (mbxBytes s 0 1)
      let off := leNat (mbxBytes s 8 8)
      if mbxLen s < 16 ∨ 1 < bank then mbxEnd mbxBadArgs 0 s
      else if (bank == 1) == s.bt.bank then mbxEnd mbxRefused 0 s
      else
        let put := putBytes off (mbxBytes s 16 (mbxLen s - 16))
        mbxEnd mbxOk 0 { s with fl := if bank = 1 then { s.fl with bankB := put s.fl.bankB } else { s.fl with bankA := put s.fl.bankA } }))

/-- FW_CHECK (R263): OK when the bank passes. ALT_OK tells of the bank that did not boot. -/
def execFwCheck (f : Bool) (s : State) : Host.Outcome State Fault Refusal :=
  .next (onlyMgmt s (
    if !mbxRuns s f 4 then s
    else
      let bank := leNat (mbxBytes s 0 1)
      if mbxLen s < 1 ∨ 1 < bank then mbxEnd mbxBadArgs 0 s
      else
        let good := bankOk s (bank == 1)
        let s1 := if (bank == 1) != s.bt.bank then { s with bt := { s.bt with altOk := good } } else s
        mbxEnd (if good then mbxOk else mbxRefused) 0 s1))

/-- ID_CERT (R300): one certificate of the chain of three. -/
def execIdCert (f : Bool) (s : State) : Host.Outcome State Fault Refusal :=
  .next (onlyMgmt s (
    if !mbxRuns s f 5 then s
    else
      let idx := leNat (mbxBytes s 0 8)
      if mbxLen s < 8 ∨ 3 ≤ idx then mbxEnd mbxBadArgs 0 s
      else mbxEnd mbxOk 0 { s with hs := { s.hs with mbxData := putBytes 0 (certificate s idx) s.hs.mbxData } }))

/-! ### Watchdogs (R283 to R287, R291) -/

/-- The processor holds the Drone's role. -/
def isDrone (s : State) (i : Nat) : Bool := droneProc s == i

/-- A fuse-blow in progress finishes the entry it has begun and blows no further one; the mailbox command that asked for it
ends with RESTARTED, as does one that waits (R287). `begun` tells that the chest controller had begun the entry. -/
def stopBlowing (begun : Bool) (s : State) : State :=
  let s1 := if s.hs.blowMbx || s.hs.blowNext.isSome then mbxEnd mbxRestarted 0 s else s
  let left := match s.hs.blowing with
    | some (t, true, _) => some (t, true, [])
    | some (t, false, c :: _) => some (t, false, [c])
    | _ => none
  { s1 with hs := { s1.hs with blowing := if begun || !s.hs.blowMbx then left else none, blowMbx := false, blowNext := none } }

/-- Any other mailbox command the Drone was running ends with RESTARTED. -/
def stopMailbox (s : State) : State := if s.hs.mbxState = 1 then mbxEnd mbxRestarted 0 s else s

/-- Tells the tray's event receiver of a processor's new state. -/
def procEvent (i : Nat) (s : State) : State := sensorEvent i (getProc s i).state s

/-- WATCHDOG_FIRE (R283, R284, R287): what the processor governs freezes. `held` are the host writes that
the hub queue holds when the Drone's watchdog fires. -/
def execWatchdogFire (proc : Nat) (exception : Bool) (held : List HubWrite) (s : State) : Host.Outcome State Fault Refusal :=
  .next (keepRegs s (
    let p := getProc s proc
    if !procLoaded s proc || p.state == 1 || p.state == 3 || frozenIsl s (procIsland proc) then s
    else
      let drone := isDrone s proc
      let s1 := setProc proc { p with state := 1, lastCause := if exception then 2 else 1, fires := p.fires + 1 } s
      let blower := match s.hs.blowing with | some (t, _, _) => tileChest t | none => 66
      let s2 := if drone then stopMailbox (stopBlowing (procUp s blower) { s1 with hs := { s1.hs with hubQueue := held } })
                else if blower = proc then stopBlowing true s1
                else s1
      procEvent proc (if 54 ≤ proc then modPort (proc - 54) (fun v => { v with sparingPaused := true }) s2 else s2)))

/-- Actions of the host-state machine that fell due while the Drone was down (R291). -/
def catchUp (s : State) : State :=
  [false, true].foldl (fun t f => if (getFn t f).attach = 2 ∧ !(getFn t f).quiescing then beginQuiesce f t else t) s

/-- The queued writes are performed in order (R284). -/
def drainHub (s : State) : State :=
  s.hs.hubQueue.foldl (fun t w =>
    if accessOk w.off.toNat w.size && pageServed t w.f w.off.toNat then hostWrite w.f w.off.toNat w.size w.v.toNat t else t)
    { s with hs := { s.hs with hubQueue := [] } }

/-- The Drone serves again: kept records and notices, host states, queued writes. -/
def droneReturns (s : State) : State := drainHub (catchUp (flushNotices (flushLogs s)))

/-- A Chanter that returns goes on with its queues at the first command not yet dispatched, and with the admin rings
(R286). -/
def chanterReturns (s : State) : State :=
  [false, true].foldl (fun t f => if adminOn t f then settleAdmin f (fetchAdmin f t) else t)
    ((queuesWhere s (fun q _ => qKind q == 7)).foldl (fun t q => fetchQ q t) s)

/-- A cluster sequencer that returns takes the tiered hand-offs that waited for it (Table 14-2). -/
def seqReturns (s : State) : State := (queuesWhere s (fun q _ => qKind q == 7)).foldl (fun t q => settleQ q t) s

/-- PROC_RESTART (R283): the processor runs again on the state of its hardware. -/
def execProcRestart (proc : Nat) (s : State) : Host.Outcome State Fault Refusal :=
  .next (keepQueue s (
    let p := getProc s proc
    if !procLoaded s proc || p.state != 1 then s
    else
      let standby := (proc == 2 || proc == 3) && !p.activeRole
      let p' := { p with state := if standby then 2 else 0, restarts := satAdd 255 p.restarts 1 }
      let s1 := setProc proc p' s
      let s2 := if isDrone s1 proc then droneReturns s1 else s1
      let s3 := if chanterProc s2 = proc then chanterReturns s2 else s2
      let s4 := if 54 ≤ proc then nextSwap (proc - 54) (modPort (proc - 54) (fun v => { v with sparingPaused := false }) s3) else s3
      let s5 := if 4 ≤ proc ∧ proc < 36 then seqReturns s4 else s4
      procEvent proc (addLog (procIsland proc) 2 0x0101 (proc + 2 ^ 8 * p.lastCause) p'.restarts s5)))

/-! ### Takeover and failure (R285) -/

/-- The standby of the Drone or of the Chanter stands by. -/
def standbyOf (s : State) (proc : Nat) : Bool := decide (proc ≤ 1) && (getProc s (proc + 2)).state == 2

/-- The fault record of a processor that failed (Table 15-3). -/
def mgmtRec (s : State) (proc : Nat) : FaultRec :=
  { island := procIsland proc, cls := cMgmt, kind := 7, level := if 4 ≤ proc ∧ proc < 36 then 5 else 0
    arg0 := BitVec.ofNat 64 proc, arg1 := BitVec.ofNat 64 (fwpState (getProc s proc)) }

/-- The standby takes the role, and the failure is recorded (R302); a Drone takeover promotes function 1 (R231, R285). -/
def takeOver (proc : Nat) (s : State) : State :=
  let s1 := setProc proc { getProc s proc with state := 3 } s
  let s2 := setProc (proc + 2) { getProc s1 (proc + 2) with state := 0, activeRole := true, lastCause := 3 } s1
  let s3 := if proc = 0 then droneReturns s2 else chanterReturns s2
  let s4 := if proc = 0 && standbyReady s3 then promote s3 else s3
  procEvent (proc + 2) (procEvent proc (addFault (mgmtRec s4 proc) true (droneLog 3 0x0102 proc (proc + 2) s4)))

/-- A processor without a standby is marked FAILED. A cluster sequencer's first failure asks for a chip
reset, and its second ends bring-up in FAILED with reason ENGINE_FAULT. -/
def procFail (proc : Nat) (s : State) : State :=
  let s1 := setProc proc { getProc s proc with state := 3 } s
  let s2 := procEvent proc (addFault (mgmtRec s1 proc) true (droneLog 3 0x0103 proc 0 s1))
  if 4 ≤ proc ∧ proc < 36 then
    if mget false s2.fr.seqFailed proc then failBring 6 6 (clearReady 0 s2)
    else unlessStopped (.req 3 (.fault 0 0)) (beginChip false true) { s2 with fr := { s2.fr with seqFailed := mset false s2.fr.seqFailed proc true } }
  else s2

/-- PROC_TAKEOVER (R285): after three firings within 60 s, while the processor is being reloaded. -/
def execProcTakeover (proc : Nat) (s : State) : Host.Outcome State Fault Refusal :=
  .next (keepQueue s (
    let p := getProc s proc
    if !procLoaded s proc || p.state != 1 || decide (p.fires < 3) then s
    else if standbyOf s proc then takeOver proc s
    else procFail proc s))

end Sys2Proof.Machine
end

