-- ==== Sys2Proof/Machine/FrontEnd.lean ====
section
/-! DEFINITION. The front end's events and the commands it carries out itself: producer indices, command
waits, NOP, IF, LOOP, CALL, RET, LAUNCH, PATCHGRAPH and the completion of commands (chapter 12). -/

namespace Sys2Proof.Machine

/-! ### Producer indices (R242, R243, R372) -/

/-- What the host changed: its stores become visible, and its answers to ATS and to accesses. -/
def applyDelta (h : HostDelta) (s : State) : State :=
  let mem := h.stores.foldl (fun m e => mset 0 m e.1 e.2) s.hs.hostMem
  let whole := (h.stores.map (fun e => e.1 / 64)).eraseDups.filter (fun l => (upto 64).all (fun i => h.stores.any (fun e => e.1 == 64 * l + i)))
  changed causeHost { s with hs := { s.hs with hostMem := mem, hostPoison := whole.foldl (fun p l => mset false p l false) s.hs.hostPoison
                                               atsRefuses := h.atsRefuses.getD s.hs.atsRefuses, aborts := h.aborts.getD s.hs.aborts } }

/-- The queue's producer index lies in this host line. -/
def indexInLine (s : State) (q line : Nat) : Bool :=
  isHost (64 * indexLine s q) && (64 * indexLine s q - hostBit) / 64 == line / 64

/-- Functions in order. -/
def fns : List Bool := [false, true]

/-- PRODUCER_INDEX_WATCH: every watched index in the line is read again. -/
def execProducerIndexWatch (line : W64) (h : HostDelta) (s : State) : Host.Outcome State Fault Refusal :=
  .next (onlyWork s (
    if !s.pw.powered then s
    else
      let s1 := applyDelta h s
      let qs := queuesWhere s1 (fun q v => !v.polled && (getFn s1 v.owner).linkUp && indexInLine s1 q line.toNat)
      let s2 := qs.foldl (fun t q => fetchQ q t) s1
      fns.foldl (fun t f => if adminWatched t f && (getFn t f).adminPi.toNat / 64 == line.toNat / 64 then fetchAdmin f t else t) s2))

/-- PRODUCER_INDEX_POLL: every polled index is read. -/
def execProducerIndexPoll (h : HostDelta) (s : State) : Host.Outcome State Fault Refusal :=
  .next (onlyWork s (
    if !s.pw.powered then s
    else
      let s1 := applyDelta h s
      let s2 := (queuesWhere s1 (fun _ v => v.polled)).foldl (fun t q => fetchQ q t) s1
      fns.foldl (fun t f => if adminWatched t f then t else fetchAdmin f t) s2))

/-! ### Command waits (R245, R259) -/

/-- The queue's command wait has been released. -/
def waitReleased (s : State) (q : Nat) : Bool := s.fe.waiters.any (fun w => isQueueWait q w && w.released.isSome)

/-- COMMAND_WAIT_RELEASE: the command may be dispatched; a queue whose sink is lost holds it and halts. -/
def execCommandWaitRelease (qid : BitVec 20) (s : State) : Host.Outcome State Fault Refusal :=
  .next (onlyWork s (
    let q := qid.toNat
    let v := getQ s q
    if v.live && v.state == qWaiting && waitReleased s q then
      modQ q (fun w => { w with waitDone := true, state := if sinkHeld s v then qHalted else qActive }) s
    else s))

/-! ### NOP -/

/-- Cause of the idleness that the dispatch of a command ends: the release of its command wait, else where the command
was fetched (R228, R334). -/
def startCause (s : State) (q : Nat) (e : Entry) : Nat :=
  match s.fe.waiters.find? (isQueueWait q) with
  | some w => if cmdWait e.cmd then w.cause else if e.fromHost then causeHost else causeEngine
  | none => if e.fromHost then causeHost else causeEngine

/-! ### Buffers (R250) -/

/-- Deepest stack of frames. -/
def maxDepth : Nat := 8

/-- The graph that the queue's commands come from now. -/
def curGraph (v : Queue) : Option (Nat × Nat) := match v.frames with | f :: _ => f.graph | [] => none

/-- The command runs its target buffer as a new frame; it completes when the frame's last run has ended. -/
def runBuffer (q : Nat) (e : Entry) (kind count idx : Nat) (s : State) : State :=
  let v := getQ s q
  if maxDepth ≤ v.frames.length then feIllegal q e rCommand s
  else
    let target : W64 := BitVec.ofNat 64 (cmdArg e.cmd 2)
    let f : Frame := { graph := curGraph v, next := target, left := count, idxAddr := BitVec.ofNat 64 idx, target := target, kind := kind, id := v.dispatched, seq := e.seq }
    modQ q (fun w => { w with frames := f :: w.frames }) (pushFlight q e (qcKey 7 0 0) none (inGraphNow v) s)

/-- IF (R250): a 64-bit value at ARG0 compared with ARG1, unsigned. -/
def ifHolds (cmp v c : Nat) : Bool :=
  if cmp = 0 then decide (c ≤ v) else if cmp = 1 then decide (v < c) else if cmp = 2 then v == c else v != c

def execIfCmd (qid : BitVec 20) (s : State) : Host.Outcome State Fault Refusal :=
  .next (onlyWork s (
    let q := qid.toNat
    match headCmd s q 0x10 with
    | none => s
    | some e =>
      let v := getQ s q
      match readVa s v.ctx (cmdArg e.cmd 0) 8 accRead .other with
      | (.fail a o, s1) => settleQ q (feFail q e a accRead o s1)
      | (.ok bs, s1) =>
        if ifHolds (cmdCmp e.cmd) (leNat bs) (cmdArg e.cmd 1) then settleQ q (runBuffer q e 0 1 0 s1)
        else settleQ q (pushFlight q e (qcKey 7 0 0) (some stDone) (inGraphNow v) s1)))

/-- Writes the iteration index, where the loop has an address for it. -/
def writeIndex (q idx n : Nat) (s : State) : Option XOut × State :=
  if idx = 0 then (none, s) else writeVa s (getQ s q).ctx idx (leBytes 8 n) causeEngine .other

/-- LOOP (R250). -/
def execLoopCmd (qid : BitVec 20) (s : State) : Host.Outcome State Fault Refusal :=
  .next (onlyWork s (
    let q := qid.toNat
    match headCmd s q 0x11 with
    | none => s
    | some e =>
      let count := cmdArg e.cmd 0
      let idx := cmdArg e.cmd 1
      if count = 0 then settleQ q (pushFlight q e (qcKey 7 0 0) (some stDone) (inGraphNow (getQ s q)) s)
      else if maxDepth ≤ (getQ s q).frames.length then settleQ q (feIllegal q e rCommand s)
      else match writeIndex q idx 0 s with
        | (some o, s1) => settleQ q (feFail q e idx accWrite o s1)
        | (none, s1) => settleQ q (runBuffer q e 1 count idx s1)))

/-- CALL (R250). -/
def execCallCmd (qid : BitVec 20) (s : State) : Host.Outcome State Fault Refusal :=
  .next (onlyWork s (
    match headCmd s qid.toNat 0x12 with
    | none => s
    | some e => settleQ qid.toNat (runBuffer qid.toNat e 2 1 0 s)))

/-- The frame's run has ended: another iteration, or the command that ran it completes. -/
def endRun (q : Nat) (f : Frame) (fs : List Frame) (s : State) : State :=
  if f.kind = 3 then endLaunchIf q (modQ q (fun v => { v with frames := fs, launchEnded := true }) s)
  else if 1 < f.left then
    match writeIndex q f.idxAddr.toNat (f.done + 1) s with
    | (some o, s1) =>
      feAccess q f.seq f.idxAddr.toNat accWrite o (setResult q f.id (accessStatus o) (modQ q (fun v => { v with frames := fs }) s1))
    | (none, s1) => modQ q (fun v => { v with frames := { f with left := f.left - 1, done := f.done + 1, next := f.target } :: fs }) s1
  else setResult q f.id stDone (modQ q (fun v => { v with frames := fs }) s)

/-- RET (R250). -/
def execRetCmd (qid : BitVec 20) (s : State) : Host.Outcome State Fault Refusal :=
  .next (onlyWork s (
    let q := qid.toNat
    match headCmd s q 0x13, (getQ s q).frames with
    | some e, f :: fs => settleQ q (endRun q f fs (pushFlight q e (qcKey 7 0 0) (some stDone) (inGraphNow (getQ s q)) s))
    | _, _ => s))

/-! ### Stored graphs (R251, R252) -/

/-- A graph or patch fails its checks: the record names the queue and the given address. -/
def feDescriptor (q : Nat) (e : Entry) (addr : Nat) (s : State) : State := feEnd q e cDescriptor stDescriptor 0 addr 6 s

/-- LAUNCH (R251): runs the version that it bound when it was fetched. -/
def execLaunch (qid : BitVec 20) (s : State) : Host.Outcome State Fault Refusal :=
  .next (onlyWork s (
    let q := qid.toNat
    match headCmd s q 0x14 with
    | none => s
    | some e =>
      let g := fld (cmdArg e.cmd 0) 0 12
      match e.bound with
      | none => settleQ q (feDescriptor q e g s)
      | some (ver, owner) =>
        if owner ≠ (getQ s q).ctx then settleQ q (feIllegal q e rCommand s)
        else
          let f : Frame := { graph := some (g, ver), left := 1, kind := 3, seq := e.seq }
          settleQ q (modQ q (fun w => { w with cur := none, waitDone := false, launch := some e, launchFail := 0, launchEnded := false, frames := [f] })
            (dropWaits (isQueueWait q) s))))

/-- The page of a version that a patch list gives: a fresh one for each page touched. -/
def freshPages (touched fresh : List Nat) (pages : List Nat) : List Nat :=
  (upto pages.length).map (fun k =>
    match touched.findIdx? (· == k) with
    | some j => fresh.getD j 0
    | none => pages.getD k 0)

/-- The patches are applied in order; a later entry with the same index wins. -/
def applyPatches (pages : List Nat) : List Nat → List Byte → State → State
  | [], _, s => s
  | i :: is, bs, s => applyPatches pages is (bs.drop 64) (pageWrite (pages.getD (i / 64) 0) (i % 64) (bs.take 64) s)

/-- The command indices of an index array. -/
def indices : Nat → List Byte → List Nat
  | 0, _ => []
  | n + 1, bs => leNat (bs.take 4) :: indices n (bs.drop 4)

/-- PATCHGRAPH (R252): where a fifth version or the pool is missing it waits and holds its queue. -/
def patchGraph (q : Nat) (e : Entry) (s0 : State) : State :=
  let s := freeVersions s0
  let v := getQ s q
  let g := fld (cmdArg e.cmd 0) 0 12
  let n := fld (cmdArg e.cmd 0) 16 16
  let gr := getGraph s g
  match gr.current with
  | none => settleQ q (feDescriptor q e g s)
  | some ver =>
    if gr.owner ≠ v.ctx then settleQ q (feIllegal q e rCommand s)
    else match readVa s v.ctx (cmdArg e.cmd 1) (4 * n) accRead .other with
      | (.fail a o, s1) => settleQ q (feFail q e a accRead o s1)
      | (.ok ib, s1) =>
        match readVa s1 v.ctx (cmdArg e.cmd 2) (64 * n) accRead .other with
        | (.fail a o, s2) => settleQ q (feFail q e a accRead o s2)
        | (.ok cb, s2) =>
          let is := indices n ib
          if is.any (fun i => decide (mget 0 gr.lengths ver ≤ i)) then settleQ q (feDescriptor q e (cmdArg e.cmd 1) s2)
          else
            let touched := (is.map (· / 64)).dedup
            if 4 ≤ gr.versions.length then s2
            else match allocPages s2 touched.length with
              | none => s2
              | some fresh =>
                let old := mget [] gr.versions ver
                let pages := freshPages touched fresh old
                let s3 := touched.foldl (fun t k => pageCopy (old.getD k 0) (pages.getD k 0) t) s2
                let s4 := applyPatches pages is cb s3
                let gr' := { gr with
                  versions := minsert gr.nextVersion pages gr.versions, lengths := mset 0 gr.lengths gr.nextVersion (mget 0 gr.lengths ver)
                  current := some gr.nextVersion, nextVersion := gr.nextVersion + 1 }
                let s5 := setGraph g gr' s4
                settleQ q (freeVersions (pushFlight q e (qcKey 7 0 0) (some stDone) false s5))

def execPatchgraph (qid : BitVec 20) (s : State) : Host.Outcome State Fault Refusal :=
  .next (onlyWork s (
    match headCmd s qid.toNat 0x15 with
    | none => s
    | some e => patchGraph qid.toNat e s))

/-! ### Completion (R245, R246, R255 to R257) -/

/-- COMMAND_COMPLETION: the oldest command of this submission number whose status is known is published. -/
def execCommandCompletion (src : Src) (seq : BitVec 56) (s : State) : Host.Outcome State Fault Refusal :=
  .next (onlyWork s (
    match src with
    | .queue qid =>
      match (getQ s qid.toNat).inflight.find? (fun f => f.result.isSome && f.entry.seq == seq) with
      | some f => freeVersions (publish qid.toNat f s)
      | none => s
    | .admin f =>
      match (getFn s f).adminBusy with
      | some b => if b.result.isSome && b.entry.seq == seq then publishAdmin f s else s
      | none => s))

end Sys2Proof.Machine
end

