-- ==== Sys2Proof/Machine/MemHealth.lean ====
section
/-! DEFINITION. Memory health: patrol scrub, soft repair, the swap of a pseudo-channel (R81 to R85). -/

namespace Sys2Proof.Machine

/-- The chest controller of a windchest runs. -/
def chestCtl (s : State) (w : Nat) : Bool := s.pw.powered && procUp s (36 + w) && !frozenIsl s (0xA60 + w)

/-- Home line of line `l` of a stack's local view or of a chest memory; none beyond what is backed (Table 05-5). -/
def scrubLine (chest : Bool) (w l : Nat) : Option Nat :=
  if chest then (if 64 * l < 0x28000000 then some ((chestBase + w * 2 ^ 30) / 64 + l) else none)
  else if 64 * l < 0xBA0000000 then some (w * 2 ^ 30 + l) else none

/-- What the patrol finds at a line besides the errors that the model holds is counted by code word (Table 05-3). -/
def countFinds (chest : Bool) (w line : Nat) (f : PatrolFind) (m : Mem) : Mem :=
  let up := fun (c : NMap Nat) (n : Nat) => mset 0 c w (satAdd max32 (mget 0 c w) n)
  if chest then { m with chestCe := up m.chestCe f.corrected, chestUe := up m.chestUe f.uncorrectable }
  else { m with hbmCe := up m.hbmCe f.corrected, hbmUe := up m.hbmUe f.uncorrectable
                lastUe := if f.uncorrectable = 0 then m.lastUe else mset 0 m.lastUe w (64 * line) }

/-- Poisons a line unless there is nothing to poison it for. -/
def poisonIf (b : Bool) (line : Nat) (m : Mem) : Mem := if b then setPoison line true m else m

/-- PATROL_SCRUB: one line of the patrol's pass: the errors it meets there, and those its operand tells, at most as many as
the line has code words. What an engine or the host has written since is left as it is (R83). -/
def execPatrolScrub (chest : Bool) (wc : Nat) (line : Nat) (find : PatrolFind) (s : State) : Host.Outcome State Fault Refusal :=
  .next (onlyMemory s (
    if !chestCtl s wc || decide (16 ≤ wc) then s
    else match scrubLine chest wc line with
    | none => s
    | some h =>
      let m := if find.writtenSince then s.mem else readLine h s.mem
      let n := if chest then 8 else 2
      let found := { find with corrected := min n find.corrected, uncorrectable := min n find.uncorrectable }
      fwPoint (36 + wc) 5 line { s with mem := poisonIf (found.uncorrectable != 0 && !find.writtenSince) h (countFinds chest wc h found m) }))

/-- HBM_REPAIR record: soft repair (0) or swap (1) of a pseudo-channel (Table 14-6). -/
def repairLog (stack kind pch : Nat) (s : State) : State := addLog (procIsland (36 + stack)) 2 0x0404 stack (kind + 2 * pch) s

/-- SOFT_REPAIR: the row moves to a repair row, its contents unchanged, and is recorded for a hard repair at the next cold
power-on. -/
def execSoftRepair (stack pch : Nat) (row : Nat) (s : State) : Host.Outcome State Fault Refusal :=
  .next (onlyMemory s (
    if !chestCtl s stack || decide (16 ≤ stack) || s.fl.rowsToRepair.contains (stack, pch, row) then s
    else repairLog stack 0 pch { s with
      mem := { s.mem with pprSoft := mset 0 s.mem.pprSoft stack (mget 0 s.mem.pprSoft stack + 1) }
      fl := { s.fl with rowsToRepair := s.fl.rowsToRepair ++ [(stack, pch, row)] } }))

/-- PCH_SWAP_START: the copy into the spare begins; a stack whose spare is taken is degraded. -/
def execPchSwapStart (stack pch : Nat) (s : State) : Host.Outcome State Fault Refusal :=
  .next (onlyMemory s (
    let m := s.mem
    if !chestCtl s stack || decide (16 ≤ stack) then s
    else if mget false m.swapActive stack then
      if mget 0 m.spareFor stack = pch then s else { s with mem := { m with degraded := mset false m.degraded stack true } }
    else if mget false m.spareUsed stack then { s with mem := { m with degraded := mset false m.degraded stack true } }
    else fwPoint (36 + stack) 6 pch { s with
      mem := { m with swapActive := mset false m.swapActive stack true, spareFor := mset 0 m.spareFor stack pch
                      swapNext := mset 0 m.swapNext stack 0 } }))

/-- PCH_SWAP_COPY_STEP: `line` is the copied line's number in the stack's local view; lines follow in address order. -/
def execPchSwapCopyStep (stack : Nat) (line : Nat) (correctable : Bool) (s : State) : Host.Outcome State Fault Refusal :=
  .next (onlyMemory s (
    let m := s.mem
    if !chestCtl s stack || decide (16 ≤ stack) || !mget false m.swapActive stack || decide (line < mget 0 m.swapNext stack) then s
    else match scrubLine false stack line with
    | none => s
    | some h =>
      let m1 := { readLine h m with swapNext := mset 0 m.swapNext stack (line + 1) }
      { s with mem := if correctable then m1 else setPoison h true (countFinds false stack h ⟨0, 1, false⟩ m1) }))

/-- PCH_SWAP_END: the map points the pseudo-channel at the spare. -/
def execPchSwapEnd (stack : Nat) (s : State) : Host.Outcome State Fault Refusal :=
  .next (onlyMemory s (
    let m := s.mem
    if !chestCtl s stack || !mget false m.swapActive stack then s
    else repairLog stack 1 (mget 0 m.spareFor stack) { s with
      mem := { m with swapActive := mset false m.swapActive stack false, spareUsed := mset false m.spareUsed stack true
                      swapNext := mset 0 m.swapNext stack 0 } }))

end Sys2Proof.Machine
end

