-- ==== Sys2Proof/Machine/Reduce.lean ====
section
/-! DEFINITION. The reduction engine's commands: the four RX instructions, the arrival of packets, deadlines and
completion (R206 to R209, R214, R216, R219, R221, R226, R227). -/

namespace Sys2Proof.Machine

/-! ### Opening a collective (R207 to R209, R214) -/

/-- Reserved fields of the descriptor: lowest bit and width. -/
def cdReserved : List (Nat × Nat) :=
  [(7, 9), (48, 16), (136, 24), (217, 39), (345, 7), (473, 7), (537, 7), (601, 7), (665, 7), (688, 336)]

/-- What every instruction checks, and the addresses that this one uses (R209). -/
def cdBad (v : Slot) : Bool :=
  bfld v.desc 0 1 == 0 || cdReserved.any (fun f => bfld v.desc f.1 f.2 != 0)
  || bfld v.desc 288 3 != 0 || bfld v.desc 608 3 != 0
  || cdPitch v % 8 != 0 || decide (cdPitch v < 4 * cdN v) || cdRows v == 0 || cdN v == 0 || cdRow0 v % cdB v != 0
  || (reduces v && (cdBase v % 64 != 0 || cdOut v % 64 != 0 || cdHist v % 64 != 0))
  || (v.kind == cRS && cdHdr v % 64 != 0)

/-- The bucket rules (R214), and the entry count of a permute. -/
def bucketBad (v : Slot) : Bool :=
  let bytes := cdRows v * cdN v * 4
  if v.kind = cPERM then cdHandle v == 0 || decide (512 < cdHandle v)
  else decide (64 * 2 ^ 20 < bytes) || (v.kind == cRS && (decide (cdBlocks v < v.n) || decide (bytes < 4 * 2 ^ 20)))

/-- A collective of the same context and tag is open. -/
def tagOpen (s : State) (ctx tag : Nat) : Bool := s.rx.slots.any (fun e => e.2.live && e.2.ctx == ctx && cdTag e.2 == tag)

/-- A permute entry breaks Table 11-9. -/
def entryBad (e : BitVec 256) : Bool :=
  bfld e 57 7 != 0 || bfld e 124 4 != 0 || bfld e 192 64 != 0 || bfld e 113 1 == 0 && bfld e 114 1 == 1
  || peAddr e % 64 != 0 || peLen e % 64 != 0 || decide (2 ^ 28 < peLen e)

/-- The working-weight tensor of an all-gather: LINEAR, K by N (R224). -/
def weightsOk (v : Slot) (d : Nat) : Bool :=
  !tdTiled d && tdDim d 1 == cdN v && tdDim d 2 == 1 && tdDim d 3 == 1 && decide (cdRow0 v + cdRows v ≤ tdDim d 0)

/-- Eighth smallest of 16 slacks. -/
def eighth (l : List Nat) : Nat := (l.find? (fun x => decide ((l.filter (· < x)).length ≤ 7) && decide (8 ≤ (l.filter (· ≤ x)).length))).getD 0

/-- The deadline from the history record (R219). -/
def deadlineOf (s : State) (h : List Byte) : Nat :=
  if (h.getD 64 0).toNat < 16 then s.rx.deadlineInit
  else min (max (4 * eighth ((upto 16).map (fun i => leNat ((h.drop (4 * i)).take 4)))) s.rx.deadlineMin) s.rx.deadlineMax

/-- Lowest free slot of an engine. -/
def freeSlot (s : State) (w : Nat) : Option Nat := (upto 64).find? (fun i => !(getSlot s (slotKey w i)).live)

/-- Opens the collective: orphans are counted, and a bucket that is full already decides at once. The program goes on; an
instruction command stays in flight until the collective completes. -/
def acceptSlot (q : Nat) (k : Nat) (v : Slot) (t : State) : State :=
  let qc := getQc t q
  let prog := isProg qc
  let src := match qc.cmd with | some (a, b, _) => (a, b) | none => (0, 0)
  let v1 := { v with live := true, queue := src.1, id := src.2, byProg := prog, pc := pcNow qc, order := t.free }
  let v2 := if filled t v1 then fillSlot t.free v1 else v1
  let orphans := if v.kind = cPERM then 0 else ((upto v.n).filter (fun j => !inLine v j)).length
  let t1 := setSlot k v2 { t with
    rx := { t.rx with orphan := satAdd max32 t.rx.orphan orphans
                      deadTags := t.rx.deadTags.filter (fun d => d != (v.ctx, cdTag v)) }
    free := t.free + 1 }
  if prog then doneInsn q 16 t1 else modQc q (fun x => { x with cmd := none, started := false }) (leaveEng q t1)

/-- Reads what the instruction latches behind its descriptor, and goes on with the slot. -/
def latchSlot (q : Nat) (seq : BitVec 56) (v : Slot) (t : State) (go : Slot → State → State) : State :=
  if v.kind = cAG then
    withTd q (cdHandle v) 6 true (weightsOk v) seq t (fun d => go { v with wdesc := BitVec.ofNat 512 d })
  else if v.kind = cPERM then
    match readVa t v.ctx (cdOut v) (32 * cdHandle v) accRead .other with
    | (.fail a o, t1) => longAccess q a accRead o seq {} t1
    | (.ok bs, t1) =>
      let es := (upto (cdHandle v)).map (fun i => BitVec.ofNat 256 (leNat ((bs.drop (32 * i)).take 32)))
      match es.findIdx? entryBad with
      | some i => longDesc q (cdOut v + 32 * i) 6 seq t1
      | none => go { v with entries := es } t1
  else if bfld v.desc 5 1 = 1 then go { v with dl := bfld v.desc 384 32 } t
  else
    match readVa t v.ctx (cdHist v) 66 accRead .other with
    | (.fail a o, t1) => longAccess q a accRead o seq {} t1
    | (.ok bs, t1) => go { v with dl := deadlineOf t1 bs } t1

/-- An RX instruction: acceptance waits, without effect, while every slot is in use. -/
def openCollective (kind : Nat) (q : BitVec 20) (ra : BitVec 5) (s : State) : Host.Outcome State Fault Refusal :=
  let n := q.toNat
  longInsn n kRX 0x16 kind [] s (fun seq t =>
    let qc := getQc t n
    let va := (rdG qc ra).toNat
    if va % 128 ≠ 0 then longDesc n va 6 seq t
    else match readVa t qc.ctx va 128 accRead .other with
    | (.fail a o, t1) => longAccess n a accRead o seq {} t1
    | (.ok bs, t1) =>
      let d := BitVec.ofNat 1024 (leNat bs)
      let a := bfld d 1 2
      let v : Slot := { kind, q := n, seq, ctx := qc.ctx, desc := d, va, n := axisSizeOf t1.et.axisSize a
                        me := coordOn t1.et.coord a, line := if kind = cPERM then 0 else mget 0 t1.rx.line a }
      if cdBad v || bucketBad v || tagOpen t1 qc.ctx (cdTag v) then longDesc n va 6 seq t1
      else latchSlot n seq v t1 (fun w t2 =>
        match translate t2 qc.ctx (bfld d 288 57) accTally .other with
        | (.ok loc, t3) =>
          if locPoison t3 loc then longAccess n (bfld d 288 57) accTally (.poisonAt (lineAddr loc)) seq {} t3
          else match freeSlot t3 (qIndex n) with
          | some i => acceptSlot n (slotKey (qIndex n) i) { w with fillLoc := loc } t3
          | none => s
        | (o, t3) => longAccess n (bfld d 288 57) accTally o seq {} t3))

/-- RX.RS. -/
def execRxRs (q : BitVec 20) (ra : BitVec 5) (s : State) : Host.Outcome State Fault Refusal := openCollective cRS q ra s

/-- RX.AG. -/
def execRxAg (q : BitVec 20) (ra : BitVec 5) (s : State) : Host.Outcome State Fault Refusal := openCollective cAG q ra s

/-- RX.AR. -/
def execRxAr (q : BitVec 20) (ra : BitVec 5) (s : State) : Host.Outcome State Fault Refusal := openCollective cAR q ra s

/-- RX.PERM. -/
def execRxPerm (q : BitVec 20) (ra : BitVec 5) (s : State) : Host.Outcome State Fault Refusal := openCollective cPERM q ra s

/-! ### Deadlines (R216) -/

/-- CONTRIBUTION_DEADLINE: `elapsed` windchest cycles since the chunk's first arrival. -/
def execContributionDeadline (wc slot chunk elapsed : Nat) (s : State) : Host.Outcome State Fault Refusal :=
  .next (onlyFabric s (
    let k := slotKey wc slot
    let v := getSlot s k
    if v.live && engUp s kRX wc && reduces v && (undecided v).contains chunk && hasArrival v chunk && !filled s v && decide (v.dl < elapsed) then
      rxPump (setSlot k { v with decisions := mset 0 v.decisions chunk dOut, normal := true, outSeen := true, cause := 8 } s)
    else s))

/-! ### Packets (R221) -/

/-- TAG of a packet of the reduction engines. -/
def rxTag (p : Packet) : Nat := if pktClass p.header = clData then bfld p.header 64 32 else bfld p.header 66 32

/-- Slot of the open collective that a packet names. -/
def matchSlot (s : State) (p : Packet) : Option Nat :=
  (s.rx.slots.find? (fun e => e.2.live && e.2.ctx == pktCtx p.header && cdTag e.2 == rxTag p)).map Prod.fst

/-- The packet names a collective that an engine reset ended. -/
def deadTag (s : State) (p : Packet) : Bool := s.rx.deadTags.contains (pktCtx p.header, rxTag p)

/-- Packets of the reduction engines: data, piece headers, acknowledgements. -/
def isData (p : Packet) : Bool := pktClass p.header == clData
def isPieceHeader (p : Packet) : Bool := pktClass p.header == clSignal && bfld p.header 64 2 == 0
def isAck (p : Packet) : Bool := pktClass p.header == clSignal && bfld p.header 64 2 == 1

/-- A packet leaves the receive buffer and is counted in COLL_DISCARD. -/
def discardPacket (n : Nat) (p : Packet) (s : State) : State :=
  let s1 := takePacket n p s
  { s1 with rx := { s1.rx with discard := satAdd max32 s1.rx.discard 1 } }

/-- Takes the first packet of a sort at port `n` whose collective is open, or was ended by an engine reset. -/
def rxRow (n : Nat) (sort : Packet → Bool) (act : Nat → Packet → State → State) (s : State) : Host.Outcome State Fault Refusal :=
  .next (onlyFabric s (
    let mine := fun (p : Packet) => sort p && (match matchSlot s p with | some k => engUp s kRX (k / 64) | none => deadTag s p)
    match firstPacket n mine s with
    | none => s
    | some p =>
      match matchSlot s p with
      | some k => rxPump (act k p (takePacket n p s))
      | none => discardPacket n p s))

/-- The piece is one that this member receives. -/
def expects (v : Slot) (stage j r : Nat) (plus : Bool) : Bool :=
  (liveChunks v).contains j
  && (if stage = 0 then
        reduces v && (if j = v.me then reduceSpan v plus r j != 0 && !v.ownDone
          else match onReduce v plus r j with | some d => d != reduceSpan v plus r j | none => false)
      else v.kind != cRS && (onGather v plus r j).isSome)
  && !(getPiece v (pieceKey stage j r plus)).sent

/-- A piece of a chunk arrives: its first arrival, and the last wait is for a peer (R216, R228). -/
def arrive (stage j : Nat) (v : Slot) : Slot :=
  { v with cause := 1 + cdAxis v, arrived := if stage = 0 then mset false v.arrived j true else v.arrived }

/-- Stores the data of a packet in its piece. A stream that moves in the + direction arrives by a port of the −
direction. -/
def recvData (n : Nat) (k : Nat) (p : Packet) (s : State) : State :=
  let v := getSlot s k
  let h := p.header
  if h.getLsbD 105 then (if v.kind = cPERM then recvShard k (1 + portAxis n) p s else s)
  else
    let stage := bfld h 106 1
    let j := bfld h 96 7
    let r := bfld h 103 2
    let plus := !portPlus n
    let off := bfld h 107 22
    if v.kind = cPERM || !expects v stage j r plus then s
    else
      let key := pieceKey stage j r plus
      let pc := getPiece v key
      let u := dataUnits p (if pc.hasHdr then pc.len - off else 2 ^ 22)
      let pc1 := { pc with units := pc.units + u, data := putBytes (64 * off) (p.body.take (64 * u)) pc.data
                           poison := (p.poison.filter (· < u)).foldl (fun m i => mset false m (off + i) true) pc.poison }
      modSlot k (fun w => arrive stage j (setPiece key pc1 w)) s

/-- RX_DATA_PACKET. -/
def execRxDataPacket (n : Nat) (s : State) : Host.Outcome State Fault Refusal := rxRow n isData (recvData n) s

/-- Takes a piece header; one whose LENGTH is not what the descriptor implies ends the collective (R221). -/
def recvHeader (n : Nat) (k : Nat) (p : Packet) (s : State) : State :=
  let v := getSlot s k
  let h := p.header
  let stage := bfld h 108 1
  let j := bfld h 98 7
  let r := bfld h 105 2
  let plus := !portPlus n
  let empty := h.getLsbD 107
  if v.kind = cPERM || !expects v stage j r plus then s
  else
    let key := pieceKey stage j r plus
    let p := { getPiece v key with hasHdr := true, empty, len := bfld h 109 19, mask := BitVec.ofNat 128 (bfld h 128 128) }
    let s1 := modSlot k (fun w => arrive stage j (setPiece key p w)) s
    if odd v j p then modSlot k (abortSlot stDescriptor) s1 else s1

/-- PIECE_HEADER. -/
def execPieceHeader (n : Nat) (s : State) : Host.Outcome State Fault Refusal := rxRow n isPieceHeader (recvHeader n) s

/-- PERMUTE_ACK. -/
def execPermuteAck (n : Nat) (s : State) : Host.Outcome State Fault Refusal :=
  rxRow n isAck (fun k p t => if (getSlot t k).kind = cPERM then recvAck k (1 + portAxis n) (bfld p.header 98 9) (pktSrc p.header) t else t) s

/-- UNMATCHED_PACKET_TIMEOUT: the first packet at port `n` that has waited 10 ms for its collective. -/
def execUnmatchedPacketTimeout (n : Nat) (s : State) : Host.Outcome State Fault Refusal :=
  .next (onlyFabric s (
    match firstPacket n (fun p => (isData p || isPieceHeader p || isAck p) && (matchSlot s p).isNone) s with
    | some p => discardPacket n p s
    | none => s))

/-! ### Completion (R207, R227) -/

/-- The program that opened a collective completes with its status when that is not DONE, and its queue stops there
(R103). -/
def endProgram (v : Slot) (st : Nat) (s : State) : State :=
  let qc := getQc s v.q
  if st ≠ stDone ∧ qc.cmd = some (v.queue, v.id, true) ∧ (qc.heldEnd = none ∨ qc.heldEnd = some stDone) then
    finishCmd v.q st (dropWaits (fun w => !w.isQueue && w.key == v.q) s)
  else s

/-- The collective leaves its slot with a status: counters, trace record, completion. Contributions decided OUT whose
bucket has not filled yet are counted when it does (R217). What its program held back until its end goes on (R96, R97). -/
def closeSlot (k st : Nat) (s : State) : State :=
  let v := getSlot s k
  let e := engKey kRX (k / 64)
  let eng := getEng s e
  let s1 := setEng e { eng with bank := shadowed v.nums v.seq (qCtxNo v.q) eng.bank } s
  let s2 := traceEng kRX (k / 64) 2 (trTag v.seq (qCtxNo v.q)) (st + 2 ^ 8 * v.ctx) s1
  let s3 := if v.byProg then s2 else setResult v.queue v.id st s2
  let late := if reduces v && !v.ready && outCount v != 0 then [(v.fillLoc, bfld v.desc 352 32, outCount v)] else []
  let s4 := { s3 with rx := { s3.rx with lateWait := s3.rx.lateWait ++ late } }
  let s5 := setSlot k {} s4
  releaseHeld kRX (k / 64) (if v.byProg then endProgram v st s5 else s5)

/-- The collective fails as it completes: its record, its status, and the reset of its context (R99, R308). -/
def failSlot (k cls st reason a0 a1 a2 : Nat) (s : State) : State :=
  let v := getSlot s k
  let t := setResult v.queue v.id st (closeSlot k st (addFault (rxRec s v cls st reason 1 a0 a1 a2) false s))
  if v.kept.isSome then t else ctxReset v.ctx stCtxReset true t

/-- The end of a collective whose part is done: on DONE its tally is added to, as a release. -/
def finishSlot (k : Nat) (s : State) : State :=
  let v := getSlot s k
  match v.ending with
  | none =>
    match translate s v.ctx (cdDone v) accTally (rxWho v) with
    | (.ok loc, s1) =>
      if locPoison s1 loc then failSlot k cPoison stPoison 0 (lineAddr loc) (cdDone v) 0 s1
      else tallyAddAt v.cause loc 1 (closeSlot k stDone s1)
    | (.bad r l a, s1) => failSlot k cTranslation stXlat r (cdDone v) (accTally + 4 * l) a s1
    | (.poisonAt pa, s1) => failSlot k cPoison stPoison 0 pa (cdDone v) 0 s1
  | some st =>
    match v.poisonAt with
    | some (pa, va) => if st = stPoison then failSlot k cPoison stPoison 0 pa va 0 s else closeSlot k st s
    | none =>
      if st = stDescriptor then closeSlot k st (addFault (rxRec s v cDescriptor st 0 0 v.va 6 0) false s) else closeSlot k st s

/-- COLLECTIVE_COMPLETE. -/
def execCollectiveComplete (wc slot : Nat) (s : State) : Host.Outcome State Fault Refusal :=
  .next (onlyFabric s (
    let k := slotKey wc slot
    let s1 := rxPump s
    let v := getSlot s1 k
    if v.live && engUp s1 kRX wc && partDone v then finishSlot k s1 else s1))

end Sys2Proof.Machine
end

