-- ==== Sys2Proof/Machine/Update.lean ====
section
/-! DEFINITION. The update engine, class 0x18: opening and closing a layer, schedules, and the update of a chunk's blocks
(R161 to R182). -/

namespace Sys2Proof.Machine

/-! ### The update descriptor (Table 09-4) -/

def udRule (d : Nat) : Nat := fld d 1 2
def udB (d : Nat) : Nat := 128 * 2 ^ fld d 3 2
def udBc (d : Nat) : Bool := fld d 5 1 == 1
def udNest (d : Nat) : Bool := fld d 6 1 == 1
def udZskip (d : Nat) : Bool := fld d 7 1 == 1
def udBovr (d : Nat) : Bool := fld d 8 1 == 1
def udSrnd (d : Nat) : Nat := fld d 9 2
def udGroup (d : Nat) : Nat := fld d 16 12
def udK (d : Nat) : Nat := fld d 256 24
def udN (d : Nat) : Nat := fld d 280 24
def udNrec (d : Nat) : Nat := fld d 304 16
def udState (d : Nat) : Nat := fld d 320 57
def udRecmap (d : Nat) : Nat := fld d 384 57
def udRootset (d : Nat) : Nat := fld d 448 57
def udSched (d : Nat) : Nat := fld d 512 57
def udRq (d : Nat) : Nat := fld d 576 57
def udAck (d : Nat) : Nat := fld d 640 57
def udLatch (d : Nat) : Nat := fld d 704 64
def udStepN (d : Nat) : Int := sField 32 (fld d 768 32)
def udOpen (d : Nat) : Bool := fld d 992 1 == 1
def udStat (d : Nat) : Bool := fld d 993 1 == 1
def udSnap (d : Nat) : Bool := fld d 994 1 == 1

/-- A binary32 field. -/
def f32At (d lo : Nat) : FV := decodeF fmt32 0 (fld d lo 32)

/-- Reserved fields of the software words: lowest bit and width. -/
def udReserved : List (Nat × Nat) := [(11, 5), (52, 12), (377, 7), (441, 7), (505, 7), (569, 7), (633, 7), (697, 7)]

/-- The software words fail a check of R167 that does not concern the schedule. -/
def udBad (d : Nat) : Bool :=
  fld d 0 1 == 0 || udRule d == 3 || udSrnd d == 3 || udReserved.any (fun f => fld d f.1 f.2 != 0)
  || fld d 28 8 == 0 || udK d == 0 || udN d == 0 || udNrec d == 0
  || (udRule d == 2 && (udK d % udB d != 0 || udN d % udB d != 0))
  || udState d % 4096 != 0 || udRecmap d % 64 != 0 || (udRule d == 2 && udRootset d % 64 != 0) || udSched d % 4096 != 0
  || udRq d % 8 != 0 || udAck d % 8 != 0
  || [64, 96, 128, 160, 192, 224].any (fun lo => !(f32At d lo).isFin)

/-! ### Schedules (R168, R169) -/

/-- Breakpoint fields: STEP, LR, WD, B1, B2. -/
def bpStep (p : Nat) : Nat := fld p 0 32

/-- An integer as binary32. -/
def int32 (i : Int) : FV := val32 (bits32 (ofInt i 0))

/-- A value of the schedule's points in use at step `n` (R169). DESIGN CHOICE: n − S_i and S_(i+1) − S_i are exact integers, each
rounded once to binary32 before the division; the rule says 'all in binary32'. -/
def curveAt (ps : List Nat) (n : Int) (lo : Nat) : FV :=
  match ps with
  | [] => posZero
  | p :: _ =>
    if n ≤ bpStep p then f32At p lo
    else match (ps.zip ps.tail).find? (fun e => decide ((bpStep e.1 : Int) ≤ n) && decide (n < bpStep e.2)) with
    | none => f32At (ps.getLast?.getD 0) lo
    | some (a, b) =>
      let f := rneOp fmt32 (divR fmt32 .rne (int32 (n - bpStep a)) (int32 ((bpStep b : Int) - bpStep a)))
      addV fmt32 (f32At a lo) (mulV fmt32 f (subV fmt32 (f32At b lo) (f32At a lo)))

/-- β lies in [0, 1). -/
def betaOk (x : FV) : Bool := x.isFin && decide (0 ≤ cmpFV x posZero) && decide (cmpFV x (ofInt 1 0) < 0)

/-- A rate that is negative or not finite. -/
def rateBad (x : FV) : Bool := !x.isFin || decide (cmpFV x posZero < 0)

/-- βⁿ, rounded once. -/
def powV (x : FV) (n : Nat) : FV :=
  match x with
  | .fin _ m e => if n = 0 then ofInt 1 0 else rneOp fmt32 (toLong fmt32 .rne (.fin false (m ^ n) (e * n)))
  | y => y

/-- Bias correction: 1 ÷ (1 − βⁿ), 1 when βⁿ rounds to 0; computed only for n ≥ 1, else the word is open. -/
def biasOf (bc : Bool) (b : FV) (n : Int) (k : Nat) : FV :=
  if !bc then ofInt 1 0
  else if n < 1 then val32 ((Config.openFn k).setWidth 32)
  else
    let p := powV b n.toNat
    if p.isZero then ofInt 1 0 else rneOp fmt32 (divR fmt32 .rne (ofInt 1 0) (subV fmt32 (ofInt 1 0) p))

/-- Group step n of a step t, saturated to the signed 32-bit range. -/
def groupStep (t gstart : Nat) : Int := max (-(2 ^ 31)) (min (2 ^ 31 - 1) ((t : Int) - gstart + 1))

/-- What the schedule gives: n, η, λ, β1, β2, or none where it fails its checks. -/
def scheduleOf (d t hdr : Nat) (ps : List Nat) : Option (Int × FV × FV × FV × FV) :=
  let n := groupStep t (fld hdr 0 32)
  let b1 := if udBovr d then f32At d 192 else curveAt ps n 96
  let b2 := if udBovr d then f32At d 224 else curveAt ps n 128
  if fld hdr 38 1 == 0 || fld hdr 39 89 != 0
    || (ps.zip ps.tail).any (fun e => decide (bpStep e.2 ≤ bpStep e.1))
    || ps.any (fun p => rateBad (f32At p 32) || rateBad (f32At p 64)) || !betaOk b1 || !betaOk b2 then none
  else some (n, mulV fmt32 (curveAt ps n 32) (f32At d 64), mulV fmt32 (curveAt ps n 64) (f32At d 96), b1, b2)

/-! ### Tallies of a layer -/

/-- An indivisible addition of 1 to a tally by queue context `q` (R96, R99). -/
def uxAdd (q va : Nat) (s : State) (k : State → State) : State :=
  match translate s (getQc s q).ctx va accTally .other with
  | (.ok loc, s1) =>
    if locPoison s1 loc then ctxFault q cPoison stPoison 0 (lineAddr loc) va 0 s1
    else k (tallyAddAt causeEngine loc 1 s1)
  | (o, s1) => xlatFault q va accTally o s1

/-- Releases the latched slot: 1 to its DONE tally, if a slot is latched (R164). -/
def releaseLatch (q d : Nat) (s : State) (k : State → State) : State :=
  if udLatch d = 0 then k s else uxAdd q (udRootset d + (if udLatch d % 2 = 0 then 24 else 32)) s k

/-- A read that an instruction of `q` interprets itself. -/
def uxRead (q va n : Nat) (s : State) (k : List Byte → State → State) : State :=
  match readVa s (getQc s q).ctx va n accRead .other with
  | (.ok bs, s1) => k bs s1
  | (.fail a o, s1) => xlatFault q a accRead o s1

/-- A write by an instruction of `q`. -/
def uxWrite (q va : Nat) (bs : List Byte) (s : State) (k : State → State) : State :=
  match writeVa s (getQc s q).ctx va bs causeEngine .other with
  | (none, s1) => k s1
  | (some o, s1) => xlatFault q va accWrite o s1

/-! ### UX.BEGIN and UX.END (R164, R167, R169, R177, R179) -/

/-- Reads the schedule once: the group's header and its points in use (R170). -/
def readSchedule (q d : Nat) (s : State) (k : Nat → List Nat → State → State) : State :=
  uxRead q (udSched d + 16 * udGroup d) 16 s (fun h s1 =>
    let hdr := leNat h
    let n := fld hdr 32 6 + 1
    uxRead q (udSched d + 65536 + 2048 * udGroup d) (32 * n) s1 (fun bs s2 =>
      k hdr ((upto n).map (fun i => leNat ((bs.drop (32 * i)).take 32))) s2))

/-- The schedule of a descriptor fails its checks, or can be read and passes them. -/
def scheduleBad (q d t : Nat) (s : State) : Bool :=
  let c := (getQc s q).ctx
  match readVa s c (udSched d + 16 * udGroup d) 16 accRead .other with
  | (.ok h, s1) =>
    let n := fld (leNat h) 32 6 + 1
    match readVa s1 c (udSched d + 65536 + 2048 * udGroup d) (32 * n) accRead .other with
    | (.ok bs, _) => (scheduleOf d t (leNat h) ((upto n).map (fun i => leNat ((bs.drop (32 * i)).take 32)))).isNone
    | _ => false
  | _ => false

/-- Latches the root set: PUB is read and its slot's LATCH tally added to in one operation (R177). -/
def latchRoots (q d : Nat) (s : State) (k : Nat → State → State) : State :=
  if udRule d ≠ 2 then k 0 s
  else match translate s (getQc s q).ctx (udRootset d) accTally .other with
  | (.ok loc, s1) =>
    if locPoison s1 loc then ctxFault q cPoison stPoison 0 (lineAddr loc) (udRootset d) 0 s1
    else
      let pub := locNat s1 loc 8
      if pub = 0 then k 0 s1 else k pub (tallyAddAt causeEngine (loc + (if pub % 2 = 0 then 8 else 16)) 1 s1)
  | (o, s1) => xlatFault q (udRootset d) accTally o s1

/-- Whether the step writes the statistics snapshot (R179); the tallies are read only where every other condition holds. -/
def snapOf (q d : Nat) (n : Int) (s : State) (k : Bool → State → State) : State :=
  let every := fld d 36 16
  if udRule d ≠ 2 ∨ every = 0 ∨ n < 1 ∨ n % every ≠ 0 then k false s
  else uxRead q (udAck d) 8 s (fun a s1 => uxRead q (udRq d) 8 s1 (fun r s2 => k (decide (leNat r ≤ leNat a)) s2))

/-- The step words, as bytes 88 to 127 of the descriptor. -/
def stepBytes (latch : Nat) (n : Int) (eta lam b1 b2 c1 c2 : FV) (stat snap : Bool) : List Byte :=
  let w := fun (x : FV) => leBytes 4 (bits32 x).toNat
  leBytes 8 latch ++ leBytes 4 (n % 2 ^ 32).toNat ++ w eta ++ w lam ++ w b1 ++ w b2 ++ w c1 ++ w c2
  ++ leBytes 4 (1 + 2 * b01 stat + 4 * b01 snap)

/-- An instruction of the update engine with its descriptor. -/
def withUd (q : Nat) (ra : BitVec 5) (s : State) (body : Nat → Nat → State → State) : Host.Outcome State Fault Refusal :=
  onKind q kUX s (fun t =>
    let va := (rdG (getQc t q) ra).toNat
    if va % 128 ≠ 0 then descInvalid q va 6 t else uxRead q va 128 t (fun bs t1 => body va (leNat bs) t1))

/-- UX.BEGIN. -/
def execUxBegin (q : BitVec 20) (ra rb : BitVec 5) (s : State) : Host.Outcome State Fault Refusal :=
  let i := q.toNat
  withUd i ra s (fun va d t =>
    let step := (rdG (getQc t i) rb).toNat
    if udBad d || scheduleBad i d step t then descInvalid i va 6 t
    else
      let go := fun (t1 : State) => readSchedule i d t1 (fun hdr ps t2 =>
        match scheduleOf d step hdr ps with
        | none => descInvalid i va 6 t2
        | some (n, eta, lam, b1, b2) =>
          latchRoots i d t2 (fun latch t3 => snapOf i d n t3 (fun snap t4 =>
            let stat := udRule d == 2 && decide (1 ≤ n) && decide (n % (fld d 28 8 : Int) = 0)
            let k := t4.free
            uxWrite i (va + 88) (stepBytes latch n eta lam b1 b2 (biasOf (udBc d) b1 n k) (biasOf (udBc d) b2 n (k + 1)) stat snap)
              { t4 with free := k + 2 } (doneInsn i 16))))
      if udOpen d then releaseLatch i d t go else go t)

/-- UX.END. -/
def execUxEnd (q : BitVec 20) (ra : BitVec 5) (s : State) : Host.Outcome State Fault Refusal :=
  let i := q.toNat
  withUd i ra s (fun va d t =>
    if !udOpen d then descInvalid i va 6 t
    else releaseLatch i d t (fun t1 =>
      let close := fun (t2 : State) => uxWrite i (va + 124) (leBytes 4 (fld d 993 31 * 2)) t2 (doneInsn i 16)
      if udSnap d then uxAdd i (udRq d) t1 close else close t1))

/-! ### Matrices of a block -/

abbrev Mat := List (List FV)

/-- Reads `r` rows of `c` binary32 elements, rows `4·b` bytes apart. -/
def readMat (a : Acc) (base b r c : Nat) (j : Job) : Mat × Job :=
  mapJob (fun y => mapJob (fun x j1 => let (v, j2) := rdNat a (base + 4 * b * y + 4 * x) 4 j1; (decodeF fmt32 0 v.1, j2)) (upto c)) (upto r) j

/-- Writes a matrix. -/
def writeMat (a : Acc) (base b : Nat) (m : Mat) (j : Job) : Job :=
  m.zipIdx.foldl (fun j1 row => row.1.zipIdx.foldl (fun j2 e =>
    wrBytes a (base + 4 * b * row.2 + 4 * e.2) ((leBytes 4 (bits32 e.1).toNat).map (·, false)) j2) j1) j

def map1 (f : FV → FV) (m : Mat) : Mat := m.map (List.map f)
def map2 (f : FV → FV → FV) (m n : Mat) : Mat := (m.zip n).map (fun p => (p.1.zip p.2).map (fun e => f e.1 e.2))

/-- The matrix with rows and columns exchanged. -/
def transpose (m : Mat) : Mat := (upto (m.headD []).length).map (fun x => m.map (fun row => row.getD x posZero))

/-- A product as a pair: its rounded value and what the rounding left. -/
def prodPair (a b : FV) : FV × FV :=
  let h := mulV fmt32 a b
  (h, if h.isFin then fmaV fmt32 a b h.negate else posZero)

/-- One output element of the matrix unit: products summed in a compensated pair, rounded once (R161). No rule gives
their order. -/
def dotPair (k : Nat) (xs ys : List FV) : FV :=
  let ps := scatterOrder k ((xs.zip ys).map (fun p => prodPair p.1 p.2))
  val32 (bits32 (pairValue (ps.foldl (pairAdd fmt32) (posZero, posZero))))

/-- A product of two b × b matrices. -/
def matMul (k : Nat) (m n : Mat) : Mat :=
  let cols := transpose n
  m.zipIdx.map (fun row => cols.zipIdx.map (fun col => dotPair (k + 1024 * (1024 * row.2 + col.2)) row.1 col.1))

/-! ### One block (R171 to R175) -/

/-- Where a block's record lies: bytes of a record of the rule. -/
def recBytes (d : Nat) : Nat := 4096 + (match udRule d with | 0 => 2 | 1 => 3 | _ => 6) * 4 * udB d * udB d
def recAddr (d r : Nat) : Nat := udState d + r * recBytes d

/-- g := gscale * (sum / c). -/
def gradOf (d c : Nat) (sum : FV) : FV := mulV fmt32 (f32At d 160) (rneOp fmt32 (divR fmt32 .rne sum (ofInt c 0)))

/-- a·x + (1 − a)·y, each operation rounded. -/
def blend (a x y : FV) : FV := addV fmt32 (mulV fmt32 a x) (mulV fmt32 (subV fmt32 (ofInt 1 0) a) y)

/-- Writes the working weights of a block, transposed (R174, R175): H2's dimension 0 runs over input features. -/
def writeOut (a : Acc) (tc d2 : Nat) (rd : Rnd) (r0 c0 : Nat) (w : Mat) (j : Job) : Job :=
  let cols := transpose w
  cols.zipIdx.foldl (fun j1 col =>
    (upto (cdiv col.1.length 32)).foldl (fun j2 t =>
      wrVals a tc d2 rd (r0 + 32 * t, c0 + col.2, 0, 0) (((col.1.drop (32 * t)).take 32).map some) [] j2) j1) j

/-- The rule's update of a block that is not skipped: new state written, new W. -/
def applyRule (a : Acc) (d rec r0 rows cols : Nat) (g w : Mat) (j : Job) : Mat × Job :=
  let b := udB d
  let at_ := fun (i : Nat) => rec + 4096 + 4 * b * b * i
  let b1 := f32At d 864
  let b2 := f32At d 896
  let k := j.s.free
  let j0 := { j with s := { j.s with free := k + 4 * 2 ^ 30 } }
  let (m0, j1) := readMat a (at_ 1) b rows cols j0
  let m := map2 (blend b1) m0 g
  let mh := map1 (mulV fmt32 (f32At d 928)) (if udNest d then map2 (blend b1) m g else m)
  let j2 := writeMat a (at_ 1) b m j1
  let finish := fun (u : Mat) (j3 : Job) =>
    let w' := map2 (fun x y => subV fmt32 x (mulV fmt32 (f32At d 800) (addV fmt32 y (mulV fmt32 (f32At d 832) x)))) w u
    (w', writeMat a (at_ 0) b w' j3)
  match udRule d with
  | 0 => finish mh j2
  | 1 =>
    let (v0, j3) := readMat a (at_ 2) b rows cols j2
    let sq := map1 (fun x => mulV fmt32 (mulV fmt32 (subV fmt32 (ofInt 1 0) b2) x) x) g
    let v := map2 (addV fmt32) (map1 (mulV fmt32 b2) v0) sq
    let den := map1 (fun x => addV fmt32 (rneOp fmt32 (sqrtR fmt32 .rne (mulV fmt32 (f32At d 960) x))) (f32At d 128)) v
    finish (map2 (fun x y => rneOp fmt32 (divR fmt32 .rne x y)) mh den) (writeMat a (at_ 2) b v j3)
  | _ =>
    let (l0, j3) := readMat a (at_ 2) b rows cols j2
    let (q0, j4) := readMat a (at_ 3) b rows cols j3
    let l := if udStat d then map2 (blend b2) l0 (matMul k g (transpose g)) else l0
    let q := if udStat d then map2 (blend b2) q0 (matMul (k + 2 ^ 30) (transpose g) g) else q0
    let j5 := if udStat d then writeMat a (at_ 3) b q (writeMat a (at_ 2) b l j4) else j4
    let j6 := if udSnap d then writeMat a (at_ 5) b q (writeMat a (at_ 4) b l j5) else j5
    if udLatch d = 0 then finish mh j6
    else
      let (bs, j7) := rdNat a (udRootset d + (if udLatch d % 2 = 0 then 40 else 48)) 8 j6
      let base := bs.1 + r0 * (8 * b * b)
      let (lr, j8) := readMat a base b b b j7
      let (rr, j9) := readMat a (base + 4 * b * b) b b b j8
      finish (matMul (k + 3 * 2 ^ 30) (matMul (k + 2 * 2 ^ 30) lr mh) rr) j9

/-- What happens to a block: whether it changes its state, its writes, and the counter it moves (UPD_DONE, UPD_SKIP,
UPD_REPLAY). DESIGN CHOICE where several cases of a skip hold at once: n ≤ 0 decides before a replay, a replay before c = 0,
c = 0 before ZSKIP; no rule orders them. -/
def runBlock (a : Acc) (tc d d1 d2 : Nat) (rd : Rnd) (c i beta rec r hdr : Nat) (j : Job) : Bool × Job :=
  let b := udB d
  let nbc := cdiv (udN d) b
  let r0 := beta / nbc * b
  let c0 := beta % nbc * b
  let rows := min b (udK d - r0)
  let cols := min b (udN d - c0)
  let n := udStepN d
  let applied := fld hdr 0 32
  let put := fun (j1 : Job) => wrBytes a rec ((leBytes 8 ((n % 2 ^ 32).toNat + fld hdr 32 31 * 2 ^ 32)).map (·, false)) j1
  let (w, j1) := readMat a (rec + 4096) b rows cols j
  let bump := fun (f : Nums → Nums) (j2 : Job) => { j2 with nums := f j2.nums }
  let skip := bump (fun x => { x with updSkip := satAdd max32 x.updSkip 1 })
  if n ≤ 0 then (false, skip (writeOut a tc d2 rd r0 c0 w j1))
  else if n ≤ applied then (false, bump (fun x => { x with updReplay := satAdd max32 x.updReplay 1 }) (writeOut a tc d2 rd r0 c0 w j1))
  else if c = 0 then (false, skip (put (writeOut a tc d2 rd r0 c0 w j1)))
  else
    let (g, j2) := mapJob (fun y => mapJob (fun x j3 => let (v, j4) := rdVal a tc d1 (x, b * i + y, 0, 0) j3; (gradOf d c v.1, j4)) (upto cols)) (upto rows) j1
    if udZskip d && g.all (List.all · FV.isZero) then (false, skip (put (writeOut a tc d2 rd r0 c0 w j2)))
    else
      let (w', j3) := applyRule a d rec r rows cols g w j2
      (true, bump (fun x => { x with updDone := satAdd max32 x.updDone 1 }) (put (writeOut a tc d2 rd r0 c0 w' j3)))

/-- TORN is set in a record's header. -/
def setTorn (a : Acc) (rec hdr : Nat) (s : State) : Job := wrBytes a rec ((leBytes 8 (hdr % 2 ^ 63 + 2 ^ 63)).map (·, false)) { s }

/-- Some of the working weights that a block would have written, for the counters: how many is open (R182). -/
def someNums (k : Nat) (n : Nums) : Nums :=
  { nan := Config.openCount k % (n.nan + 1), ovf := Config.openCount (k + 1) % (n.ovf + 1)
    sat := Config.openCount (k + 2) % (n.sat + 1), flush := Config.openCount (k + 3) % (n.flush + 1) }

/-- A block that fails in an access: nothing is written, or each aligned 8 bytes of its writes are performed or not, with TORN
set where it changes its state (R180), and the weights written are counted. How far the block had come is open. -/
def tornBlock (a : Acc) (state : Bool) (rec hdr : Nat) (j : Job) : Nums × State :=
  let k := j.s.free
  let s1 := { j.s with free := k + 5 }
  if Config.partWritten k then
    let t := if state then setTorn a rec hdr s1 else { s := s1 }
    let s2 := jobCommit causeEngine { t with errs := [], reads := [] }
    (someNums (k + 1) j.nums,
      jobCommit causeEngine { j with s := s2, reads := [], writes := mdrop (fun l => t.writes.any (fun w => w.1 == l)) j.writes })
  else ({}, s1)

/-- What the next block of a chunk comes to: a failed check with the address concerned, a failed read of its record map or
header, or its job. -/
inductive BlockOut where
  | bad (va : Nat) (s : State)
  | fails (va : Nat) (o : XOut) (s : State)
  | job (state : Bool) (rec hdr : Nat) (j : Job)

/-- Accesses of a UX.CHUNK, and the rounding of its working weights. -/
def uxAcc (s : State) (q : Nat) : Acc := { ctx := (getQc s q).ctx, who := .other, consume := true }
def uxRnd (s : State) (q : Nat) (w : UxWork) : Rnd := { short := udSrnd w.desc.toNat, gen := genOf s q w.seq }

/-- Block `beta`, at position `i` of the chunk (R173). -/
def blockOut (q : Nat) (w : UxWork) (i beta : Nat) (s : State) : BlockOut :=
  let a := uxAcc s q
  let d := w.desc.toNat
  let mapVa := udRecmap d + 2 * beta
  if cdiv (udK d) (udB d) * cdiv (udN d) (udB d) ≤ beta then .bad mapVa s
  else
    let (r, j1) := rdNat a mapVa 2 { s }
    match j1.errs with
    | e :: _ => .fails e.1 e.2.2 j1.s
    | [] =>
      let rec_ := recAddr d r.1
      if udNrec d ≤ r.1 then .bad mapVa j1.s
      else
        let (h, j2) := rdNat a rec_ 12 j1
        match j2.errs with
        | e :: _ => .fails e.1 e.2.2 j2.s
        | [] =>
          let hdr := fld h.1 0 64
          if fld h.1 64 32 ≠ beta ∨ fld hdr 63 1 = 1 then .bad rec_ j2.s
          else
            let r := runBlock a (tcOf s) d w.d1.toNat w.d2.toNat (uxRnd s q w) w.c i beta rec_ r.1 hdr { s := j2.s }
            .job r.1 rec_ hdr r.2

/-- The chunk stands between two blocks: what the next one would write is kept for an engine reset. -/
def pauseChunk (q : Nat) (w : UxWork) (s : State) : State :=
  let next := match w.blocks with
    | (i, beta) :: _ =>
      match blockOut q w i beta s with
      | .job true rec_ hdr j => ((setTorn (uxAcc s q) rec_ hdr s).writes, j.writes)
      | _ => ([], [])
    | [] => ([], [])
  modQc q (fun c => { c with chunk := some { w with torn := next.1, writes := next.2 } }) s

/-- At most `fuel` blocks of a chunk in the header's order; the chunk ends behind its last one. -/
def runBlocks (q : Nat) : Nat → UxWork → State → State
  | 0, w, s => if w.blocks.isEmpty then endLong q stDone w.seq w.nums 16 s else pauseChunk q w s
  | n + 1, w, s =>
    match w.blocks with
    | [] => endLong q stDone w.seq w.nums 16 s
    | (i, beta) :: bs =>
      match blockOut q w i beta s with
      | .bad va t => endLong q stDescriptor w.seq w.nums 0 (addFault { engRec t q cDescriptor stDescriptor 0 0 va 6 0 with seq := w.seq } false t)
      | .fails va o t => longAccess q va accRead o w.seq w.nums t
      | .job state rec_ hdr j =>
        match j.errs with
        | e :: es =>
          let f := (e :: es).getD (Config.firstFault j.s.free % (es.length + 1)) e
          let r := tornBlock (uxAcc s q) state rec_ hdr j
          longAccess q f.1 f.2.1 f.2.2 w.seq (addNums w.nums r.1) r.2
        | [] => runBlocks q n { w with blocks := bs, nums := addNums w.nums j.nums } (jobCommit causeEngine { j with reads := [] })

/-- UX.CHUNK starts: its descriptor, its chunk header and its two tensors pass their checks before any block is processed. -/
def startChunk (i : Nat) (ra : BitVec 5) (h1 h2 : BitVec 16) (rc : BitVec 5) (blocks : Nat) (s : State) : Host.Outcome State Fault Refusal :=
  longInsn i kUX 0x18 0x01 [] s (fun seq t =>
    let qc := getQc t i
    let va := (rdG qc ra).toNat
    let hv := (rdG qc rc).toNat
    let fetch := fun (a n : Nat) (u : State) (k : List Byte → State → State) =>
      match readVa u qc.ctx a n accRead .other with
      | (.ok bs, u1) => k bs u1
      | (.fail x o, u1) => longAccess i x accRead o seq {} u1
    if va % 128 ≠ 0 then longDesc i va 6 seq t
    else fetch va 128 t (fun bs t1 =>
      let d := leNat bs
      if udBad d || !udOpen d then longDesc i va 6 seq t1
      else if hv % 64 ≠ 0 then longDesc i hv 6 seq t1
      else fetch hv 32 t1 (fun hd t2 =>
        let nblk := leNat ((hd.drop 16).take 2)
        fetch (hv + 32) (4 * nblk) t2 (fun bl t3 =>
          withTd i h1.toNat 1 false (fun x => tdFmt x == 1 && !tdTiled x && tdDim x 0 == udB d && tdDim x 1 == udB d * nblk
            && tdDim x 2 == 1 && tdDim x 3 == 1) seq t3 (fun d1 t3 =>
          withTd i h2.toNat 2 true (fun x => bellFmt (tdFmt x) && !tdTiled x && tdDim x 0 == udK d && tdDim x 1 == udN d
            && tdDim x 2 == 1 && tdDim x 3 == 1) seq t3 (fun d2 t3 =>
            let mask : BitVec 128 := BitVec.ofNat 128 (leNat (hd.take 16))
            runBlocks i blocks { seq, desc := BitVec.ofNat 1024 d, d1 := BitVec.ofNat 512 d1, d2 := BitVec.ofNat 512 d2
                                 c := ((upto 128).filter (fun b => mask.getLsbD b)).length
                                 blocks := (upto nblk).map (fun b => (b, leNat ((bl.drop (4 * b)).take 4))) } t3))))))

/-- UX.CHUNK: `blocks` blocks of it at most. While blocks are left it stays in progress, and its next row goes on with it. -/
def execUxChunk (q : BitVec 20) (ra : BitVec 5) (h1 h2 : BitVec 16) (rc : BitVec 5) (blocks : Nat) (s : State) : Host.Outcome State Fault Refusal :=
  match (getQc s q.toNat).chunk with
  | none => startChunk q.toNat ra h1 h2 rc blocks s
  | some w =>
    let t := modQc q.toNat (fun c => { c with chunk := none }) s
    .next (onlyWork s (if canRun t q.toNat (onlyKind kUX) then runBlocks q.toNat blocks w t else s))

end Sys2Proof.Machine
end

