-- ==== Sys2Proof/Machine/QisDecode.lean ====
section
/-! DEFINITION. The encoding of QIS instructions: word and extension word to the meaning of the instruction they hold, or the
reason why they are illegal (R108, R110, R123, R134, R135, R206 and Tables 06-3 to 06-5, 07-2 to 07-8, 09-3, 11-1). -/

namespace Sys2Proof.Machine

/-! ### Fields (Tables 06-3 and 07-2) -/

def wClass (w : W64) : Nat := bfld w 58 6
def wMinor (w : W64) : Nat := bfld w 52 6
def wX (w : W64) : Bool := w.getLsbD 51
def wRD (w : W64) : BitVec 5 := w.extractLsb' 46 5
def wRA (w : W64) : BitVec 5 := w.extractLsb' 41 5
def wRB (w : W64) : BitVec 5 := w.extractLsb' 36 5
def wRC (w : W64) : BitVec 5 := w.extractLsb' 31 5
def wPG (w : W64) : BitVec 3 := w.extractLsb' 28 3
def wImm (w : W64) : W32 := w.extractLsb' 0 32
/-- MOD of the R-format VX classes (R135). -/
def wW (w : W64) : BitVec 2 := w.extractLsb' 0 2
def wRM (w : W64) : BitVec 3 := w.extractLsb' 2 3
def wPD (w : W64) : BitVec 3 := w.extractLsb' 5 3
def wFN (w : W64) : BitVec 4 := w.extractLsb' 8 4
def wF2 (w : W64) : BitVec 5 := w.extractLsb' 12 5
/-- Format T. -/
def wH1 (w : W64) : BitVec 16 := w.extractLsb' 35 16
def wH2 (w : W64) : BitVec 16 := w.extractLsb' 19 16
def wH3 (w : W64) : BitVec 16 := w.extractLsb' 3 16

/-- The extension word of format T. -/
def textOf (x : W64) : TExt :=
  { idxh := x.extractLsb' 0 16, idxdim := x.extractLsb' 16 2, idxen := x.getLsbD 18, srnd := x.extractLsb' 19 2, rm := x.extractLsb' 21 3
    idxrole := x.extractLsb' 24 2, opx := x.extractLsb' 32 32 }

/-! ### Bits that an instruction uses -/

def uRD : Nat := 0x1F * 2 ^ 46
def uRA : Nat := 0x1F * 2 ^ 41
def uRB : Nat := 0x1F * 2 ^ 36
def uRC : Nat := 0x1F * 2 ^ 31
def uPG : Nat := 7 * 2 ^ 28
def uW : Nat := 3
def uRM : Nat := 7 * 2 ^ 2
def uPD : Nat := 7 * 2 ^ 5
def uFN : Nat := 15 * 2 ^ 8
def uF2 : Nat := 0x1F * 2 ^ 12
def uImm : Nat := 2 ^ 32 - 1
def uH1 : Nat := 0xFFFF * 2 ^ 35
def uH2 : Nat := 0xFFFF * 2 ^ 19
def uH3 : Nat := 0xFFFF * 2 ^ 3
/-- Every field of format T's extension word, and the bits that are reserved in it. -/
def uText : Nat := 2 ^ 64 - 1 - 0x3F * 2 ^ 26

/-- The meaning of an instruction on a queue context. -/
abbrev Meaning := State → Host.Outcome State Fault Refusal

/-- What a word holds: the bits used of its [50:0], those used of its extension word, the instruction's meaning. -/
structure Held where
  used : Nat
  ext : Nat := 0
  run : Meaning

/-! ### The base classes (Table 06-5) -/

def intMinor (q : BitVec 20) (w : W64) : Option Held :=
  let two := fun (f : BitVec 20 → BitVec 5 → BitVec 5 → BitVec 5 → Meaning) => some ({ used := uRD + uRA + uRB, run := f q (wRD w) (wRA w) (wRB w) } : Held)
  let one := fun (f : BitVec 20 → BitVec 5 → BitVec 5 → Meaning) => some ({ used := uRD + uRA, run := f q (wRD w) (wRA w) } : Held)
  match wMinor w with
  | 0x00 => two execAdd
  | 0x01 => two execSub
  | 0x02 => two execMul
  | 0x03 => two execMulh
  | 0x04 => two execMulhu
  | 0x05 => two execDiv
  | 0x06 => two execDivu
  | 0x07 => two execRem
  | 0x08 => two execRemu
  | 0x09 => two execAndInsn
  | 0x0A => two execOrInsn
  | 0x0B => two execXorInsn
  | 0x0C => two execShl
  | 0x0D => two execShr
  | 0x0E => two execSar
  | 0x0F => two execMin
  | 0x10 => two execMax
  | 0x11 => two execMinu
  | 0x12 => two execMaxu
  | 0x13 => two execSlt
  | 0x14 => two execSltu
  | 0x15 => two execSeq
  | 0x16 => one execClz
  | 0x17 => one execCtz
  | 0x18 => one execPopc
  | 0x19 => some { used := uRD + uRA + uRB + uRC, run := execSel q (wRD w) (wRA w) (wRB w) (wRC w) }
  | _ => none

/-- The immediate: IMM32 sign-extended, or the extension word; with it IMM32 must be 0. -/
def immOf (w x : W64) : W64 := if wX w then x else (wImm w).signExtend 64
def usedImm (w : W64) : Nat := if wX w then 0 else uImm

def immMinor (q : BitVec 20) (w x : W64) : Option Held :=
  let two := fun (f : BitVec 20 → BitVec 5 → BitVec 5 → W64 → Bool → Meaning) =>
    some ({ used := uRD + uRA + usedImm w, ext := 2 ^ 64 - 1, run := f q (wRD w) (wRA w) (immOf w x) (wX w) } : Held)
  match wMinor w with
  | 0x00 => two execAddi
  | 0x09 => two execAndi
  | 0x0A => two execOri
  | 0x0B => two execXori
  | 0x0C => two execShli
  | 0x0D => two execShri
  | 0x0E => two execSari
  | 0x13 => two execSlti
  | 0x14 => two execSltui
  | 0x20 => some { used := uRD + usedImm w, ext := 2 ^ 64 - 1, run := execLi q (wRD w) (immOf w x) (wX w) }
  | _ => none

def branchMinor (q : BitVec 20) (w : W64) : Option Held :=
  let cond := fun (f : BitVec 20 → BitVec 5 → BitVec 5 → W32 → Meaning) => some ({ used := uRA + uRB + uImm, run := f q (wRA w) (wRB w) (wImm w) } : Held)
  match wMinor w with
  | 0x00 => cond execBeq
  | 0x01 => cond execBne
  | 0x02 => cond execBlt
  | 0x03 => cond execBge
  | 0x04 => cond execBltu
  | 0x05 => cond execBgeu
  | 0x10 => some { used := uRD + uImm, run := execJal q (wRD w) (wImm w) }
  | 0x11 => some { used := uRD + uRA + uImm, run := execJalr q (wRD w) (wRA w) (wImm w) }
  | _ => none

def memMinor (q : BitVec 20) (w : W64) : Option Held :=
  let at_ := fun (f : BitVec 20 → BitVec 5 → BitVec 5 → W32 → Meaning) => some ({ used := uRD + uRA + uImm, run := f q (wRD w) (wRA w) (wImm w) } : Held)
  match wMinor w with
  | 0x00 => at_ execLd8
  | 0x01 => at_ execLd16
  | 0x02 => at_ execLd32
  | 0x03 => at_ execLd64
  | 0x04 => at_ execLd8u
  | 0x05 => at_ execLd16u
  | 0x06 => at_ execLd32u
  | 0x08 => at_ execSt8
  | 0x09 => at_ execSt16
  | 0x0A => at_ execSt32
  | 0x0B => at_ execSt64
  | _ => none

/-- Tally instructions (Table 06-7): MOD[4:0] names the second threshold's register. -/
def tallyMinor (q : BitVec 20) (w : W64) : Option Held :=
  match wMinor w with
  | 0x00 => some { used := uRD + uRA + uRB, run := execTallyAdd q (wRD w) (wRA w) (wRB w) }
  | 0x01 => some { used := uRD + uRA + uRB, run := execTallyWait q (wRD w) (wRA w) (wRB w) }
  | 0x02 => some { used := uRD + uRA + uRB + uRC + 0x1F, run := execTallyWait2 q (wRD w) (wRA w) (wRB w) (wRC w) (w.extractLsb' 0 5) }
  | 0x03 => some { used := uRA + uRB, run := execTallySet q (wRA w) (wRB w) }
  | _ => none

def sysMinor (q : BitVec 20) (w : W64) : Option Held :=
  match wMinor w with
  | 0x00 => some { used := 0, run := execNopInstruction q }
  | 0x01 => some { used := 0, run := execEndInsn q }
  | 0x02 => some { used := uRD + uImm, run := execRdfeat q (wRD w) (wImm w) }
  | 0x03 => some { used := uRD, run := execRdcyc q (wRD w) }
  | 0x04 => some { used := uRD, run := execRdid q (wRD w) }
  | 0x05 => some { used := 0, run := execIfence q }
  | 0x06 => some { used := uRD, run := execRdseq q (wRD w) }
  | _ => none

/-! ### VX (Tables 07-3 to 07-6) -/

def vfloatMinor (q : BitVec 20) (w : W64) : Option Held :=
  let rd := wRD w
  let ra := wRA w
  let rb := wRB w
  let base := uRD + uRA + uPG + uW
  match wMinor w with
  | 0x00 => some { used := base + uRB + uRM, run := execVadd q rd ra rb (wPG w) (wW w) (wRM w) }
  | 0x01 => some { used := base + uRB + uRM, run := execVsub q rd ra rb (wPG w) (wW w) (wRM w) }
  | 0x02 => some { used := base + uRB + uRM, run := execVmul q rd ra rb (wPG w) (wW w) (wRM w) }
  | 0x03 => some { used := base + uRB + uRM, run := execVdiv q rd ra rb (wPG w) (wW w) (wRM w) }
  | 0x04 => some { used := base + uRM, run := execVsqrt q rd ra (wPG w) (wW w) (wRM w) }
  | 0x05 => some { used := base + uRB + uRC + uRM, run := execVfma q rd ra rb (wRC w) (wPG w) (wW w) (wRM w) }
  | 0x06 => some { used := base + uRB + uRC + uRM, run := execVfms q rd ra rb (wRC w) (wPG w) (wW w) (wRM w) }
  | 0x07 => some { used := base + uRB + uRC + uRM, run := execVfnma q rd ra rb (wRC w) (wPG w) (wW w) (wRM w) }
  | 0x08 => some { used := base + uRB, run := execVmin q rd ra rb (wPG w) (wW w) }
  | 0x09 => some { used := base + uRB, run := execVmax q rd ra rb (wPG w) (wW w) }
  | 0x0A => some { used := base, run := execVabs q rd ra (wPG w) (wW w) }
  | 0x0B => some { used := base, run := execVneg q rd ra (wPG w) (wW w) }
  | 0x0C => some { used := base + uRB, run := execVrem q rd ra rb (wPG w) (wW w) }
  | 0x0D => some { used := base + uRM, run := execVrint q rd ra (wPG w) (wW w) (wRM w) }
  | 0x0E => some { used := uRA + uRB + uPG + uW + uPD + uFN, run := execVcmp q (wPD w) ra rb (wFN w) (wPG w) (wW w) }
  | 0x0F => some { used := base, run := execVclass q rd ra (wPG w) (wW w) }
  | _ => none

def vintMinor (q : BitVec 20) (w : W64) : Option Held :=
  let two := fun (f : BitVec 20 → BitVec 5 → BitVec 5 → BitVec 5 → BitVec 3 → BitVec 2 → Meaning) =>
    some ({ used := uRD + uRA + uRB + uPG + uW, run := f q (wRD w) (wRA w) (wRB w) (wPG w) (wW w) } : Held)
  match wMinor w with
  | 0x00 => two execViadd
  | 0x01 => two execVisub
  | 0x02 => two execVimul
  | 0x09 => two execViand
  | 0x0A => two execVior
  | 0x0B => two execVixor
  | 0x0C => two execVishl
  | 0x0D => two execVishr
  | 0x0E => two execVisar
  | 0x0F => two execVimin
  | 0x10 => two execVimax
  | 0x11 => two execViminu
  | 0x12 => two execVimaxu
  | 0x15 => some { used := uRA + uRB + uPG + uW + uPD, run := execViseq q (wPD w) (wRA w) (wRB w) (wPG w) (wW w) }
  | _ => none

/-- Vector memory: MOD is [40:32], and VST's guard its bits [2:0]. -/
def vmemMinor (q : BitVec 20) (w : W64) : Option Held :=
  match wMinor w with
  | 0x00 => some { used := uRD + uRA + uImm, run := execVld q (wRD w) (wRA w) (wImm w) }
  | 0x01 => some { used := uRD + uRA + uImm + 7 * 2 ^ 32, run := execVst q (wRD w) (wRA w) (wImm w) (w.extractLsb' 32 3) }
  | 0x02 => some { used := uRD + uRA + uImm, run := execPld q (wRD w) (wRA w) (wImm w) }
  | 0x03 => some { used := uRD + uRA + uImm, run := execPst q (wRD w) (wRA w) (wImm w) }
  | _ => none

/-- Conversions: VCVTBM and VDECBM work on binary32 whatever W, so they use no W. -/
def vcvtMinor (q : BitVec 20) (w : W64) : Option Held :=
  let rd := wRD w
  let ra := wRA w
  let base := uRD + uRA + uPG
  match wMinor w with
  | 0x00 => some { used := base + uW + uF2 + uRM, run := execVcvtf q rd ra (wF2 w) (wPG w) (wW w) (wRM w) }
  | 0x01 => some { used := base + uW + uRM, run := execVcvtfi q rd ra (wPG w) (wW w) (wRM w) }
  | 0x02 => some { used := base + uW + uRM, run := execVcvtif q rd ra (wPG w) (wW w) (wRM w) }
  | 0x03 => some { used := base + uW + uF2, run := execVcvte q rd ra (wF2 w) (wPG w) (wW w) }
  | 0x04 => some { used := base + uW + uF2, run := execVdece q rd ra (wF2 w) (wPG w) (wW w) }
  | 0x05 => some { used := base + uF2, run := execVcvtbm q rd ra (wF2 w) (wPG w) }
  | 0x06 => some { used := base + uF2, run := execVdecbm q rd ra (wF2 w) (wPG w) }
  | _ => none

/-- Activations: α's register is used by ELU alone. -/
def vactMinor (q : BitVec 20) (w : W64) : Option Held :=
  let base := uRD + uRA + uPG + uW + uRM + uFN
  match wMinor w with
  | 0x00 => some { used := base + uRB, run := execVact q (wRD w) (wRA w) (wRB w) (wFN w) (wPG w) (wW w) (wRM w) }
  | 0x01 => some { used := base + uRB + uRC, run := execVder q (wRD w) (wRA w) (wRB w) (wRC w) (wFN w) (wPG w) (wW w) (wRM w) }
  | 0x02 => some { used := base + uRB, run := execVderi q (wRD w) (wRA w) (wRB w) (wFN w) (wPG w) (wW w) (wRM w) }
  | _ => none

def vmoveMinor (q : BitVec 20) (w : W64) : Option Held :=
  let rd := wRD w
  let ra := wRA w
  let rb := wRB w
  let base := uRD + uRA + uPG + uW
  match wMinor w with
  | 0x00 => some { used := base, run := execVmov q rd ra (wPG w) (wW w) }
  | 0x01 => some { used := base, run := execVsplat q rd ra (wPG w) (wW w) }
  | 0x02 => some { used := base + uRB, run := execVext q rd ra rb (wPG w) (wW w) }
  | 0x03 => some { used := base + uRB, run := execVins q rd ra rb (wPG w) (wW w) }
  | 0x04 => some { used := base + uRB, run := execVperm q rd ra rb (wPG w) (wW w) }
  | 0x05 => some { used := base + uRM, run := execVrsum q rd ra (wPG w) (wW w) (wRM w) }
  | 0x06 => some { used := base, run := execVrmax q rd ra (wPG w) (wW w) }
  | 0x08 => some { used := uRD + uRA + uRB, run := execPand q rd ra rb }
  | 0x09 => some { used := uRD + uRA + uRB, run := execPor q rd ra rb }
  | 0x0A => some { used := uRD + uRA + uRB, run := execPxor q rd ra rb }
  | 0x0B => some { used := uRD + uRA, run := execPnot q rd ra }
  | 0x0C => some { used := uRD + uRA, run := execPmovg q rd ra }
  | 0x0D => some { used := uRD + uRA, run := execPmovp q rd ra }
  | 0x0E => some { used := uRD, run := execRdvfcsr q rd }
  | 0x0F => some { used := uRA, run := execWrvfcsr q ra }
  | 0x10 => some { used := uRA, run := execClrvff q ra }
  | _ => none

/-! ### Format T (Tables 07-6 to 07-8, 09-3, 11-1) -/

def vtMinor (q : BitVec 20) (w x : W64) : Option Held :=
  match wMinor w with
  | 0x00 => some { used := uH1 + uH2 + uH3, ext := uText, run := execVtMap q (wH1 w) (wH2 w) (wH3 w) (textOf x) }
  | 0x01 => some { used := uH1 + uH2, ext := uText, run := execVtReduce q (wH1 w) (wH2 w) (textOf x) }
  | _ => none

def dmMinor (q : BitVec 20) (w x : W64) : Option Held :=
  let two := fun (f : BitVec 20 → BitVec 16 → BitVec 16 → TExt → Meaning) => some ({ used := uH1 + uH2, ext := uText, run := f q (wH1 w) (wH2 w) (textOf x) } : Held)
  match wMinor w with
  | 0x00 => two execDmCopy
  | 0x01 => two execDmCvt
  | 0x02 => two execDmTranspose
  | 0x03 => two execDmGather
  | 0x04 => two execDmScatteradd
  | 0x05 => some { used := uH1, ext := uText, run := execDmFill q (wH1 w) (textOf x) }
  | _ => none

/-- AX: RBASE, ACC and DT stand in the word's bits [18:7], [6] and [5]; TR and CLEAR are H3's bit 3. -/
def axMinor (q : BitVec 20) (w x : W64) : Option Held :=
  let rbase : BitVec 12 := w.extractLsb' 7 12
  match wMinor w with
  | 0x00 => some { used := uH2 + 2 ^ 6, ext := uText, run := execAxLoadw q (wH2 w) (w.getLsbD 6) (textOf x) }
  | 0x01 => some { used := uH1 + uH2 + 0x3FFF * 2 ^ 5, ext := uText, run := execAxPass q (wH1 w) (wH2 w) rbase (w.getLsbD 6) (w.getLsbD 5) (textOf x) }
  | 0x02 => some { used := uH1 + 0xFFF * 2 ^ 7, ext := uText, run := execAxDrain q (wH1 w) rbase (textOf x) }
  | 0x03 => some { used := uH2 + 2 ^ 6, run := execAxMask q (wH2 w) (w.getLsbD 6) }
  | 0x04 => some { used := 0, run := execAxFence q }
  | _ => none

/-- RX: RA stands in bits [50:46]. -/
def rxMinor (q : BitVec 20) (w : W64) : Option Held :=
  match wMinor w with
  | 0x00 => some { used := uRD, run := execRxRs q (wRD w) }
  | 0x01 => some { used := uRD, run := execRxAg q (wRD w) }
  | 0x02 => some { used := uRD, run := execRxAr q (wRD w) }
  | 0x03 => some { used := uRD, run := execRxPerm q (wRD w) }
  | _ => none

/-- UX: RA in [50:46], RB in [45:41], H1 in [40:25], H2 in [24:9]; RC in the extension word's [4:0]. -/
def uxMinor (q : BitVec 20) (w x : W64) : Option Held :=
  match wMinor w with
  | 0x00 => some { used := uRD + uRA, run := execUxBegin q (wRD w) (wRA w) }
  | 0x01 => some { used := uRD + 0xFFFFFFFF * 2 ^ 9, ext := 0x1F, run := execUxChunk q (wRD w) (w.extractLsb' 25 16) (w.extractLsb' 9 16) (x.extractLsb' 0 5) 65536 }
  | 0x02 => some { used := uRD, run := execUxEnd q (wRD w) }
  | _ => none

/-! ### The decoder (R110, R123) -/

/-- A class that is not reserved (Table 06-4, R135, R140, R144, R206). -/
def classKnown (c : Nat) : Bool :=
  (decide (1 ≤ c) && decide (c ≤ 6)) || (decide (8 ≤ c) && decide (c ≤ 0x0E)) || c == 0x10 || c == 0x14 || c == 0x16 || c == 0x18

/-- The engine kind executes the class. -/
def kindRuns (kind c : Nat) : Bool :=
  decide (c ≤ 6) || (if c ≤ 0x0E then kind == kVX else if c = 0x10 then kind == kDM else if c = 0x14 then kind == kAX
    else if c = 0x16 then kind == kRX else kind == kUX)

/-- What a minor of a known class holds. -/
def minorOf (q : BitVec 20) (w x : W64) : Option Held :=
  match wClass w with
  | 0x01 => intMinor q w
  | 0x02 => immMinor q w x
  | 0x03 => branchMinor q w
  | 0x04 => memMinor q w
  | 0x05 => tallyMinor q w
  | 0x06 => sysMinor q w
  | 0x08 => vfloatMinor q w
  | 0x09 => vintMinor q w
  | 0x0A => vmemMinor q w
  | 0x0B => vcvtMinor q w
  | 0x0C => vactMinor q w
  | 0x0D => vmoveMinor q w
  | 0x0E => vtMinor q w x
  | 0x10 => dmMinor q w x
  | 0x14 => axMinor q w x
  | 0x16 => rxMinor q w
  | 0x18 => uxMinor q w x
  | _ => none

/-- Format T, where an extension word is required. -/
def formatT (c : Nat) : Bool := decide (0x0E ≤ c)

/-- X does not match the format: INTI alone may or may not have it. -/
def extWrong (w : W64) : Bool := if formatT (wClass w) then !wX w else wX w && wClass w != 2

/-- The instruction of the words for an engine of this kind, or the first reason of Table 06-19 that applies; ENCODING and
ALIGN are the instruction's own checks. -/
def decodeQis (q : BitVec 20) (kind : Nat) (w x : W64) : Except Nat Meaning :=
  if !classKnown (wClass w) then .error rClass
  else if !kindRuns kind (wClass w) then .error rKind
  else match minorOf q w x with
    | none => .error rMinor
    | some h =>
      if extWrong w then .error rExtension
      else if w.toNat % 2 ^ 51 &&& (2 ^ 51 - 1 - h.used) ≠ 0 ∨ (wX w ∧ x.toNat &&& (2 ^ 64 - 1 - h.ext) ≠ 0) then .error rNonzero
      else .ok h.run

end Sys2Proof.Machine
end

