-- ==== Sys2Proof/Machine/Qis.lean ====
section
/-! DEFINITION. Instruction and program commands on an engine's queue contexts: dispatch, instruction fetch, and the switch
between queue contexts (R103 to R109, R123, R245 to R249). -/

namespace Sys2Proof.Machine

/-! ### One instruction (R109, R123) -/

/-- The state after an instruction. -/
def runMeaning (m : Meaning) (s : State) : State :=
  match m s with
  | .next t => t
  | .fault _ => s
  | .refused _ => s

/-- Executes the words at hand on queue context `q`; illegal ones end its command. -/
def runWords (q : Nat) (w x : W64) (s : State) : State :=
  match decodeQis (BitVec.ofNat 20 q) (qKind q) w x with
  | .ok m => runMeaning m s
  | .error r => illegal q r w.toNat (if wX w then x.toNat else 0) s

/-- A word of the instruction stream: a word that changed since the engine last fetched it may still be the old one,
until IFENCE (R109). -/
def fetchWord (q va : Nat) (s : State) : Except State (W64 × State) :=
  match translate s (getQc s q).ctx va accFetch (whoOf q) with
  | (.ok loc, s1) =>
    if locPoison s1 loc then .error (xlatFault q va accFetch (.poisonAt (lineAddr loc)) s1)
    else
      let k := engKey (qKind q) (qIndex q)
      let now : W64 := BitVec.ofNat 64 (locNat s1 loc 8)
      let old := mget 0 (getEng s1 k).icache loc
      let w := if old ≠ 0 ∧ Config.fetchStale s1.free then BitVec.ofNat 64 (old - 1) else now
      .ok (w, setEng k { getEng s1 k with icache := mset 0 (getEng s1 k).icache loc (w.toNat + 1) } { s1 with free := s1.free + 1 })
  | (o, s1) => .error (xlatFault q va accFetch o s1)

/-- Executes the fetched words, which a fault record of the instruction names. -/
def runAt (q : Nat) (pc w x : W64) (s : State) : State :=
  modQc q (fun c => { c with words := none }) (runWords q w x (modQc q (fun c => { c with words := some (pc, w, x) }) s))

/-- Fetches and executes one instruction of a program. -/
def runFetched (q : Nat) (s : State) : State :=
  let pc := (getQc s q).pc
  match fetchWord q pc.toNat s with
  | .error t => t
  | .ok (w, s1) =>
    if wX w then
      match fetchWord q ((pc.toNat + 8) % 2 ^ 64) s1 with
      | .error t => t
      | .ok (x, s2) => runAt q pc w x s2
    else runAt q pc w 0 s1

/-- Executes the next instruction of the running queue context: its program's, or the command's own. -/
def runOne (q : Nat) (s : State) : State :=
  if !canRun s q anyKind then s
  else if isProg (getQc s q) then runFetched q s
  else match curFlight s q with
    | some f =>
      if cmdOp f.entry.cmd = 1 then finishCmd q stDone s
      else runWords q (BitVec.ofNat 64 (cmdArg f.entry.cmd 0)) (BitVec.ofNat 64 (cmdArg f.entry.cmd 1)) s
    | none => s

/-- At most `n` instructions. -/
def runSteps (q : Nat) : Nat → State → State
  | 0, s => s
  | n + 1, s => runSteps q n (runOne q s)

/-! ### Dispatch (R245, R247 to R249) -/

/-- Queue context that a command of queue `q` is for. -/
def targetOf (q : Nat) (e : Entry) : Nat := if qKind q = 7 then qcKey (cmdKind e.cmd) (cmdIndex e.cmd) (cmdQctx e.cmd) else q

/-- A tiered command's target cannot take it (R249). -/
def targetBad (s : State) (q : Nat) (e : Entry) : Bool :=
  let c := (getQ s q).ctx
  let b := mget 0 s.fe.binds (targetOf q e)
  qKind q == 7 && (!engExists s (cmdKind e.cmd) (cmdIndex e.cmd) || engPart s (cmdKind e.cmd) (cmdIndex e.cmd) != (getCtx s c).part
    || (b != 0 && b != c + 1))

/-- A tiered command's target kind is one that the grade lacks. -/
def targetAbsent (s : State) (q : Nat) (e : Entry) : Bool := qKind q == 7 && cmdKind e.cmd == kUX && fld (gradeEngines s.bt.grade) 4 1 == 0

/-- The target is an engine of a fenced core (R327). -/
def targetFenced (s : State) (t : Nat) : Bool := decide (qKind t ≤ kDM) && mget false s.fr.fence (qIndex t)

/-- The first dispatch of a tiered queue to a queue context binds it to the command's context. -/
def bindTarget (q t : Nat) (s : State) : State :=
  let c := (getQ s q).ctx
  if qKind q ≠ 7 ∨ mget 0 s.fe.binds t ≠ 0 then s
  else setQc t { live := true, ctx := c } { s with fe := { s.fe with binds := mset 0 s.fe.binds t (c + 1) } }

/-- Commands of queue context `t` begin with the one handed over longest ago: a program's counter, g1 and g2 are set. -/
def nextHeld (t : Nat) (s : State) : State :=
  match (getQc s t).cmd, (getQc s t).held with
  | none, h :: hs =>
    let s1 := modQc t (fun c => { c with cmd := some h, held := hs, started := false }) s
    match h.2.2, curFlight s1 t with
    | true, some f =>
      modQc t (fun c => wrG 2 (BitVec.ofNat 64 (cmdArg f.entry.cmd 2)) (wrG 1 (BitVec.ofNat 64 (cmdArg f.entry.cmd 1))
        { c with pc := BitVec.ofNat 64 (cmdArg f.entry.cmd 0) })) s1
    | _, _ => s1
  | _, _ => s

/-- The word by which a command's start is traced: its instruction, or 0 of a program and of a NOP. -/
def startWord (e : Entry) : Nat := if cmdOp e.cmd = 2 then cmdArg e.cmd 0 else 0

/-- Hands a command to its queue context. It starts at once on an engine that is free for it; else a switch starts it
(R105, R246). -/
def handOver (q t : Nat) (e : Entry) (prog : Bool) (s : State) : State :=
  let cause := startCause s q e
  let id := (getQ s q).dispatched
  let s1 := bindTarget q t (pushFlight q e t none (inGraphNow (getQ s q)) s)
  let s2 := nextHeld t (modQc t (fun c => { c with held := c.held ++ [(q, id, prog)] }) s1)
  if mayTake s2 t && readyCtx s2 t && !(getQc s2 t).started && engUp s2 (qKind t) (qIndex t) then startCmd t cause (startWord e) s2 else s2

/-- The command with its arguments: IND reads them at ARG2 (R245 step 3). -/
def withArgs (q : Nat) (e : Entry) (s : State) (k : Entry → State → State) : State :=
  if !cmdInd e.cmd then k e s
  else match readVa s (getQ s q).ctx (cmdArg e.cmd 2) 16 accRead .other with
    | (.fail a o, s1) => feFail q e a accRead o s1
    | (.ok bs, s1) => k { e with cmd := setArgs e.cmd (leNat (bs.take 8)) (leNat (bs.drop 8)) } s1

/-- A command cannot be dispatched to `t` yet. A direct queue's engine takes it, out of reset and with no command of the
queue context in progress (R248); the sequencer takes a tiered queue's. -/
def dispatchWaits (s : State) (q t : Nat) : Bool :=
  if qKind q = 7 then sequencerDown s t else !engUp s (qKind t) (qIndex t) || (getQc s t).cmd.isSome

/-- The Chanter traces a dispatch of a tiered queue (R293). -/
def traceDispatch (q : Nat) (s : State) : State := if qKind q = 7 then fwPoint (chanterProc s) 2 q s else s

/-- Dispatches an INSN or PROG command to its target and lets the engine run. -/
def dispatchCmd (q : Nat) (prog : Bool) (n : Nat) (e0 : Entry) (s : State) : State :=
  let t := targetOf q e0
  let bad := targetAbsent s q e0 || targetBad s q e0
  if !bad && !targetFenced s t && dispatchWaits s q t then s
  else settleQ q (withArgs q e0 s (fun e u =>
    if !prog && cmdArg e.cmd 1 != 0 && fld (cmdArg e.cmd 0) 51 1 == 0 then feIllegal q e rCommand u
    else if prog && cmdArg e.cmd 0 % 8 != 0 then feIllegal q e rAlign u
    else if targetAbsent u q e then feEnd q e cAbsent stAbsent 0 (bfld e.cmd 0 64) (cmdArg e.cmd 0) u
    else if targetBad u q e then feIllegal q e rCommand u
    else if targetFenced u t then pushFlight q e t (some stEngReset) (inGraphNow (getQ u q)) u
    else runSteps t n (handOver q t e prog (traceDispatch q u))))

/-- NOP (R244, R249, R254): on a tiered queue it completes in the Chanter; one of a direct queue is a command of its queue
context and takes its sequence number (R247). -/
def execNop (src : Src) (s : State) : Host.Outcome State Fault Refusal :=
  .next (onlyWork s (
    match src with
    | .admin f =>
      match (getFn s f).adminBusy with
      | some b => if b.result.isNone && cmdOp b.entry.cmd == 1 && adminOn s f then ctlEnd f stDone 0 0 0 0 s else s
      | none => s
    | .queue qid =>
      let q := qid.toNat
      match headCmd s q 0x01 with
      | none => s
      | some e =>
        if qKind q = 7 then settleQ q (pushFlight q e (qcKey 7 0 0) (some stDone) (inGraphNow (getQ s q)) (traceDispatch q s))
        else if dispatchWaits s q q then s
        else settleQ q (runSteps q 1 (handOver q q e false s))))

/-- INSN (R103): the target engine executes the instruction that the command carries. -/
def execInsn (qid : BitVec 20) (s : State) : Host.Outcome State Fault Refusal :=
  .next (onlyFabric s (
    match headCmd s qid.toNat 0x02 with
    | none => s
    | some e => dispatchCmd qid.toNat false 1 e s))

/-- PROG (R103): the program counter is set, and instructions run, `steps` of them within this command. -/
def execProg (qid : BitVec 20) (steps : Nat) (s : State) : Host.Outcome State Fault Refusal :=
  .next (onlyFabric s (
    match headCmd s qid.toNat 0x03 with
    | none => s
    | some e => dispatchCmd qid.toNat true steps e s))

/-! ### Switches (R105, R336) -/

/-- The next ready context in ascending number after `last`, wrapping from 63 to 0. -/
def nextReady (last : Nat) (qs : List Nat) : Option Nat :=
  match qs.filter (fun k => decide (last < qCtxNo k)) with
  | k :: _ => some k
  | [] => qs.head?

/-- The engine takes queue context `k`: its command starts, or goes on. -/
def takeCtx (k : Nat) (s : State) : State :=
  if (getQc s k).started then
    let s1 := tickEng (qKind k) (qIndex k) s
    let e := getEng s1 (engKey (qKind k) (qIndex k))
    setEng (engKey (qKind k) (qIndex k)) { endIdle causeEngine e with running := some k, kept := none } s1
  else
    let s1 := nextHeld k s
    startCmd k causeEngine (match curFlight s1 k with | some f => startWord f.entry | none => 0) s1

/-- The queue context that the engine takes: the one it stays with, while that has a command handed over; else the next
ready one after the one it runs or ran last. None while a command that the kept context's direct queue has ready is to be
dispatched first (R105). -/
def taken (s : State) (kind index : Nat) : Option Nat :=
  let e := getEng s (engKey kind index)
  let ready := qcsWhere s (fun k _ => qKind k == kind && qIndex k == index && e.running != some k && readyCtx s k)
  match e.running, staysWith s (engKey kind index) with
  | some q, _ => nextReady (qCtxNo q) ready
  | none, some q => if readyCtx s q then some q else none
  | none, none => nextReady e.last ready

/-- CONTEXT_SWITCH: the running context leaves at an instruction boundary when another is ready; the next one runs. A
long-running instruction, an AX.FENCE, an array command that waits or a UX.CHUNK in progress among them, is never
interrupted. -/
def execContextSwitch (kind index steps : Nat) (s : State) : Host.Outcome State Fault Refusal :=
  .next (onlyFabric s (
    if !engUp s kind index || (getEng s (engKey kind index)).running.any (fun q => (getQc s q).chunk.isSome) || (kind == kAX && ((getPart s index).fence.isSome || (getPart s index).next.isSome)) then s
    else match taken s kind index with
      | none => s
      | some k =>
        let s1 := match (getEng s (engKey kind index)).running with | some q => leaveEng q s | none => s
        runSteps k steps (takeCtx k s1)))

end Sys2Proof.Machine
end

