-- ==== Sys2Proof/Machine/Sideband.lean ====
section
/-! DEFINITION. The sideband endpoint: MCTP control, PLDM and SPDM messages (R298 to R300, Table 14-10).
A reply names its message by the position of its name in Table 14-10's row; the numbers on the wire belong
to the published protocols. -/

namespace Sys2Proof.Machine

/-! ### Replies -/

/-- Protocols of a reply. -/
def pMctp : Nat := 0
def pPldm : Nat := 1
def pSpdm : Nat := 2

/-- Completions: success, a request that does not fit the state or its arguments, unsupported command. -/
def okReply : Nat := 0
def badReply : Nat := 1
def unsupported : Nat := 5

/-- CXL DOE reaches the same responder over a host link that is up (R298). -/
def doeUp (s : State) : Bool := droneUp s && fabricEnded s && (s.hs.f0.linkUp || s.hs.f1.linkUp)

/-- The endpoint answers a message of a protocol: SPDM comes over the sideband or over DOE. -/
def protoUp (s : State) (proto : Nat) : Bool := sidebandUp s || (proto == pSpdm && doeUp s)

/-- Answers a message, when the endpoint answers at all. -/
def answer (proto code completion : Nat) (data : List Nat) (s : State) : State :=
  if protoUp s proto then emit (.reply proto code completion (data.map (BitVec.ofNat 64))) s else s

/-- Answers and, on success, applies what the message sets. -/
def request (proto code : Nat) (ok : Bool) (data : List Nat) (f : State → State) (s : State) : State :=
  if protoUp s proto then (if ok then answer proto code okReply data (f s) else answer proto code badReply [] s) else s

/-- Words whose content no rule gives: a fixed function of what the message reports on. -/
def openWords (what n : Nat) : List Nat := (upto n).map (fun k => (Config.openWord (what * 64 + k)).toNat)

/-! ### MCTP control -/

/-- SET_ENDPOINT_ID. -/
def execSetEndpointId (id : Byte) (s : State) : Host.Outcome State Fault Refusal :=
  .next (onlySideband s (request pMctp 0 true [] (fun t => { t with fw := { t.fw with eid := id.toNat } }) s))

/-- GET_ENDPOINT_ID. -/
def execGetEndpointId (s : State) : Host.Outcome State Fault Refusal :=
  .next (onlySideband s (answer pMctp 1 okReply [s.fw.eid] s))

/-- GET_ENDPOINT_UUID. -/
def execGetEndpointUuid (s : State) : Host.Outcome State Fault Refusal :=
  .next (onlySideband s (answer pMctp 2 okReply (openWords 1 2) s))

/-- GET_MCTP_VERSION_SUPPORT. -/
def execGetMctpVersionSupport (s : State) : Host.Outcome State Fault Refusal :=
  .next (onlySideband s (answer pMctp 3 okReply (openWords 2 1) s))

/-- GET_MESSAGE_TYPE_SUPPORT: MCTP control, PLDM, SPDM and PCI vendor-defined. -/
def execGetMessageTypeSupport (s : State) : Host.Outcome State Fault Refusal :=
  .next (onlySideband s (answer pMctp 4 okReply [0, 1, 5, 0x7E] s))

/-- GET_VENDOR_DEFINED_MESSAGE_SUPPORT: the vendor ID of the CXL configuration space. -/
def execGetVendorDefinedMessageSupport (s : State) : Host.Outcome State Fault Refusal :=
  .next (onlySideband s (answer pMctp 5 okReply (openWords 3 1) s))

/-! ### PLDM base -/

/-- GETTID: the terminus ID with the slot number. -/
def execGettid (s : State) : Host.Outcome State Fault Refusal :=
  .next (onlySideband s (answer pPldm 0 okReply [s.fw.tid, s.fw.slotId] s))

/-- SETTID. -/
def execSettid (id : Byte) (s : State) : Host.Outcome State Fault Refusal :=
  .next (onlySideband s (request pPldm 1 true [] (fun t => { t with fw := { t.fw with tid := id.toNat } }) s))

/-- PLDM types of Table 14-10. -/
def pldmType (ty : Byte) : Bool := ty == 0 || ty == 2 || ty == 5

/-- GETPLDMVERSION. -/
def execGetpldmversion (ty : Byte) (s : State) : Host.Outcome State Fault Refusal :=
  .next (onlySideband s (request pPldm 2 (pldmType ty) (openWords (16 + ty.toNat) 1) id s))

/-- GETPLDMTYPES: bits 0, 2 and 5. -/
def execGetpldmtypes (s : State) : Host.Outcome State Fault Refusal :=
  .next (onlySideband s (answer pPldm 3 okReply [0x25] s))

/-- GETPLDMCOMMANDS: the messages of the type, by position. -/
def execGetpldmcommands (ty : Byte) (s : State) : Host.Outcome State Fault Refusal :=
  .next (onlySideband s (request pPldm 4 (pldmType ty) (upto (if ty = 5 then 13 else 5)) id s))

/-! ### PLDM platform monitoring and control -/

/-- Sensors: the hottest sensor and the HBM readout of each windchest, then input power and voltage. -/
def numericSensor (s : State) (n : Nat) : Option Nat :=
  if n < 32 then some (if n % 2 = 0 then mget 0 s.pw.wcHot (n / 2) else mget 0 s.pw.wcHbm (n / 2))
  else if n = 32 then some s.pw.powerNow
  else if n = 33 then some s.pw.vinNow
  else none

/-- State sensors: FWP_STATE of the 66 processors, READY, THERM_ALERT. -/
def stateSensor (s : State) (n : Nat) : Option Nat :=
  if n < 66 then some (getProc s n).state
  else if n = 66 then some (b01 s.bt.ready)
  else if n = 67 then some (b01 (thermAlert s))
  else none

/-- GETPDR. -/
def execGetpdr (handle : W32) (s : State) : Host.Outcome State Fault Refusal :=
  .next (onlySideband s (answer pPldm 16 okReply (openWords (2 ^ 40 + handle.toNat) 1) s))

/-- GETSENSORREADING. -/
def execGetsensorreading (sensor : BitVec 16) (s : State) : Host.Outcome State Fault Refusal :=
  .next (onlySideband s (request pPldm 17 (numericSensor s sensor.toNat).isSome [(numericSensor s sensor.toNat).getD 0] id s))

/-- GETSTATESENSORREADINGS. -/
def execGetstatesensorreadings (sensor : BitVec 16) (s : State) : Host.Outcome State Fault Refusal :=
  .next (onlySideband s (request pPldm 18 (stateSensor s sensor.toNat).isSome [(stateSensor s sensor.toNat).getD 0] id s))

/-- SETEVENTRECEIVER. -/
def execSeteventreceiver (addr : Byte) (s : State) : Host.Outcome State Fault Refusal :=
  .next (onlySideband s (request pPldm 19 true [] (fun t => { t with fw := { t.fw with eventReceiver := addr.toNat } }) s))

/-! ### PLDM firmware update: one component, the bank that did not boot -/

/-- The update service answers in RECOVERY too, run by the boot ROM (R265). -/
def updateUp (s : State) : Bool :=
  sidebandUp s || (s.pw.powered && s.bt.stage == 10 && !(s.pw.i3cDead && s.pw.smbDead))

/-- An update message: applied when it fits the update's state. -/
def updateMsg (code : Nat) (ok : Bool) (data : List Nat) (f : State → State) (s : State) : State :=
  if updateUp s then
    if ok then emit (.reply pPldm code okReply (data.map (BitVec.ofNat 64))) (f s) else emit (.reply pPldm code badReply []) s
  else s

def setPldm (n : Nat) (s : State) : State := { s with fw := { s.fw with pldm := n } }

/-- QUERYDEVICEIDENTIFIERS. -/
def execQuerydeviceidentifiers (s : State) : Host.Outcome State Fault Refusal :=
  .next (onlySideband s (updateMsg 32 true (openWords 4 1) id s))

/-- GETFIRMWAREPARAMETERS: the versions of both banks. -/
def execGetfirmwareparameters (s : State) : Host.Outcome State Fault Refusal :=
  .next (onlySideband s (updateMsg 33 true [mapField s.fl.bankA 16 8, mapField s.fl.bankB 16 8] id s))

/-- REQUESTUPDATE: enters update mode. -/
def execRequestupdate (s : State) : Host.Outcome State Fault Refusal :=
  .next (onlySideband s (updateMsg 34 (s.fw.pldm == 0) [] (setPldm 1) s))

/-- PASSCOMPONENTTABLE: the one component is number 0. -/
def execPasscomponenttable (component : BitVec 16) (s : State) : Host.Outcome State Fault Refusal :=
  .next (onlySideband s (updateMsg 35 (s.fw.pldm == 1 && component == 0) [] (setPldm 2) s))

/-- Puts an image into a bank. -/
def putBank (b : Bool) (image : List Byte) (s : State) : State :=
  if b then { s with fl := { s.fl with bankB := putBytes 0 image [] } } else { s with fl := { s.fl with bankA := putBytes 0 image [] } }

/-- A request that the module sends as the updating device, by its position in Table 14-10: RequestFirmwareData 37,
TransferComplete 38, VerifyComplete 39, ApplyComplete 40, the last three with 0 for success. -/
def pldmSend (code : Nat) (data : List Nat) (s : State) : State := emit (.pldm code (data.map (BitVec.ofNat 64))) s

/-- UPDATECOMPONENT with the exchange that follows it: the module asks for the image, here with one request for all of it,
and tells that it has come, whether it passes R263, and that it is applied. -/
def execUpdatecomponent (component : BitVec 16) (image : List Byte) (s : State) : Host.Outcome State Fault Refusal :=
  .next (onlySideband s (
    if updateUp s && s.fw.pldm == 2 && component == 0 then
      let s1 := pldmSend 38 [0] (pldmSend 37 [0, image.length] (updateMsg 36 true [] (putBank (!s.bt.bank) image) s))
      let good := bankOk s1 (!s.bt.bank)
      let s2 := pldmSend 39 [b01 !good] { s1 with bt := { s1.bt with altOk := good } }
      if good then setPldm 3 (pldmSend 40 [0] s2) else s2
    else updateMsg 36 false [] id s))

/-- ACTIVATEFIRMWARE: sets FW_PREF to the bank that did not boot. -/
def execActivatefirmware (s : State) : Host.Outcome State Fault Refusal :=
  .next (onlySideband s (updateMsg 41 (s.fw.pldm == 3) [] (fun t => setPldm 0 { t with fl := { t.fl with fwPref := !t.bt.bank } }) s))

/-- GETSTATUS. -/
def execGetstatus (s : State) : Host.Outcome State Fault Refusal :=
  .next (onlySideband s (updateMsg 42 true [s.fw.pldm] id s))

/-- CANCELUPDATECOMPONENT: back to the passed component table. -/
def execCancelupdatecomponent (s : State) : Host.Outcome State Fault Refusal :=
  .next (onlySideband s (updateMsg 43 (decide (2 ≤ s.fw.pldm)) [] (setPldm 2) s))

/-- CANCELUPDATE. -/
def execCancelupdate (s : State) : Host.Outcome State Fault Refusal :=
  .next (onlySideband s (updateMsg 44 (decide (1 ≤ s.fw.pldm)) [] (setPldm 0) s))

/-! ### SPDM and attestation (R300) -/

/-- GET_VERSION: SPDM 1.2. -/
def execGetVersion (s : State) : Host.Outcome State Fault Refusal :=
  .next (onlySideband s (answer pSpdm 0 okReply [0x12] s))

/-- GET_CAPABILITIES. -/
def execGetCapabilities (s : State) : Host.Outcome State Fault Refusal :=
  .next (onlySideband s (answer pSpdm 1 okReply (openWords 5 1) s))

/-- NEGOTIATE_ALGORITHMS: an offer that holds ECDSA P-256 (bit 0), SHA-256 (bit 1) and AES-256-GCM (bit 2). -/
def execNegotiateAlgorithms (offered : W32) (s : State) : Host.Outcome State Fault Refusal :=
  .next (onlySideband s (request pSpdm 2 (bfld offered 0 3 == 7) [7] (fun t => { t with fw := { t.fw with spdmAlgs := true } }) s))

/-- Bytes as 8-byte words of a reply, little-endian. -/
def byteWords (bs : List Byte) : List Nat := (upto ((bs.length + 7) / 8)).map (fun k => leNat ((bs.drop (8 * k)).take 8))

/-- A 256-bit field as reply words. -/
def words4 (n : Nat) : List Nat := byteWords (leBytes 32 n)

/-- GET_DIGESTS: the digest of the one slot's chain. -/
def execGetDigests (s : State) : Host.Outcome State Fault Refusal :=
  .next (onlySideband s (request pSpdm 3 s.fw.spdmAlgs (words4 (shaField (certChain s))) id s))

/-- GET_CERTIFICATE: bytes of slot 0's chain, from an offset on. -/
def execGetCertificate (slot : Byte) (offset len : BitVec 16) (s : State) : Host.Outcome State Fault Refusal :=
  .next (onlySideband s (request pSpdm 4 (s.fw.spdmAlgs && slot == 0)
    (byteWords (((certChain s).drop offset.toNat).take len.toNat)) id s))

/-- A response's signature by the device identity key, with ECDSA P-256 over the SHA-256 of the transcript, which holds
what the response says; r then s. The nonce of each signature is fresh and unknown. -/
def signature (s : State) (said : List Nat) : List Nat :=
  let (r, t) := ecdsaSign s.fl.idKey.toNat (Config.signNonce s.free).toNat (Config.transcript (said.foldl (fun a w => a * 2 ^ 64 + w) 1)).toNat
  byteWords (leBytes 32 r ++ leBytes 32 t)

/-- CHALLENGE: signed by the device identity key. -/
def execChallenge (slot : Byte) (nonce : BitVec 256) (s : State) : Host.Outcome State Fault Refusal :=
  .next (onlySideband s (
    let said := words4 (shaField (certChain s)) ++ words4 nonce.toNat
    request pSpdm 5 (s.fw.spdmAlgs && slot == 0) (said ++ signature s said) nextFree s))

/-- A map of fused values as one number. -/
def fuseCode (m : NMap (BitVec 256)) : Nat := m.foldl (fun a e => (a * 4 + e.1 % 4) * 2 ^ 256 + e.2.toNat) 1

/-- What block 3 measures: key slots, revoke fuses, SVN count, grade ceiling. -/
def fusedCode (s : State) : Nat :=
  let revoked := fun (m : NMap Bool) => (upto 4).foldl (fun a i => a + 2 ^ i * b01 (mget false m i)) 0
  (((fuseCode s.fl.fwKeys * 2 ^ 2048 + fuseCode s.fl.licKeys) * 16 + revoked s.fl.fwRevoked) * 16 + revoked s.fl.licRevoked) * 2 ^ 16
  + s.fl.svn * 2 ^ 8 + s.fl.ceiling

/-- SHA-256 of a measurement block (Table 14-12). No rule gives the bytes that blocks 1, 3 and 6 hash, nor those of a
licence or an extract that is not there. -/
def measurement (s : State) (k : Nat) : Nat :=
  match k with
  | 2 => shaField (mapBytes (bankOf s s.bt.bank) 0 (256 + mapField (bankOf s s.bt.bank) 24 8))
  | 3 => (Config.blockDigest 3 (fusedCode s)).toNat
  | 4 => if licenceValid s then shaField (mapBytes s.bt.licInForce 0 256) else (Config.blockDigest 4 0).toNat
  | 5 => match s.bt.inForce with
    | some e => shaField e.raw
    | none => (Config.blockDigest 5 0).toNat
  | 6 => (Config.blockDigest 6 s.bt.cfgInForce).toNat
  | _ => (Config.blockDigest k 0).toNat

/-- GET_MEASUREMENTS: their number (0), one block, or all (0xFF). -/
def execGetMeasurements (index : Byte) (signed : Bool) (s : State) : Host.Outcome State Fault Refusal :=
  .next (onlySideband s (
    let i := index.toNat
    let blocks := if i = 0 then [6] else if i = 0xFF then (upto 6).flatMap (fun k => words4 (measurement s (k + 1))) else words4 (measurement s i)
    request pSpdm 6 (s.fw.spdmAlgs && (decide (i ≤ 6) || i == 0xFF)) (blocks ++ if signed then signature s blocks else []) nextFree s))

/-- A message that only DOE carries: unsupported over MCTP. -/
def doeMsg (doe : Bool) (code : Nat) (ok : Bool) (f : State → State) (s : State) : State :=
  if doe then (if doeUp s then request pSpdm code ok [] f s else s)
  else if sidebandUp s then answer pSpdm code unsupported [] s
  else s

def setSession (n : Nat) (s : State) : State := { s with fw := { s.fw with spdmSession := n } }

/-- KEY_EXCHANGE: starts a session. -/
def execKeyExchange (doe : Bool) (s : State) : Host.Outcome State Fault Refusal :=
  .next (onlySideband s (doeMsg doe 7 s.fw.spdmAlgs (setSession 1) s))

/-- FINISH: the session is established. -/
def execFinish (doe : Bool) (s : State) : Host.Outcome State Fault Refusal :=
  .next (onlySideband s (doeMsg doe 8 (s.fw.spdmSession == 1) (setSession 2) s))

/-- KEY_UPDATE: new keys for an established session. -/
def execKeyUpdate (doe : Bool) (s : State) : Host.Outcome State Fault Refusal :=
  .next (onlySideband s (doeMsg doe 9 (s.fw.spdmSession == 2) id s))

/-- END_SESSION. -/
def execEndSession (doe : Bool) (s : State) : Host.Outcome State Fault Refusal :=
  .next (onlySideband s (doeMsg doe 10 (s.fw.spdmSession == 2) (setSession 0) s))

/-- UNSUPPORTED_MESSAGE: the protocol's unsupported-command completion. -/
def execUnsupportedMessage (proto code : Byte) (s : State) : Host.Outcome State Fault Refusal :=
  .next (onlySideband s (answer proto.toNat code.toNat unsupported [] s))

end Sys2Proof.Machine
end

