-- ==== Sys2Proof/Machine/Dispatch.lean ====
section
/-! DEFINITION. Every command's meaning by name: one arm for each constructor of Instr. -/

namespace Sys2Proof.Machine

/-- What a command does to everything but the queue. -/
def exec (i : Instr) (s : State) : Host.Outcome State Fault Refusal :=
  match i with
  | .coldPowerOn vin aux => Sys2Proof.Machine.execColdPowerOn vin aux s
  | .powerDown assertedNs => Sys2Proof.Machine.execPowerDown assertedNs s
  | .vinOutOfRange vin forUs => Sys2Proof.Machine.execVinOutOfRange vin forUs s
  | .vinMarginal vin => Sys2Proof.Machine.execVinMarginal vin s
  | .vinReversed vin aux => Sys2Proof.Machine.execVinReversed vin aux s
  | .auxLost => Sys2Proof.Machine.execAuxLost s
  | .auxMarginal aux => Sys2Proof.Machine.execAuxMarginal aux s
  | .railFault rail => Sys2Proof.Machine.execRailFault rail s
  | .phaseFail bw phase => Sys2Proof.Machine.execPhaseFail bw phase s
  | .currentLimitClamp rail => Sys2Proof.Machine.execCurrentLimitClamp rail s
  | .powerLoop watts vin => Sys2Proof.Machine.execPowerLoop watts vin s
  | .thermalLoop readings converged => Sys2Proof.Machine.execThermalLoop readings converged s
  | .thermTrip wc temp => Sys2Proof.Machine.execThermTrip wc temp s
  | .thermTripClear wc temps => Sys2Proof.Machine.execThermTripClear wc temps s
  | .leakWet => Sys2Proof.Machine.execLeakWet s
  | .leakOpen => Sys2Proof.Machine.execLeakOpen s
  | .inletOpen => Sys2Proof.Machine.execInletOpen s
  | .coolantHot temp => Sys2Proof.Machine.execCoolantHot temp s
  | .sbI3cFault => Sys2Proof.Machine.execSbI3cFault s
  | .sbSmbFault => Sys2Proof.Machine.execSbSmbFault s
  | .clkFallback die => Sys2Proof.Machine.execClkFallback die s
  | .refclkLost link forUs sris => Sys2Proof.Machine.execRefclkLost link forUs sris s
  | .perstAssert link => Sys2Proof.Machine.execPerstAssert link s
  | .perstRelease link cache => Sys2Proof.Machine.execPerstRelease link cache s
  | .functionLevelReset f => Sys2Proof.Machine.execFunctionLevelReset f s
  | .function1Promotion takeover => Sys2Proof.Machine.execFunction1Promotion takeover s
  | .hostLink0Down => Sys2Proof.Machine.execHostLink0Down s
  | .hdmRead addr => Sys2Proof.Machine.execHdmRead addr s
  | .hdmWrite addr bytes => Sys2Proof.Machine.execHdmWrite addr bytes s
  | .power => Sys2Proof.Machine.execPower s
  | .rom => Sys2Proof.Machine.execRom s
  | .licence => Sys2Proof.Machine.execLicence s
  | .fabric => Sys2Proof.Machine.execFabric s
  | .memory r => Sys2Proof.Machine.execMemory r s
  | .links => Sys2Proof.Machine.execLinks s
  | .compute r => Sys2Proof.Machine.execCompute r s
  | .topology => Sys2Proof.Machine.execTopology s
  | .stageTimeout => Sys2Proof.Machine.execStageTimeout s
  | .manifestExtract bytes => Sys2Proof.Machine.execManifestExtract bytes s
  | .collLineSet axis val => Sys2Proof.Machine.execCollLineSet axis val s
  | .routeExcWrite e entry => Sys2Proof.Machine.execRouteExcWrite e entry s
  | .sbLicenceInstall bytes => Sys2Proof.Machine.execSbLicenceInstall bytes s
  | .setEndpointId id => Sys2Proof.Machine.execSetEndpointId id s
  | .getEndpointId => Sys2Proof.Machine.execGetEndpointId s
  | .getEndpointUuid => Sys2Proof.Machine.execGetEndpointUuid s
  | .getMctpVersionSupport => Sys2Proof.Machine.execGetMctpVersionSupport s
  | .getMessageTypeSupport => Sys2Proof.Machine.execGetMessageTypeSupport s
  | .getVendorDefinedMessageSupport => Sys2Proof.Machine.execGetVendorDefinedMessageSupport s
  | .gettid => Sys2Proof.Machine.execGettid s
  | .settid id => Sys2Proof.Machine.execSettid id s
  | .getpldmversion ty => Sys2Proof.Machine.execGetpldmversion ty s
  | .getpldmtypes => Sys2Proof.Machine.execGetpldmtypes s
  | .getpldmcommands ty => Sys2Proof.Machine.execGetpldmcommands ty s
  | .getpdr handle => Sys2Proof.Machine.execGetpdr handle s
  | .getsensorreading sensor => Sys2Proof.Machine.execGetsensorreading sensor s
  | .getstatesensorreadings sensor => Sys2Proof.Machine.execGetstatesensorreadings sensor s
  | .seteventreceiver addr => Sys2Proof.Machine.execSeteventreceiver addr s
  | .querydeviceidentifiers => Sys2Proof.Machine.execQuerydeviceidentifiers s
  | .getfirmwareparameters => Sys2Proof.Machine.execGetfirmwareparameters s
  | .requestupdate => Sys2Proof.Machine.execRequestupdate s
  | .passcomponenttable component => Sys2Proof.Machine.execPasscomponenttable component s
  | .updatecomponent component image => Sys2Proof.Machine.execUpdatecomponent component image s
  | .activatefirmware => Sys2Proof.Machine.execActivatefirmware s
  | .getstatus => Sys2Proof.Machine.execGetstatus s
  | .cancelupdatecomponent => Sys2Proof.Machine.execCancelupdatecomponent s
  | .cancelupdate => Sys2Proof.Machine.execCancelupdate s
  | .getVersion => Sys2Proof.Machine.execGetVersion s
  | .getCapabilities => Sys2Proof.Machine.execGetCapabilities s
  | .negotiateAlgorithms offered => Sys2Proof.Machine.execNegotiateAlgorithms offered s
  | .getDigests => Sys2Proof.Machine.execGetDigests s
  | .getCertificate slot offset len => Sys2Proof.Machine.execGetCertificate slot offset len s
  | .challenge slot nonce => Sys2Proof.Machine.execChallenge slot nonce s
  | .getMeasurements index signed => Sys2Proof.Machine.execGetMeasurements index signed s
  | .keyExchange doe => Sys2Proof.Machine.execKeyExchange doe s
  | .finish doe => Sys2Proof.Machine.execFinish doe s
  | .keyUpdate doe => Sys2Proof.Machine.execKeyUpdate doe s
  | .endSession doe => Sys2Proof.Machine.execEndSession doe s
  | .unsupportedMessage proto code => Sys2Proof.Machine.execUnsupportedMessage proto code s
  | .hostHeartbeat f => Sys2Proof.Machine.execHostHeartbeat f s
  | .heartbeatTimeout f => Sys2Proof.Machine.execHeartbeatTimeout f s
  | .orphanGraceExpiry f => Sys2Proof.Machine.execOrphanGraceExpiry f s
  | .quiesceComplete f => Sys2Proof.Machine.execQuiesceComplete f s
  | .negHostFeatures f v => Sys2Proof.Machine.execNegHostFeatures f v s
  | .adminCfgWrite f v => Sys2Proof.Machine.execAdminCfgWrite f v s
  | .partFrontModeWrite f v => Sys2Proof.Machine.execPartFrontModeWrite f v s
  | .hdmCfgWrite f v uncommit commit => Sys2Proof.Machine.execHdmCfgWrite f v uncommit commit s
  | .registerWrite f off size v => Sys2Proof.Machine.execRegisterWrite f off size v s
  | .rcRegisterRead f off size => Sys2Proof.Machine.execRcRegisterRead f off size s
  | .licenceInstall f => Sys2Proof.Machine.execLicenceInstall f s
  | .repairAuth f a => Sys2Proof.Machine.execRepairAuth f a s
  | .fuseEntryBlown tile => Sys2Proof.Machine.execFuseEntryBlown tile s
  | .fwWrite f => Sys2Proof.Machine.execFwWrite f s
  | .fwCheck f => Sys2Proof.Machine.execFwCheck f s
  | .idCert f => Sys2Proof.Machine.execIdCert f s
  | .watchdogFire proc exception held => Sys2Proof.Machine.execWatchdogFire proc exception held s
  | .procRestart proc => Sys2Proof.Machine.execProcRestart proc s
  | .procTakeover proc => Sys2Proof.Machine.execProcTakeover proc s
  | .producerIndexWatch line h => Sys2Proof.Machine.execProducerIndexWatch line h s
  | .producerIndexPoll h => Sys2Proof.Machine.execProducerIndexPoll h s
  | .commandWaitRelease qid => Sys2Proof.Machine.execCommandWaitRelease qid s
  | .nop src => Sys2Proof.Machine.execNop src s
  | .insn qid => Sys2Proof.Machine.execInsn qid s
  | .prog qid steps => Sys2Proof.Machine.execProg qid steps s
  | .ifCmd qid => Sys2Proof.Machine.execIfCmd qid s
  | .loopCmd qid => Sys2Proof.Machine.execLoopCmd qid s
  | .callCmd qid => Sys2Proof.Machine.execCallCmd qid s
  | .retCmd qid => Sys2Proof.Machine.execRetCmd qid s
  | .launch qid => Sys2Proof.Machine.execLaunch qid s
  | .patchgraph qid => Sys2Proof.Machine.execPatchgraph qid s
  | .ctxCreate f => Sys2Proof.Machine.execCtxCreate f s
  | .ctxDestroy f => Sys2Proof.Machine.execCtxDestroy f s
  | .ctxReset f => Sys2Proof.Machine.execCtxReset f s
  | .ctxResume f => Sys2Proof.Machine.execCtxResume f s
  | .qCreate f => Sys2Proof.Machine.execQCreate f s
  | .qDestroy f => Sys2Proof.Machine.execQDestroy f s
  | .qRestart f => Sys2Proof.Machine.execQRestart f s
  | .sinkSet f => Sys2Proof.Machine.execSinkSet f s
  | .xlatInval f => Sys2Proof.Machine.execXlatInval f s
  | .graphStore f => Sys2Proof.Machine.execGraphStore f s
  | .graphFree f => Sys2Proof.Machine.execGraphFree f s
  | .commandCompletion src seq => Sys2Proof.Machine.execCommandCompletion src seq s
  | .contextSwitch kind index steps => Sys2Proof.Machine.execContextSwitch kind index steps s
  | .add q rd ra rb => Sys2Proof.Machine.execAdd q rd ra rb s
  | .sub q rd ra rb => Sys2Proof.Machine.execSub q rd ra rb s
  | .mul q rd ra rb => Sys2Proof.Machine.execMul q rd ra rb s
  | .mulh q rd ra rb => Sys2Proof.Machine.execMulh q rd ra rb s
  | .mulhu q rd ra rb => Sys2Proof.Machine.execMulhu q rd ra rb s
  | .div q rd ra rb => Sys2Proof.Machine.execDiv q rd ra rb s
  | .divu q rd ra rb => Sys2Proof.Machine.execDivu q rd ra rb s
  | .rem q rd ra rb => Sys2Proof.Machine.execRem q rd ra rb s
  | .remu q rd ra rb => Sys2Proof.Machine.execRemu q rd ra rb s
  | .andInsn q rd ra rb => Sys2Proof.Machine.execAndInsn q rd ra rb s
  | .orInsn q rd ra rb => Sys2Proof.Machine.execOrInsn q rd ra rb s
  | .xorInsn q rd ra rb => Sys2Proof.Machine.execXorInsn q rd ra rb s
  | .shl q rd ra rb => Sys2Proof.Machine.execShl q rd ra rb s
  | .shr q rd ra rb => Sys2Proof.Machine.execShr q rd ra rb s
  | .sar q rd ra rb => Sys2Proof.Machine.execSar q rd ra rb s
  | .min q rd ra rb => Sys2Proof.Machine.execMin q rd ra rb s
  | .max q rd ra rb => Sys2Proof.Machine.execMax q rd ra rb s
  | .minu q rd ra rb => Sys2Proof.Machine.execMinu q rd ra rb s
  | .maxu q rd ra rb => Sys2Proof.Machine.execMaxu q rd ra rb s
  | .slt q rd ra rb => Sys2Proof.Machine.execSlt q rd ra rb s
  | .sltu q rd ra rb => Sys2Proof.Machine.execSltu q rd ra rb s
  | .seq q rd ra rb => Sys2Proof.Machine.execSeq q rd ra rb s
  | .clz q rd ra => Sys2Proof.Machine.execClz q rd ra s
  | .ctz q rd ra => Sys2Proof.Machine.execCtz q rd ra s
  | .popc q rd ra => Sys2Proof.Machine.execPopc q rd ra s
  | .sel q rd ra rb rc => Sys2Proof.Machine.execSel q rd ra rb rc s
  | .addi q rd ra imm x => Sys2Proof.Machine.execAddi q rd ra imm x s
  | .andi q rd ra imm x => Sys2Proof.Machine.execAndi q rd ra imm x s
  | .ori q rd ra imm x => Sys2Proof.Machine.execOri q rd ra imm x s
  | .xori q rd ra imm x => Sys2Proof.Machine.execXori q rd ra imm x s
  | .shli q rd ra imm x => Sys2Proof.Machine.execShli q rd ra imm x s
  | .shri q rd ra imm x => Sys2Proof.Machine.execShri q rd ra imm x s
  | .sari q rd ra imm x => Sys2Proof.Machine.execSari q rd ra imm x s
  | .slti q rd ra imm x => Sys2Proof.Machine.execSlti q rd ra imm x s
  | .sltui q rd ra imm x => Sys2Proof.Machine.execSltui q rd ra imm x s
  | .li q rd imm x => Sys2Proof.Machine.execLi q rd imm x s
  | .beq q ra rb off => Sys2Proof.Machine.execBeq q ra rb off s
  | .bne q ra rb off => Sys2Proof.Machine.execBne q ra rb off s
  | .blt q ra rb off => Sys2Proof.Machine.execBlt q ra rb off s
  | .bge q ra rb off => Sys2Proof.Machine.execBge q ra rb off s
  | .bltu q ra rb off => Sys2Proof.Machine.execBltu q ra rb off s
  | .bgeu q ra rb off => Sys2Proof.Machine.execBgeu q ra rb off s
  | .jal q rd off => Sys2Proof.Machine.execJal q rd off s
  | .jalr q rd ra off => Sys2Proof.Machine.execJalr q rd ra off s
  | .ld8 q rd ra off => Sys2Proof.Machine.execLd8 q rd ra off s
  | .ld16 q rd ra off => Sys2Proof.Machine.execLd16 q rd ra off s
  | .ld32 q rd ra off => Sys2Proof.Machine.execLd32 q rd ra off s
  | .ld64 q rd ra off => Sys2Proof.Machine.execLd64 q rd ra off s
  | .ld8u q rd ra off => Sys2Proof.Machine.execLd8u q rd ra off s
  | .ld16u q rd ra off => Sys2Proof.Machine.execLd16u q rd ra off s
  | .ld32u q rd ra off => Sys2Proof.Machine.execLd32u q rd ra off s
  | .st8 q rd ra off => Sys2Proof.Machine.execSt8 q rd ra off s
  | .st16 q rd ra off => Sys2Proof.Machine.execSt16 q rd ra off s
  | .st32 q rd ra off => Sys2Proof.Machine.execSt32 q rd ra off s
  | .st64 q rd ra off => Sys2Proof.Machine.execSt64 q rd ra off s
  | .tallyAdd q rd ra rb => Sys2Proof.Machine.execTallyAdd q rd ra rb s
  | .tallyWait q rd ra rb => Sys2Proof.Machine.execTallyWait q rd ra rb s
  | .tallyWait2 q rd ra rb rc rt => Sys2Proof.Machine.execTallyWait2 q rd ra rb rc rt s
  | .tallySet q ra rb => Sys2Proof.Machine.execTallySet q ra rb s
  | .tallyWaitRelease q => Sys2Proof.Machine.execTallyWaitRelease q s
  | .nopInstruction q => Sys2Proof.Machine.execNopInstruction q s
  | .endInsn q => Sys2Proof.Machine.execEndInsn q s
  | .rdfeat q rd n => Sys2Proof.Machine.execRdfeat q rd n s
  | .rdcyc q rd => Sys2Proof.Machine.execRdcyc q rd s
  | .rdid q rd => Sys2Proof.Machine.execRdid q rd s
  | .ifence q => Sys2Proof.Machine.execIfence q s
  | .rdseq q rd => Sys2Proof.Machine.execRdseq q rd s
  | .vadd q rd ra rb pg w rm => Sys2Proof.Machine.execVadd q rd ra rb pg w rm s
  | .vsub q rd ra rb pg w rm => Sys2Proof.Machine.execVsub q rd ra rb pg w rm s
  | .vmul q rd ra rb pg w rm => Sys2Proof.Machine.execVmul q rd ra rb pg w rm s
  | .vdiv q rd ra rb pg w rm => Sys2Proof.Machine.execVdiv q rd ra rb pg w rm s
  | .vsqrt q rd ra pg w rm => Sys2Proof.Machine.execVsqrt q rd ra pg w rm s
  | .vfma q rd ra rb rc pg w rm => Sys2Proof.Machine.execVfma q rd ra rb rc pg w rm s
  | .vfms q rd ra rb rc pg w rm => Sys2Proof.Machine.execVfms q rd ra rb rc pg w rm s
  | .vfnma q rd ra rb rc pg w rm => Sys2Proof.Machine.execVfnma q rd ra rb rc pg w rm s
  | .vmin q rd ra rb pg w => Sys2Proof.Machine.execVmin q rd ra rb pg w s
  | .vmax q rd ra rb pg w => Sys2Proof.Machine.execVmax q rd ra rb pg w s
  | .vabs q rd ra pg w => Sys2Proof.Machine.execVabs q rd ra pg w s
  | .vneg q rd ra pg w => Sys2Proof.Machine.execVneg q rd ra pg w s
  | .vrem q rd ra rb pg w => Sys2Proof.Machine.execVrem q rd ra rb pg w s
  | .vrint q rd ra pg w rm => Sys2Proof.Machine.execVrint q rd ra pg w rm s
  | .vcmp q pd ra rb fn pg w => Sys2Proof.Machine.execVcmp q pd ra rb fn pg w s
  | .vclass q rd ra pg w => Sys2Proof.Machine.execVclass q rd ra pg w s
  | .viadd q rd ra rb pg w => Sys2Proof.Machine.execViadd q rd ra rb pg w s
  | .visub q rd ra rb pg w => Sys2Proof.Machine.execVisub q rd ra rb pg w s
  | .vimul q rd ra rb pg w => Sys2Proof.Machine.execVimul q rd ra rb pg w s
  | .viand q rd ra rb pg w => Sys2Proof.Machine.execViand q rd ra rb pg w s
  | .vior q rd ra rb pg w => Sys2Proof.Machine.execVior q rd ra rb pg w s
  | .vixor q rd ra rb pg w => Sys2Proof.Machine.execVixor q rd ra rb pg w s
  | .vishl q rd ra rb pg w => Sys2Proof.Machine.execVishl q rd ra rb pg w s
  | .vishr q rd ra rb pg w => Sys2Proof.Machine.execVishr q rd ra rb pg w s
  | .visar q rd ra rb pg w => Sys2Proof.Machine.execVisar q rd ra rb pg w s
  | .vimin q rd ra rb pg w => Sys2Proof.Machine.execVimin q rd ra rb pg w s
  | .vimax q rd ra rb pg w => Sys2Proof.Machine.execVimax q rd ra rb pg w s
  | .viminu q rd ra rb pg w => Sys2Proof.Machine.execViminu q rd ra rb pg w s
  | .vimaxu q rd ra rb pg w => Sys2Proof.Machine.execVimaxu q rd ra rb pg w s
  | .viseq q pd ra rb pg w => Sys2Proof.Machine.execViseq q pd ra rb pg w s
  | .vcvtf q rd ra f2 pg w rm => Sys2Proof.Machine.execVcvtf q rd ra f2 pg w rm s
  | .vcvtfi q rd ra pg w rm => Sys2Proof.Machine.execVcvtfi q rd ra pg w rm s
  | .vcvtif q rd ra pg w rm => Sys2Proof.Machine.execVcvtif q rd ra pg w rm s
  | .vcvte q rd ra f2 pg w => Sys2Proof.Machine.execVcvte q rd ra f2 pg w s
  | .vdece q rd ra f2 pg w => Sys2Proof.Machine.execVdece q rd ra f2 pg w s
  | .vcvtbm q rd ra f2 pg => Sys2Proof.Machine.execVcvtbm q rd ra f2 pg s
  | .vdecbm q rd ra f2 pg => Sys2Proof.Machine.execVdecbm q rd ra f2 pg s
  | .vld q rd ra off => Sys2Proof.Machine.execVld q rd ra off s
  | .vst q rd ra off pg => Sys2Proof.Machine.execVst q rd ra off pg s
  | .pld q rd ra off => Sys2Proof.Machine.execPld q rd ra off s
  | .pst q rd ra off => Sys2Proof.Machine.execPst q rd ra off s
  | .vmov q rd ra pg w => Sys2Proof.Machine.execVmov q rd ra pg w s
  | .vsplat q rd ra pg w => Sys2Proof.Machine.execVsplat q rd ra pg w s
  | .vext q rd ra rb pg w => Sys2Proof.Machine.execVext q rd ra rb pg w s
  | .vins q rd ra rb pg w => Sys2Proof.Machine.execVins q rd ra rb pg w s
  | .vperm q rd ra rb pg w => Sys2Proof.Machine.execVperm q rd ra rb pg w s
  | .vrsum q rd ra pg w rm => Sys2Proof.Machine.execVrsum q rd ra pg w rm s
  | .vrmax q rd ra pg w => Sys2Proof.Machine.execVrmax q rd ra pg w s
  | .pand q pd pa pb => Sys2Proof.Machine.execPand q pd pa pb s
  | .por q pd pa pb => Sys2Proof.Machine.execPor q pd pa pb s
  | .pxor q pd pa pb => Sys2Proof.Machine.execPxor q pd pa pb s
  | .pnot q pd pa => Sys2Proof.Machine.execPnot q pd pa s
  | .pmovg q rd pa => Sys2Proof.Machine.execPmovg q rd pa s
  | .pmovp q pd ra => Sys2Proof.Machine.execPmovp q pd ra s
  | .rdvfcsr q rd => Sys2Proof.Machine.execRdvfcsr q rd s
  | .wrvfcsr q ra => Sys2Proof.Machine.execWrvfcsr q ra s
  | .clrvff q ra => Sys2Proof.Machine.execClrvff q ra s
  | .vact q rd ra rb fn pg w rm => Sys2Proof.Machine.execVact q rd ra rb fn pg w rm s
  | .vder q rd ra rb rc fn pg w rm => Sys2Proof.Machine.execVder q rd ra rb rc fn pg w rm s
  | .vderi q rd ra rb fn pg w rm => Sys2Proof.Machine.execVderi q rd ra rb fn pg w rm s
  | .vtMap q h1 h2 h3 x => Sys2Proof.Machine.execVtMap q h1 h2 h3 x s
  | .vtReduce q h1 h2 x => Sys2Proof.Machine.execVtReduce q h1 h2 x s
  | .dmCopy q h1 h2 x => Sys2Proof.Machine.execDmCopy q h1 h2 x s
  | .dmCvt q h1 h2 x => Sys2Proof.Machine.execDmCvt q h1 h2 x s
  | .dmTranspose q h1 h2 x => Sys2Proof.Machine.execDmTranspose q h1 h2 x s
  | .dmGather q h1 h2 x => Sys2Proof.Machine.execDmGather q h1 h2 x s
  | .dmScatteradd q h1 h2 x => Sys2Proof.Machine.execDmScatteradd q h1 h2 x s
  | .dmFill q h1 x => Sys2Proof.Machine.execDmFill q h1 x s
  | .axLoadw q h2 tr x => Sys2Proof.Machine.execAxLoadw q h2 tr x s
  | .loadwStart p cycle => Sys2Proof.Machine.execLoadwStart p cycle s
  | .loadwRetire p => Sys2Proof.Machine.execLoadwRetire p s
  | .axPass q h1 h2 rbase acc dt x => Sys2Proof.Machine.execAxPass q h1 h2 rbase acc dt x s
  | .passFront p cycle => Sys2Proof.Machine.execPassFront p cycle s
  | .passRetire p => Sys2Proof.Machine.execPassRetire p s
  | .axDrain q h1 rbase x => Sys2Proof.Machine.execAxDrain q h1 rbase x s
  | .drainRetire p => Sys2Proof.Machine.execDrainRetire p s
  | .axMask q h2 clear => Sys2Proof.Machine.execAxMask q h2 clear s
  | .axFence q => Sys2Proof.Machine.execAxFence q s
  | .rxRs q ra => Sys2Proof.Machine.execRxRs q ra s
  | .rxAg q ra => Sys2Proof.Machine.execRxAg q ra s
  | .rxAr q ra => Sys2Proof.Machine.execRxAr q ra s
  | .rxPerm q ra => Sys2Proof.Machine.execRxPerm q ra s
  | .contributionDeadline wc slot chunk elapsed => Sys2Proof.Machine.execContributionDeadline wc slot chunk elapsed s
  | .pieceHeader n => Sys2Proof.Machine.execPieceHeader n s
  | .rxDataPacket n => Sys2Proof.Machine.execRxDataPacket n s
  | .permuteAck n => Sys2Proof.Machine.execPermuteAck n s
  | .unmatchedPacketTimeout n => Sys2Proof.Machine.execUnmatchedPacketTimeout n s
  | .collectiveComplete wc slot => Sys2Proof.Machine.execCollectiveComplete wc slot s
  | .uxBegin q ra rb => Sys2Proof.Machine.execUxBegin q ra rb s
  | .uxChunk q ra h1 h2 rc blocks => Sys2Proof.Machine.execUxChunk q ra h1 h2 rc blocks s
  | .uxEnd q ra => Sys2Proof.Machine.execUxEnd q ra s
  | .detect n failedRx failedTx peer => Sys2Proof.Machine.execDetect n failedRx failedTx peer s
  | .eqFull n => Sys2Proof.Machine.execEqFull n s
  | .eqSeed n adapted => Sys2Proof.Machine.execEqSeed n adapted s
  | .align n r => Sys2Proof.Machine.execAlign n r s
  | .linkInit n => Sys2Proof.Machine.execLinkInit n s
  | .discover n r => Sys2Proof.Machine.execDiscover n r s
  | .portStateTimeout n => Sys2Proof.Machine.execPortStateTimeout n s
  | .retrain n cause => Sys2Proof.Machine.execRetrain n cause s
  | .discoveryRecord n r => Sys2Proof.Machine.execDiscoveryRecord n r s
  | .flitReceive n fl => Sys2Proof.Machine.execFlitReceive n fl s
  | .flitTransmit n => Sys2Proof.Machine.execFlitTransmit n s
  | .replayRequest n fseq => Sys2Proof.Machine.execReplayRequest n fseq s
  | .replayRequestResend n => Sys2Proof.Machine.execReplayRequestResend n s
  | .laneDegrade n lane symbols => Sys2Proof.Machine.execLaneDegrade n lane symbols s
  | .swapReq n lane spare => Sys2Proof.Machine.execSwapReq n lane spare s
  | .spareTrained n agreed => Sys2Proof.Machine.execSpareTrained n agreed s
  | .laneSwitch n => Sys2Proof.Machine.execLaneSwitch n s
  | .deadLane n lane => Sys2Proof.Machine.execDeadLane n lane s
  | .deadLaneResume n => Sys2Proof.Machine.execDeadLaneResume n s
  | .peerDown n sinceMs => Sys2Proof.Machine.execPeerDown n sinceMs s
  | .patrolScrub chest wc line find => Sys2Proof.Machine.execPatrolScrub chest wc line find s
  | .softRepair stack pch row => Sys2Proof.Machine.execSoftRepair stack pch row s
  | .pchSwapStart stack pch => Sys2Proof.Machine.execPchSwapStart stack pch s
  | .pchSwapCopyStep stack line correctable => Sys2Proof.Machine.execPchSwapCopyStep stack line correctable s
  | .pchSwapEnd stack => Sys2Proof.Machine.execPchSwapEnd stack s
  | .engineHang kind index => Sys2Proof.Machine.execEngineHang kind index s
  | .engineError kind index ctx syndrome => Sys2Proof.Machine.execEngineError kind index ctx syndrome s
  | .arrayError cd row col ctx => Sys2Proof.Machine.execArrayError cd row col ctx s
  | .fabricError link cls kind island => Sys2Proof.Machine.execFabricError link cls kind island s
  | .contextReset c fabric => Sys2Proof.Machine.execContextReset c fabric s
  | .engineReset req => Sys2Proof.Machine.execEngineReset req s
  | .windchestEngineIslandReset w => Sys2Proof.Machine.execWindchestEngineIslandReset w s
  | .partitionReset req => Sys2Proof.Machine.execPartitionReset req s
  | .partitionRelease req => Sys2Proof.Machine.execPartitionRelease req s
  | .chipReset req => Sys2Proof.Machine.execChipReset req s
  | .powerCycleRequest req => Sys2Proof.Machine.execPowerCycleRequest req s
  | .resetComplete dom r => Sys2Proof.Machine.execResetComplete dom r s
  | .resetTimeout dom => Sys2Proof.Machine.execResetTimeout dom s
  | .edgeAbsorb t => Sys2Proof.Machine.execEdgeAbsorb t s
  | .spareSubstitution core failing => Sys2Proof.Machine.execSpareSubstitution core failing s
  | .epochStamp rx id epoch => Sys2Proof.Machine.execEpochStamp rx id epoch s
  | .waitDeadlock c => Sys2Proof.Machine.execWaitDeadlock c s
  | .ledgerAuditPeriod => Sys2Proof.Machine.execLedgerAuditPeriod s
  | .audit f => Sys2Proof.Machine.execAudit f s
  | .auditComplete mismatch => Sys2Proof.Machine.execAuditComplete mismatch s
  | .sample f v start => Sys2Proof.Machine.execSample f v start s
  | .traceDrain wc units => Sys2Proof.Machine.execTraceDrain wc units s
  | .counters kind index => Sys2Proof.Machine.execCounters kind index s
  | .marker => Sys2Proof.Machine.execMarker s
  | .stop f => Sys2Proof.Machine.execStop f s
  | .stopMarker island => Sys2Proof.Machine.execStopMarker island s
  | .resume f => Sys2Proof.Machine.execResume f s
  | .stopLimitExpiry => Sys2Proof.Machine.execStopLimitExpiry s
  | .dump f v => Sys2Proof.Machine.execDump f v s
  | .dumpEnd => Sys2Proof.Machine.execDumpEnd s
  | .loopback f v ready => Sys2Proof.Machine.execLoopback f v ready s
  | .loopbackEnd errors defects => Sys2Proof.Machine.execLoopbackEnd errors defects s
  | .hostLinkTrained link cache => Sys2Proof.Machine.execHostLinkTrained link cache s
  | .powerDownComplete => Sys2Proof.Machine.execPowerDownComplete s
  | .dumpWaitExpiry => Sys2Proof.Machine.execDumpWaitExpiry s
  | .thermAlertClear e => Sys2Proof.Machine.execThermAlertClear e s
  | .lifeHours => Sys2Proof.Machine.execLifeHours s

end Sys2Proof.Machine
end

