-- ==== Sys2Proof/Safety.lean ====
section
/-! DEFINITION. What a good state of the module is, and what a command leaves alone, in the terms the statements use. -/

namespace Sys2Proof.Machine

/-! ### Good states -/

/-- Device memory and host memory are in canonical form: addresses strictly rising, no listed byte equal
to what an unlisted one reads as. -/
def Memory.wf (s : State) : Bool := mwf 0 s.mem.cells && mwf 0 s.hs.hostMem

/-- A temperature threshold of THERM_CFG lies in its range (Table 14-8). -/
def thermOk (v : Nat) : Bool := decide (700 ≤ v) && decide (v ≤ 950)

/-- GRACE_TIME and QUEUE_POLL of a function lie in their ranges (Table 12-2). -/
def fnConfigOk (v : Fn) : Bool := decide (10 ≤ v.grace) && decide (v.grace ≤ 3600) && decide (1 ≤ v.poll) && decide (v.poll ≤ 1000)

/-- Every configuration register whose table gives it a range holds a value of that range. -/
def configLegal (s : State) : Bool :=
  thermOk (bfld s.pw.thermCfg 0 16) && thermOk (bfld s.pw.thermCfg 16 16)
  && decide (1000 ≤ s.pw.pwrCap) && decide (s.pw.pwrCap ≤ 4200)
  && fnConfigOk s.hs.f0 && fnConfigOk s.hs.f1
  && decide (0 < s.rx.deadlineInit) && decide (0 < s.rx.deadlineMin) && decide (0 < s.rx.deadlineMax)
  && decide (s.fr.escCfg.toNat < 8) && decide (100 ≤ s.fr.waitDl) && decide (s.fr.waitDl ≤ 600000) && decide (s.fr.logSevMin < 4)
  && decide (s.ob.syncPeriod ≤ 10000) && decide (1 ≤ s.ob.stopLimit) && decide (s.ob.stopLimit ≤ 60000)

/-- The module's fused identity, its grade ceiling and its revoke fuses are those of another state, and its fused security
version is no lower. -/
def fusesKept (s t : State) : Prop :=
  t.fl.idKeyHash = s.fl.idKeyHash ∧ t.fl.suffix = s.fl.suffix ∧ t.fl.ceiling = s.fl.ceiling
  ∧ t.fl.fwRevoked = s.fl.fwRevoked ∧ t.fl.licRevoked = s.fl.licRevoked ∧ s.fl.svn ≤ t.fl.svn

/-! ### What an instruction leaves alone -/

/-- The parts of the module that no engine instruction changes: power, flash and fuses, bring-up, ports, firmware. -/
def boardKept (s t : State) : Prop := t.pw = s.pw ∧ t.fl = s.fl ∧ t.bt = s.bt ∧ t.et = s.et ∧ t.fw = s.fw

/-- Beside those, all of device and host memory, the arrays, collectives, faults and output. -/
def memKept (s t : State) : Prop := boardKept s t ∧ t.mem = s.mem ∧ t.hs = s.hs ∧ t.ax = s.ax ∧ t.rx = s.rx ∧ t.fr = s.fr ∧ t.out = s.out

/-- The general registers apart from one, every vector and predicate register and VFCSR are unchanged. -/
def othersKept (c d : QCtx) (rd : BitVec 5) : Prop :=
  (∀ r, r ≠ rd → rdG d r = rdG c r) ∧ (∀ r, rdV d r = rdV c r) ∧ (∀ r, rdP d r = rdP c r) ∧ d.vfcsr = c.vfcsr

/-- The instruction at queue context `q` has ended: within a program its PC has moved on to `pc`; an instruction command
has ended. -/
def ended (s t : State) (q : Nat) (pc : W64) : Prop :=
  if isProg (getQc s q) then (getQc t q).pc = pc ∧ (getQc t q).cmd = (getQc s q).cmd else (getQc t q).cmd = none

/-- A register result: RD takes the value, g0 stays 0, every other register and every other queue context is as before,
no byte of memory changes, and the instruction of `len` bytes has ended. -/
def regResult (s t : State) (q : Nat) (rd : BitVec 5) (len : Nat) (v : W64) : Prop :=
  rdG (getQc t q) rd = (if rd = 0 then 0 else v) ∧ othersKept (getQc s q) (getQc t q) rd
  ∧ ended s t q ((getQc s q).pc + BitVec.ofNat 64 len) ∧ (∀ k, k ≠ q → getQc t k = getQc s k) ∧ memKept s t

/-- No byte of device or host memory changes. -/
def bytesSame (s t : State) : Prop := t.mem.cells = s.mem.cells ∧ t.hs.hostMem = s.hs.hostMem

/-- No byte of device or host memory changes, and no line gains or loses poison. -/
def bytesKept (s t : State) : Prop :=
  bytesSame s t ∧ t.mem.marks = s.mem.marks ∧ t.mem.chestPoison = s.mem.chestPoison ∧ t.hs.hostPoison = s.hs.hostPoison

/-- The bytes at a location are now these, and every byte outside them reads as before. -/
def stored (s t : State) (loc : Nat) (bs : List Byte) : Prop :=
  locBytes t loc bs.length = bs ∧ ∀ a, a < loc ∨ loc + bs.length ≤ a → locByte t a = locByte s a

/-- One fault record has been appended to the fault ring, of this class, status and reason. -/
def faultAdded (s t : State) (cls status reason : Nat) : Prop :=
  t.fr.faultCount = s.fr.faultCount + 1
  ∧ (mget {} t.fr.faults (s.fr.faultCount % 4096)).cls = cls
  ∧ (mget {} t.fr.faults (s.fr.faultCount % 4096)).status = status
  ∧ (mget {} t.fr.faults (s.fr.faultCount % 4096)).reason = reason

/-- A log record is made with this severity, event and arguments: it goes into the log ring unless its severity is below
LOG_SEVMIN; while the Drone is down its island's processor keeps it, at most 64, and beyond that it is counted as dropped
(R290). -/
def logged (s t : State) (isl sev event a0 a1 : Nat) : Prop :=
  ∃ r : LogRec, r.island = isl ∧ r.sev = sev ∧ r.event = event ∧ r.arg0 = BitVec.ofNat 64 a0 ∧ r.arg1 = BitVec.ofNat 64 a1
    ∧ (if droneUp s then
        (if sev < s.fr.logSevMin then t.fr.logs = s.fr.logs ∧ t.fr.logCount = s.fr.logCount
         else t.fr.logCount = s.fr.logCount + 1 ∧ mget {} t.fr.logs (s.fr.logCount % 16384) = r)
       else if (mget [] s.fr.logHeld isl).length < 64 then mget [] t.fr.logHeld isl = mget [] s.fr.logHeld isl ++ [r]
       else t.fr.logDropped = satAdd max32 s.fr.logDropped 1)

/-- The module's working state: memory, front end, array, collectives, observation and ports are unchanged. -/
def workKept (s t : State) : Prop :=
  t.mem = s.mem ∧ t.fe = s.fe ∧ t.ax = s.ax ∧ t.rx = s.rx ∧ t.ob = s.ob ∧ t.et = s.et

/-- As workKept for an event of a host link: the links' watchers and functions change, no memory, array, collective, port or
context does. -/
def linkWork (s t : State) : Prop :=
  t.mem = s.mem ∧ t.ax = s.ax ∧ t.rx = s.rx ∧ t.ob = s.ob ∧ t.et = s.et ∧ t.en = s.en ∧ ∀ c, getCtx t c = getCtx s c

/-- A notice went to the tray controller, or is kept until the Drone returns; with both sideband buses dead none goes out. -/
def noticed (s t : State) (o : Output) : Prop :=
  if droneUp s = false then t.fr.noticeHeld = s.fr.noticeHeld ++ [o]
  else if (s.pw.i3cDead && s.pw.smbDead) = true then ∀ x ∈ t.out, x ∈ s.out ∨ x ≠ o
  else ∃ l, t.out = s.out ++ o :: l

/-- An event is latched in PWR_EVENTS, and no other part of flash changes. -/
def latched (b : Nat) (s t : State) : Prop := t.fl = { s.fl with pwrEvents := s.fl.pwrEvents ||| (1 <<< b) }

/-- Every volatile part of the module is as at a power-on, host memory as it was. -/
def blank (s t : State) : Prop :=
  t.mem = {} ∧ t.fe = {} ∧ t.en = {} ∧ t.ax = [] ∧ t.rx = {} ∧ t.et = {} ∧ t.fr = {} ∧ t.ob = {} ∧ t.bt.ready = false
  ∧ t.bt.stage = 0 ∧ t.hs.hostMem = s.hs.hostMem

/-- The function's contexts are in reset, its admin queue is cleared and nothing is agreed with it. -/
def functionCleared (s t : State) (f : Bool) : Prop :=
  (getFn t f).adminCfg = 0 ∧ (getFn t f).adminRing = 0 ∧ (getFn t f).adminCq = 0 ∧ (getFn t f).negAgreed = 0
  ∧ (getFn t f).adminFetched = [] ∧ (getFn t f).adminBusy = none
  ∧ ∀ c, (getCtx s c).state ≠ ctxFree → (getCtx s c).owner = f → (getCtx t c).state = ctxResetting

/-- A sideband message was answered: one reply of this protocol, code, completion and data left the module, and the module's
work, power and fuses are as before. -/
def replied (s t : State) (proto code completion : Nat) (data : List Nat) : Prop :=
  t.out = s.out ++ [.reply proto code completion (data.map (BitVec.ofNat 64))] ∧ workKept s t ∧ t.pw = s.pw ∧ t.hs = s.hs

/-- The mailbox command has ended in this state with this detail, and no function reads IN_USE. -/
def mailboxEnded (t : State) (st detail : Nat) : Prop :=
  t.hs.mbxState = st ∧ t.hs.mbxDetail = detail ∧ t.hs.f0.mbxInUse = false ∧ t.hs.f1.mbxInUse = false

/-- The command with dispatch number `id` of a queue, in flight without a status, has this status now. -/
def statusGiven (s t : State) (qu id st : Nat) : Prop :=
  ∀ f ∈ (getQ s qu).inflight, f.id = id → f.result = none → ∃ g ∈ (getQ t qu).inflight, g.id = id ∧ g.result = some st

/-! ### The front end -/

/-- The queue's command has left its place and stands last in flight with this target and result, under the queue's next
dispatch number; what was in flight before is as it was. -/
def inFlightNow (s t : State) (q : Nat) (e : Entry) (target : Nat) (result : Option Nat) : Prop :=
  (getQ t q).cur = none ∧ (getQ t q).dispatched = (getQ s q).dispatched + 1
  ∧ ∃ g : Bool, (getQ t q).inflight = (getQ s q).inflight ++ [{ entry := e, result := result, inGraph := g, target := target, id := (getQ s q).dispatched }]

/-- Queue context `t` is at rest, out of its context's reset, with its engine in service and free for it. -/
def atRest (s : State) (t : Nat) : Prop :=
  (getQc s t).live = true ∧ (getQc s t).cmd = none ∧ (getQc s t).held = [] ∧ (getQc s t).blocked = false ∧ (getQc s t).heldAdd = none
  ∧ (getQc s t).heldEnd = none ∧ (getQc s t).chunk = none ∧ axWaits s t = false ∧ runsOn s t (getQc s t) = true
  ∧ engUp s (qKind t) (qIndex t) = true ∧ targetFenced s t = false ∧ mayTake s t = true

/-- A command of queue `q` may be dispatched to queue context `t`, bound to the command's context, and starts there at once. -/
def startsAt (s : State) (q t : Nat) (e : Entry) : Prop :=
  targetOf q e = t ∧ targetAbsent s q e = false ∧ targetBad s q e = false ∧ (qKind q = 7 → sequencerDown s t = false)
  ∧ atRest (bindTarget q t s) t

/-- Command `id` of queue `q` has started at queue context `t`: it has taken the next sequence number, its counters are at
zero, the engine runs it. -/
def startedAt (s u : State) (q t : Nat) (prog : Bool) : Prop :=
  (getQc u t).cmd = some (q, (getQ s q).dispatched, prog) ∧ (getQc u t).started = true ∧ (getEng u (engKey (qKind t) (qIndex t))).running = some t
  ∧ (getQc u t).seq = (getQc (bindTarget q t s) t).nextSeq ∧ (getQc u t).nextSeq = (getQc (bindTarget q t s) t).nextSeq + 1 ∧ (getQc u t).nums = {}

/-- A command of queue `q` has this effect, the state `u`, and the queue then takes its next command where it may. -/
def thenNext (c : Instr) (s : State) (q : Nat) (u : State) : Prop := exec c s = .next (onlyWork s (settleQ q u))

/-- The function's admin command has ended with this status. -/
def adminEnded (s t : State) (f : Bool) (st : Nat) : Prop :=
  ∀ b, (getFn s f).adminBusy = some b → (getFn t f).adminBusy = some { b with result := some st }

/-! ### Vector results -/

/-- Flags and counters after element results: the flags of every active result are raised and none is cleared, the rounding
fields stand, and each result has moved the counter that it moves. -/
def flagsRaised (c d : QCtx) (rs : List Res) : Prop :=
  (∀ r ∈ rs, vfFlags d.vfcsr &&& (r.flags % 32) = r.flags % 32) ∧ vfFlags d.vfcsr &&& vfFlags c.vfcsr = vfFlags c.vfcsr
  ∧ bfld d.vfcsr 0 5 = bfld c.vfcsr 0 5 ∧ bfld d.vfcsr 10 54 = bfld c.vfcsr 10 54
  ∧ d.nums = countAll c.nums (rs.map (·.cnt))

/-- The active elements among the first `n`. -/
def activeOf (c : QCtx) (pg : BitVec 3) (n : Nat) : List Nat := (List.range n).filter (active c pg)

/-- A vector result: the active elements of width `w` among the first `n` of RD take theirs, every other element and register
keeps its value, no byte of memory changes, and the instruction has ended. -/
def vecResult (s t : State) (q : Nat) (rd : BitVec 5) (pg : BitVec 3) (w n : Nat) (f : Nat → Res) : Prop :=
  (∀ i, i < 1024 / w → elem (rdV (getQc t q) rd) w i =
      if i < n ∧ active (getQc s q) pg i = true then (f i).bits % 2 ^ w else elem (rdV (getQc s q) rd) w i)
  ∧ flagsRaised (getQc s q) (getQc t q) ((activeOf (getQc s q) pg n).map f)
  ∧ (∀ r, r ≠ rd → rdV (getQc t q) r = rdV (getQc s q) r) ∧ (∀ r, rdG (getQc t q) r = rdG (getQc s q) r)
  ∧ (∀ r, rdP (getQc t q) r = rdP (getQc s q) r)
  ∧ ended s t q ((getQc s q).pc + 8) ∧ (∀ k, k ≠ q → getQc t k = getQc s k) ∧ memKept s t

/-- A predicate result: bit i of the register for the active elements among the first `n`; p0 stays all ones. -/
def predResult (s t : State) (q : Nat) (pd : BitVec 3) (pg : BitVec 3) (n : Nat) (f : Nat → Bool) : Prop :=
  (∀ i, i < 64 → (rdP (getQc t q) pd.toNat).getLsbD i =
      if pd = 0 then true else if i < n ∧ active (getQc s q) pg i = true then f i else (rdP (getQc s q) pd.toNat).getLsbD i)
  ∧ (∀ r, r ≠ pd.toNat → rdP (getQc t q) r = rdP (getQc s q) r) ∧ (∀ r, rdG (getQc t q) r = rdG (getQc s q) r)
  ∧ (∀ r, rdV (getQc t q) r = rdV (getQc s q) r)
  ∧ ended s t q ((getQc s q).pc + 8) ∧ (∀ k, k ≠ q → getQc t k = getQc s k) ∧ memKept s t

/-! ### Tensor commands -/

/-- Where the destination of a tensor command does not overlap its sources, memory holds exactly the bytes it wrote (each kept
plus 1) and every other byte is as before; a byte of the core memory of a site in quarantine is not written. -/
def jobStored (s t : State) (j : Job) : Prop :=
  j.writes.any (fun w => j.reads.contains w.1) = false →
    ∀ loc, coreClosed s loc = false →
      locByte t loc = if mget 0 j.writes loc = 0 then locByte s loc else BitVec.ofNat 8 (mget 0 j.writes loc - 1)

/-- Descriptors of a partition's table read one after another, each read meeting the errors of its line; none where one is not
backed or poisoned. -/
def readTds (part : Nat) : List Nat → State → Option (List Nat × State)
  | [], s => some ([], s)
  | h :: hs, s =>
    match readTd (meetTd s part h) part h with
    | .ok d => (readTds part hs (meetTd s part h)).map (fun r => (d :: r.1, r.2))
    | _ => none

/-- A tensor command that had no failing access has ended with DONE, and memory is as it wrote it. -/
def jobDone (s t : State) (q : Nat) (j : Job) : Prop :=
  jobStored s t j ∧ ended s t q ((getQc s q).pc + 16) ∧ (∀ r, rdG (getQc t q) r = rdG (getQc s q) r) ∧ boardKept s t
  ∧ (∀ qu id, (getQc s q).cmd = some (qu, id, false) → statusGiven s t qu id 0)

/-! ### The array and the reduction engines -/

/-- An array command of queue context `q` waits for its turn with this content and its context, and its instruction with it:
weights, rows and accepted commands are as they were, and no byte of memory changes. -/
def axOffered (s t : State) (q : Nat) (c : AxCmd) : Prop :=
  (∃ d : AxCmd, getPart t (qIndex q) = { getPart s (qIndex q) with next := some d } ∧ d.q = q ∧ d.ctx = (getQc s q).ctx ∧ d.byProg = isProg (getQc s q)
    ∧ { d with q := c.q, queue := c.queue, id := c.id, byProg := c.byProg, seq := c.seq, pc := c.pc, ctx := c.ctx } = c)
  ∧ (getQc t q).pc = (getQc s q).pc ∧ (getQc t q).cmd = (getQc s q).cmd ∧ bytesSame s t

/-- The array command that waits is accepted, as `d`, behind the others: its program goes on behind it, and an instruction
command leaves its queue context, in flight until it retires. No byte of memory changes. -/
def axAccepted (s t : State) (p : Nat) (c d : AxCmd) : Prop :=
  (getPart t p).cmds = (getPart s p).cmds ++ [{ d with draw := s.free }] ∧ (getPart t p).next = none ∧ (getPart t p).rows = (getPart s p).rows
  ∧ (c.byProg = isProg (getQc s c.q) → ended s t c.q ((getQc s c.q).pc + 16)) ∧ bytesSame s t

/-- The accepted command `c` has failed in an access: its record is written, and its own command has its status. -/
def axFailed (s t : State) (c : AxCmd) (f : AxFail) : Prop :=
  faultAdded s t f.cls f.status f.reason ∧ bytesKept s t ∧ (c.byProg = false → statusGiven s t c.queue c.id f.status)

/-- A descriptor that a command reads: it is backed, passes its checks for its role, and this test. -/
def tdGiven (s : State) (q : Nat) (handle : Nat) (dest : Bool) (extra : Nat → Bool) (d : Nat) : Prop :=
  readTd s (engPart s (qKind q) (qIndex q)) handle = .ok d ∧ tdOk dest d = true ∧ extra d = true

/-- What an RX instruction latches behind its descriptor could be read and is sound: the slot as it then is. -/
def rxLatched (s : State) (q : Nat) (v w : Slot) (t : State) : Prop :=
  if v.kind = cAG then
    ∃ d, readTds (engPart s (qKind q) (qIndex q)) [cdHandle v] s = some ([d], t) ∧ tdOk true d = true ∧ weightsOk v d = true
      ∧ w = { v with wdesc := BitVec.ofNat 512 d }
  else if v.kind = cPERM then
    ∃ bs, readVa s v.ctx (cdOut v) (32 * cdHandle v) accRead .other = (.ok bs, t)
      ∧ w = { v with entries := (upto (cdHandle v)).map (fun i => BitVec.ofNat 256 (leNat ((bs.drop (32 * i)).take 32))) }
      ∧ ∀ e ∈ w.entries, entryBad e = false
  else if bfld v.desc 5 1 = 1 then w = { v with dl := bfld v.desc 384 32 } ∧ t = s
  else ∃ bs, readVa s v.ctx (cdHist v) 66 accRead .other = (.ok bs, t) ∧ w = { v with dl := deadlineOf t bs }

end Sys2Proof.Machine
end

