-- ==== Sys2Proof/Certificates/Slice0/Obligations.lean ====
section
/-! DEFINITION. The statements for the provers. -/

open Sys2Proof Sys2Proof.Machine

/-! ### The queue, the step and what no command changes -/

/-- The step runs the command at the front of the queue on the queue's rest; an empty queue leaves the state as it is (the
model's own choice, log entry 1). -/
def Obligations.StepRunsTheFrontCommand : Prop :=
  (∀ (c : Instr) (rest : List Instr) (s : State), s.pending = c :: rest → step s = exec c { s with pending := rest })
  ∧ (∀ (c : Instr) (s : State), step { s with pending := c :: s.pending } = exec c s)
  ∧ (∀ s : State, s.pending = [] → step s = .next s)

/-- Every command answers a next state and leaves the queue of waiting commands to the step. -/
def Obligations.EveryCommandAnswersAndKeepsTheQueue : Prop :=
  ∀ (c : Instr) (s : State), ∃ t, exec c s = .next t ∧ t.pending = s.pending

/-- Configuration registers hold values of their ranges after every step from a state in which they do. -/
def Obligations.ConfigurationRegistersStayLegal : Prop :=
  ∀ s t : State, configLegal s = true → step s = .next t → configLegal t = true

/-- No step changes what is fused into the module, and the fused security version never falls. -/
def Obligations.FusesNeverChangeBack : Prop :=
  ∀ s t : State, step s = .next t → fusesKept s t

/-- Reset has legal configuration registers, lists no memory, holds no command and no context; both memories are in canonical
form. -/
def Obligations.ResetStateIsLegalAndBlank : Prop :=
  configLegal State.reset = true ∧ Memory.wf State.reset = true ∧ State.reset.pending = [] ∧ State.reset.mem.cells = [] ∧ State.reset.hs.hostMem = []
  ∧ State.reset.pw.powered = false ∧ State.reset.pw.modReset = true ∧ State.reset.pw.pwrGood = false
  ∧ State.reset.hs.f0.perst = true ∧ State.reset.hs.f1.perst = true
  ∧ State.reset.bt.ready = false ∧ State.reset.bt.stage = 0 ∧ State.reset.pw.thermCfg = 0x03B603B6#32 ∧ State.reset.pw.pwrCap = 4200
  ∧ State.reset.fr.faultCount = 0 ∧ State.reset.fr.logCount = 0
  ∧ (∀ c, getCtx State.reset c = {}) ∧ (∀ q, getQ State.reset q = {})

/-! ### Integer instructions, branches and jumps (chapter 6) -/

/-- INT instructions that neither add, multiply nor divide: the result of each, its frame and its end. -/
def Obligations.LogicShiftAndComparisonResults : Prop :=
  ∀ (q : BitVec 20) (rd ra rb : BitVec 5) (s : State), canRun s q.toNat anyKind = true →
    let a := rdG (getQc s q.toNat) ra
    let b := rdG (getQc s q.toNat) rb
    ∀ e ∈ ([(.andInsn q rd ra rb, a &&& b), (.orInsn q rd ra rb, a ||| b), (.xorInsn q rd ra rb, a ^^^ b),
            (.shl q rd ra rb, a <<< (b.toNat % 64)), (.shr q rd ra rb, a >>> (b.toNat % 64)),
            (.sar q rd ra rb, a.sshiftRight (b.toNat % 64)),
            (.min q rd ra rb, if a.toInt < b.toInt then a else b), (.max q rd ra rb, if a.toInt < b.toInt then b else a),
            (.minu q rd ra rb, if a.toNat < b.toNat then a else b), (.maxu q rd ra rb, if a.toNat < b.toNat then b else a),
            (.slt q rd ra rb, if a.toInt < b.toInt then 1 else 0), (.sltu q rd ra rb, if a.toNat < b.toNat then 1 else 0),
            (.seq q rd ra rb, if a = b then 1 else 0)] : List (Instr × W64)),
      ∃ t, exec e.1 s = .next t ∧ regResult s t q.toNat rd 8 e.2

/-- Integer arithmetic: sums, differences and products wrap modulo 2^64, quotients truncate toward zero, remainders take the
sign of RA, the corners give what R111 says, and no fault record is made. -/
def Obligations.IntegerArithmeticWrapsAndNeverFaults : Prop :=
  ∀ (q : BitVec 20) (rd ra rb : BitVec 5) (s : State), canRun s q.toNat anyKind = true →
    let a := rdG (getQc s q.toNat) ra
    let b := rdG (getQc s q.toNat) rb
    ∃ d du r ru : W64,
      (∀ e ∈ ([(.add q rd ra rb, BitVec.ofNat 64 ((a.toNat + b.toNat) % 2 ^ 64)),
               (.sub q rd ra rb, BitVec.ofNat 64 ((a.toNat + (2 ^ 64 - b.toNat)) % 2 ^ 64)),
               (.mul q rd ra rb, BitVec.ofNat 64 (a.toNat * b.toNat % 2 ^ 64)),
               (.mulh q rd ra rb, BitVec.ofInt 64 (a.toInt * b.toInt / 2 ^ 64)),
               (.mulhu q rd ra rb, BitVec.ofNat 64 (a.toNat * b.toNat / 2 ^ 64)),
               (.div q rd ra rb, d), (.divu q rd ra rb, du), (.rem q rd ra rb, r), (.remu q rd ra rb, ru)] : List (Instr × W64)),
        ∃ t, exec e.1 s = .next t ∧ regResult s t q.toNat rd 8 e.2)
      ∧ (b = 0 → d = BitVec.allOnes 64 ∧ du = BitVec.allOnes 64 ∧ r = a ∧ ru = a)
      ∧ (b ≠ 0 → du.toNat = a.toNat / b.toNat ∧ ru.toNat = a.toNat % b.toNat)
      ∧ (b ≠ 0 → ¬ (a = BitVec.intMin 64 ∧ b = BitVec.allOnes 64) → d.toInt = a.toInt.tdiv b.toInt ∧ r.toInt = a.toInt.tmod b.toInt)
      ∧ (a = BitVec.intMin 64 → b = BitVec.allOnes 64 → d = BitVec.intMin 64 ∧ r = 0)

/-- CLZ, CTZ and POPC: zeros above the highest set bit, below the lowest, and set bits; SEL. -/
def Obligations.BitCountsAndSelection : Prop :=
  ∀ (q : BitVec 20) (rd ra rb rc : BitVec 5) (s : State), canRun s q.toNat anyKind = true →
    let a := rdG (getQc s q.toNat) ra
    let b := rdG (getQc s q.toNat) rb
    let c := rdG (getQc s q.toNat) rc
    (∀ e ∈ ([(.clz q rd ra, countLz a), (.ctz q rd ra, countTz a), (.popc q rd ra, countOnes a),
             (.sel q rd ra rb rc, if c ≠ 0 then a else b)] : List (Instr × W64)),
      ∃ t, exec e.1 s = .next t ∧ regResult s t q.toNat rd 8 e.2)
    ∧ (countLz a).toNat ≤ 64 ∧ a.toNat < 2 ^ (64 - (countLz a).toNat) ∧ (a ≠ 0 → 2 ^ (63 - (countLz a).toNat) ≤ a.toNat)
    ∧ (countTz a).toNat ≤ 64 ∧ a.toNat % 2 ^ (countTz a).toNat = 0 ∧ (a ≠ 0 → a.getLsbD (countTz a).toNat = true) ∧ (a = 0 → countTz a = 64)
    ∧ (countOnes a).toNat = ((List.range 64).filter (fun i => a.getLsbD i)).length

/-- INTI: as the INT instruction with RB replaced by the immediate, in one word or two; LI. -/
def Obligations.ImmediateInstructionResults : Prop :=
  ∀ (q : BitVec 20) (rd ra : BitVec 5) (imm : W64) (x : Bool) (s : State), canRun s q.toNat anyKind = true →
    let a := rdG (getQc s q.toNat) ra
    ∀ e ∈ ([(.addi q rd ra imm x, a + imm), (.andi q rd ra imm x, a &&& imm), (.ori q rd ra imm x, a ||| imm),
            (.xori q rd ra imm x, a ^^^ imm), (.shli q rd ra imm x, a <<< (imm.toNat % 64)), (.shri q rd ra imm x, a >>> (imm.toNat % 64)),
            (.sari q rd ra imm x, a.sshiftRight (imm.toNat % 64)), (.slti q rd ra imm x, if a.toInt < imm.toInt then 1 else 0),
            (.sltui q rd ra imm x, if a.toNat < imm.toNat then 1 else 0), (.li q rd imm x, imm)] : List (Instr × W64)),
      ∃ t, exec e.1 s = .next t ∧ regResult s t q.toNat rd (if x then 16 else 8) e.2

/-- Branches: the target is PC + 8 · OFF32 when RA compares to RB as named, the next word otherwise; registers and memory
are as before. -/
def Obligations.BranchesSetTheProgramCounter : Prop :=
  ∀ (q : BitVec 20) (ra rb : BitVec 5) (off : W32) (s : State), canRun s q.toNat anyKind = true →
    let c := getQc s q.toNat
    let a := rdG c ra
    let b := rdG c rb
    ∀ e ∈ ([(.beq q ra rb off, decide (a = b)), (.bne q ra rb off, decide (a ≠ b)),
            (.blt q ra rb off, decide (a.toInt < b.toInt)), (.bge q ra rb off, decide (b.toInt ≤ a.toInt)),
            (.bltu q ra rb off, decide (a.toNat < b.toNat)), (.bgeu q ra rb off, decide (b.toNat ≤ a.toNat))] : List (Instr × Bool)),
      ∃ t, exec e.1 s = .next t
        ∧ ended s t q.toNat (c.pc + (if e.2 then 8 * off.signExtend 64 else 8))
        ∧ (∀ r, rdG (getQc t q.toNat) r = rdG c r) ∧ othersKept c (getQc t q.toNat) 0
        ∧ (∀ k, k ≠ q.toNat → getQc t k = getQc s k) ∧ memKept s t

/-- JAL and JALR link the next word and jump, JALR to an 8-byte aligned target. -/
def Obligations.JumpsLinkAndJump : Prop :=
  ∀ (q : BitVec 20) (rd ra : BitVec 5) (off : W32) (s : State), canRun s q.toNat anyKind = true →
    let c := getQc s q.toNat
    (∃ t, exec (.jal q rd off) s = .next t ∧ ended s t q.toNat (c.pc + 8 * off.signExtend 64)
      ∧ rdG (getQc t q.toNat) rd = (if rd = 0 then 0 else c.pc + 8) ∧ othersKept c (getQc t q.toNat) rd
      ∧ (∀ k, k ≠ q.toNat → getQc t k = getQc s k) ∧ memKept s t)
    ∧ ((rdG c ra + 8 * off.signExtend 64).toNat % 8 = 0 →
      ∃ t, exec (.jalr q rd ra off) s = .next t ∧ ended s t q.toNat (rdG c ra + 8 * off.signExtend 64)
        ∧ rdG (getQc t q.toNat) rd = (if rd = 0 then 0 else c.pc + 8) ∧ othersKept c (getQc t q.toNat) rd
        ∧ (∀ k, k ≠ q.toNat → getQc t k = getQc s k) ∧ memKept s t)

/-- SYS: NOP changes nothing, RDFEAT, RDID, RDSEQ and RDCYC give RD their value, IFENCE forgets the words that its engine
fetched before it, END completes the command with DONE, or waits until what a program's array commands and collectives have yet
to do is done (R97). -/
def Obligations.SystemInstructions : Prop :=
  ∀ (q : BitVec 20) (rd : BitVec 5) (n : W32) (s : State), canRun s q.toNat anyKind = true →
    let c := getQc s q.toNat
    let kind := qKind q.toNat
    let index := qIndex q.toNat
    (∃ t, exec (.nopInstruction q) s = .next t ∧ ended s t q.toNat (c.pc + 8) ∧ (∀ r, rdG (getQc t q.toNat) r = rdG c r)
      ∧ othersKept c (getQc t q.toNat) 0 ∧ (∀ k, k ≠ q.toNat → getQc t k = getQc s k) ∧ memKept s t)
    ∧ (∃ t, exec (.rdfeat q rd n) s = .next t
        ∧ regResult s t q.toNat rd 8 (BitVec.ofNat 64 (featWord s (engPart s kind index) n.toNat)))
    ∧ (∃ t, exec (.rdid q rd) s = .next t ∧ regResult s t q.toNat rd 8 (BitVec.ofNat 64
        (engIsland s kind index + 2 ^ 12 * c.ctx + 2 ^ 20 * engPart s kind index + 2 ^ 24 * kind + 2 ^ 28 * qCtxNo q.toNat + 2 ^ 34 * index)))
    ∧ (∃ t, exec (.rdseq q rd) s = .next t ∧ regResult s t q.toNat rd 8 (c.seq.setWidth 64))
    ∧ (∃ t, exec (.rdcyc q rd) s = .next t ∧ regResult s t q.toNat rd 8
        (BitVec.ofNat 64 (cycOf (tickEng kind index s) (engIsland s kind index))))
    ∧ (∃ t, exec (.ifence q) s = .next t ∧ (getEng t (engKey kind index)).icache = [] ∧ ended s t q.toNat (c.pc + 8)
        ∧ (∀ r, rdG (getQc t q.toNat) r = rdG c r) ∧ memKept s t)
    ∧ ((isProg c = true → unretired s q.toNat = false) →
        ∃ t, exec (.endInsn q) s = .next t ∧ (getQc t q.toNat).cmd = none
        ∧ (∀ qu id prog, c.cmd = some (qu, id, prog) → statusGiven s t qu id 0)
        ∧ (∀ r, rdG (getQc t q.toNat) r = rdG c r) ∧ memKept s t)
    ∧ (isProg c = true → unretired s q.toNat = true →
        ∃ t, exec (.endInsn q) s = .next t ∧ (getQc t q.toNat) = { c with heldEnd := some 0 } ∧ (∀ k, k ≠ q.toNat → getQc t k = getQc s k)
        ∧ memKept s t)

/-! ### Scalar memory and tallies (chapters 5 and 6) -/

/-- Loads: an aligned, translated, unpoisoned load gives RD its bytes, sign- or zero-extended, and changes no byte (poison is as
the translation left it). One that must come after an accepted array command's write of its bytes waits (R95). -/
def Obligations.ScalarLoadsReadTheirBytes : Prop :=
  ∀ (q : BitVec 20) (rd ra : BitVec 5) (off : W32) (s s1 : State) (loc : Nat), canRun s q.toNat anyKind = true →
    let c := getQc s q.toNat
    let va := (rdG c ra + off.signExtend 64).toNat
    translate s c.ctx va accRead (whoOf q.toNat) = (.ok loc, s1) → locPoison s1 loc = false →
    ∀ e ∈ ([(.ld8 q rd ra off, 1, true), (.ld16 q rd ra off, 2, true), (.ld32 q rd ra off, 4, true), (.ld64 q rd ra off, 8, true),
            (.ld8u q rd ra off, 1, false), (.ld16u q rd ra off, 2, false), (.ld32u q rd ra off, 4, false)] : List (Instr × Nat × Bool)),
      va % e.2.1 = 0 →
      (axRaces s q.toNat loc e.2.1 false = true → exec e.1 s = .next s)
      ∧ (axRaces s q.toNat loc e.2.1 false = false → ∃ t, exec e.1 s = .next t ∧ ended s t q.toNat (c.pc + 8)
        ∧ rdG (getQc t q.toNat) rd = (if rd = 0 then 0 else if e.2.2 then (BitVec.ofNat (8 * e.2.1) (locNat s loc e.2.1)).signExtend 64
            else BitVec.ofNat 64 (locNat s loc e.2.1))
        ∧ othersKept c (getQc t q.toNat) rd ∧ (∀ k, k ≠ q.toNat → getQc t k = getQc s k) ∧ bytesSame s t ∧ bytesKept s1 t ∧ boardKept s t)

/-- Stores: an aligned, translated store writes the low bytes of RD at its location and nowhere else. One that must come after
what an accepted array command does with its bytes waits (R95). -/
def Obligations.ScalarStoresWriteTheirBytes : Prop :=
  ∀ (q : BitVec 20) (rd ra : BitVec 5) (off : W32) (s s1 : State) (loc : Nat), canRun s q.toNat anyKind = true →
    let c := getQc s q.toNat
    let va := (rdG c ra + off.signExtend 64).toNat
    translate s c.ctx va accWrite (whoOf q.toNat) = (.ok loc, s1) →
    ∀ e ∈ ([(.st8 q rd ra off, 1), (.st16 q rd ra off, 2), (.st32 q rd ra off, 4), (.st64 q rd ra off, 8)] : List (Instr × Nat)),
      va % e.2 = 0 →
      (axRaces s q.toNat loc e.2 true = true → exec e.1 s = .next s)
      ∧ (axRaces s q.toNat loc e.2 true = false → ∃ t, exec e.1 s = .next t ∧ ended s t q.toNat (c.pc + 8)
        ∧ stored s t loc (leBytes e.2 (rdG c rd).toNat)
        ∧ (∀ r, rdG (getQc t q.toNat) r = rdG c r) ∧ othersKept c (getQc t q.toNat) 0
        ∧ (∀ k, k ≠ q.toNat → getQc t k = getQc s k) ∧ boardKept s t)

/-- A scalar load or store of 2, 4 or 8 bytes that is not naturally aligned is not performed and is illegal with reason ALIGN,
and so is a JALR to a target that is not 8-byte aligned. The command ends, or waits for what its program's accepted commands have
yet to do (R97). -/
def Obligations.MisalignedScalarAccessIsIllegal : Prop :=
  ∀ (q : BitVec 20) (rd ra : BitVec 5) (off : W32) (s : State), canRun s q.toNat anyKind = true →
    let c := getQc s q.toNat
    let va := (rdG c ra + off.signExtend 64).toNat
    ∀ e ∈ ([(.ld16 q rd ra off, 2, va), (.ld32 q rd ra off, 4, va), (.ld64 q rd ra off, 8, va), (.ld16u q rd ra off, 2, va),
            (.ld32u q rd ra off, 4, va), (.st16 q rd ra off, 2, va), (.st32 q rd ra off, 4, va), (.st64 q rd ra off, 8, va),
            (.jalr q rd ra off, 8, (rdG c ra + 8 * off.signExtend 64).toNat)] : List (Instr × Nat × Nat)),
      e.2.2 % e.2.1 ≠ 0 →
      ∃ t, exec e.1 s = .next t ∧ faultAdded s t 1 0x11 7 ∧ bytesKept s t ∧ (∀ r, rdG (getQc t q.toNat) r = rdG c r)
        ∧ (if isProg c && unretired s q.toNat then (getQc t q.toNat).heldEnd = some 0x11 else (getQc t q.toNat).cmd = none)

/-- TALLY.ADD gives RD the old value and adds modulo 2^64; TALLY.SET writes its value. Both change their tally alone. -/
def Obligations.TallyAddAndSet : Prop :=
  ∀ (q : BitVec 20) (rd ra rb : BitVec 5) (s s1 : State) (loc : Nat), canRun s q.toNat anyKind = true →
    let c := getQc s q.toNat
    let va := (rdG c ra).toNat
    va % 8 = 0 → translate s c.ctx va accTally (whoOf q.toNat) = (.ok loc, s1) →
    (unretired s q.toNat = false → locPoison s1 loc = false →
      ∃ t, exec (.tallyAdd q rd ra rb) s = .next t ∧ ended s t q.toNat (c.pc + 8)
        ∧ rdG (getQc t q.toNat) rd = (if rd = 0 then 0 else BitVec.ofNat 64 (locNat s loc 8))
        ∧ othersKept c (getQc t q.toNat) rd
        ∧ stored s t loc (leBytes 8 ((locNat s loc 8 + (rdG c rb).toNat) % 2 ^ 64)) ∧ boardKept s t)
    ∧ (∃ t, exec (.tallySet q ra rb) s = .next t ∧ ended s t q.toNat (c.pc + 8)
        ∧ (∀ r, rdG (getQc t q.toNat) r = rdG c r) ∧ othersKept c (getQc t q.toNat) 0
        ∧ stored s t loc (leBytes 8 (rdG c rb).toNat) ∧ boardKept s t)

/-- TALLY.WAIT and TALLY.WAIT2: a wait whose threshold is met goes on with the value observed, or with a bit for each tally
whose threshold is met; else the queue context blocks on a registered waiter. -/
def Obligations.TallyWaitsObserveOrBlock : Prop :=
  ∀ (q : BitVec 20) (rd ra rb rc rt : BitVec 5) (s s1 : State) (l1 : Nat), canRun s q.toNat anyKind = true →
    let c := getQc s q.toNat
    (rdG c ra).toNat % 8 = 0 → translate s c.ctx (rdG c ra).toNat accTally (whoOf q.toNat) = (.ok l1, s1) → locPoison s1 l1 = false →
    (∃ t, exec (.tallyWait q rd ra rb) s = .next t ∧ bytesSame s t ∧ bytesKept s1 t ∧ boardKept s t
      ∧ ((rdG c rb).toNat ≤ locNat s l1 8 →
          ended s t q.toNat (c.pc + 8) ∧ rdG (getQc t q.toNat) rd = (if rd = 0 then 0 else BitVec.ofNat 64 (locNat s l1 8)))
      ∧ (locNat s l1 8 < (rdG c rb).toNat →
          (getQc t q.toNat).blocked = true ∧ ∃ w ∈ t.fe.waiters, w.key = q.toNat ∧ w.isQueue = false ∧ w.thresh = rdG c rb ∧ w.released = none))
    ∧ ∀ (s2 : State) (l2 : Nat), (rdG c rc).toNat % 8 = 0 → translate s1 c.ctx (rdG c rc).toNat accTally (whoOf q.toNat) = (.ok l2, s2) →
        locPoison s2 l2 = false →
        let m1 := decide ((rdG c rb).toNat ≤ locNat s l1 8)
        let m2 := decide ((rdG c rt).toNat ≤ locNat s l2 8)
        ∃ t, exec (.tallyWait2 q rd ra rb rc rt) s = .next t ∧ bytesSame s t ∧ bytesKept s2 t ∧ boardKept s t
          ∧ ((m1 || m2) = true → ended s t q.toNat (c.pc + 8)
              ∧ rdG (getQc t q.toNat) rd = (if rd = 0 then 0 else BitVec.ofNat 64 (b01 m1 + 2 * b01 m2)))
          ∧ ((m1 || m2) = false → (getQc t q.toNat).blocked = true ∧ ∃ w ∈ t.fe.waiters, w.key = q.toNat ∧ w.isQueue = false ∧ w.released = none)

/-- TALLY_WAIT_RELEASE: a blocked queue context whose wait is released takes what the wait observed and goes on. -/
def Obligations.ReleasedWaitResumes : Prop :=
  ∀ (q : BitVec 20) (s : State) (w : Waiter) (m : Bool × Bool × W64),
    s.fe.waiters.find? (fun x => !x.isQueue && x.key == q.toNat && x.released.isSome) = some w → w.released = some m →
    (getQc s q.toNat).blocked = true → (getQc s q.toNat).cmd.isSome = true → engUp s (qKind q.toNat) (qIndex q.toNat) = true →
    ∃ t, exec (.tallyWaitRelease q) s = .next t ∧ (getQc t q.toNat).blocked = false ∧ ended s t q.toNat ((getQc s q.toNat).pc + 8)
      ∧ rdG (getQc t q.toNat) w.rd = (if w.rd = 0 then 0
          else if w.second.isSome then BitVec.ofNat 64 (b01 m.1 + 2 * b01 m.2.1) else m.2.2)
      ∧ (∀ x ∈ t.fe.waiters, x.isQueue = false → x.key ≠ q.toNat) ∧ bytesKept s t ∧ boardKept s t

/-! ### Vector instructions (chapter 7) -/

/-- Class 0x08, 0x0B: arithmetic, conversions and moves under a guard, element by element. -/
def Obligations.VectorArithmeticByElement : Prop :=
  ∀ (q : BitVec 20) (rd ra rb rc : BitVec 5) (pg : BitVec 3) (w : BitVec 2) (rm : BitVec 3) (s : State),
    canRun s q.toNat anyKind = true → qKind q.toNat = kVX → w ≠ 3 → rm ≠ 5 → rm ≠ 6 →
    let c := getQc s q.toNat
    let n := wBits w
    let f := longFmt n
    let m := dirRM rm c.vfcsr
    let a := fun i => decodeL n (elem (rdV c ra) n i)
    let b := fun i => decodeL n (elem (rdV c rb) n i)
    let d := fun i => decodeL n (elem (rdV c rc) n i)
    ∀ e ∈ ([(.vadd q rd ra rb pg w rm, fun i => addR f m (a i) (b i)), (.vsub q rd ra rb pg w rm, fun i => subR f m (a i) (b i)),
            (.vmul q rd ra rb pg w rm, fun i => mulR f m (a i) (b i)), (.vdiv q rd ra rb pg w rm, fun i => divR f m (a i) (b i)),
            (.vsqrt q rd ra pg w rm, fun i => sqrtR f m (a i)),
            (.vfma q rd ra rb rc pg w rm, fun i => fmaR f m false false (a i) (b i) (d i)),
            (.vfms q rd ra rb rc pg w rm, fun i => fmaR f m false true (a i) (b i) (d i)),
            (.vfnma q rd ra rb rc pg w rm, fun i => fmaR f m true false (a i) (b i) (d i)),
            (.vmin q rd ra rb pg w, fun i => minMaxR f false (a i) (b i)), (.vmax q rd ra rb pg w, fun i => minMaxR f true (a i) (b i)),
            (.vrem q rd ra rb pg w, fun i => remR f (a i) (b i)), (.vrint q rd ra pg w rm, fun i => rintR f m (a i)),
            (.vabs q rd ra pg w, fun i => { bits := elem (rdV c ra) n i % 2 ^ (n - 1) }),
            (.vneg q rd ra pg w, fun i => { bits := elem (rdV c ra) n i + 2 ^ (n - 1) }),
            (.vclass q rd ra pg w, fun i => { bits := 2 ^ (classBit (classOf f (a i)) % 10) }),
            (.vcvtfi q rd ra pg w rm, fun i => toIntR n m (a i)),
            (.vcvtif q rd ra pg w rm, fun i => toLong f m (ofInt (sField n (elem (rdV c ra) n i)) 0)),
            (.vmov q rd ra pg w, fun i => { bits := elem (rdV c ra) n i }), (.vsplat q rd ra pg w, fun _ => { bits := (rdG c ra).toNat }),
            (.vperm q rd ra rb pg w, fun i => { bits := elem (rdV c ra) n (elem (rdV c rb) n i % lanes n) })] : List (Instr × (Nat → Res))),
      ∃ t, exec e.1 s = .next t ∧ vecResult s t q.toNat rd pg n (lanes n) e.2

/-- Class 0x09: integer instructions wrap at the element's width; shifts take RB[5:0]. -/
def Obligations.VectorIntegerByElement : Prop :=
  ∀ (q : BitVec 20) (rd ra rb : BitVec 5) (pg : BitVec 3) (w : BitVec 2) (s : State),
    canRun s q.toNat anyKind = true → qKind q.toNat = kVX → w ≠ 3 →
    let c := getQc s q.toNat
    let n := wBits w
    let a := fun i => elem (rdV c ra) n i
    let b := fun i => elem (rdV c rb) n i
    ∀ e ∈ ([(.viadd q rd ra rb pg w, fun i => a i + b i), (.visub q rd ra rb pg w, fun i => 2 ^ n + a i - b i),
            (.vimul q rd ra rb pg w, fun i => a i * b i), (.viand q rd ra rb pg w, fun i => a i &&& b i),
            (.vior q rd ra rb pg w, fun i => a i ||| b i), (.vixor q rd ra rb pg w, fun i => a i ^^^ b i),
            (.vishl q rd ra rb pg w, fun i => a i * 2 ^ (b i % 64)), (.vishr q rd ra rb pg w, fun i => a i / 2 ^ (b i % 64)),
            (.visar q rd ra rb pg w, fun i => (sField n (a i) / 2 ^ (b i % 64) % 2 ^ n).toNat),
            (.vimin q rd ra rb pg w, fun i => if sField n (a i) < sField n (b i) then a i else b i),
            (.vimax q rd ra rb pg w, fun i => if sField n (a i) < sField n (b i) then b i else a i),
            (.viminu q rd ra rb pg w, fun i => min (a i) (b i)), (.vimaxu q rd ra rb pg w, fun i => max (a i) (b i))] : List (Instr × (Nat → Nat))),
      ∃ t, exec e.1 s = .next t ∧ vecResult s t q.toNat rd pg n (lanes n) (fun i => { bits := e.2 i })

/-- Conversions between formats (class 0x0B): long to long, to and from element floats, from a BM block. -/
def Obligations.VectorFormatConversions : Prop :=
  ∀ (q : BitVec 20) (rd ra fc : BitVec 5) (pg : BitVec 3) (w : BitVec 2) (rm : BitVec 3) (s : State),
    canRun s q.toNat anyKind = true → qKind q.toNat = kVX → w ≠ 3 → rm ≠ 5 → rm ≠ 6 →
    let c := getQc s q.toNat
    let n := wBits w
    let k := fc.toNat
    let g := genOf s q.toNat c.seq
    (isLong k = true → ∃ t, exec (.vcvtf q rd ra fc pg w rm) s = .next t
      ∧ vecResult s t q.toNat rd pg (floatFmt k).width (min (lanes n) (lanes (floatFmt k).width))
          (fun i => toLong (floatFmt k) (dirRM rm c.vfcsr) (decodeL n (elem (rdV c ra) n i))))
    ∧ (isElemFloat k = true → (∃ t, exec (.vcvte q rd ra fc pg w) s = .next t
        ∧ vecResult s t q.toNat rd pg (fmtBits k) (lanes n)
            (fun i => toShort k (vfShort c.vfcsr g (s.free + i)) (decodeL n (elem (rdV c ra) n i))))
      ∧ (∃ t, exec (.vdece q rd ra fc pg w) s = .next t
        ∧ vecResult s t q.toNat rd pg n (lanes n)
            (fun i => exactTo (longFmt n) (s.free + i) (decodeCode k (fld (rdV c ra).toNat (fmtBits k * i) (fmtBits k))))))
    ∧ (isBM k = true → (∃ t, exec (.vdecbm q rd ra fc pg) s = .next t
        ∧ vecResult s t q.toNat rd pg 32 32 (fun i => exactTo fmt32 (s.free + i)
            (decodeBM (bmWidth k) (fld (rdV c ra).toNat 1016 8) (sField (bmWidth k) (fld (rdV c ra).toNat (bmWidth k * i) (bmWidth k))))))
      ∧ (∃ t, exec (.vcvtbm q rd ra fc pg) s = .next t
        ∧ (let act := activeOf c pg 32
           let b := formBlock (bmWidth k) (fun i => vfShort c.vfcsr g (s.free + i)) (act.map (fun i => decodeL 32 (elem (rdV c ra) 32 i)))
           fld (rdV (getQc t q.toNat) rd).toNat 1016 8 = b.e % 256
           ∧ ∀ p ∈ act.zip b.ms, fld (rdV (getQc t q.toNat) rd).toNat (bmWidth k * p.1) (bmWidth k) = (p.2 % 2 ^ bmWidth k).toNat)
        ∧ ended s t q.toNat (c.pc + 8) ∧ (∀ r, r ≠ rd → rdV (getQc t q.toNat) r = rdV c r) ∧ memKept s t))

/-- Class 0x0C: the activations and their derivatives, of a defined function code, with RM 0 and an α register for ELU alone. -/
def Obligations.VectorActivations : Prop :=
  ∀ (q : BitVec 20) (rd ra rb rc : BitVec 5) (fn : BitVec 4) (pg : BitVec 3) (w : BitVec 2) (s : State),
    canRun s q.toNat anyKind = true → qKind q.toNat = kVX → w.toNat ≤ 1 → fn.toNat ≤ 11 →
    let c := getQc s q.toNat
    let n := wBits w
    let a := fun i => decodeL n (elem (rdV c ra) n i)
    let b := fun i => decodeL n (elem (rdV c rb) n i)
    let d := fun i => decodeL n (elem (rdV c rc) n i)
    ((fn = 6 ∨ rb = 0) → ∃ t, exec (.vact q rd ra rb fn pg w 0) s = .next t
      ∧ vecResult s t q.toNat rd pg n (lanes n) (fun i => actRes n (s.free + i) (if fn = 6 then [a i, b i] else [a i]) (actAV fn.toNat (a i) (b i))))
    ∧ (derCode fn.toNat = true → (fn = 6 ∨ rc = 0) → ∃ t, exec (.vder q rd ra rb rc fn pg w 0) s = .next t
      ∧ vecResult s t q.toNat rd pg n (lanes n) (fun i => actRes n (s.free + i) (if fn = 6 then [a i, b i, d i] else [a i, b i])
          (avMul (derAV fn.toNat (a i) (d i)) (b i))))
    ∧ (∃ t, exec (.vderi q rd ra rb fn pg w 0) s = .next t
      ∧ vecResult s t q.toNat rd pg n (lanes n) (fun i => actRes n (s.free + i) [a i, b i] (avMul (derIAV fn.toNat (a i) none) (b i))))

/-- VCMP and VISEQ write the active bits of a predicate; comparisons raise NV where they must. -/
def Obligations.VectorComparisonsWritePredicates : Prop :=
  ∀ (q : BitVec 20) (pd : BitVec 3) (ra rb : BitVec 5) (fn : BitVec 4) (pg : BitVec 3) (w : BitVec 2) (s : State),
    canRun s q.toNat anyKind = true → qKind q.toNat = kVX → w ≠ 3 →
    let c := getQc s q.toNat
    let n := wBits w
    let r := fun i => compareR fn.toNat (decodeL n (elem (rdV c ra) n i)) (decodeL n (elem (rdV c rb) n i))
    (fn.toNat ≤ 6 → ∃ t, exec (.vcmp q pd ra rb fn pg w) s = .next t ∧ predResult s t q.toNat pd pg (lanes n) (fun i => (r i).1)
      ∧ ∀ i, i < lanes n → active c pg i = true → vfFlags (getQc t q.toNat).vfcsr &&& ((r i).2 % 32) = (r i).2 % 32)
    ∧ (∃ t, exec (.viseq q pd ra rb pg w) s = .next t
      ∧ predResult s t q.toNat pd pg (lanes n) (fun i => elem (rdV c ra) n i == elem (rdV c rb) n i)
      ∧ (getQc t q.toNat).vfcsr = c.vfcsr)

/-- VLD and PLD read 128 and 8 aligned bytes (poison is as the reads left it); VST writes the active elements of its register and no
byte outside the 128, and makes no access with none active (R107); PST writes 8 bytes. -/
def Obligations.VectorLoadsAndStores : Prop :=
  ∀ (q : BitVec 20) (rd ra : BitVec 5) (off : W32) (pg : BitVec 3) (s s1 : State) (loc : Nat),
    canRun s q.toNat anyKind = true → qKind q.toNat = kVX →
    let c := getQc s q.toNat
    let va := (rdG c ra + off.signExtend 64).toNat
    (translate s c.ctx va accRead (whoOf q.toNat) = (.ok loc, s1) →
      (va % 128 = 0 → poisonIn (readLoc (loc + 64) s1) loc 128 = none →
        ∃ t, exec (.vld q rd ra off) s = .next t ∧ rdV (getQc t q.toNat) rd = BitVec.ofNat 1024 (locNat s loc 128)
          ∧ (∀ r, r ≠ rd → rdV (getQc t q.toNat) r = rdV c r) ∧ ended s t q.toNat (c.pc + 8)
          ∧ bytesSame s t ∧ bytesKept (readLoc (loc + 64) s1) t ∧ boardKept s t)
      ∧ (va % 8 = 0 → rd.toNat < 8 → poisonIn s1 loc 8 = none →
        ∃ t, exec (.pld q rd ra off) s = .next t
          ∧ rdP (getQc t q.toNat) rd.toNat = (if rd = 0 then BitVec.allOnes 64 else BitVec.ofNat 64 (locNat s loc 8))
          ∧ (∀ r, r ≠ rd.toNat → rdP (getQc t q.toNat) r = rdP c r) ∧ ended s t q.toNat (c.pc + 8)
          ∧ bytesSame s t ∧ bytesKept s1 t ∧ boardKept s t))
    ∧ (va % 128 = 0 → (∀ i, i < 64 → active c pg i = false) →
        ∃ t, exec (.vst q rd ra off pg) s = .next t ∧ ended s t q.toNat (c.pc + 8) ∧ bytesKept s t
          ∧ (∀ r, rdV (getQc t q.toNat) r = rdV c r) ∧ boardKept s t)
    ∧ (translate s c.ctx va accWrite (whoOf q.toNat) = (.ok loc, s1) →
      (va % 128 = 0 →
        let w := 2 ^ (4 + Config.vstWidth % 3)
        ∃ t, exec (.vst q rd ra off pg) s = .next t ∧ ended s t q.toNat (c.pc + 8)
          ∧ (∀ i, i < 1024 / w → active c pg i = true → locNat t (loc + w / 8 * i) (w / 8) = elem (rdV c rd) w i)
          ∧ (∀ i, i < 1024 / w → active c pg i = false → locNat t (loc + w / 8 * i) (w / 8) = locNat s (loc + w / 8 * i) (w / 8))
          ∧ (∀ a, a < loc ∨ loc + 128 ≤ a → locByte t a = locByte s a)
          ∧ (∀ r, rdV (getQc t q.toNat) r = rdV c r) ∧ boardKept s t)
      ∧ (va % 8 = 0 → rd.toNat < 8 →
        ∃ t, exec (.pst q rd ra off) s = .next t ∧ ended s t q.toNat (c.pc + 8)
          ∧ stored s t loc (leBytes 8 (rdP c rd.toNat).toNat) ∧ (∀ r, rdP (getQc t q.toNat) r = rdP c r) ∧ boardKept s t))

/-- VEXT, VINS, VRSUM and VRMAX: one element out of or into a register, where it is active, and reductions of the active elements
into element 0 with the other elements 0. -/
def Obligations.VectorElementMovesAndReductions : Prop :=
  ∀ (q : BitVec 20) (rd ra rb : BitVec 5) (pg : BitVec 3) (w : BitVec 2) (rm : BitVec 3) (s : State),
    canRun s q.toNat anyKind = true → qKind q.toNat = kVX → w ≠ 3 → rm ≠ 5 → rm ≠ 6 →
    let c := getQc s q.toNat
    let n := wBits w
    let i := (rdG c rb).toNat
    let xs := (activeOf c pg (lanes n)).map (fun j => decodeL n (elem (rdV c ra) n j))
    (i < lanes n → active c pg i = true →
      (∃ t, exec (.vext q rd ra rb pg w) s = .next t ∧ regResult s t q.toNat rd 8 (BitVec.ofNat 64 (elem (rdV c ra) n i)))
      ∧ (∃ t, exec (.vins q rd ra rb pg w) s = .next t ∧ ended s t q.toNat (c.pc + 8) ∧ memKept s t
          ∧ (∀ j, j < lanes n → elem (rdV (getQc t q.toNat) rd) n j = if j = i then (rdG c ra).toNat % 2 ^ n else elem (rdV c rd) n j)
          ∧ (∀ r, r ≠ rd → rdV (getQc t q.toNat) r = rdV c r)))
    ∧ (i < lanes n → active c pg i = false → ∀ e ∈ ([.vext q rd ra rb pg w, .vins q rd ra rb pg w] : List Instr),
        ∃ t, exec e s = .next t ∧ ended s t q.toNat (c.pc + 8) ∧ memKept s t ∧ (∀ r, rdG (getQc t q.toNat) r = rdG c r)
          ∧ othersKept c (getQc t q.toNat) 0)
    ∧ ∀ e ∈ ([(.vrsum q rd ra pg w rm, sumRes (longFmt n) (dirRM rm c.vfcsr) xs), (.vrmax q rd ra pg w, extremeRes (longFmt n) true s.free xs)]
          : List (Instr × Res)),
        ∃ t, exec e.1 s = .next t ∧ ended s t q.toNat (c.pc + 8) ∧ memKept s t
          ∧ (∀ j, j < lanes n → elem (rdV (getQc t q.toNat) rd) n j = if j = 0 then e.2.bits % 2 ^ n else 0)
          ∧ flagsRaised c (getQc t q.toNat) [e.2] ∧ (∀ r, r ≠ rd → rdV (getQc t q.toNat) r = rdV c r)

/-- Predicate logic and the control register of VX: p0 stays all ones; RDVFCSR reads it, WRVFCSR takes a legal value alone, CLRVFF
clears flags alone. -/
def Obligations.PredicatesAndVfcsr : Prop :=
  ∀ (q : BitVec 20) (pd pa pb rd ra : BitVec 5) (s : State), canRun s q.toNat anyKind = true → qKind q.toNat = kVX →
    let c := getQc s q.toNat
    (pd.toNat < 8 → pa.toNat < 8 → pb.toNat < 8 →
      ∀ e ∈ ([(.pand q pd pa pb, rdP c pa.toNat &&& rdP c pb.toNat), (.por q pd pa pb, rdP c pa.toNat ||| rdP c pb.toNat),
              (.pxor q pd pa pb, rdP c pa.toNat ^^^ rdP c pb.toNat), (.pnot q pd pa, ~~~ rdP c pa.toNat), (.pmovp q pd ra, rdG c ra)]
            : List (Instr × W64)),
        ∃ t, exec e.1 s = .next t ∧ rdP (getQc t q.toNat) pd.toNat = (if pd = 0 then BitVec.allOnes 64 else e.2)
          ∧ (∀ r, r ≠ pd.toNat → rdP (getQc t q.toNat) r = rdP c r) ∧ (∀ r, rdG (getQc t q.toNat) r = rdG c r)
          ∧ (∀ r, rdV (getQc t q.toNat) r = rdV c r) ∧ ended s t q.toNat (c.pc + 8) ∧ memKept s t)
    ∧ (pa.toNat < 8 → ∀ e ∈ ([(.pmovg q rd pa, rdP c pa.toNat), (.rdvfcsr q rd, c.vfcsr)] : List (Instr × W64)),
        ∃ t, exec e.1 s = .next t ∧ regResult s t q.toNat rd 8 e.2)
    ∧ (∃ t, exec (.rdvfcsr q rd) s = .next t ∧ regResult s t q.toNat rd 8 c.vfcsr)
    ∧ (∀ e ∈ ([(.wrvfcsr q ra, vfcsrOk (rdG c ra), rdG c ra), (.clrvff q ra, rdG c ra &&& ~~~ (0x3E0 : W64) == 0, c.vfcsr &&& ~~~ rdG c ra)]
            : List (Instr × Bool × W64)),
        (e.2.1 = true → ∃ t, exec e.1 s = .next t ∧ (getQc t q.toNat).vfcsr = e.2.2
          ∧ (∀ r, rdG (getQc t q.toNat) r = rdG c r) ∧ (∀ r, rdV (getQc t q.toNat) r = rdV c r) ∧ (∀ r, rdP (getQc t q.toNat) r = rdP c r)
          ∧ ended s t q.toNat (c.pc + 8) ∧ memKept s t)
        ∧ (e.2.1 = false → ∃ t, exec e.1 s = .next t ∧ (getQc t q.toNat).vfcsr = c.vfcsr ∧ faultAdded s t 1 0x11 6))

/-! ### Tensor instructions of DM and VX (chapter 7) -/

/-- DM.COPY, DM.CVT, DM.TRANSPOSE and DM.FILL: with descriptors that pass their checks and accesses that succeed, memory holds
what the instruction's reading, conversion and writing give, and the command is DONE. -/
def Obligations.DataMoverMovesAndConversions : Prop :=
  ∀ (q : BitVec 20) (h1 h2 : BitVec 16) (x : TExt) (s u : State) (d1 d2 : Nat),
    canRun s q.toNat anyKind = true → qKind q.toNat = kDM →
    let n := q.toNat
    let part := engPart s kDM (qIndex n)
    let seq := longSeq s n
    let t := fun minor => startLong n (0x10 * 2 ^ 58 + minor * 2 ^ 52) s
    tdOk true d1 = true →
    (tdOk false d2 = true →
      (firstBad (dmChecks x false false false) = none → readTds part [h1.toNat, h2.toNat] (t 0) = some ([d1, d2], u) →
        tdFmt d2 = tdFmt d1 → tdDims d2 = tdDims d1 →
        let j := moveAll (dmAcc u n false) (tcOf u) d1 d2 some { s := u }
        j.errs = [] → ∃ v, exec (.dmCopy q h1 h2 x) s = .next v ∧ jobDone s v n j)
      ∧ (firstBad (dmChecks x true false false) = none → readTds part [h1.toNat, h2.toNat] (t 1) = some ([d1, d2], u) →
        isFloating (tdFmt d1) = true → cvtSource (tdFmt d2) = true → tdDims d2 = tdDims d1 →
        let j := convertAll (dmAcc u n true) (tcOf u) d1 d2 (dmRnd u n seq x) id { s := u }
        j.errs = [] → ∃ v, exec (.dmCvt q h1 h2 x) s = .next v ∧ jobDone s v n j)
      ∧ (firstBad (dmChecks x true false false) = none → readTds part [h1.toNat, h2.toNat] (t 2) = some ([d1, d2], u) →
        tdRank d1 = 2 → tdRank d2 = 2 → tdDim d2 1 = tdDim d1 0 → tdDim d2 0 = tdDim d1 1 →
        (tdFmt d2 = tdFmt d1 ∨ (cvtSource (tdFmt d2) = true ∧ isFloating (tdFmt d1) = true)) →
        let j := if tdFmt d1 = tdFmt d2 ∧ ¬ tdBM d1 then moveAll (dmAcc u n false) (tcOf u) d1 d2 (fun ix => some (swap01 ix)) { s := u }
                 else convertAll (dmAcc u n true) (tcOf u) d1 d2 (dmRnd u n seq x) swap01 { s := u }
        j.errs = [] → ∃ v, exec (.dmTranspose q h1 h2 x) s = .next v ∧ jobDone s v n j))
    ∧ (firstBad (dmChecks x true false true) = none → readTds part [h1.toNat] (t 5) = some ([d1], u) →
        isFloating (tdFmt d1) = true → tdTiled d1 = false →
        let j := wrAll (dmAcc u n false) (tcOf u) d1 (dmRnd u n seq x) (fun _ b => (some (val32 x.opx, false), b)) { s := u }
        j.errs = [] → ∃ v, exec (.dmFill q h1 x) s = .next v ∧ jobDone s v n j)

/-- DM.GATHER and DM.SCATTERADD with an index tensor: the positions it selects, and every contribution added once, in an order
that is open. -/
def Obligations.DataMoverIndexedInstructions : Prop :=
  ∀ (q : BitVec 20) (h1 h2 : BitVec 16) (x : TExt) (s u : State) (d1 d2 dx : Nat),
    canRun s q.toNat anyKind = true → qKind q.toNat = kDM →
    let n := q.toNat
    let part := engPart s kDM (qIndex n)
    let dim := x.idxdim.toNat
    let t := fun minor => startLong n (0x10 * 2 ^ 58 + minor * 2 ^ 52) s
    let c := dmAcc u n false
    let hs := [h1.toNat, h2.toNat, x.idxh.toNat]
    tdOk true d1 = true → tdOk false d2 = true → tdTiled d1 = false → tdTiled d2 = false → firstBad (dmChecks x false true false) = none →
    (readTds part hs (t 3) = some ([d1, d2, dx], u) →
      tdBM d1 = false ∨ dim ≠ 0 → tdFmt d2 = tdFmt d1 → dimsBut d2 d1 dim = true → idxOk dx (tdDim d1 dim) = true →
      let r := rdIndex { c with who := whoOf n } (tcOf u) dx (tdDim d2 dim) { s := u }
      let j := moveAll c (tcOf u) d1 d2 (gatherAt dim r.1) r.2
      j.errs = [] → ∃ v, exec (.dmGather q h1 h2 x) s = .next v ∧ jobDone s v n j)
    ∧ (readTds part hs (t 4) = some ([d1, d2, dx], u) →
      (isLong (tdFmt d1) = true ∧ isFloating (tdFmt d2) = true) ∨ (isInt (tdFmt d1) = true ∧ tdFmt d2 = tdFmt d1) →
      dimsBut d2 d1 dim = true → idxOk dx (tdDim d2 dim) = true →
      let r := rdIndex { c with who := whoOf n } (tcOf u) dx (tdDim d1 dim) { s := u }
      let pairs := ((tdRows d2).flatMap (fun row => (upto (tdDim d2 0)).map (fun i => ixSet row 0 i))).filterMap
        (fun ix => (gatherAt dim r.1 ix).map (fun y => (ix, y)))
      let v := mapJob (fun p b => let (a, b1) := rdVal c (tcOf u) d2 p.1 b; ((p.2, a), b1)) pairs r.2
      let j := (scatterOrder v.2.s.free v.1).foldl (fun a p => scatterOne c (tcOf u) d1 p.1 p.2.1 p.2.2 a)
        { v.2 with s := { v.2.s with free := v.2.s.free + v.1.length } }
      j.errs = [] → ∃ w, exec (.dmScatteradd q h1 h2 x) s = .next w ∧ jobDone s w n j)

/-- VT.MAP, with or without an index, and VT.REDUCE: a destination written element by element from the mapping or reduction of its
sources. -/
def Obligations.VectorTensorInstructions : Prop :=
  ∀ (q : BitVec 20) (h1 h2 h3 : BitVec 16) (x : TExt) (s u : State) (d1 d2 : Nat),
    canRun s q.toNat anyKind = true → qKind q.toNat = kVX →
    let n := q.toNat
    let part := engPart s kVX (qIndex n)
    let t := fun minor => startLong n (0x0E * 2 ^ 58 + minor * 2 ^ 52) s
    let c := vtAcc u n
    let tc := tcOf u
    let r := vtRnd u n (longSeq s n) x
    let two := bfld x.opx 0 4 != 0
    let dim := x.idxdim.toNat
    let rdim := bfld x.opx 4 2
    tdOk true d1 = true → vtFmt d1 = true → tdOk false d2 = true → vtFmt d2 = true → blockSource d1 d2 = true →
    (∀ d3 dx : Option Nat, firstBad (mapChecks h3 x) = none → d3.isSome = two → dx.isSome = x.idxen →
      readTds part ([h1.toNat, h2.toNat] ++ (if two then [h3.toNat] else []) ++ (if x.idxen then [x.idxh.toNat] else [])) (t 0)
        = some (d1 :: d2 :: (d3.toList ++ dx.toList), u) →
      (∀ k, k < 4 → tdDim d2 k = tdDim d1 k ∨ (x.idxen = true ∧ k = dim)) →
      (∀ d, d3 = some d → tdOk false d = true ∧ vtFmt d = true ∧ blockSource d1 d = true ∧ tdDims d = tdDims d1) →
      (∀ d, dx = some d → idxOk d (tdDim d1 dim) = true) →
      let p : Option (List (Option Nat)) × Job := match dx with
        | some d => let w := rdIndex c tc d (tdDim d2 dim) { s := u }; (some w.1, w.2)
        | none => (none, { s := u })
      let j := wrAll c tc d1 r (mapElem c tc d1 d2 d3 (computeIn (d1 :: d2 :: d3.toList)) (r.rm.getD .rne) x p.1) p.2
      j.errs = [] → ∃ v, exec (.vtMap q h1 h2 h3 x) s = .next v ∧ jobDone s v n j)
    ∧ (firstBad (reduceChecks x) = none → readTds part [h1.toNat, h2.toNat] (t 1) = some ([d1, d2], u) → tdDim d1 rdim = 1 →
      (∀ k, k < 4 → k ≠ rdim → tdDim d2 k = tdDim d1 k) →
      let j := wrAll c tc d1 r (fun ix b =>
        let vs := mapJob (fun i b => let (v, b1) := rdVal c tc d2 (ixSet ix rdim i) b; (v.1, b1)) (upto (tdDim d2 rdim)) b
        let v := reduceFV (computeIn [d1, d2]) (bfld x.opx 0 4) vs.1
        let w := if tdBM d1 then blockRange (r.rm.getD .rne) v else v
        (some (w.1, w.2.2), { vs.2 with flags := vs.2.flags ||| w.2.1 })) { s := u }
      j.errs = [] → ∃ v, exec (.vtReduce q h1 h2 x) s = .next v ∧ jobDone s v n j)

/-- A tensor instruction whose first descriptor is not backed or fails its checks completes with DESCRIPTOR_INVALID, writes
nothing, and leaves one record of class DESCRIPTOR. -/
def Obligations.InvalidDescriptorEndsTheInstruction : Prop :=
  ∀ (q : BitVec 20) (h1 h2 h3 : BitVec 16) (x : TExt) (s : State), canRun s q.toNat anyKind = true →
    let n := q.toNat
    let part := engPart s (qKind n) (qIndex n)
    let m := meetTd s part h1.toNat
    (readTd m part h1.toNat = .invalid ∨ ∃ d, readTd m part h1.toNat = .ok d ∧ tdOk true d = false) →
    ∀ e ∈ ([(.dmCopy q h1 h2 x, kDM, dmChecks x false false false), (.dmCvt q h1 h2 x, kDM, dmChecks x true false false),
            (.dmTranspose q h1 h2 x, kDM, dmChecks x true false false), (.dmFill q h1 x, kDM, dmChecks x true false true),
            (.dmGather q h1 h2 x, kDM, dmChecks x false true false), (.dmScatteradd q h1 h2 x, kDM, dmChecks x false true false),
            (.vtMap q h1 h2 h3 x, kVX, mapChecks h3 x), (.vtReduce q h1 h2 x, kVX, reduceChecks x)] : List (Instr × Nat × List (Bool × Nat))),
      qKind n = e.2.1 → firstBad e.2.2 = none →
      ∃ u, exec e.1 s = .next u ∧ faultAdded s u 2 0x12 0 ∧ bytesSame s u ∧ bytesKept m u ∧ (getQc u n).cmd = none
        ∧ (∀ qu id prog, (getQc s n).cmd = some (qu, id, prog) → statusGiven s u qu id 0x12)

/-! ### Power, pins and temperature -/

/-- MOD_RESET_N and the supplies: a release in range powers the module up with nothing but flash kept, an assertion of 1 µs or
longer and a fault of the supplies power it down, a shorter one is ignored. -/
def Obligations.PowerUpAndPowerDown : Prop :=
  ∀ s : State,
    (∀ (vin : Int) (aux : Nat), s.pw.modReset = true → s.pw.goingDown = false → 40000 ≤ vin → vin ≤ 60000 → 3135 ≤ aux → aux ≤ 3465 →
      ∃ t, exec (.coldPowerOn vin aux) s = .next t ∧ t.pw.powered = true ∧ t.pw.modReset = false ∧ blank s t
        ∧ t.fl = { s.fl with boots := s.fl.boots + 1 } ∧ (∀ w, w < 16 → wcLimit t w = 1800))
    ∧ (∀ ns : Nat, ns < 1000 → exec (.powerDown ns) s = .next s)
    ∧ (∀ ns : Nat, 1000 ≤ ns → s.pw.powered = true →
      ∃ t, exec (.powerDown ns) s = .next t ∧ t.pw.modReset = true ∧ t.pw.powered = false ∧ t.pw.pwrGood = false
        ∧ t.pw.goingDown = true ∧ blank s t ∧ t.fl = s.fl)
    ∧ (s.pw.goingDown = true → ∃ t, exec .powerDownComplete s = .next t ∧ t.pw.goingDown = false
        ∧ (s.pw.releaseHeld = true → 40000 ≤ s.pw.vin → s.pw.vin ≤ 60000 → 3135 ≤ s.pw.aux → s.pw.aux ≤ 3465 →
            t.pw.powered = true ∧ blank s t)
        ∧ (s.pw.releaseHeld = false → t.pw.powered = s.pw.powered))
    ∧ (∀ (vin : Int) (us : Nat), s.pw.powered = true → (vin < 38000 ∧ 100 ≤ us) ∨ (62000 < vin ∧ 10 ≤ us) →
      ∃ t, exec (.vinOutOfRange vin us) s = .next t ∧ t.pw.powered = false ∧ t.pw.pwrGood = false ∧ t.pw.heldDown = true
        ∧ blank s t ∧ latched (if vin < 38000 then 1 else 2) s t)
    ∧ (∀ (vin : Int) (aux : Nat), vin < 0 → 3000 ≤ aux →
      ∃ t, exec (.vinReversed vin aux) s = .next t ∧ t.pw.alertReverse = true ∧ thermAlert t = true ∧ latched 0 s t
        ∧ (s.pw.powered = true → t.pw.powered = false ∧ blank s t))
    ∧ (∀ rail : Nat, s.pw.powered = true →
      ∃ t, exec (.railFault rail) s = .next t ∧ t.pw.powered = false ∧ t.pw.pwrGood = false ∧ blank s t ∧ t.fl = s.fl)

/-- Conditions of the supplies, the tray's sensors and the sideband buses that the module survives: each is latched in
PWR_EVENTS, and the module runs on with its work untouched. -/
def Obligations.AbnormalConditionsAreLatched : Prop :=
  ∀ s : State, s.pw.powered = true →
    (∀ vin : Int, (38000 ≤ vin ∧ vin < 40000) ∨ (60000 < vin ∧ vin ≤ 62000) →
      ∃ t, exec (.vinMarginal vin) s = .next t ∧ latched 11 s t ∧ t.pw.currentHeld = decide (vin < 40000) ∧ t.pw.powered = true ∧ workKept s t)
    ∧ (∃ t, exec .auxLost s = .next t ∧ latched 3 s t ∧ t.pw.auxFromVin = true ∧ t.pw.powered = true ∧ workKept s t)
    ∧ (∀ aux : Nat, (3000 ≤ aux ∧ aux < 3135) ∨ (3465 < aux ∧ aux ≤ 4000) →
      ∃ t, exec (.auxMarginal aux) s = .next t ∧ latched 12 s t ∧ t.pw.powered = true ∧ workKept s t)
    ∧ (∃ t, exec .leakWet s = .next t ∧ latched 10 s t ∧ (∀ w, w < 16 → wcLimit t w ≤ 1200) ∧ thermAlert t = true
        ∧ noticed s t (.faultNotice none (bwIsland 0) 0 0) ∧ workKept s t)
    ∧ (∃ t, exec .leakOpen s = .next t ∧ latched 9 s t ∧ (∀ w, wcLimit t w = wcLimit s w) ∧ logged s t (bwIsland 0) 2 0x0303 0xFF 1 ∧ workKept s t)
    ∧ (∃ t, exec .inletOpen s = .next t ∧ latched 8 s t ∧ t.pw.inlet = 450 ∧ (∀ w, w < 16 → wcLimit t w ≤ 2300)
        ∧ logged s t (bwIsland 0) 2 0x0303 0xFF 0 ∧ workKept s t)
    ∧ (∀ temp : Nat, 450 < temp → ∃ t, exec (.coolantHot temp) s = .next t ∧ latched 13 s t ∧ thermAlert t = true ∧ workKept s t)
    ∧ (∃ t, exec .sbI3cFault s = .next t ∧ latched 4 s t ∧ t.pw.i3cDead = true ∧ workKept s t)
    ∧ (∃ t, exec .sbSmbFault s = .next t ∧ latched 5 s t ∧ t.pw.smbDead = true ∧ workKept s t)

/-- The power loop, the thermal loop, trips, phases and clamps. The clock steps of the power loop are the model's (log entry
2). -/
def Obligations.PowerAndThermalLoops : Prop :=
  ∀ s : State, s.pw.powered = true →
    (∀ watts vin : Nat, s.pw.pwrGood = true → (procUp s 52 || procUp s 53) = true →
      ∃ t, exec (.powerLoop watts vin) s = .next t ∧ t.pw.powerNow = watts ∧ t.pw.vinNow = vin / 10 ∧ t.pw.clamped = []
        ∧ (∀ bw, bw < 2 →
          let a := mget 0 s.pw.arrayDrop bw
          let c := mget 0 s.pw.coreDrop bw
          let a' := mget 0 t.pw.arrayDrop bw
          let c' := mget 0 t.pw.coreDrop bw
          (procUp s (52 + bw) = false → a' = a ∧ c' = c)
          ∧ (procUp s (52 + bw) = true → effectiveCap s vin < 10 * watts → a < 2475 → a < a' ∧ a' ≤ 2475 ∧ c' = c)
          ∧ (procUp s (52 + bw) = true → effectiveCap s vin < 10 * watts → 2475 ≤ a → c < 2475 → a' = a ∧ c < c' ∧ c' ≤ 2475)
          ∧ (procUp s (52 + bw) = true → 10 * watts ≤ effectiveCap s vin → 0 < c → c' = c - 25 ∧ a' = a)
          ∧ (procUp s (52 + bw) = true → 10 * watts ≤ effectiveCap s vin → c = 0 → c' = 0 ∧ a' = a - 25))
        ∧ t.mem = s.mem ∧ t.ax = s.ax ∧ t.rx = s.rx)
    ∧ (∀ r : WcReading, s.pw.pwrGood = true → s.pw.converged = true → r.wc < 16 → procUp s (52 + wcBw r.wc) = true →
      let hot := (r.sensors.map sensorTemp).foldl max 0
      ∃ t, exec (.thermalLoop [r] true) s = .next t ∧ mget 0 t.pw.wcHot r.wc = hot ∧ mget 0 t.pw.wcHbm r.wc = r.hbm
        ∧ mget false t.pw.fastRefresh r.wc = decide (850 < r.hbm)
        ∧ (1050 ≤ hot → wcLimit t r.wc = 1200)
        ∧ (hot < 1050 → bfld s.pw.thermCfg 0 16 < hot → tripped s r.wc = false → wcLimit s r.wc ≤ (wcCeiling s (r.sensors.filter (·.isNone)).length).1 →
            wcLimit t r.wc = max 25 (wcLimit s r.wc - 25))
        ∧ (∀ w, w ≠ r.wc → wcLimit t w = wcLimit s w) ∧ t.mem = s.mem)
    ∧ (∀ wc temp : Nat, wc < 16 → 1150 ≤ temp → tripped s wc = false →
      ∃ t, exec (.thermTrip wc temp) s = .next t ∧ tripped t wc = true ∧ wcLimit t wc = 1200 ∧ thermAlert t = true
        ∧ t.fl.lifeTrips = s.fl.lifeTrips + 1 ∧ logged s t (bwIsland (wcBw wc)) 3 0x0302 wc temp ∧ workKept s t)
    ∧ (∀ (wc : Nat) (temps : List Nat), tripped s wc = true → temps ≠ [] → (∀ x ∈ temps, x < 1000) →
      ∃ t, exec (.thermTripClear wc temps) s = .next t ∧ tripped t wc = false ∧ workKept s t)
    ∧ (∀ bw phase : Nat, bw < 2 → phase < 42 → mget false s.pw.failedPhase (42 * bw + phase) = false →
      let n := mget 0 s.pw.failedCount bw
      ∃ t, exec (.phaseFail bw phase) s = .next t ∧ mget 0 t.pw.failedCount bw = n + 1
        ∧ logged s t (bwIsland bw) 2 0x0304 bw (phase + 64 * b01 (decide (2 ≤ n)))
        ∧ (2 ≤ n → noticed s t (.faultNotice none (bwIsland bw) 0 0) ∧ phasesShort t = phasesShort s + 1) ∧ workKept s t)
    ∧ (∀ rail : Nat, ∃ t, exec (.currentLimitClamp rail) s = .next t ∧ mget false t.pw.clamped rail = true ∧ t.fl = s.fl ∧ workKept s t)
    ∧ (∃ t, exec .lifeHours s = .next t ∧ t.fl.lifeHours = (s.fl.lifeHours + 1) % 2 ^ 32 ∧ t.fl.tjCount = s.fl.tjCount + 1 ∧ workKept s t)
    ∧ (∃ t, exec (.thermAlertClear .leakDry) s = .next t ∧ t.pw.alertLeak = false ∧ t.pw.leak = 0 ∧ t.fl = s.fl ∧ workKept s t)
    ∧ (∀ x : Nat, x ≤ 450 → ∃ t, exec (.thermAlertClear (.inletCool x)) s = .next t ∧ t.pw.alertInlet = false ∧ t.pw.inlet = x ∧ t.fl = s.fl ∧ workKept s t)
    ∧ (∃ t, exec (.thermAlertClear .reverseRemoved) s = .next t ∧ t.pw.alertReverse = false ∧ t.fl = s.fl ∧ workKept s t)

/-- Host links, function resets and clocks. -/
def Obligations.HostLinksAndFunctionResets : Prop :=
  ∀ s : State,
    (∀ die : Nat, s.pw.powered = true → die < 64 → mget false s.pw.fallback die = false →
      ∃ t, exec (.clkFallback die) s = .next t ∧ mget false t.pw.fallback die = true ∧ t.mem = s.mem ∧ t.ax = s.ax ∧ t.rx = s.rx
        ∧ (die < 48 ∨ 60 ≤ die → logged s t (dieRoot die) 3 0x0201 (dieRoot die) 0 ∧ t.fe = s.fe ∧ t.et = s.et)
        ∧ (48 ≤ die → die < 60 → (getPort t (die - 48)).fallbackClk = true
            ∧ (portRuns s (die - 48) = true → (getPort s (die - 48)).state = 7 → (getPort t (die - 48)).state = 8)))
    ∧ (∀ (l : Bool) (us : Nat) (sris : Bool), (getFn s l).linkUp = true → 10 ≤ us →
      ∃ t, exec (.refclkLost l us sris) s = .next t ∧ latched (6 + b01 l) s t ∧ (getFn t l).linkUp = (sris && linkAllowed s l)
        ∧ (l = false → t.hs.hdmHolds = [] ∧ t.hs.hdmLocked = false) ∧ getFn t (!l) = getFn s (!l) ∧ linkWork s t)
    ∧ (∀ l : Bool, s.pw.powered = true → s.ob.stopState = 0 →
      ∃ t, exec (.perstAssert l) s = .next t ∧ (getFn t l).perst = true ∧ (getFn t l).linkUp = false ∧ functionCleared s t l
        ∧ getFn t (!l) = getFn s (!l) ∧ t.bt = s.bt
        ∧ (∀ c, (getCtx s c).owner = !l → (getCtx s c).state ≠ ctxFree → getCtx t c = getCtx s c))
    ∧ (∀ l cache : Bool, s.pw.powered = true → s.pw.pwrGood = true → (l = true → s.bt.stage ≠ 10 ∧ fld (gradeHostLinks s.bt.grade) 1 1 = 1 ∧ s.bt.grade ≠ 0) →
      (∃ t, exec (.perstRelease l cache) s = .next t ∧ (getFn t l).perst = false ∧ (getFn t l).linkUp = true ∧ linkWork s t)
      ∧ ((getFn s l).perst = false → ∃ t, exec (.hostLinkTrained l cache) s = .next t ∧ (getFn t l).linkUp = true ∧ linkWork s t))
    ∧ (s.hs.f0.linkUp = true → ∃ t, exec .hostLink0Down s = .next t ∧ t.hs.f0.linkUp = false ∧ t.hs.hdmHolds = [] ∧ t.hs.hdmLocked = false
        ∧ t.hs.f1 = s.hs.f1 ∧ workKept s t)
    ∧ (∀ f : Bool, s.pw.powered = true → s.ob.stopState = 0 →
      ∃ t, exec (.functionLevelReset f) s = .next t ∧ functionCleared s t f ∧ (getFn t f).linkUp = (getFn s f).linkUp
        ∧ getFn t (!f) = getFn s (!f) ∧ t.mem.cells = s.mem.cells
        ∧ (∀ c, (getCtx s c).owner = !f → (getCtx s c).state ≠ ctxFree → getCtx t c = getCtx s c))
    ∧ (∀ takeover : Bool, standbyReady s = true → s.hs.f0.linkUp = false →
      ∃ t, exec (.function1Promotion takeover) s = .next t ∧ t.hs.failover = true ∧ t.hs.f1.attach = 0 ∧ t.hs.f1.quiescing = false
        ∧ (∀ c, (getCtx s c).state ≠ ctxFree → (getCtx t c).owner = true ∧ (getCtx t c).state = (getCtx s c).state)
        ∧ (∀ e ∈ t.mem.xcache, fld e.2.pte.toNat 5 1 = 0))

/-! ### The host side -/

/-- The host window: a read meets the errors of the line at its home and returns its bytes with its poison; a write stores each
byte at its home, whole within a line; with BAD set a read returns poison and a write is discarded. -/
def Obligations.HostWindowReadsAndWrites : Prop :=
  ∀ (s : State) (addr : W64) (bytes : List Byte),
    (∀ pa h, hdmTarget s addr 1 = some pa → s.hs.hdmBad = false → homeOf (partCount s) (pa / 64 * 64) = some h →
      ∃ t, exec (.hdmRead addr) s = .next t ∧ t.mem = readLine (h / 64) s.mem ∧ t.mem.cells = s.mem.cells
        ∧ t.out = s.out ++ [.hdmData addr (memBytes s.mem h 64) (poisoned t.mem (h / 64))]
        ∧ mget false t.hs.hdmHolds (h / 64) = true ∧ t.fe = s.fe ∧ t.en = s.en ∧ t.ax = s.ax ∧ t.rx = s.rx)
    ∧ (∀ pa, hdmTarget s addr 1 = some pa → s.hs.hdmBad = true ∨ homeOf (partCount s) (pa / 64 * 64) = none →
      ∃ t, exec (.hdmRead addr) s = .next t ∧ t.out = s.out ++ [.hdmData addr [] true] ∧ t.hs = s.hs ∧ workKept s t)
    ∧ (∀ pa, hdmTarget s addr bytes.length = some pa → s.hs.hdmBad = false →
      ∃ t, exec (.hdmWrite addr bytes) s = .next t ∧ t.hs = s.hs ∧ t.en = s.en ∧ t.ax = s.ax ∧ boardKept s t
        ∧ (∀ i h, i < bytes.length → homeOf (partCount s) (pa + i) = some h → coreClosed s h = false →
            (∀ j, i < j → j < bytes.length → homeOf (partCount s) (pa + j) ≠ some h) → some (locByte t h) = bytes[i]?)
        ∧ (∀ a, (∀ i, i < bytes.length → homeOf (partCount s) (pa + i) ≠ some a) → locByte t a = locByte s a)
        ∧ (∀ h, pa % 64 + bytes.length ≤ 64 → bytes ≠ [] → homeOf (partCount s) pa = some h → coreClosed s h = false → stored s t h bytes))
    ∧ (∀ pa, hdmTarget s addr bytes.length = some pa → s.hs.hdmBad = true → exec (.hdmWrite addr bytes) s = .next s)

/-- Host states: a heartbeat attaches, a missed one makes the host absent, the end of the grace time orphans its contexts,
and the end of the quiesce leaves them QUIESCED. -/
def Obligations.HostStatesMove : Prop :=
  ∀ (f : Bool) (s : State), s.pw.powered = true → (getFn s f).trainedEver = true →
    ((getFn s f).linkUp = true →
      ∃ t, exec (.hostHeartbeat f) s = .next t ∧ (getFn t f).attach = 0 ∧ getFn t (!f) = getFn s (!f) ∧ workKept s t
        ∧ ((getFn s f).attach ≠ 0 → logged s t (droneIsland s) 1 0x0604 (b01 f) 0))
    ∧ ((getFn s f).attach = 0 →
      ∃ t, exec (.heartbeatTimeout f) s = .next t ∧ (getFn t f).attach = 1 ∧ (getFn t f).negAgreed = 0
        ∧ logged s t (droneIsland s) 1 0x0604 (b01 f) 1 ∧ getFn t (!f) = getFn s (!f) ∧ workKept s t)
    ∧ ((getFn s f).attach = 1 →
      ∃ t, exec (.orphanGraceExpiry f) s = .next t ∧ (getFn t f).attach = 2 ∧ logged s t (droneIsland s) 1 0x0604 (b01 f) 2
        ∧ (droneUp s = true → (getFn t f).quiescing = true ∧ ∀ q, (getQ s q).live = true → (getQ s q).owner = f → (getQ t q).sinkBad = true)
        ∧ t.mem = s.mem ∧ t.ax = s.ax ∧ t.fe.ctxs = s.fe.ctxs)
    ∧ ((getFn s f).attach = 2 → (getFn s f).quiescing = true →
      (∀ q, (getQ s q).live = true → (getQ s q).owner = f → ∀ x ∈ (getQ s q).inflight, settled s q x = true) →
      ∃ t, exec (.quiesceComplete f) s = .next t ∧ (getFn t f).attach = 3 ∧ (getFn t f).quiescing = false
        ∧ (getFn t f).adminCfg.getLsbD 63 = false
        ∧ (∀ c, (getCtx s c).state ≠ ctxFree → (getCtx s c).owner = f →
            getCtx t c = if (getCtx s c).state = ctxResetting then { getCtx s c with prior := ctxQuiesced } else { getCtx s c with state := ctxQuiesced })
        ∧ (∀ q, (getQ s q).live = true → (getQ s q).owner = f → (getQ t q).state = qHalted)
        ∧ t.mem = s.mem)

/-- Negotiation and the admin ring's switch: the lesser minor and the offered features that it governs are agreed; another
major version agrees nothing and is logged; ENABLE needs an agreement and log values from 6 to 12. -/
def Obligations.NegotiationAndAdminSwitch : Prop :=
  ∀ (f : Bool) (v : W64) (s : State), (getFn s f).linkUp = true → droneUp s = true →
    (bfld v 0 8 = 1 → ∃ t, exec (.negHostFeatures f v) s = .next t ∧ bfld (getFn t f).negAgreed 0 8 = 1
        ∧ bfld (getFn t f).negAgreed 8 8 = min (bfld v 8 8) 3
        ∧ (∀ b, 16 ≤ b → (getFn t f).negAgreed.getLsbD b = true → v.getLsbD b = true)
        ∧ (∀ b, 16 ≤ b → b ≤ 18 → (getFn t f).negAgreed.getLsbD b = v.getLsbD b)
        ∧ getFn t (!f) = getFn s (!f) ∧ workKept s t)
    ∧ (bfld v 0 8 ≠ 1 → ∃ t, exec (.negHostFeatures f v) s = .next t ∧ (getFn t f).negAgreed = 0
        ∧ logged s t (droneIsland s) 2 0x0603 (b01 f) (bfld v 0 8) ∧ getFn t (!f) = getFn s (!f) ∧ workKept s t)
    ∧ (v.getLsbD 63 = true → ((getFn s f).negAgreed = 0 ∨ bfld v 0 5 < 6 ∨ 12 < bfld v 0 5 ∨ bfld v 5 5 < 6 ∨ 12 < bfld v 5 5) → exec (.adminCfgWrite f v) s = .next s)
    ∧ (v.getLsbD 63 = false ∨ ((getFn s f).negAgreed ≠ 0 ∧ 6 ≤ bfld v 0 5 ∧ bfld v 0 5 ≤ 12 ∧ 6 ≤ bfld v 5 5 ∧ bfld v 5 5 ≤ 12) →
      ∃ t, exec (.adminCfgWrite f v) s = .next t ∧ (getFn t f).adminCfg = v &&& 0x80000000000003FF#64
        ∧ (v.getLsbD 63 = true → (getFn s f).adminCfg.getLsbD 63 = false → (getFn t f).adminSeq = 0 ∧ (getFn t f).adminFetched = [])
        ∧ getFn t (!f) = getFn s (!f) ∧ workKept s t)

/-- The management page: the submission mode of a partition without queues changes as written and refuses that of another;
HDM_CFG changes while uncommitted and commits a window that fits; a read returns its value and clears the read-to-clear
registers that it covers in full. -/
def Obligations.ManagementRegisters : Prop :=
  ∀ (f : Bool) (s : State), (getFn s f).linkUp = true → droneUp s = true → (f = false ∨ s.hs.l1Act = true ∨ s.hs.failover = true) →
    (∀ v : W64, agreed s f 16 = true →
      ∃ t, exec (.partFrontModeWrite f v) s = .next t
        ∧ (∀ p, p < 8 → t.fe.mode.getLsbD p = if partHasQueue s p then s.fe.mode.getLsbD p else v.getLsbD p)
        ∧ (∀ p, p < 8 → partHasQueue s p = true → v.getLsbD p ≠ s.fe.mode.getLsbD p → t.fe.modeRefused.getLsbD p = true)
        ∧ t.fe.queues = s.fe.queues ∧ t.fe.ctxs = s.fe.ctxs ∧ t.mem = s.mem ∧ t.hs = s.hs)
    ∧ (∀ (v : W64) (commit : Bool), agreed s f 18 = true →
      ∃ t, exec (.hdmCfgWrite f v true commit) s = .next t ∧ t.hs.hdmSize = bfld v 0 10 ∧ t.hs.hdmBase = bfld v 16 16
        ∧ t.fl.hdmSize = bfld v 0 10 ∧ t.fl.hdmBase = bfld v 16 16
        ∧ t.hs.hdmBad = !hdmFits s (bfld v 0 10) (bfld v 16 16)
        ∧ t.hs.hdmLocked = (commit && hdmFits s (bfld v 0 10) (bfld v 16 16) && decide (bfld v 0 10 ≠ 0)) ∧ workKept s t)
    ∧ (∀ v : W64, s.hs.hdmLocked = true → exec (.hdmCfgWrite f v false false) s = .next s)
    ∧ (∀ (off : BitVec 24) (size : Nat), accessOk off.toNat size = true → pageServed s f off.toNat = true →
      ∃ t, exec (.rcRegisterRead f off size) s = .next t ∧ t.out = s.out ++ [.hostData f (BitVec.ofNat 64 (bar0Read s f off.toNat size))]
        ∧ t.mem.cells = s.mem.cells ∧ t.fe.ctxs = s.fe.ctxs ∧ t.en = s.en ∧ t.ax = s.ax)
    ∧ (∃ t, exec (.rcRegisterRead f 0x81010#24 8) s = .next t ∧ t.fr.absReq = 0)
    ∧ (∃ t, exec (.rcRegisterRead f 0x81010#24 4) s = .next t ∧ t.fr.absReq = s.fr.absReq)
    ∧ (∃ t, exec (.rcRegisterRead f 0x21020#24 8) s = .next t ∧ t.rx.late = 0 ∧ t.rx.short = 0)
    ∧ (∃ t, exec (.rcRegisterRead f 0x21020#24 4) s = .next t ∧ t.rx.late = 0 ∧ t.rx.short = s.rx.short)

/-- Host writes to registers with no row of their own: a value of the register's range is taken, another is ignored, a 4-byte
write changes only its half, a register with a row of its own does what that row does, a written 1 clears a latched event, and nothing is written while the Drone is down. -/
def Obligations.HostRegisterWrites : Prop :=
  ∀ (f : Bool) (v : W64) (s : State), (getFn s f).linkUp = true → (f = false ∨ s.hs.l1Act = true ∨ s.hs.failover = true) →
    (droneUp s = false → ∀ off : BitVec 24, hubServed off.toNat = false → exec (.registerWrite f off 8 v) s = .next s)
    ∧ (droneUp s = true →
      (∃ t, exec (.registerWrite f 0x10#24 8 v) s = .next t ∧ workKept s t
        ∧ (getFn t f).grace = if 10 ≤ v.toNat ∧ v.toNat ≤ 3600 then v.toNat else (getFn s f).grace)
      ∧ (∃ t, exec (.registerWrite f 0x34#24 4 v) s = .next t ∧ workKept s t
        ∧ (getFn t f).adminRing = BitVec.ofNat 64 (((getFn s f).adminRing.toNat % 2 ^ 32 + 2 ^ 32 * (v.toNat % 2 ^ 32)) / 64 * 64))
      ∧ (∃ t, exec (.registerWrite f 0x25408#24 8 v) s = .next t ∧ workKept s t
        ∧ t.pw.pwrCap = if 1000 ≤ bfld v 0 13 ∧ bfld v 0 13 ≤ 4200 then bfld v 0 13 else s.pw.pwrCap)
      ∧ (∃ t, exec (.registerWrite f 0x25400#24 8 v) s = .next t ∧ workKept s t
        ∧ (700 ≤ bfld v 0 16 → bfld v 0 16 ≤ 950 → bfld t.pw.thermCfg 0 16 = bfld v 0 16)
        ∧ (bfld v 0 16 < 700 ∨ 950 < bfld v 0 16 → bfld t.pw.thermCfg 0 16 = bfld s.pw.thermCfg 0 16))
      ∧ (∃ t, exec (.registerWrite f 0x29010#24 8 v) s = .next t ∧ workKept s t ∧ t.fl.pwrEvents = s.fl.pwrEvents &&& ~~~v)
      ∧ (∃ t, exec (.registerWrite f 0x80028#24 8 v) s = .next t ∧ workKept s t
        ∧ t.fr.waitDl = if 100 ≤ v.toNat ∧ v.toNat ≤ 600000 then v.toNat else s.fr.waitDl)
      ∧ (∃ t, exec (.registerWrite f 0x21000#24 4 v) s = .next t ∧ t.mem = s.mem ∧ t.fe = s.fe
        ∧ t.rx.deadlineInit = if v.toNat % 2 ^ 32 = 0 then s.rx.deadlineInit else v.toNat % 2 ^ 32)
      ∧ (∃ t, exec (.registerWrite f 0x18#24 8 v) s = .next t ∧ (getFn t f).negAgreed = agree v ∧ workKept s t)
      ∧ (agreed s f 18 = true → s.hs.hdmLocked = false → ∃ t, exec (.registerWrite f 0x20098#24 8 v) s = .next t
        ∧ t.hs.hdmSize = bfld v 0 10 ∧ t.hs.hdmBase = bfld v 16 16 ∧ workKept s t))

/-! ### Bring-up, sideband and firmware -/

/-- The stages of bring-up run in order: each ends in the next, in RECOVERY without an accepted bank, or in FAILED with its
stage and reason; Ready is declared once every named port matches. -/
def Obligations.BringUpStages : Prop :=
  ∀ s : State, s.pw.powered = true →
    (s.bt.stage = 0 → s.pw.pwrGood = false → ∃ t, exec .power s = .next t ∧ t.bt.stage = 1 ∧ t.pw.pwrGood = true ∧ workKept s t)
    ∧ (s.bt.stage = 1 →
      let ok := bankOk s
      ∃ t, exec .rom s = .next t ∧ workKept s t
        ∧ (ok s.fl.fwPref = true → t.bt.stage = 2 ∧ t.bt.bank = s.fl.fwPref ∧ t.bt.altOk = ok (!s.fl.fwPref))
        ∧ (ok s.fl.fwPref = false → ok (!s.fl.fwPref) = true → t.bt.stage = 2 ∧ t.bt.bank = !s.fl.fwPref ∧ t.bt.altOk = false)
        ∧ (ok s.fl.fwPref = false → ok (!s.fl.fwPref) = false → t.bt.stage = 10 ∧ t.pw.rails = false))
    ∧ (s.bt.stage = 2 →
      ∃ t, exec .licence s = .next t ∧ t.bt.stage = 3 ∧ t.bt.licCode = (if s.fl.licHeld then licenceCode s s.fl.licence else 1)
        ∧ t.bt.grade = (if t.bt.licCode = 0 then mapField s.fl.licence 48 1 else 0) ∧ workKept s t)
    ∧ (s.bt.stage = 3 → ∃ t, exec .fabric s = .next t ∧ t.bt.stage = 4 ∧ (getProc t 2).state = 2 ∧ (getProc t 3).state = 2 ∧ workKept s t)
    ∧ (∀ r : MemReport, s.bt.stage = 4 →
      ∃ t, exec (.memory r) s = .next t ∧ t.fl.hbmTrained = true ∧ t.fl.rowsToRepair = [] ∧ t.mem.cells = s.mem.cells
        ∧ (s.bt.grade ≠ 0 → t.bt.stage = 5) ∧ (s.bt.grade = 0 → t.bt.stage = 9 ∧ t.bt.failStage = 2 ∧ t.bt.failReason = 2))
    ∧ (s.bt.stage = 5 → ∃ t, exec .links s = .next t
        ∧ (∀ n, n < 12 → (getPort t n).state = if portEnabled s n = true ∧ axisOff s n = false ∧ (getPort s n).state = 0 then 1 else (getPort s n).state)
        ∧ ((∀ n, n < 12 → portEnabled s n = true → axisOff s n = true ∨ (getPort s n).state = 7 ∨ (getPort s n).state = 9) → t.bt.stage = 6)
        ∧ ((∃ n, n < 12 ∧ portEnabled s n = true ∧ axisOff s n = false ∧ (getPort s n).state ≠ 7 ∧ (getPort s n).state ≠ 9) → t.bt.stage = 5))
    ∧ (∀ r : ComputeReport, s.bt.stage = 6 → (∀ x ∈ s.fr.resets, x.dom ≠ .chip) →
      let why := (computeWork true r s).2
      ∃ t, exec (.compute r) s = .next t ∧ t.bt.personalityOk = (why == 0) ∧ t.bt.computeDone = (why == 0)
        ∧ (why = 0 → t.bt.stage = 7 ∧ ∀ cd k, cd < 32 → k < 64 → isBadSite t cd (psite t (64 * cd + k)) = false)
        ∧ (why ≠ 0 → t.bt.stage = 9 ∧ t.bt.failStage = 6 ∧ t.bt.failReason = why))
    ∧ (∀ e : Extract, s.bt.stage = 7 → s.bt.computeDone = true → s.bt.ready = false → droneUp s = true → s.bt.held = some e →
      ∃ t, exec .topology s = .next t ∧ t.bt.inForce = some e ∧ t.bt.held = none
        ∧ (∀ n, n < 12 → (getPort t n).fwd = (mget 0 t.bt.portResult n == 1))
        ∧ (∀ n, n < 12 → e.portMask.getLsbD n = false → mget 0 t.bt.portResult n = 0)
        ∧ t.bt.ready = (licenceValid s && s.bt.personalityOk && matchAll t) ∧ (t.bt.ready = true → t.bt.stage = 8 ∧ noticed s t (.readyNotice true 2)))
    ∧ (∀ (r : TileRep) (c : Nat), r.cols.length ≤ 16 → c < 1024 →
      physCol r c < 1040 ∧ (∀ e ∈ r.cols, physCol r c ≠ e.1) ∧ ∀ d, d < c → physCol r d < physCol r c)
    ∧ (∀ (r : TileRep) (j : Nat), (∀ b, r.blk = some b → physBlock r j ≠ b) ∧ ∀ i, i < j → physBlock r i < physBlock r j)
    ∧ (s.bt.stage ≤ 6 ∨ (s.bt.stage = 7 ∧ s.bt.held.isSome = true) → ∃ t, exec .stageTimeout s = .next t ∧ t.bt.stage = 9 ∧ t.bt.failStage = s.bt.stage ∧ t.bt.failReason = 1 ∧ workKept s t)

/-- What the fabric manager and the tray send to the Drone: an extract that passes its checks is taken in, one that fails
leaves its reason; a changed COLL_LINE ends the axis's open collectives; a route entry is written whole; a licence is stored
only when it passes its checks and its SERIAL is greater. -/
def Obligations.FabricManagerAndTrayMessages : Prop :=
  ∀ s : State, sidebandUp s = true →
    (∀ bytes : List Byte, extractReason s bytes = 0 →
      let e := parseExtract bytes
      ∃ t, exec (.manifestExtract bytes) s = .next t ∧ t.fl.manifestGen = e.generation ∧ t.et.coord = e.coord ∧ t.et.coordValid = true
        ∧ t.et.axisSize = e.axes
        ∧ (∀ n, n < 12 → axisSizeOf e.axes (portAxis n) = 1 → (getPort t n).state = 0) ∧ (if s.bt.computeDone = true ∧ s.bt.stage ≠ 9 then t.bt.inForce = some e else t.bt.held = some e))
    ∧ (∀ bytes : List Byte, extractReason s bytes = 4 → s.bt.inForce = some (parseExtract bytes) → exec (.manifestExtract bytes) s = .next s)
    ∧ (∀ bytes : List Byte, extractReason s bytes ≠ 0 → (extractReason s bytes = 4 → s.bt.inForce ≠ some (parseExtract bytes)) →
      ∃ t, exec (.manifestExtract bytes) s = .next t ∧ t.bt.mreason = extractReason s bytes ∧ t.fl = s.fl ∧ t.et = s.et
        ∧ t.bt.inForce = s.bt.inForce ∧ t.bt.held = s.bt.held
        ∧ logged s t (droneIsland s) 2 0x0602 (extractReason s bytes) (parseExtract bytes).generation.toNat)
    ∧ (∀ (axis : BitVec 2) (val : W32), mget 0 s.rx.line axis.toNat ≠ val &&& 0x80007F7F#32 →
      ∃ t, exec (.collLineSet axis val) s = .next t ∧ mget 0 t.rx.line axis.toNat = val &&& 0x80007F7F#32
        ∧ (∀ a, a ≠ axis.toNat → mget 0 t.rx.line a = mget 0 s.rx.line a)
        ∧ (∀ k, (getSlot s k).live = true → bfld (getSlot s k).desc 1 2 = axis.toNat → (getSlot t k).ending = some 0x33)
        ∧ (∀ k, (getSlot s k).live = true → bfld (getSlot s k).desc 1 2 ≠ axis.toNat → getSlot t k = getSlot s k) ∧ bytesKept s t)
    ∧ (∀ (e : BitVec 12) (entry : W64), ∃ t, exec (.routeExcWrite e entry) s = .next t
        ∧ (∀ a, mget 0 t.et.route a = if a = e.toNat then entry &&& 0x800007FFFFFFFFFF#64 else mget 0 s.et.route a) ∧ t.et.ports = s.et.ports ∧ bytesKept s t)
    ∧ (∀ bytes : List Byte,
      let m := putBytes 0 bytes []
      let good := licenceCode s m = 0 ∧ (s.fl.licHeld = false ∨ mapField s.fl.licence 56 8 < mapField m 56 8)
      (good → ∃ t, exec (.sbLicenceInstall bytes) s = .next t ∧ t.fl = { s.fl with licHeld := true, licence := m } ∧ replied s t 3 3 0 [])
      ∧ (¬ good → ∃ t, exec (.sbLicenceInstall bytes) s = .next t ∧ t.fl = s.fl ∧ replied s t 3 3 1 []
          ∧ logged s t (droneIsland s) 2 0x0601 (licenceCode s m) (mapField m 56 8)))

/-- Every message of Table 14-10 has its answer while the endpoint is up (SPDM over DOE too), sets what it is to set, and leaves
the module's work alone; while it is down no message is answered or taken in, but for the firmware-update service in RECOVERY.
Numbers that the published protocols give are the model's own words. -/
def Obligations.SidebandMessagesAreAnswered : Prop :=
  (∀ s : State, sidebandUp s = true →
    (∀ id : Byte, ∃ t, exec (.setEndpointId id) s = .next t ∧ t.fw.eid = id.toNat ∧ replied s t 0 0 0 [])
    ∧ (∃ t, exec .getEndpointId s = .next t ∧ replied s t 0 1 0 [s.fw.eid] ∧ t.fw = s.fw)
    ∧ (∃ t, exec .getEndpointUuid s = .next t ∧ replied s t 0 2 0 (openWords 1 2) ∧ t.fw = s.fw)
    ∧ (∃ t, exec .getMctpVersionSupport s = .next t ∧ replied s t 0 3 0 (openWords 2 1) ∧ t.fw = s.fw)
    ∧ (∃ t, exec .getMessageTypeSupport s = .next t ∧ replied s t 0 4 0 [0, 1, 5, 0x7E] ∧ t.fw = s.fw)
    ∧ (∃ t, exec .getVendorDefinedMessageSupport s = .next t ∧ replied s t 0 5 0 (openWords 3 1) ∧ t.fw = s.fw)
    ∧ (∃ t, exec .gettid s = .next t ∧ replied s t 1 0 0 [s.fw.tid, s.fw.slotId] ∧ t.fw = s.fw)
    ∧ (∀ id : Byte, ∃ t, exec (.settid id) s = .next t ∧ t.fw.tid = id.toNat ∧ replied s t 1 1 0 [])
    ∧ (∀ ty : Byte, ty = 0 ∨ ty = 2 ∨ ty = 5 →
        (∃ t, exec (.getpldmversion ty) s = .next t ∧ replied s t 1 2 0 (openWords (16 + ty.toNat) 1))
        ∧ (∃ t, exec (.getpldmcommands ty) s = .next t ∧ replied s t 1 4 0 (upto (if ty = 5 then 13 else 5))))
    ∧ (∃ t, exec .getpldmtypes s = .next t ∧ replied s t 1 3 0 [0x25])
    ∧ (∀ h : W32, ∃ t, exec (.getpdr h) s = .next t ∧ replied s t 1 16 0 (openWords (2 ^ 40 + h.toNat) 1))
    ∧ (∀ (n : BitVec 16) (v : Nat), numericSensor s n.toNat = some v → ∃ t, exec (.getsensorreading n) s = .next t ∧ replied s t 1 17 0 [v])
    ∧ (∀ (n : BitVec 16) (v : Nat), stateSensor s n.toNat = some v → ∃ t, exec (.getstatesensorreadings n) s = .next t ∧ replied s t 1 18 0 [v])
    ∧ (∀ a : Byte, ∃ t, exec (.seteventreceiver a) s = .next t ∧ t.fw.eventReceiver = a.toNat ∧ replied s t 1 19 0 [])
    ∧ (∃ t, exec .querydeviceidentifiers s = .next t ∧ replied s t 1 32 0 (openWords 4 1))
    ∧ (∃ t, exec .getfirmwareparameters s = .next t ∧ replied s t 1 33 0 [mapField s.fl.bankA 16 8, mapField s.fl.bankB 16 8])
    ∧ (s.fw.pldm = 0 → ∃ t, exec .requestupdate s = .next t ∧ t.fw.pldm = 1 ∧ replied s t 1 34 0 [])
    ∧ (s.fw.pldm = 1 → ∃ t, exec (.passcomponenttable 0) s = .next t ∧ t.fw.pldm = 2 ∧ replied s t 1 35 0 [])
    ∧ (∀ image : List Byte, s.fw.pldm = 2 →
        let good := bankOk (putBank (!s.bt.bank) image s) (!s.bt.bank)
        ∃ t, exec (.updatecomponent 0 image) s = .next t ∧ bankOf t (!s.bt.bank) = putBytes 0 image [] ∧ bankOf t s.bt.bank = bankOf s s.bt.bank
          ∧ t.fw.pldm = (if good = true then 3 else 2) ∧ t.bt.altOk = good ∧ workKept s t ∧ t.pw = s.pw ∧ t.hs = s.hs
          ∧ t.out = s.out ++ [.reply 1 36 0 [], .pldm 37 [0, BitVec.ofNat 64 image.length], .pldm 38 [0]]
              ++ (if good = true then [.pldm 39 [0], .pldm 40 [0]] else [.pldm 39 [1]]))
    ∧ (s.fw.pldm = 3 → ∃ t, exec .activatefirmware s = .next t ∧ t.fl.fwPref = !s.bt.bank ∧ t.fw.pldm = 0 ∧ replied s t 1 41 0 [])
    ∧ (∃ t, exec .getstatus s = .next t ∧ replied s t 1 42 0 [s.fw.pldm])
    ∧ (2 ≤ s.fw.pldm → ∃ t, exec .cancelupdatecomponent s = .next t ∧ t.fw.pldm = 2 ∧ replied s t 1 43 0 [])
    ∧ (1 ≤ s.fw.pldm → ∃ t, exec .cancelupdate s = .next t ∧ t.fw.pldm = 0 ∧ replied s t 1 44 0 []))
  ∧ (∀ s : State, protoUp s 2 = true →
    (∃ t, exec .getVersion s = .next t ∧ replied s t 2 0 0 [0x12])
    ∧ (∃ t, exec .getCapabilities s = .next t ∧ replied s t 2 1 0 (openWords 5 1))
    ∧ (∀ o : W32, bfld o 0 3 = 7 → ∃ t, exec (.negotiateAlgorithms o) s = .next t ∧ t.fw.spdmAlgs = true ∧ replied s t 2 2 0 [7])
    ∧ (s.fw.spdmAlgs = true →
        (∃ t, exec .getDigests s = .next t ∧ replied s t 2 3 0 (words4 (shaField (certChain s))))
        ∧ (∀ off len : BitVec 16, ∃ t, exec (.getCertificate 0 off len) s = .next t
            ∧ replied s t 2 4 0 (byteWords (((certChain s).drop off.toNat).take len.toNat)))
        ∧ (∀ nonce : BitVec 256,
            let said := words4 (shaField (certChain s)) ++ words4 nonce.toNat
            ∃ t, exec (.challenge 0 nonce) s = .next t ∧ replied s t 2 5 0 (said ++ signature s said))
        ∧ (∀ (i : Byte) (signed : Bool), i.toNat ≤ 6 ∨ i = 0xFF →
            let blocks := if i = 0 then [6] else if i = 0xFF then (upto 6).flatMap (fun k => words4 (measurement s (k + 1))) else words4 (measurement s i.toNat)
            ∃ t, exec (.getMeasurements i signed) s = .next t ∧ replied s t 2 6 0 (blocks ++ if signed then signature s blocks else []))))
  ∧ (∀ s : State, doeUp s = true →
    (s.fw.spdmAlgs = true → ∃ t, exec (.keyExchange true) s = .next t ∧ t.fw.spdmSession = 1 ∧ replied s t 2 7 0 [])
    ∧ (s.fw.spdmSession = 1 → ∃ t, exec (.finish true) s = .next t ∧ t.fw.spdmSession = 2 ∧ replied s t 2 8 0 [])
    ∧ (s.fw.spdmSession = 2 → (∃ t, exec (.keyUpdate true) s = .next t ∧ t.fw.spdmSession = 2 ∧ replied s t 2 9 0 [])
        ∧ (∃ t, exec (.endSession true) s = .next t ∧ t.fw.spdmSession = 0 ∧ replied s t 2 10 0 [])))
  ∧ (∀ s : State, sidebandUp s = true → ∀ c ∈ ([(7, .keyExchange false), (8, .finish false), (9, .keyUpdate false), (10, .endSession false)] : List (Nat × Instr)),
      ∃ t, exec c.2 s = .next t ∧ replied s t 2 c.1 5 [] ∧ t.fw = s.fw)
  ∧ (∀ (s : State) (p c : Byte), protoUp s p.toNat = true →
      ∃ t, exec (.unsupportedMessage p c) s = .next t ∧ replied s t p.toNat c.toNat 5 [] ∧ t.fw = s.fw)
  ∧ (∀ s : State, sidebandUp s = false →
    (∀ (id ty : Byte) (o : W32) (n : BitVec 16) (bytes : List Byte) (axis : BitVec 2) (e : BitVec 12) (w : W64),
      ∀ c ∈ ([.setEndpointId id, .getEndpointId, .getEndpointUuid, .getMctpVersionSupport, .getMessageTypeSupport,
          .getVendorDefinedMessageSupport, .gettid, .settid id, .getpldmversion ty, .getpldmtypes, .getpldmcommands ty, .getpdr o,
          .getsensorreading n, .getstatesensorreadings n, .seteventreceiver id, .manifestExtract bytes, .collLineSet axis o,
          .routeExcWrite e w, .sbLicenceInstall bytes] : List Instr),
        exec c s = .next s)
    ∧ (doeUp s = false → ∀ (id : Byte) (o : W32) (n : BitVec 16) (nonce : BitVec 256) (b : Bool),
      ∀ c ∈ ([.getVersion, .getCapabilities, .negotiateAlgorithms o, .getDigests, .getCertificate id n n, .challenge id nonce,
          .getMeasurements id b, .keyExchange b, .finish b, .keyUpdate b, .endSession b] : List Instr),
        exec c s = .next s)
    ∧ (∀ p c : Byte, protoUp s p.toNat = false → exec (.unsupportedMessage p c) s = .next s)
    ∧ (s.pw.powered = true → s.bt.stage = 10 → s.pw.i3cDead = false → s.fw.pldm = 0 →
        ∃ t, exec .requestupdate s = .next t ∧ t.fw.pldm = 1 ∧ replied s t 1 34 0 [])
    ∧ (updateUp s = false → ∀ (n : BitVec 16) (bytes : List Byte),
      ∀ c ∈ ([.querydeviceidentifiers, .getfirmwareparameters, .requestupdate, .passcomponenttable n, .updatecomponent n bytes,
          .activatefirmware, .getstatus, .cancelupdatecomponent, .cancelupdate] : List Instr), exec c s = .next s))

/-- Mailbox commands: each ends in OK, REFUSED or BAD_ARGS, and does what it is for only when it ends in OK. -/
def Obligations.MailboxCommands : Prop :=
  ∀ (f : Bool) (s : State),
    (mbxRuns s f 1 = true → mbxLen s = 256 →
      let m := putBytes 0 (mbxBytes s 0 256) []
      let good := licenceCode s m = 0 ∧ (s.fl.licHeld = false ∨ mapField s.fl.licence 56 8 < mapField m 56 8)
      ∃ t, exec (.licenceInstall f) s = .next t ∧ workKept s t
        ∧ (good → t.fl = { s.fl with licHeld := true, licence := m } ∧ mailboxEnded t 2 0)
        ∧ (¬ good → t.fl = s.fl ∧ mailboxEnded t 3 (licenceCode s m)))
    ∧ (mbxRuns s f 1 = true → mbxLen s ≠ 256 → ∃ t, exec (.licenceInstall f) s = .next t ∧ mailboxEnded t 4 0 ∧ t.fl = s.fl ∧ workKept s t)
    ∧ (∀ a : RepairAuth, mbxRuns s f 2 = true → s.hs.blowMbx = false → s.hs.blowNext = none →
      (repairReason s a = 0 → ∃ t, exec (.repairAuth f a) s = .next t ∧ t.fl = s.fl ∧ t.bt = s.bt ∧ workKept s t
          ∧ (s.hs.blowing = none → t.hs.blowing = some (a.tile, a.block, a.cols) ∧ t.hs.blowMbx = true)
          ∧ (s.hs.blowing ≠ none → t.hs.blowing = s.hs.blowing ∧ t.hs.blowNext = some (a.tile, a.block, a.cols)))
      ∧ (repairReason s a ≠ 0 → ∃ t, exec (.repairAuth f a) s = .next t ∧ mailboxEnded t 3 (repairReason s a) ∧ t.fl = s.fl ∧ t.bt = s.bt
          ∧ logged s t (droneIsland s) 2 0x0403 a.tile (repairReason s a)))
    ∧ (∀ (tile c : Nat) (cs : List Nat), s.hs.blowing = some (tile, false, c :: cs) → s.hs.blowMbx = true → s.hs.blowNext = none →
      procUp s (tileChest tile) = true →
      ∃ t, exec (.fuseEntryBlown tile) s = .next t
        ∧ mget {} t.fl.fusedTiles tile = fuseLine false c (mget {} s.fl.fusedTiles tile) ∧ mget {} t.bt.tiles tile = fuseLine false c (mget {} s.bt.tiles tile)
        ∧ (cs = [] → t.hs.blowing = none ∧ mailboxEnded t 2 0)
        ∧ (cs ≠ [] → mget false s.fr.heldParts (cdPart (partCount s) tile) = true → t.hs.blowing = some (tile, false, cs))
        ∧ (cs ≠ [] → mget false s.fr.heldParts (cdPart (partCount s) tile) = false → t.hs.blowing = none ∧ mailboxEnded t 3 2)
        ∧ t.mem = s.mem)
    ∧ (∀ (tile b : Nat) (cs : List Nat), s.hs.blowing = some (tile, true, cs) → (mget {} s.bt.tiles tile).blk = some b →
      procUp s (tileChest tile) = true →
      ∃ t, exec (.fuseEntryBlown tile) s = .next t ∧ t.mem = s.mem
        ∧ mget {} t.fl.fusedTiles tile = fuseLine true b (mget {} s.fl.fusedTiles tile) ∧ mget {} t.bt.tiles tile = fuseLine true b (mget {} s.bt.tiles tile))
    ∧ (mbxRuns s f 3 = true → 16 ≤ mbxLen s → leNat (mbxBytes s 0 1) ≤ 1 → (leNat (mbxBytes s 0 1) = 1 ↔ s.bt.bank = false) →
      ∃ t, exec (.fwWrite f) s = .next t ∧ mailboxEnded t 2 0 ∧ bankOf t s.bt.bank = bankOf s s.bt.bank ∧ workKept s t
        ∧ bankOf t (!s.bt.bank) = putBytes (leNat (mbxBytes s 8 8)) (mbxBytes s 16 (mbxLen s - 16)) (bankOf s (!s.bt.bank)))
    ∧ (mbxRuns s f 3 = true → 16 ≤ mbxLen s → leNat (mbxBytes s 0 1) ≤ 1 → (leNat (mbxBytes s 0 1) = 1 ↔ s.bt.bank = true) →
      ∃ t, exec (.fwWrite f) s = .next t ∧ mailboxEnded t 3 0 ∧ t.fl = s.fl ∧ workKept s t)
    ∧ (mbxRuns s f 4 = true → 1 ≤ mbxLen s → leNat (mbxBytes s 0 1) ≤ 1 →
      let b := leNat (mbxBytes s 0 1) == 1
      ∃ t, exec (.fwCheck f) s = .next t ∧ mailboxEnded t (if bankOk s b then 2 else 3) 0 ∧ t.fl = s.fl ∧ workKept s t)
    ∧ (mbxRuns s f 5 = true → 8 ≤ mbxLen s → leNat (mbxBytes s 0 8) < 3 →
      ∃ t, exec (.idCert f) s = .next t ∧ mailboxEnded t 2 0 ∧ t.hs.mbxData = putBytes 0 (certificate s (leNat (mbxBytes s 0 8))) s.hs.mbxData ∧ t.fl = s.fl ∧ workKept s t)

/-- Firmware processors: a watchdog freezes what its processor governs, a restart reads the hardware back and counts itself, a
third firing hands the role to the standby, and another processor reads FAILED. -/
def Obligations.WatchdogRestartAndTakeover : Prop :=
  ∀ (proc : Nat) (s : State), procLoaded s proc = true →
    (∀ (exception : Bool) (held : List HubWrite), (getProc s proc).state ≠ 1 → (getProc s proc).state ≠ 3 → frozenIsl s (procIsland proc) = false →
      ∃ t, exec (.watchdogFire proc exception held) s = .next t ∧ (getProc t proc).state = 1 ∧ (getProc t proc).fires = (getProc s proc).fires + 1
        ∧ (getProc t proc).lastCause = (if exception then 2 else 1) ∧ t.mem = s.mem ∧ t.fe = s.fe ∧ t.ax = s.ax
        ∧ (54 ≤ proc → (getPort t (proc - 54)).sparingPaused = true)
        ∧ (isDrone s proc = true → s.hs.mbxState = 1 → t.hs.mbxState = 5))
    ∧ ((getProc s proc).state = 1 → 4 ≤ proc →
      ∃ t, exec (.procRestart proc) s = .next t ∧ (getProc t proc).state = 0 ∧ (getProc t proc).restarts = satAdd 255 (getProc s proc).restarts 1
        ∧ (36 ≤ proc → proc < 54 → logged s t (procIsland proc) 2 0x0101 (proc + 2 ^ 8 * (getProc s proc).lastCause) (satAdd 255 (getProc s proc).restarts 1))
        ∧ (54 ≤ proc → (getPort t (proc - 54)).sparingPaused = false)
        ∧ (36 ≤ proc → t.mem = s.mem ∧ t.fe = s.fe ∧ t.hs = s.hs))
    ∧ ((getProc s proc).state = 1 → proc = 2 ∨ proc = 3 → (getProc s proc).activeRole = false →
      ∃ t, exec (.procRestart proc) s = .next t ∧ (getProc t proc).state = 2
        ∧ logged s t (procIsland proc) 2 0x0101 (proc + 2 ^ 8 * (getProc s proc).lastCause) (satAdd 255 (getProc s proc).restarts 1)
        ∧ t.mem = s.mem ∧ t.fe = s.fe ∧ t.hs = s.hs)
    ∧ ((getProc s proc).state = 1 → 3 ≤ (getProc s proc).fires → proc = 1 → (getProc s 3).state = 2 →
      ∃ t, exec (.procTakeover proc) s = .next t ∧ (getProc t 1).state = 3 ∧ (getProc t 3).activeRole = true ∧ (getProc t 3).state = 0 ∧ chanterProc t = 3)
    ∧ ((getProc s proc).state = 1 → 3 ≤ (getProc s proc).fires → 36 ≤ proc →
      ∃ t, exec (.procTakeover proc) s = .next t ∧ (getProc t proc).state = 3 ∧ faultAdded s t 12 0 0 ∧ t.mem = s.mem ∧ t.fe = s.fe)

/-! ### The front end -/

/-- The commands that the front end carries out itself, on a queue ready to carry them out: what each leaves before the queue
takes its next command. -/
def Obligations.FrontEndCommands : Prop :=
  ∀ (qid : BitVec 20) (s : State) (e : Entry),
    let q := qid.toNat
    let v := getQ s q
    let fe := qcKey 7 0 0
    (headCmd s q 0x01 = some e → qKind q = 7 →
      ∃ u, thenNext (.nop (.queue qid)) s q u ∧ inFlightNow s u q e fe (some 0) ∧ bytesKept s u ∧ u.en.qcs = s.en.qcs ∧ u.ax = s.ax)
    ∧ (headCmd s q 0x01 = some e → qKind q ≠ 7 → atRest s q →
      ∃ u, thenNext (.nop (.queue qid)) s q u ∧ (getQ u q).cur = none
        ∧ (∃ x ∈ (getQ u q).inflight, x.entry = e ∧ x.id = v.dispatched ∧ x.target = q ∧ x.result = some 0) ∧ (getQc u q).seq = (getQc s q).nextSeq
        ∧ (getQc u q).nextSeq = (getQc s q).nextSeq + 1 ∧ (getQc u q).cmd = none ∧ bytesKept s u)
    ∧ (∀ (f : Bool) (b : InFlight), (getFn s f).adminBusy = some b → b.result = none → cmdOp b.entry.cmd = 1 → adminOn s f = true →
      ∃ t, exec (.nop (.admin f)) s = .next t ∧ adminEnded s t f 0 ∧ bytesKept s t ∧ t.fe = s.fe)
    ∧ (∀ bs s1, headCmd s q 0x10 = some e → readVa s v.ctx (cmdArg e.cmd 0) 8 accRead .other = (.ok bs, s1) →
      let holds := ifHolds (cmdCmp e.cmd) (leNat bs) (cmdArg e.cmd 1)
      (holds = false → ∃ u, thenNext (.ifCmd qid) s q u ∧ inFlightNow s u q e fe (some 0) ∧ (getQ u q).frames = v.frames)
      ∧ (holds = true → v.frames.length < 8 → ∃ u, thenNext (.ifCmd qid) s q u ∧ inFlightNow s u q e fe none
          ∧ ∃ f : Frame, (getQ u q).frames = f :: v.frames ∧ f.kind = 0 ∧ f.id = v.dispatched ∧ f.left = 1 ∧ f.next.toNat = cmdArg e.cmd 2))
    ∧ (headCmd s q 0x11 = some e → cmdArg e.cmd 0 = 0 → ∃ u, thenNext (.loopCmd qid) s q u ∧ inFlightNow s u q e fe (some 0) ∧ bytesKept s u)
    ∧ (∀ loc s1, headCmd s q 0x11 = some e → cmdArg e.cmd 0 ≠ 0 → v.frames.length < 8 → cmdArg e.cmd 1 ≠ 0 → cmdArg e.cmd 1 % 8 = 0 →
      translate s v.ctx (cmdArg e.cmd 1) accWrite .other = (.ok loc, s1) → loc % 8 = 0 → coreClosed s loc = false →
      ∃ u, thenNext (.loopCmd qid) s q u ∧ inFlightNow s u q e fe none ∧ stored s u loc (leBytes 8 0)
        ∧ ∃ f : Frame, (getQ u q).frames = f :: v.frames ∧ f.kind = 1 ∧ f.left = cmdArg e.cmd 0 ∧ f.next.toNat = cmdArg e.cmd 2)
    ∧ (headCmd s q 0x12 = some e → v.frames.length < 8 →
      ∃ u, thenNext (.callCmd qid) s q u ∧ inFlightNow s u q e fe none ∧ bytesKept s u
        ∧ ∃ f : Frame, (getQ u q).frames = f :: v.frames ∧ f.kind = 2 ∧ f.left = 1 ∧ f.next.toNat = cmdArg e.cmd 2)
    ∧ (∀ (f : Frame) (fs : List Frame), headCmd s q 0x13 = some e → v.frames = f :: fs → f.kind ≠ 3 → f.left ≤ 1 →
      ∃ u, thenNext (.retCmd qid) s q u ∧ (getQ u q).frames = fs ∧ bytesKept s u ∧ (getQ u q).cur = none
        ∧ (∀ x ∈ v.inflight, x.id = f.id → x.result = none → { x with result := some 0 } ∈ (getQ u q).inflight))
    ∧ (∀ ver, headCmd s q 0x14 = some e → e.bound = some (ver, v.ctx) →
      ∃ u, thenNext (.launch qid) s q u ∧ (getQ u q).launch = some e ∧ (getQ u q).cur = none ∧ bytesKept s u
        ∧ ∃ f : Frame, (getQ u q).frames = [f] ∧ f.kind = 3 ∧ f.graph = some (fld (cmdArg e.cmd 0) 0 12, ver) ∧ f.next = 0)
    ∧ (∀ (x : Entry) (xs : List Entry), v.cur = none → v.chainFrom = none → v.back = [] → v.frames = [] → v.launch = none → v.entries = x :: xs →
      ∃ y : Entry, (getQ (takeNext q s) q).cur = some y ∧ y.cmd = x.cmd ∧ y.seq = v.nextSeq ∧ (getQ (takeNext q s) q).entries = xs
        ∧ (getQ (takeNext q s) q).nextSeq = v.nextSeq + 1
        ∧ (cmdOp x.cmd = 0x14 → y.bound = (getGraph s (fld (cmdArg x.cmd 0) 0 12)).current.map (fun ver => (ver, (getGraph s (fld (cmdArg x.cmd 0) 0 12)).owner))))

/-- A command at depth 8 that would run a buffer is illegal and runs nothing; a graph that is not stored is an invalid
descriptor; PATCHGRAPH makes its patched copy the current version and leaves the pages of the version it replaces alone. -/
def Obligations.BuffersAndStoredGraphs : Prop :=
  ∀ (qid : BitVec 20) (s : State) (e : Entry),
    let q := qid.toNat
    let v := getQ s q
    let fe := qcKey 7 0 0
    (headCmd s q 0x12 = some e → 8 ≤ v.frames.length →
      ∃ u, thenNext (.callCmd qid) s q u ∧ inFlightNow s u q e fe (some 0x11) ∧ (getQ u q).frames = v.frames ∧ faultAdded s u 1 0x11 8 ∧ bytesKept s u)
    ∧ (headCmd s q 0x14 = some e → e.bound = none →
      ∃ u, thenNext (.launch qid) s q u ∧ inFlightNow s u q e fe (some 0x12) ∧ faultAdded s u 2 0x12 0 ∧ bytesKept s u)
    ∧ (∀ ver ib cb s1 s2 fresh, headCmd s q 0x15 = some e → freeVersions s = s →
      let g := fld (cmdArg e.cmd 0) 0 12
      let n := fld (cmdArg e.cmd 0) 16 16
      let gr := getGraph s g
      let is := indices n ib
      gr.current = some ver → gr.owner = v.ctx → readVa s v.ctx (cmdArg e.cmd 1) (4 * n) accRead .other = (.ok ib, s1) →
      readVa s1 v.ctx (cmdArg e.cmd 2) (64 * n) accRead .other = (.ok cb, s2) → (∀ i ∈ is, i < mget 0 gr.lengths ver) →
      gr.versions.length < 4 → allocPages s2 (is.map (· / 64)).dedup.length = some fresh → gr.nextVersion ∉ mkeys gr.versions → ver ≠ gr.nextVersion →
      ∃ u, exec (.patchgraph qid) s = .next (onlyWork s (settleQ q (freeVersions u))) ∧ inFlightNow s u q e fe (some 0)
        ∧ (getGraph u g).current = some gr.nextVersion ∧ (getGraph u g).nextVersion = gr.nextVersion + 1
        ∧ mget 0 (getGraph u g).lengths gr.nextVersion = mget 0 gr.lengths ver
        ∧ mget [] (getGraph u g).versions gr.nextVersion = freshPages (is.map (· / 64)).dedup fresh (mget [] gr.versions ver)
        ∧ mget [] (getGraph u g).versions ver = mget [] gr.versions ver)

/-- INSN and PROG hand the command to its queue context, the queue's own or the one that a tiered command names, which takes the
next sequence number and runs it; a switch takes the next ready context in order. -/
def Obligations.EnginesTakeCommands : Prop :=
  ∀ (qid : BitVec 20) (s : State) (e : Entry),
    let q := qid.toNat
    (∀ t : Nat, cmdInd e.cmd = false → startsAt s q t e →
      (headCmd s q 0x02 = some e → (cmdArg e.cmd 1 = 0 ∨ fld (cmdArg e.cmd 0) 51 1 = 1) →
        ∃ u, exec (.insn qid) s = .next (onlyFabric s (settleQ q (runSteps t 1 u))) ∧ inFlightNow s u q e t none ∧ startedAt s u q t false
          ∧ (∀ r, rdG (getQc u t) r = rdG (getQc (bindTarget q t s) t) r) ∧ bytesKept s u)
      ∧ (∀ steps : Nat, headCmd s q 0x03 = some e → cmdArg e.cmd 0 % 8 = 0 →
        ∃ u, exec (.prog qid steps) s = .next (onlyFabric s (settleQ q (runSteps t steps u))) ∧ inFlightNow s u q e t none ∧ startedAt s u q t true
          ∧ (getQc u t).pc.toNat = cmdArg e.cmd 0 ∧ (rdG (getQc u t) 1).toNat = cmdArg e.cmd 1 ∧ (rdG (getQc u t) 2).toNat = cmdArg e.cmd 2
          ∧ bytesKept s u))
    ∧ (∀ (t steps : Nat) (bs : List Byte) (s1 : State), cmdInd e.cmd = true → targetFenced s t = false → targetOf q e = t →
      targetAbsent s q e = false → targetBad s q e = false → dispatchWaits s q t = false → headCmd s q 0x03 = some e →
      readVa s (getQ s q).ctx (cmdArg e.cmd 2) 16 accRead .other = (.ok bs, s1) → leNat (bs.take 8) % 8 = 0 → startsAt s1 q t e →
      ∃ u, exec (.prog qid steps) s = .next (onlyFabric s (settleQ q (runSteps t steps u))) ∧ startedAt s1 u q t true
          ∧ (getQc u t).pc.toNat = leNat (bs.take 8) ∧ (rdG (getQc u t) 1).toNat = leNat (bs.drop 8) % 2 ^ 64)
    ∧ (∀ (kind index steps next : Nat),
      let k := engKey kind index
      let last := match (getEng s k).running with | some p => qCtxNo p | none => (getEng s k).last
      engUp s kind index = true → (∀ p, (getEng s k).running = some p → (getQc s p).chunk = none) →
      (kind = 2 → (getPart s index).fence = none ∧ (getPart s index).next = none) → ((getEng s k).running = none → staysWith s k = none) →
      nextReady last (qcsWhere s (fun x _ => qKind x == kind && qIndex x == index && (getEng s k).running != some x && readyCtx s x)) = some next →
      qKind next = kind → qIndex next = index →
      ∃ u, exec (.contextSwitch kind index steps) s = .next (onlyFabric s (runSteps next steps u))
        ∧ (getEng u k).running = some next ∧ (getQc u next).started = true ∧ bytesKept s u
        ∧ ((getQc s next).cmd ≠ none → (∀ r, rdG (getQc u next) r = rdG (getQc s next) r) ∧ (getQc u next).pc = (getQc s next).pc)
        ∧ ∀ x, x ≠ next → getQc u x = getQc s x)

/-- Fetching, command waits and completion: a polled index brings in the ring's new entries; a released wait readies its
command; a completed command leaves its completion word at its slot of the completion queue, or in the shadow, and one that
did not end with DONE stops its queue with its status. -/
def Obligations.FetchWaitAndCompletion : Prop :=
  ∀ (qid : BitVec 20) (s : State),
    let q := qid.toNat
    let v := getQ s q
    (∀ (h : HostDelta) (bs : List Byte) (s1 : State), s.pw.powered = true →
      let s0 := applyDelta h s
      let v0 := getQ s0 q
      let admins := fun (w : State) => fns.foldl (fun t f => if adminWatched t f then t else fetchAdmin f t) w
      queuesWhere s0 (fun _ x => x.polled) = [q] → mayFetch s0 q = true → v0.destroying = false → v0.state ≠ qStopped → v0.state ≠ qHalted →
      readVa s0 v0.ctx v0.piAddr.toNat 8 accRead .other = (.ok bs, s1) →
      s0.hs.hostMem = h.stores.foldl (fun m x => mset 0 m x.1 x.2) s.hs.hostMem
      ∧ ∃ u, (getQ u q).pi = leNat bs ∧ (getQ u q).fetched = v0.fetched ∧ (getQ u q).entries = v0.entries ∧ bytesSame s0 u
        ∧ exec (.producerIndexPoll h) s = .next (onlyWork s (admins (settleQ q (refill q u)))))
    ∧ (∀ (h : HostDelta) (line : W64), s.pw.powered = true →
      let s0 := applyDelta h s
      queuesWhere s0 (fun k x => !x.polled && (getFn s0 x.owner).linkUp && indexInLine s0 k line.toNat) = [q] →
      (∀ x, (getFn (fetchQ q s0) x).adminPi.toNat / 64 ≠ line.toNat / 64) →
      exec (.producerIndexWatch line h) s = .next (onlyWork s (fetchQ q s0)))
    ∧ ((getQ (refill q s) q).fetched ≤ max v.fetched v.pi ∧ (getQ (refill q s) q).entries.length ≤ max 64 v.entries.length
      ∧ (getQ (refill q s) q).nextSeq = v.nextSeq ∧ (getQ (refill q s) q).cur = v.cur)
    ∧ (∀ (n : Nat) (bs : List Byte) (s1 : State), readVa s v.ctx (ringAt v) 64 accRead .other = (.ok bs, s1) →
      ∃ t, takeRing q (n + 1) s = takeRing q n t ∧ (getQ t q).fetched = v.fetched + 1 ∧ bytesSame s t
        ∧ ∃ x : Entry, (getQ t q).entries = v.entries ++ [x] ∧ x.cmd = BitVec.ofNat 512 (leNat bs) ∧ x.addr = BitVec.ofNat 64 (ringAt v) ∧ x.chained = false)
    ∧ (v.live = true → v.state = qWaiting → waitReleased s q = true →
      ∃ t, exec (.commandWaitRelease qid) s = .next t ∧ (getQ t q).waitDone = true ∧ (getQ t q).state = (if sinkHeld s v then qHalted else qActive)
        ∧ (getQ t q).cur = v.cur ∧ (∀ k, k ≠ q → getQ t k = getQ s k) ∧ bytesKept s t ∧ t.en = s.en)
    ∧ (∀ (f : InFlight) (loc : Nat) (s1 : State), v.inflight.find? (fun x => x.result.isSome && x.entry.seq == f.entry.seq) = some f →
      f.result = some 0 → f.inGraph = false → cmdSig f.entry.cmd = false → cmdCw f.entry.cmd = true → cmdIrq f.entry.cmd = false →
      cmdChainEn f.entry.cmd = false → v.sinkBad = false →
      translate (modQ q (fun w => { w with inflight := w.inflight.filter (fun y => y.id != f.id) }) s) v.ctx
        (v.cq.toNat + 8 * (f.entry.seq.toNat % 2 ^ v.cqLog2)) accWrite .other = (.ok loc, s1) →
      v.cq.toNat % 8 = 0 → loc % 8 = 0 → coreClosed s loc = false →
      ∃ u, exec (.commandCompletion (.queue qid) f.entry.seq) s = .next (onlyWork s (freeVersions (finishDestroy q (settleQ q u))))
        ∧ (getQ u q).inflight = v.inflight.filter (fun x => x.id != f.id) ∧ stored s u loc (leBytes 8 f.entry.seq.toNat))
    ∧ (∀ (f : InFlight) (st : Nat), v.inflight.find? (fun x => x.result.isSome && x.entry.seq == f.entry.seq) = some f →
      f.result = some st → st ≠ 0 → f.inGraph = false → cmdIrq f.entry.cmd = false → v.sinkBad = true → v.live = true → v.state ≠ qStopped →
      ∃ u, exec (.commandCompletion (.queue qid) f.entry.seq) s = .next (onlyWork s (freeVersions (finishDestroy q (settleQ q u))))
        ∧ (getQ u q).inflight = v.inflight.filter (fun x => x.id != f.id) ∧ (getQ u q).state = qStopped ∧ (getQ u q).stopStatus = st
        ∧ (getQ u q).shadowLast = BitVec.ofNat 64 (st * 2 ^ 56 + f.entry.seq.toNat) ∧ (getQ u q).shadowCount = satAdd max32 v.shadowCount 1 ∧ bytesKept s u)

/-! ### Control commands -/

/-- Control commands on contexts and translations: the effect of each on its context, and the end of the command. -/
def Obligations.ContextControlCommands : Prop :=
  ∀ (f : Bool) (s : State) (e : Entry),
    let a := cmdArg e.cmd
    (∀ h, adminCmd s f 0x20 = some e →
      let c := fld (a 0) 0 8
      let p := fld (a 0) 8 3
      let ent := memNat s.mem h 16
      a 0 < 2 ^ 11 → a 2 = 0 → p < partCount s → (getCtx s c).state = ctxFree → homeOf (partCount s) (ctxEntryPa s c) = some h →
      poisoned (readLoc h s).mem (h / 64) = false → fld ent 0 1 = 1 → fld ent 2 10 = 0 → fld ent 48 16 = 0 → fld ent 84 44 = 0 →
      let x : Ctx := { state := ctxActive, owner := f, part := p, seed := BitVec.ofNat 64 (a 1) }
      ∃ t, exec (.ctxCreate f) s = .next t ∧ getCtx t c = (if partInReset s p then { x with state := ctxResetting, prior := ctxActive } else x)
        ∧ (∀ k, k ≠ c → getCtx t k = getCtx s k) ∧ adminEnded s t f 0 ∧ bytesSame s t ∧ t.en = s.en)
    ∧ (adminCmd s f 0x21 = some e → a 0 < 256 → a 1 = 0 → a 2 = 0 → ownsCtx s f (a 0) = true →
      ∃ t, exec (.ctxDestroy f) s = .next t ∧ (getCtx t (a 0)).state = ctxResetting
        ∧ (∃ r ∈ t.fr.resets, r.dom = .context (a 0) ∧ r.thenFree = true ∧ r.ctl = some f)
        ∧ (∀ k, k ≠ a 0 → getCtx t k = getCtx s k) ∧ bytesKept s t)
    ∧ (adminCmd s f 0x22 = some e → a 0 < 256 → a 1 ≤ 1 → a 2 = 0 → ownsCtx s f (a 0) = true → ctxResetRuns s (a 0) = false → largerRuns s (a 0) = false →
      ∃ t, exec (.ctxReset f) s = .next t ∧ (getCtx t (a 0)).state = ctxResetting
        ∧ (∃ r ∈ t.fr.resets, r.dom = .context (a 0) ∧ r.fabric = decide (a 1 = 1) ∧ r.thenFree = false ∧ r.ctl = some f)
        ∧ (∀ q, (getQc s q).live = true → (getQc s q).ctx = a 0 → qKind q ≤ kAX → (getQc t q).cmd = none)
        ∧ (∀ k, k ≠ a 0 → getCtx t k = getCtx s k) ∧ bytesKept s t)
    ∧ (adminCmd s f 0x23 = some e → a 0 < 256 → a 1 = 0 → a 2 = 0 → ownsCtx s f (a 0) = true → (getCtx s (a 0)).state = ctxQuiesced →
      (getFn s f).negAgreed ≠ 0 → anySinkBad s (a 0) = false →
      ∃ u, exec (.ctxResume f) s = .next (onlyWork s (ctlEnd f 0 0 0 0 0 (resumeQueues (a 0) u)))
        ∧ (getCtx u (a 0)).state = ctxActive ∧ (∀ k, k ≠ a 0 → getCtx u k = getCtx s k) ∧ u.fe.queues = s.fe.queues ∧ bytesKept s u)
    ∧ (adminCmd s f 0x28 = some e → a 0 < 256 → a 1 % 2 ^ 21 = 0 → a 2 = 0 → ownsCtx s f (a 0) = true → inSinkLost s (a 0) = false →
      ∃ t, exec (.xlatInval f) s = .next t ∧ adminEnded s t f 0 ∧ (∀ k, k / 2 ^ 36 = a 0 → mget {} t.mem.xcache k = {})
        ∧ (∀ k, k / 2 ^ 36 ≠ a 0 → mget {} t.mem.xcache k = mget {} s.mem.xcache k) ∧ bytesKept s t ∧ t.fe = s.fe)
    ∧ (adminCmd s f 0x28 = some e → a 0 < 256 → a 1 % 2 ^ 21 = 0 → a 2 % 2 ^ 21 = 0 → a 2 ≠ 0 → agreed s f 20 = true → ownsCtx s f (a 0) = true →
      inSinkLost s (a 0) = false →
      ∃ t, exec (.xlatInval f) s = .next t ∧ adminEnded s t f 0 ∧ bytesKept s t ∧ t.fe = s.fe
        ∧ ∀ k, mget {} t.mem.xcache k = if k / 2 ^ 36 = a 0 ∧ a 1 / 2 ^ 21 ≤ k % 2 ^ 36 ∧ k % 2 ^ 36 < (a 1 + a 2) / 2 ^ 21 then {} else mget {} s.mem.xcache k)

/-- Control commands on queues, sinks and graphs. -/
def Obligations.QueueAndGraphControlCommands : Prop :=
  ∀ (f : Bool) (s : State) (e : Entry),
    let a := cmdArg e.cmd
    (∀ bs, adminCmd s f 0x24 = some e → a 1 = 0 → a 2 = 0 → hostBytes s (a 0) 64 = some bs →
      let r : W512 := BitVec.ofNat 512 (leNat bs)
      let q := bfld r 0 20
      let c := bfld r 20 8
      recordOk r = true → ownsCtx s f c = true → inSinkLost s c = false → kindAbsent s q = false → queueAllowed s f q c = true →
      ∃ t, exec (.qCreate f) s = .next t ∧ adminEnded s t f 0 ∧ bytesKept s t
        ∧ (getQ t q).live = true ∧ (getQ t q).state = qIdle ∧ (getQ t q).owner = f ∧ (getQ t q).ctx = c ∧ (getQ t q).fetched = 0
        ∧ (getQ t q).ring.toNat = bfld r 64 57 ∧ (getQ t q).cq.toNat = bfld r 256 57 ∧ (getQ t q).nextSeq.toNat = bfld r 320 56
        ∧ (qKind q ≠ 7 → (getQc t q).live = true ∧ (getQc t q).ctx = c ∧ (getQc t q).cmd = none ∧ ∀ g, rdG (getQc t q) g = 0)
        ∧ (∀ k, k ≠ q → getQ t k = getQ s k))
    ∧ (adminCmd s f 0x25 = some e → a 0 < 2 ^ 20 → a 1 = 0 → a 2 = 0 → ownsQueue s f (a 0) = true →
      let v := getQ s (a 0)
      ∃ t, exec (.qDestroy f) s = .next t ∧ t.fr.qDrop = satAdd max48 s.fr.qDrop (droppedEntries v)
        ∧ (inSinkLost s v.ctx = false → v.state ≠ qStopped → v.state ≠ qHalted → v.frames = [] → v.launch = none →
            bytesKept s t ∧ (∀ k, k ≠ a 0 → getQ t k = getQ s k)
            ∧ (v.inflight = [] → getQ t (a 0) = {} ∧ adminEnded s t f 0)
            ∧ (v.inflight ≠ [] → (getQ t (a 0)).destroying = true ∧ (getQ t (a 0)).entries = [] ∧ (getQ t (a 0)).cur = none
                ∧ (getQ t (a 0)).inflight = v.inflight)))
    ∧ (adminCmd s f 0x26 = some e → a 0 < 2 ^ 20 → a 1 ≤ 1 → a 2 = 0 → ownsQueue s f (a 0) = true → inSinkLost s (getQ s (a 0)).ctx = false →
      let v := getQ s (a 0)
      let stopper := if v.state = qHalted ∧ v.stopStatus = 0 then v.cur else v.stopped
      v.state = qStopped ∨ v.state = qHalted →
      ∃ u, exec (.qRestart f) s = .next (onlyWork s (ctlEnd f 0 0 0 0 0 (settleQ (a 0) (fetchQ (a 0) u))))
        ∧ (stopper = none → (getQ u (a 0)).state = qIdle ∧ (getQ u (a 0)).stopStatus = 0 ∧ (getQ u (a 0)).cur = none ∧ bytesKept s u)
        ∧ (∀ x bs, stopper = some x → a 1 = 1 →
            (∀ w, ∃ s1, readVa (setQ (a 0) w (dropWaits (isQueueWait (a 0)) s)) v.ctx x.addr.toNat 64 accRead .other = (.ok bs, s1)) →
            (getQ u (a 0)).state = qIdle ∧ (∃ y, (getQ u (a 0)).cur = some y ∧ y.cmd = BitVec.ofNat 512 (leNat bs) ∧ y.seq = x.seq))
        ∧ (∀ x, stopper = some x → a 1 = 0 → cmdChainEn x.cmd = false →
            (getQ u (a 0)).state = qIdle ∧ (getQ u (a 0)).cur = none ∧ (getQ u (a 0)).nextSeq = v.nextSeq ∧ bytesKept s u))
    ∧ (adminCmd s f 0x27 = some e → a 0 < 2 ^ 20 → a 1 % 64 = 0 → a 1 < 2 ^ 57 → 6 ≤ a 2 → a 2 ≤ 20 → agreed s f 17 = true → ownsQueue s f (a 0) = true →
      ∃ u, exec (.sinkSet f) s = .next (onlyWork s (ctlEnd f 0 0 0 0 0 (sinkFound (getQ s (a 0)).ctx u))) ∧ (getQ u (a 0)).cq.toNat = a 1
        ∧ (getQ u (a 0)).cqLog2 = a 2 ∧ (getQ u (a 0)).sinkBad = false ∧ (∀ k, k ≠ a 0 → getQ u k = getQ s k) ∧ bytesKept s u
        ∧ (anySinkBad u (getQ s (a 0)).ctx = true → sinkFound (getQ s (a 0)).ctx u = u))
    ∧ (∀ bs ps, adminCmd s f 0x29 = some e →
      let g := fld (a 0) 0 12
      let c := fld (a 0) 12 8
      let n := a 2
      let gr := getGraph s g
      a 0 < 2 ^ 20 → n ≠ 0 → n ≤ 65536 → agreed s f 16 = true → ownsCtx s f c = true → gr.stored = false → inSinkLost s c = false →
      (n + 63) / 64 ≤ poolPages s → freeVersions s = s → allocPages s ((n + 63) / 64) = some ps → hostBytes s (a 1) (64 * n) = some bs →
      ∃ t, exec (.graphStore f) s = .next t ∧ adminEnded s t f 0 ∧ (getGraph t g).stored = true ∧ (getGraph t g).owner = c
        ∧ (getGraph t g).current = some gr.nextVersion ∧ mget [] (getGraph t g).versions gr.nextVersion = ps
        ∧ mget 0 (getGraph t g).lengths gr.nextVersion = n ∧ (∀ p ∈ ps, p ∉ usedPages s ∧ p < poolPages s) ∧ t.hs.hostMem = s.hs.hostMem)
    ∧ (adminCmd s f 0x2A = some e → a 0 < 4096 → a 1 = 0 → a 2 = 0 → agreed s f 16 = true → (getGraph s (a 0)).stored = true →
      ownsCtx s f (getGraph s (a 0)).owner = true → inSinkLost s (getGraph s (a 0)).owner = false →
      ∃ t, exec (.graphFree f) s = .next t ∧ adminEnded s t f 0 ∧ (getGraph t (a 0)).stored = false ∧ (getGraph t (a 0)).current = none
        ∧ (∀ x ∈ (getGraph t (a 0)).versions, versionBound s (a 0) x.1 = true) ∧ bytesKept s t ∧ t.fe.queues = s.fe.queues)
    ∧ (∀ op, adminCmd s f op = some e → op = 0x21 ∨ op = 0x22 ∨ op = 0x23 ∨ op = 0x28 → (256 ≤ a 0 ∨ ownsCtx s f (a 0) = false) →
      ∀ c ∈ ([(0x21, .ctxDestroy f), (0x22, .ctxReset f), (0x23, .ctxResume f), (0x28, .xlatInval f)] : List (Nat × Instr)), c.1 = op →
      ∃ t, exec c.2 s = .next t ∧ adminEnded s t f 0x11 ∧ faultAdded s t 1 0x11 9 ∧ bytesKept s t ∧ t.fe = s.fe)

/-! ### The array engine -/

/-- AX.LOADW, AX.PASS and AX.DRAIN wait for their turn with the shape that their descriptors give; AX.MASK sets or clears the
freeze mask; AX.FENCE ends at once or waits for the accepted commands; none has an effect while acceptance is held. -/
def Obligations.ArrayCommandsAreOffered : Prop :=
  ∀ (q : BitVec 20) (h1 h2 : BitVec 16) (rbase : BitVec 12) (x : TExt) (s u : State),
    let n := q.toNat
    let p := qIndex n
    let part := engPart s kAX p
    let ctx := (getQc s n).ctx
    let v := getPart s p
    let t := fun minor => startLong n (0x14 * 2 ^ 58 + minor * 2 ^ 52) s
    let dst := fun (d : Nat) => tdOk true d && bellFmt (tdFmt d) && tdRank d == 2 && !tdTiled d
    canRun s n anyKind = true → qKind n = kAX →
    (axHeld s p = true → ∀ (acc dt tr clear : Bool),
      ∀ c ∈ ([.axLoadw q h2 tr x, .axPass q h1 h2 rbase acc dt x, .axDrain q h1 rbase x, .axMask q h2 clear, .axFence q] : List Instr), exec c s = .next s)
    ∧ (axHeld s p = false →
    (∀ (tr : Bool) (d : Nat), firstBad ([(x.opx != 0, rNonzero)] ++ axChecks x false tr false ++ [(tr && x.srnd == 2, rEncoding)]) = none →
      readTds part [h2.toNat] (t 0) = some ([d], u) → tdOk false d = true → tdBM d = true → tdRank d = 2 →
      (tdTiled d = true → tdSplit1 d = true ∧ tdKax d = tr ∧ tdPspan d = isPaired (tdFmt d)) →
      32 * cdiv (tdDim d (b01 tr)) 32 ≤ arrRows (partCount s) →
      (if isPaired (tdFmt d) then 2 * tdDim d (1 - b01 tr) else tdDim d (1 - b01 tr)) ≤ arrCols (partCount s) →
      let rows := min 2048 (32 * cdiv (tdDim d (b01 tr)) 32)
      ∃ w, exec (.axLoadw q h2 tr x) s = .next w
        ∧ axOffered s w n { bank := 0, q := n, tr, x, h2, d2 := BitVec.ofNat 512 d, m := tdDim d (b01 tr), n := tdDim d (1 - b01 tr)
                            paired := isPaired (tdFmt d), rho := if tr then 2 * rows else rows })
    ∧ (∀ (acc dt : Bool) (d1 dx dy : Option Nat) (d2 k cols fmt : Nat),
      let gathers := x.idxen && !(dt && x.idxrole == 2)
      let places := x.idxen && dt && x.idxrole != 1
      let m := match dx with | some d => tdDim d 0 | none => tdDim d2 1
      let y := dt && bfld x.opx 0 2 != 0
      let c : AxCmd := { bank := 1, q := n, acc, dt, rbase := rbase.toNat, m, n := cols, swidth := tdBits d2, paired := isPaired fmt, x, h1, h2
                         d1 := BitVec.ofNat 512 (d1.getD 0), d2 := BitVec.ofNat 512 d2, dIdx := BitVec.ofNat 512 (dx.getD 0)
                         dY := BitVec.ofNat 512 (dy.getD 0), mask := if acc && dt then maskFor v ctx else [] }
      firstBad (inOrder ([(!dt && (h1 != 0 || x.opx != 0), rNonzero)] ++ axChecks x true false (dt && x.idxen) ++ (if dt then epiChecks x.opx else []))) = none →
      v.last = some (ctx, k, cols, fmt) → d1.isSome = dt → dx.isSome = x.idxen → dy.isSome = y →
      readTds part ((if dt then [h1.toNat] else []) ++ [h2.toNat] ++ (if x.idxen then [x.idxh.toNat] else []) ++ (if y then [bfld x.opx 16 16] else [])) (t 1)
        = some (d1.toList ++ [d2] ++ dx.toList ++ dy.toList, u) →
      (∀ d, d1 = some d → dst d = true ∧ tdDim d 0 = cols ∧ (places = false → tdDim d 1 = m)) →
      tdOk false d2 = true → tdBM d2 = true → tdRank d2 = 2 → (tdTiled d2 = true → tdSplit1 d2 = false ∧ tdKax d2 = false ∧ tdPspan d2 = false) →
      tdDim d2 0 = k → (gathers = false → tdDim d2 1 = m) →
      (∀ d, dx = some d → tdOk false d = true ∧ idxOk d (tdDim d 0) = true) → (∀ d, dy = some d → tdOk false d = true ∧ yOk x.opx m cols d = true) →
      (c.touches = true → rbase.toNat + m ≤ 4096 ∧ (acc = true → laidOut v ctx rbase.toNat m (tilesOf c) (!isPaired fmt) = false)) →
      ∃ w, exec (.axPass q h1 h2 rbase acc dt x) s = .next w ∧ axOffered s w n c)
    ∧ (∀ (d1 : Nat) (dx dy : Option Nat),
      let m := match dx with | some d => tdDim d 0 | none => tdDim d1 1
      let y := bfld x.opx 0 2 != 0
      firstBad (inOrder (axChecks x true false false ++ epiChecks x.opx)) = none → dx.isSome = x.idxen → dy.isSome = y →
      readTds part ([h1.toNat] ++ (if x.idxen then [x.idxh.toNat] else []) ++ (if y then [bfld x.opx 16 16] else [])) (t 2)
        = some (d1 :: (dx.toList ++ dy.toList), u) →
      dst d1 = true → (∀ d, dx = some d → tdOk false d = true ∧ idxOk d (tdDim d 0) = true) →
      tdDim d1 0 ≤ (if laidOut v ctx rbase.toNat m (upto 8) true then arrCols (partCount s) / 2 else arrCols (partCount s)) →
      (∀ d, dy = some d → tdOk false d = true ∧ yOk x.opx m (tdDim d1 0) d = true) → rbase.toNat + m ≤ 4096 →
      ∃ w, exec (.axDrain q h1 rbase x) s = .next (onlyWork s (axAfter p w))
        ∧ axOffered s w n { bank := 2, q := n, rbase := rbase.toNat, m, n := tdDim d1 0, x, h1, d1 := BitVec.ofNat 512 d1
                            dIdx := BitVec.ofNat 512 (dx.getD 0), dY := BitVec.ofNat 512 (dy.getD 0), mask := maskFor v ctx })
    ∧ (h2 = 0 → ∃ w, exec (.axMask q h2 true) s = .next w ∧ (getPart w p).mask = [] ∧ (getPart w p).maskCtx = none
        ∧ (getPart w p).cmds = v.cmds ∧ ended s w n ((getQc s n).pc + 16) ∧ bytesKept s w)
    ∧ (∀ d : Nat,
      let words := arrCols (partCount s) / 2048
      let r := mapJob (fun k b =>
        let (w, b1) := rdCode { ctx, who := .other, consume := true, race := raceOf u p } (tcOf u) d (k % words, k / words, 0, 0) b
        ((4 * (k / words) + k % words, w.1), b1)) (upto (4096 * words)) { s := u }
      readTds part [h2.toNat] (t 3) = some ([d], u) → tdOk false d = true → tdFmt d = 0x11 → tdRank d = 2 → tdTiled d = false → tdDim d 0 = words →
      tdDim d 1 = 4096 → r.2.errs = [] →
      ∃ w, exec (.axMask q h2 false) s = .next w ∧ (getPart w p).maskCtx = some ctx
        ∧ (∀ row i, row < 4096 → i < words → ∃ c, (4 * row + i, c) ∈ r.1 ∧ mget 0 (getPart w p).mask (4 * row + i) = BitVec.ofNat 64 c)
        ∧ (getPart w p).cmds = v.cmds ∧ ended s w n ((getQc s n).pc + 16) ∧ bytesSame s w)
    ∧ (v.cmds = [] → ∃ w, exec (.axFence q) s = .next w ∧ ended s w n ((getQc s n).pc + 16) ∧ (getPart w p).fence = none ∧ bytesKept s w)
    ∧ (v.cmds ≠ [] → ∃ w seq, exec (.axFence q) s = .next w ∧ (getPart w p).fence = some (n, ctx, seq) ∧ (getQc w n).pc = (getQc s n).pc
        ∧ (getQc w n).cmd = (getQc s n).cmd ∧ bytesKept s w))

/-- Loads, fronts, passes and drains in their order: each is accepted in its turn; a load's weights wait until a front takes them
in, a pass leaves its sums in its rows, and a drain writes its outputs and leaves the rows as they are. -/
def Obligations.ArrayLoadsPassesAndDrains : Prop :=
  ∀ (p cycle : Nat) (s : State), engUp s kAX p = true →
    let v := getPart s p
    let race := raceOf s p
    (∀ c, v.next = some c → c.bank = 0 → loadMay v cycle = true →
      let r := rdWeights (axAcc c race) (tcOf s) c { s }
      ∃ t d, exec (.loadwStart p cycle) s = .next t ∧ axAccepted r.2.s t p c d ∧ d = readAt s c race [] r.2
        ∧ (getPart t p).shadow = (if r.2.errs = [] then some r.1 else v.shadow) ∧ (getPart t p).active = v.active
        ∧ (getPart t p).loadAt = some (cycle, c.rho) ∧ (getPart t p).last = some (c.ctx, c.m, c.n, tdFmt c.d2.toNat) ∧ bytesSame s t)
    ∧ (∀ c, v.cmds.find? (fun c => c.bank == 0) = some c → c.ended = true ∨ c.fail = none →
      ∃ u, exec (.loadwRetire p) s = .next (onlyWork s (axAfter p u)) ∧ (getPart u p).cmds = v.cmds.filter (fun x => !(x.q == c.q && x.seq == c.seq))
        ∧ (getPart u p).shadow = v.shadow ∧ (getPart u p).active = v.active ∧ (getPart u p).rows = v.rows ∧ bytesKept s u
        ∧ (c.ended = false → (getPart u p).bankL.shadow = c.nums ∧ (c.byProg = false → statusGiven s u c.queue c.id 0)))
    ∧ (∀ c f, v.cmds.find? (fun c => c.bank == 0) = some c → c.ended = false → c.fail = some f →
      ∃ u, exec (.loadwRetire p) s = .next (onlyWork s (axAfter p (ctxReset c.ctx 0x30 false u))) ∧ axFailed s u c f)
    ∧ (∀ c, v.next = some c → c.bank = 1 → frontMay v cycle = true →
      let w := if v.shadow.isSome then v.shadow else v.active
      let r := passReads s c race w
      ∃ t d, exec (.passFront p cycle) s = .next t ∧ axAccepted r.2.s t p c d ∧ d = { readAt s c race r.1.1 r.2 with sums := r.1.2 }
        ∧ (getPart t p).active = w ∧ (getPart t p).shadow = none ∧ (getPart t p).frontAt = some (cycle, c.m * c.swidth) ∧ bytesSame s t)
    ∧ (∀ c, v.cmds.find? (fun c => c.bank == 1) = some c → c.ended = false → c.fail = none → c.dt = false → regionFail v c = none →
      (if c.paired then 2 * c.n else c.n) ≤ 8192 →
      ∃ u, exec (.passRetire p) s = .next (onlyWork s (axAfter p u)) ∧ bytesKept s u
        ∧ (∀ i t, i < c.m → t ∈ tilesOf c → let r := tileRow (getPart u p) (c.rbase + i) t
            r.valid = true ∧ r.ctx = c.ctx ∧ r.paired = c.paired)
        ∧ (∀ i j, i < c.m → j < c.n → rowPair (getPart u p) c.ctx (c.rbase + i) c.paired j = passPair v c i j)
        ∧ (∀ row t, t < 16 → row < c.rbase ∨ c.rbase + c.m ≤ row ∨ t ∉ tilesOf c → tileRow (getPart u p) row t = tileRow v row t)
        ∧ (c.byProg = false → statusGiven s u c.queue c.id 0))
    ∧ (∀ c, v.cmds.find? (fun c => c.bank == 1) = some c → c.ended = false → c.fail = none → c.dt = true → regionFail v c = none →
      let s2 := modPart p (fun u => { u with rows := passRows v c }) (modPart p (snapBefore c) s)
      let j := emitAll (axAcc c c.race) (tcOf s2) c (passPair v c) { s := s2, reads := c.own }
      j.errs = [] → ∃ u, exec (.passRetire p) s = .next (onlyWork s (axAfter p u)) ∧ jobStored s u j ∧ (c.acc = false → (getPart u p).rows = v.rows)
        ∧ (c.byProg = false → statusGiven s u c.queue c.id 0))
    ∧ (∀ c f, v.cmds.find? (fun c => c.bank == 1) = some c → c.ended = false → c.fail.or (regionFail v c) = some f →
      ∃ u, exec (.passRetire p) s = .next (onlyWork s (axAfter p (ctxReset c.ctx 0x30 false u))) ∧ axFailed s u c f ∧ (getPart u p).rows = v.rows)
    ∧ (∀ c, v.cmds.find? (fun c => c.bank == 2) = some c → c.ended = false →
      let c1 := snapDrain (rowsFor v (v.cmds.takeWhile (fun c => c.bank != 2))) c
      let j := emitAll (axAcc c c.race) (tcOf s) c1 (fun r col => mget (0, 0) c1.sums (8192 * r + col)) { s, reads := c.own }
      (c1.fail = none → j.errs = [] →
        ∃ u, exec (.drainRetire p) s = .next (onlyWork s (axAfter p u)) ∧ jobStored s u j ∧ (getPart u p).rows = v.rows
          ∧ (c.byProg = false → statusGiven s u c.queue c.id 0))
      ∧ (∀ f, c1.fail = some f →
        ∃ u, exec (.drainRetire p) s = .next (onlyWork s (axAfter p (ctxReset c.ctx 0x30 false u))) ∧ axFailed s u c f ∧ (getPart u p).rows = v.rows))

/-! ### Collectives and the update engine -/

/-- The four RX instructions: with a descriptor, and what it names, readable and sound, and a slot free, the collective opens in
the lowest free slot with all of it latched, and the program goes on; an instruction command leaves its queue context, in flight
until the collective completes. -/
def Obligations.RxInstructionsOpenCollectives : Prop :=
  ∀ (q : BitVec 20) (ra : BitVec 5) (s t1 t2 t3 : State) (kind : Nat) (bs : List Byte) (w : Slot) (loc i : Nat),
    let n := q.toNat
    let c := getQc s n
    let va := (rdG c ra).toNat
    let d := BitVec.ofNat 1024 (leNat bs)
    let a := bfld d 1 2
    let v : Slot := { kind, q := n, seq := longSeq s n, ctx := c.ctx, desc := d, va, n := axisSizeOf s.et.axisSize a
                      me := coordOn s.et.coord a, line := if kind = cPERM then 0 else mget 0 s.rx.line a }
    let k := slotKey (qIndex n) i
    canRun s n anyKind = true → qKind n = kRX → va % 128 = 0 →
    readVa (startLong n (0x16 * 2 ^ 58 + kind * 2 ^ 52) s) c.ctx va 128 accRead .other = (.ok bs, t1) →
    cdBad v = false → bucketBad v = false → tagOpen s c.ctx (cdTag v) = false → rxLatched t1 n v w t2 →
    translate t2 c.ctx (bfld d 288 57) accTally .other = (.ok loc, t3) → locPoison t3 loc = false → freeSlot s (qIndex n) = some i →
    ∀ e ∈ ([(cRS, .rxRs q ra), (cAG, .rxAg q ra), (cAR, .rxAr q ra), (cPERM, .rxPerm q ra)] : List (Nat × Instr)), kind = e.1 →
      ∃ u, exec e.2 s = .next u ∧ (getSlot u k).live = true ∧ (getSlot u k).kind = kind ∧ (getSlot u k).ctx = c.ctx
        ∧ (getSlot u k).q = n ∧ (getSlot u k).seq = longSeq s n
        ∧ (getSlot u k).desc = d ∧ (getSlot u k).n = v.n ∧ (getSlot u k).me = v.me ∧ (getSlot u k).line = v.line
        ∧ (getSlot u k).fillLoc = loc ∧ (getSlot u k).wdesc = w.wdesc ∧ (getSlot u k).entries = w.entries ∧ (getSlot u k).dl = w.dl
        ∧ (getSlot u k).byProg = isProg c ∧ (getSlot u k).ready = filled t3 { w with fillLoc := loc }
        ∧ (∀ j, j ≠ k → getSlot u j = getSlot s j) ∧ ended s u n (c.pc + 16)
        ∧ (∀ r, rdG (getQc u n) r = rdG c r) ∧ bytesSame s u

/-- Decisions, packets and ends of open collectives: a deadline decides OUT, and a member that decided OUT forwards what it
receives unchanged; data, headers and acknowledgements reach their piece or entry, and a packet without a collective is
discarded and counted; a completed collective adds 1 to its DONE tally and leaves its slot. -/
def Obligations.CollectiveDecisionsPacketsAndEnds : Prop :=
  ∀ (n wc slot : Nat) (s : State),
    let k := slotKey wc slot
    let v := getSlot s k
    let mine := fun (sort : Packet → Bool) (p : Packet) => sort p && (match matchSlot s p with | some k => engUp s kRX (k / 64) | none => deadTag s p)
    let noneHeld := fun (t : State) => ∀ x, qKind x = kRX → qIndex x = k / 64 → (getQc t x).heldAdd = none ∧ (getQc t x).heldEnd = none
    (∀ chunk elapsed : Nat, v.live = true → engUp s kRX wc = true → reduces v = true → chunk ∈ undecided v → hasArrival v chunk = true →
      filled s v = false → v.dl < elapsed →
      ∃ u, exec (.contributionDeadline wc slot chunk elapsed) s = .next (onlyFabric s (rxPump u))
        ∧ mget 0 (getSlot u k).decisions chunk = dOut ∧ (∀ j, j ≠ chunk → mget 0 (getSlot u k).decisions j = mget 0 v.decisions j)
        ∧ (getSlot u k).outSeen = true ∧ (getSlot u k).pieces = v.pieces ∧ (∀ j, j ≠ k → getSlot u j = getSlot s j) ∧ bytesKept s u)
    ∧ (∀ (j d : Nat) (x : Nat × Bool),
      let p := getPiece v (pieceKey 0 j x.1 x.2)
      reduces v = true → onReduce v x.2 x.1 j = some d → d ≠ reduceSpan v x.2 x.1 j → mget 0 v.decisions j = dOut → mget 0 v.fetched j = 0 →
      complete p = true → p.sent = false →
      pumpReduce k j x s = modSlot k (setPiece (pieceKey 0 j x.1 x.2) (pieceSent p))
        (sendPiece v 0 j x.1 x.2 p.mask (if p.empty then none else some (pieceBytes (64 * p.len) p)) s))
    ∧ (∀ p : Packet, firstPacket n (mine isData) s = some p → matchSlot s p = some k → p.header.getLsbD 105 = false → v.kind ≠ cPERM →
      let stage := bfld p.header 106 1
      let j := bfld p.header 96 7
      let r := bfld p.header 103 2
      let off := bfld p.header 107 22
      let key := pieceKey stage j r (!portPlus n)
      let pc := getPiece v key
      let units := dataUnits p (if pc.hasHdr then pc.len - off else 2 ^ 22)
      expects v stage j r (!portPlus n) = true →
      ∃ u, exec (.rxDataPacket n) s = .next (onlyFabric s (rxPump u)) ∧ u.et.inbox = dropOne (n, p) s.et.inbox
        ∧ (getPiece (getSlot u k) key).units = pc.units + units ∧ (getSlot u k).cause = 1 + cdAxis v
        ∧ (∀ i, i < 64 * units → i < p.body.length → mget 0 (getPiece (getSlot u k) key).data (64 * off + i) = p.body.getD i 0)
        ∧ (∀ i, (i < 64 * off ∨ 64 * off + 64 * units ≤ i) → mget 0 (getPiece (getSlot u k) key).data i = mget 0 pc.data i)
        ∧ (stage = 0 → mget false (getSlot u k).arrived j = true) ∧ bytesKept s u)
    ∧ (∀ (p : Packet) (i : Nat) (e : BitVec 256) (rest : List (Nat × BitVec 256)),
      let off := bfld p.header 107 22
      let units := dataUnits p (peLen e / 64 - off)
      let bs := (p.body.take (64 * units)).zipIdx.map (fun b => (b.1, p.poison.contains (b.2 / 64)))
      let pc := getPiece v (shardKey i)
      let s1 := modSlot k (fun w => { setPiece (shardKey i) { pc with units := pc.units + units } w with cause := 1 + portAxis n }) (takePacket n p s)
      let w := writePiece (rxAcc v) (runVas (recvBase v e + 64 * off) (64 * units)) bs { s := s1 }
      firstPacket n (mine isData) s = some p → matchSlot s p = some k → p.header.getLsbD 105 = true → v.kind = cPERM → v.halted = false →
      entriesWhere v (fun i e => peRecv e && peEntry e == bfld p.header 96 9 && pePeer e == pktSrc p.header && !mget false v.stored i) = (i, e) :: rest →
      w.errs = [] →
      ∃ u, exec (.rxDataPacket n) s = .next (onlyFabric s (rxPump u)) ∧ u.et.inbox = dropOne (n, p) s.et.inbox
        ∧ (getPiece (getSlot u k) (shardKey i)).units = pc.units + units ∧ jobStored s u w)
    ∧ (∀ p : Packet, firstPacket n (mine isPieceHeader) s = some p → matchSlot s p = some k → v.kind ≠ cPERM →
      let stage := bfld p.header 108 1
      let j := bfld p.header 98 7
      let r := bfld p.header 105 2
      let empty := p.header.getLsbD 107
      let len := bfld p.header 109 19
      let key := pieceKey stage j r (!portPlus n)
      expects v stage j r (!portPlus n) = true →
      ∃ u, exec (.pieceHeader n) s = .next (onlyFabric s (rxPump u)) ∧ u.et.inbox = dropOne (n, p) s.et.inbox ∧ bytesKept s u
        ∧ getPiece (getSlot u k) key = { getPiece v key with hasHdr := true, empty, len, mask := BitVec.ofNat 128 (bfld p.header 128 128) }
        ∧ (empty = true ∨ 64 * len = pieceLen v j →
            (getSlot u k).ending = v.ending ∧ (getSlot u k).halted = v.halted ∧ (getSlot u k).decisions = v.decisions)
        ∧ (empty = false → 64 * len ≠ pieceLen v j →
            (getSlot u k).ending = (if v.halted then v.ending else some 0x12) ∧ (getSlot u k).halted = true
            ∧ (reduces v = true → undecided (getSlot u k) = [])))
    ∧ (∀ (p : Packet) (i : Nat) (e : BitVec 256) (rest : List (Nat × BitVec 256)),
      firstPacket n (mine isAck) s = some p → matchSlot s p = some k → v.kind = cPERM →
      entriesWhere v (fun i e => !peRecv e && peEntry e == bfld p.header 98 9 && pePeer e == pktSrc p.header && !mget false v.acked i) = (i, e) :: rest →
      ∃ u, exec (.permuteAck n) s = .next (onlyFabric s (rxPump u)) ∧ mget false (getSlot u k).acked i = true
        ∧ (∀ j, j ≠ i → mget false (getSlot u k).acked j = mget false v.acked j) ∧ u.et.inbox = dropOne (n, p) s.et.inbox ∧ bytesKept s u)
    ∧ (∀ p : Packet,
      let gone := fun (t : State) => t.rx.discard = satAdd max32 s.rx.discard 1 ∧ t.et.inbox = dropOne (n, p) s.et.inbox ∧ t.rx.slots = s.rx.slots ∧ bytesKept s t
      (firstPacket n (fun x => (isData x || isPieceHeader x || isAck x) && (matchSlot s x).isNone) s = some p →
        ∃ t, exec (.unmatchedPacketTimeout n) s = .next t ∧ gone t)
      ∧ ∀ e ∈ ([(isData, .rxDataPacket n), (isPieceHeader, .pieceHeader n), (isAck, .permuteAck n)] : List ((Packet → Bool) × Instr)),
        firstPacket n (mine e.1) s = some p → matchSlot s p = none → ∃ t, exec e.2 s = .next t ∧ gone t)
    ∧ (∀ (loc : Nat) (s2 : State),
      let s1 := rxPump s
      let w := getSlot s1 k
      w.live = true → engUp s1 kRX wc = true → partDone w = true → w.ending = none → noneHeld s1 →
      translate s1 w.ctx (cdDone w) accTally (rxWho w) = (.ok loc, s2) → locPoison s2 loc = false → coreClosed s2 loc = false →
      ∃ u, exec (.collectiveComplete wc slot) s = .next (onlyFabric s u) ∧ getSlot u k = {}
        ∧ stored s1 u loc (leBytes 8 ((locNat s1 loc 8 + 1) % 2 ^ 64)) ∧ (w.byProg = false → statusGiven s1 u w.queue w.id 0))
    ∧ (∀ st : Nat,
      let s1 := rxPump s
      let w := getSlot s1 k
      w.live = true → engUp s1 kRX wc = true → partDone w = true → w.ending = some st → w.poisonAt = none → noneHeld s1 →
      ∃ u, exec (.collectiveComplete wc slot) s = .next (onlyFabric s u) ∧ getSlot u k = {} ∧ bytesKept s1 u
        ∧ (w.byProg = false → statusGiven s1 u w.queue w.id st) ∧ (st = 0x12 → faultAdded s1 u cDescriptor 0x12 0))

/-- UX.BEGIN opens a layer and leaves its step words in the descriptor, UX.CHUNK checks its chunk and runs through the blocks, as
many as the row gives and the rest in its next rows, UX.END closes the layer. -/
def Obligations.UpdateEngineInstructions : Prop :=
  ∀ (q : BitVec 20) (ra rb rc : BitVec 5) (h1 h2 : BitVec 16) (s : State), canRun s q.toNat anyKind = true → qKind q.toNat = kUX →
    let i := q.toNat
    let c := getQc s i
    let va := (rdG c ra).toNat
    (∀ (bs : List Byte) (t1 t2 t3 t4 t5 t6 : State) (hdr latch loc : Nat) (ps : List Nat) (n : Int) (eta lam b1 b2 : FV) (snap : Bool),
      let d := leNat bs
      let step := (rdG c rb).toNat
      let stat := udRule d == 2 && decide (1 ≤ n) && decide (n % (fld d 28 8 : Int) = 0)
      va % 128 = 0 → readVa s c.ctx va 128 accRead .other = (.ok bs, t1) → udBad d = false → scheduleBad i d step t1 = false →
      (if udOpen d then ∀ f, releaseLatch i d t1 f = f t2 else t2 = t1) → (∀ f, readSchedule i d t2 f = f hdr ps t3) →
      scheduleOf d step hdr ps = some (n, eta, lam, b1, b2) → (∀ f, latchRoots i d t3 f = f latch t4) → (∀ f, snapOf i d n t4 f = f snap t5) →
      translate { t5 with free := t5.free + 2 } c.ctx (va + 88) accWrite .other = (.ok loc, t6) → coreClosed t6 loc = false →
      getQc t5 i = c →
      ∃ u, exec (.uxBegin q ra rb) s = .next u ∧ ended s u i (c.pc + 16)
        ∧ stored t5 u loc (stepBytes latch n eta lam b1 b2 (biasOf (udBc d) b1 n t5.free) (biasOf (udBc d) b2 n (t5.free + 1)) stat snap))
    ∧ (∀ (d loc : Nat) (t t1 : State), udRule d = 2 → translate t (getQc t i).ctx (udRootset d) accTally .other = (.ok loc, t1) →
      let tally := loc + (if locNat t loc 8 % 2 = 0 then 8 else 16)
      locPoison t1 loc = false → locNat t loc 8 ≠ 0 → coreClosed t1 tally = false →
      ∃ u, (∀ f, latchRoots i d t f = f (locNat t loc 8) u) ∧ stored t u tally (leBytes 8 ((locNat t tally 8 + 1) % 2 ^ 64)))
    ∧ (∀ (bs hd bl : List Byte) (t1 t2 t3 t : State) (d1 d2 blocks : Nat),
      let d := leNat bs
      let hv := (rdG c rc).toNat
      let nblk := leNat ((hd.drop 16).take 2)
      let mask : BitVec 128 := BitVec.ofNat 128 (leNat (hd.take 16))
      va % 128 = 0 → readVa (startLong i (0x18 * 2 ^ 58 + 0x01 * 2 ^ 52) s) c.ctx va 128 accRead .other = (.ok bs, t1) →
      udBad d = false → udOpen d = true → hv % 64 = 0 → readVa t1 c.ctx hv 32 accRead .other = (.ok hd, t2) →
      readVa t2 c.ctx (hv + 32) (4 * nblk) accRead .other = (.ok bl, t3) →
      readTds (engPart s (qKind i) (qIndex i)) [h1.toNat, h2.toNat] t3 = some ([d1, d2], t) → tdOk false d1 = true → tdOk true d2 = true →
      (tdFmt d1 = 1 ∧ tdTiled d1 = false ∧ tdDim d1 0 = udB d ∧ tdDim d1 1 = udB d * nblk ∧ tdDim d1 2 = 1 ∧ tdDim d1 3 = 1) →
      (bellFmt (tdFmt d2) = true ∧ tdTiled d2 = false ∧ tdDim d2 0 = udK d ∧ tdDim d2 1 = udN d ∧ tdDim d2 2 = 1 ∧ tdDim d2 3 = 1) →
      exec (.uxChunk q ra h1 h2 rc blocks) s = .next (onlyWork s (runBlocks i blocks
          { seq := longSeq s i, desc := BitVec.ofNat 1024 d, d1 := BitVec.ofNat 512 d1, d2 := BitVec.ofNat 512 d2
            c := ((upto 128).filter (fun b => mask.getLsbD b)).length
            blocks := (upto nblk).map (fun b => (b, leNat ((bl.drop (4 * b)).take 4))) } t))
      ∧ bytesSame s t ∧ (getQc t i).pc = c.pc ∧ (getQc t i).cmd = c.cmd)
    ∧ (∀ (p : State) (w : UxWork) (blocks : Nat),
      let t := modQc i (fun x => { x with chunk := none }) p
      (getQc p i).chunk = some w → canRun t i anyKind = true →
      exec (.uxChunk q ra h1 h2 rc blocks) p = .next (onlyWork p (runBlocks i blocks w t)))
    ∧ (∀ (w : UxWork) (m : Nat) (t : State),
      let d := w.desc.toNat
      let u0 := runBlocks i m w t
      (w.blocks = [] → ended t u0 i ((getQc t i).pc + 16) ∧ bytesKept t u0)
      ∧ (w.blocks ≠ [] → m = 0 → (∃ x y, (getQc u0 i).chunk = some { w with torn := x, writes := y })
          ∧ (getQc u0 i).pc = (getQc t i).pc ∧ (getQc u0 i).cmd = (getQc t i).cmd ∧ bytesKept t u0)
      ∧ ∀ (b beta r h : Nat) (p1 p2 : Bool) (j1 j2 : Job) (rest : List (Nat × Nat)),
        let rec_ := recAddr d r
        let hdr := fld h 0 64
        let j := (runBlock (uxAcc t i) (tcOf t) d w.d1.toNat w.d2.toNat (uxRnd t i w) w.c b beta rec_ r hdr { s := j2.s }).2
        w.blocks = (b, beta) :: rest → 0 < m →
        beta < cdiv (udK d) (udB d) * cdiv (udN d) (udB d) → rdNat (uxAcc t i) (udRecmap d + 2 * beta) 2 { s := t } = ((r, p1), j1) → j1.errs = [] →
        r < udNrec d → rdNat (uxAcc t i) rec_ 12 j1 = ((h, p2), j2) → j2.errs = [] → fld h 64 32 = beta → fld hdr 63 1 = 0 → j.errs = [] →
        ∃ u, u0 = runBlocks i (m - 1) { w with blocks := rest, nums := addNums w.nums j.nums } u
          ∧ jobStored t u { j with reads := [] } ∧ (getQc u i).pc = (getQc t i).pc ∧ (getQc u i).cmd = (getQc t i).cmd
          ∧ (udStepN d ≤ 0 → (j.nums.updSkip, j.nums.updReplay, j.nums.updDone) = (1, 0, 0))
          ∧ (0 < udStepN d → udStepN d ≤ fld hdr 0 32 → (j.nums.updSkip, j.nums.updReplay, j.nums.updDone) = (0, 1, 0))
          ∧ (0 < udStepN d → (fld hdr 0 32 : Int) < udStepN d → w.c = 0 → (j.nums.updSkip, j.nums.updReplay, j.nums.updDone) = (1, 0, 0)))
    ∧ (∀ (bs : List Byte) (t1 t2 t3 t4 : State) (loc : Nat),
      let d := leNat bs
      va % 128 = 0 → readVa s c.ctx va 128 accRead .other = (.ok bs, t1) → udOpen d = true → (∀ f, releaseLatch i d t1 f = f t2) →
      (if udSnap d then ∀ f, uxAdd i (udRq d) t2 f = f t3 else t3 = t2) →
      translate t3 c.ctx (va + 124) accWrite .other = (.ok loc, t4) → coreClosed t4 loc = false →
      getQc t3 i = c →
      ∃ u, exec (.uxEnd q ra) s = .next u ∧ ended s u i (c.pc + 16) ∧ stored t3 u loc (leBytes 4 (fld d 993 31 * 2)))

/-! ### Etris ports -/

/-- Training: each state leads to the next, to full equalisation or to FAILED with its reason; the lanes mapped in ALIGN are
working ones; UP brings the peer's record; RETRAIN keeps the link's numbers, credits and replay buffer. -/
def Obligations.PortTraining : Prop :=
  ∀ (n : Nat) (s : State), portRuns s n = true →
    let p := getPort s n
    let after := fun (c : Instr) (f : Port → Prop) => ∃ t, exec c s = .next t ∧ f (getPort t n) ∧ (∀ m, m ≠ n → getPort t m = getPort s m)
    let failed := fun (reason : Nat) (x : Port) => x.state = 9 ∧ x.failReason = reason ∧ x.fwd = false ∧ x.txq = [] ∧ x.replay = []
      ∧ x.resend = [] ∧ x.dead = [] ∧ x.swap = none ∧ x.dropped = satAdd max32 p.dropped (p.txq.length + p.replay.length)
    let again := fun (q x : Port) => failed 4 x ∨ x = { q with sub := 3, retrainFails := 1 }
    (∀ (rx tx : BitVec 18) (peer : Bool), portCtl s n = true → p.state = 1 →
      (peer = false → after (.detect n rx tx peer) (failed 3))
      ∧ (peer = true → (2 < failedCount rx ∨ 2 < failedCount tx) → after (.detect n rx tx peer) (failed 1))
      ∧ (peer = true → failedCount rx ≤ 2 → failedCount tx ≤ 2 →
          after (.detect n rx tx peer) (fun x => x.state = (if (mget {} s.fl.seeds n).stored then 3 else 2) ∧ x.failedRx = rx ∧ x.failedTx = tx ∧ x.laneOf = [] ∧ x.txLaneOf = []
            ∧ x.retrainFails = 0)))
    ∧ (portCtl s n = true → p.state = 2 → after (.eqFull n) (fun x => x = { p with state := 4, seeded := false }))
    ∧ (portCtl s n = true → p.state = 3 → after (.eqSeed n true) (fun x => x = { p with state := 4, seeded := true })
        ∧ after (.eqSeed n false) (fun x => x = { p with state := 2 }))
    ∧ (portCtl s n = true → p.state = 8 → p.sub = 3 → after (.eqSeed n true) (fun x => x = { p with sub := 4, seeded := true })
        ∧ (p.retrainFails = 0 → after (.eqSeed n false) (fun x => x = { p with sub := 3, retrainFails := 1 }))
        ∧ (p.retrainFails = 1 → after (.eqSeed n false) (failed 4)) ∧ (p.retrainFails = 2 → after (.eqSeed n false) (again p)))
    ∧ (∀ r : AlignReport, portCtl s n = true → inStep p 4 = true →
      let rx := p.failedRx ||| r.failedRx
      let tx := p.failedTx ||| r.failedTx
      (2 ≤ r.order → after (.align n r) (failed 2))
      ∧ (r.order < 2 → (2 < failedCount rx ∨ 2 < failedCount tx) → after (.align n r) (failed 1))
      ∧ (r.order < 2 → failedCount rx ≤ 2 → failedCount tx ≤ 2 → r.lock = true →
          let base := fun (l : Nat) => if p.state = 8 then laneOf p l else if r.order = 1 then 17 - l else l
          let baseTx := fun (l : Nat) => if p.state = 8 then txLane p l else l
          after (.align n r) (fun x => inStep x 5 = true ∧ x.failedRx = rx ∧ x.failedTx = tx ∧ x.inverted = r.inverted
            ∧ x.reversed = (if p.state = 8 then p.reversed else r.order == 1)
            ∧ ∀ l, l < 16 → rx.getLsbD (laneOf x l) = false ∧ tx.getLsbD (txLane x l) = false
                ∧ (rx.getLsbD (base l) = false → laneOf x l = base l) ∧ (tx.getLsbD (baseTx l) = false → txLane x l = baseTx l)))
      ∧ (r.order < 2 → failedCount rx ≤ 2 → failedCount tx ≤ 2 → r.lock = false →
          let q := { p with failedRx := rx, failedTx := tx }
          (p.state = 4 → after (.align n r) (fun x => x = { q with state := (if p.seeded then 2 else 4) }))
          ∧ (p.state = 8 → p.retrainFails = 0 → after (.align n r) (fun x => x = { q with sub := 3, retrainFails := 1 }))
          ∧ (p.state = 8 → p.retrainFails = 1 → after (.align n r) (failed 4))
          ∧ (p.state = 8 → p.retrainFails = 2 → after (.align n r) (again q))))
    ∧ (portCtl s n = true → p.state = 5 →
        after (.linkInit n) (fun x => x.state = 6 ∧ x.txSeq = 0 ∧ x.rxSeq = 0 ∧ x.replay = [] ∧ x.txq = [] ∧ x.credits = firstCredits))
    ∧ (portCtl s n = true → p.state = 8 → p.sub = 5 →
        after (.linkInit n) (fun x => x.state = 7 ∧ x.txSeq = p.txSeq ∧ x.rxSeq = p.rxSeq ∧ x.replay = p.replay ∧ x.resend = p.replay
          ∧ x.txq = p.txq ∧ x.credits = p.credits ∧ x.peerId = p.peerId ∧ x.laneOf = p.laneOf ∧ x.recordDue = false
          ∧ x.retrainFails = if p.retrainFails = 1 then 2 else p.retrainFails)
        ∧ (p.recordDue = true → ∃ t more, exec (.linkInit n) s = .next t ∧ t.out = s.out ++ .discovery n (ownRecord s n) :: more))
    ∧ (∀ r : DiscRecord, portCtl s n = true → p.state = 6 →
      let seed := mget {} s.fl.seeds n
      let differs := p.seeded = true ∧ (seed.peerId ≠ r.peerId ∨ seed.peerPort ≠ r.port % 16)
      ∃ t, exec (.discover n r) s = .next t ∧ (∀ m, m ≠ n → getPort t m = getPort s m)
        ∧ (∃ more, t.out = s.out ++ .discovery n (ownRecord s n) :: more)
        ∧ (differs → (∃ f, getPort t n = { takeRecord r p with state := 2, seeded := false, fwd := f }) ∧ t.fl.seeds = s.fl.seeds)
        ∧ (¬ differs → (getPort t n).state = 7 ∧ (getPort t n).peerId = r.peerId ∧ (getPort t n).peerPort = r.port % 16
            ∧ (getPort t n).peerGrade = r.grade % 256 ∧ (getPort t n).coordValid = r.coord.isSome ∧ (s.bt.inForce = none → (getPort t n).fwd = false)
            ∧ (p.seeded = false → mget {} t.fl.seeds n = { stored := true, peerId := r.peerId, peerPort := r.port % 16 })))
    ∧ ((p.state = 3 ∨ (p.state = 4 ∧ p.seeded = true)) → after (.portStateTimeout n) (fun x => x = { p with state := 2, seeded := false }))
    ∧ (p.state = 8 → after (.portStateTimeout n) (failed 5))
    ∧ (1 ≤ p.state → p.state ≤ 6 → p.state ≠ 3 → ¬ (p.state = 4 ∧ p.seeded = true) → after (.portStateTimeout n) (failed 5))
    ∧ (∀ cause : Nat, p.state = 7 → (cause = 0 ∧ p.fallbackClk = true ∨ cause = 1 ∧ p.dead = [] ∨ cause = 2) →
        after (.retrain n cause) (fun x => x.state = 8 ∧ x.sub = 3 ∧ x.txSeq = p.txSeq ∧ x.rxSeq = p.rxSeq ∧ x.replay = p.replay ∧ x.txq = p.txq
          ∧ x.credits = p.credits ∧ x.peerId = p.peerId ∧ x.laneOf = p.laneOf ∧ x.swap = none
          ∧ x.swapWaits = [] ∧ x.dead = [])
        ∧ (s.bt.stage ≠ 5 → s.bt.inForce = none →
            ∃ t, exec (.retrain n cause) s = .next t ∧ logged s t (procIsland (54 + n)) 3 0x0502 n (portState { p with state := 8, swapActive := false })))
    ∧ (∀ r : DiscRecord, p.state = 7 → after (.discoveryRecord n r) (fun x => x = { takeRecord r p with fwd := x.fwd }))

/-- Flits go out and come in in order, with credits, acknowledgements and replay; a swap moves one logical lane and nothing
else; a dead lane holds new flits until a spare takes it. -/
def Obligations.FlitsCreditsReplayAndLanes : Prop :=
  ∀ (n : Nat) (s : State), portRuns s n = true → (getPort s n).state = 7 →
    let p := getPort s n
    let sent := fun (t : State) (ty vc fseq : Nat) (payload : List Byte) =>
      ∃ h poison, t.out = s.out ++ [.flit n h payload (flitCrc h payload) poison] ∧ fhType h = ty ∧ fhVc h = vc ∧ fhSeq h = fseq
        ∧ fhAck h = (if ty = 4 then p.rxSeq else (p.rxSeq + 4095) % 4096)
    (p.dead = [] → p.txSeq < 4096 →
      (∀ f fs, p.resend = f :: fs → f.ty < 4 → f.vc < 8 → f.fseq < 4096 →
        ∃ t, exec (.flitTransmit n) s = .next t ∧ sent t f.ty f.vc f.fseq f.payload ∧ (getPort t n).resend = fs ∧ (getPort t n).replay = p.replay
          ∧ (getPort t n).txSeq = p.txSeq ∧ (getPort t n).credits = p.credits)
      ∧ (∀ i f, p.resend = [] → p.replay.length < 1024 → sendable p = some i → p.txq[i]? = some f → f.ty < 4 → f.vc < 8 →
        ∃ t, exec (.flitTransmit n) s = .next t ∧ sent t f.ty f.vc p.txSeq f.payload ∧ (getPort t n).txSeq = (p.txSeq + 1) % 4096
          ∧ (getPort t n).replay = p.replay ++ [{ f with fseq := p.txSeq }] ∧ (getPort t n).txq = p.txq.eraseIdx i
          ∧ (∀ v, mget 0 (getPort t n).credits v = if v = f.vc then mget 0 p.credits v - 1 else mget 0 p.credits v))
      ∧ (p.resend = [] → (1024 ≤ p.replay.length ∨ sendable p = none) →
        ∃ t, exec (.flitTransmit n) s = .next t ∧ sent t 0 0 p.txSeq noPayload ∧ (getPort t n).txSeq = p.txSeq ∧ (getPort t n).txq = p.txq
          ∧ (getPort t n).credits = p.credits ∧ (getPort t n).replay = p.replay))
    ∧ (∀ fl : FlitIn,
      let h := fl.header
      let read := fl.codewordOk = true ∧ fl.uncorrected = 0
      let good := read ∧ fl.crc = flitCrc h fl.payload ∧ fl.payload.length = 512
      (¬ good → p.requested = false → p.rxSeq < 4096 → p.txSeq < 4096 →
        ∃ t, exec (.flitReceive n fl) s = .next t ∧ sent t 4 0 p.txSeq noPayload ∧ (getPort t n).requested = true ∧ (getPort t n).rxSeq = p.rxSeq
          ∧ (getPort t n).partial_ = p.partial_ ∧ (getPort t n).credits = p.credits ∧ t.et.inbox = s.et.inbox
          ∧ (read → (getPort t n).crcBad = satAdd max32 p.crcBad 1) ∧ (¬ read → (getPort t n).crcBad = p.crcBad))
      ∧ (∃ t, exec (.flitReceive n fl) s = .next t ∧ (getPort t n).fecCorr = satAdd max32 p.fecCorr fl.corrected
          ∧ (getPort t n).fecUncorr = satAdd max32 p.fecUncorr fl.uncorrected)
      ∧ (good → fhType h = 4 → ∃ t, exec (.flitReceive n fl) s = .next t ∧ (getPort t n).replays = satAdd max32 p.replays 1
          ∧ (getPort t n).resend = p.replay.dropWhile (fun f => f.fseq != fhAck h) ∧ (getPort t n).replay = p.replay)
      ∧ (good → fhType h = 1 → fhSeq h = p.rxSeq → fhVc h < 6 →
        ∃ t, exec (.flitReceive n fl) s = .next t ∧ (getPort t n).rxSeq = (p.rxSeq + 1) % 4096 ∧ t.out = s.out ∧ t.et.inbox = s.et.inbox
          ∧ (∀ v, mget [] (getPort t n).partial_ v = if v = fhVc h
              then mget [] p.partial_ v ++ [{ ty := 1, vc := v, fseq := fhSeq h, payload := fl.payload, poison := fl.poison }] else mget [] p.partial_ v))
      ∧ (good → fhType h = 2 → fhSeq h = p.rxSeq → fhVc h < 6 →
        let f : Flit := { ty := 2, vc := fhVc h, fseq := fhSeq h, payload := fl.payload, poison := fl.poison }
        let fs := mget [] p.partial_ (fhVc h) ++ [f]
        let bytes := fs.flatMap (fun f => f.payload)
        let x : Packet := { header := BitVec.ofNat 256 (leNat (bytes.take 32)), body := bytes.drop 32, vc := fhVc h
                            poison := (fs.headD f).poison }
        pktLenM1 x.header + 1 = fs.length → 2 * pktClass x.header + fhVc h % 2 = fhVc h → (p.fwd = true ∨ pktClass x.header = clControl) →
        staysHere s x = true →
        ∃ t, exec (.flitReceive n fl) s = .next t ∧ t.et.inbox = s.et.inbox ++ [(n, x)] ∧ (getPort t n).rxSeq = (p.rxSeq + 1) % 4096
          ∧ mget [] (getPort t n).partial_ (fhVc h) = [] ∧ t.out = s.out)
      ∧ (good → fhType h < 4 → fhSeq h ≠ p.rxSeq → (fhSeq h + 4096 - p.rxSeq) % 4096 < 2048 → p.requested = false → p.rxSeq < 4096 → p.txSeq < 4096 →
        ∃ t, exec (.flitReceive n fl) s = .next t ∧ sent t 4 0 p.txSeq noPayload ∧ (getPort t n).rxSeq = p.rxSeq ∧ (getPort t n).requested = true
          ∧ t.et.inbox = s.et.inbox))
    ∧ (∀ fseq : BitVec 12, ∃ t, exec (.replayRequest n fseq) s = .next t
        ∧ getPort t n = { p with replays := satAdd max32 p.replays 1, resend := p.replay.dropWhile (fun f => f.fseq != fseq.toNat) })
    ∧ (p.requested = true → p.rxSeq < 4096 → p.txSeq < 4096 →
        ∃ t, exec (.replayRequestResend n) s = .next t ∧ sent t 4 0 p.txSeq noPayload ∧ (getPort t n).rxSeq = p.rxSeq)
    ∧ (∀ lane symbols l : Nat, logicalOf p lane = some l →
      let q := { p with sym := mset 0 p.sym lane (satAdd max32 (mget 0 p.sym lane) symbols) }
      ((symbols ≤ 10000 ∨ l ∈ p.dead ∨ swapping p l = true) → ∃ t, exec (.laneDegrade n lane symbols) s = .next t ∧ getPort t n = q)
      ∧ (10000 < symbols → l ∉ p.dead → swapping p l = false →
        (p.swapWaits = [] → p.swap = none → p.dead = [] → portCtl s n = true →
          (∀ x, spareLane (usedRx p) p.failedRx = some x →
            ∃ t f, exec (.laneDegrade n lane symbols) s = .next t ∧ getPort t n = { q with swap := some (l, x, false), swapActive := true, txq := p.txq ++ [f] }
              ∧ f.ty = 3 ∧ f.vc = 4)
          ∧ (spareLane (usedRx p) p.failedRx = none →
            ∃ t, exec (.laneDegrade n lane symbols) s = .next t ∧ (getPort t n).state = 9 ∧ (getPort t n).failReason = 1))
        ∧ ((p.swap ≠ none ∨ p.dead ≠ [] ∨ portCtl s n = false) →
          ∃ t, exec (.laneDegrade n lane symbols) s = .next t ∧ getPort t n = { q with swapWaits := p.swapWaits ++ [l] })))
    ∧ (∀ lane spare : Nat, portCtl s n = true → p.txCopy = none → lane < 16 →
        ∃ t, exec (.swapReq n lane spare) s = .next t ∧ getPort t n = { p with txCopy := some (lane, spare), swapActive := true })
    ∧ (∀ l x agreed : Nat, ∀ b : Bool, p.swap = some (l, x, b) → 10 ^ 9 ≤ agreed →
        ∃ t, exec (.spareTrained n agreed) s = .next t ∧ getPort t n = { p with swap := some (l, x, true) })
    ∧ (∀ l x : Nat, p.swap = some (l, x, true) → p.swapWaits = [] →
        ∃ t, exec (.laneSwitch n) s = .next t ∧ laneOf (getPort t n) l = x ∧ (∀ k, k ≠ l → laneOf (getPort t n) k = laneOf p k)
          ∧ (getPort t n).failedRx.getLsbD (laneOf p l) = (p.failedRx.getLsbD (laneOf p l) || decide (laneOf p l < 18))
          ∧ (getPort t n).swap = none ∧ (getPort t n).txq = p.txq ∧ (getPort t n).replay = p.replay ∧ (getPort t n).credits = p.credits
          ∧ (mget {} t.fl.seeds n).stored = true ∧ logged s t (procIsland (54 + n)) 1 0x0501 n (laneOf p l))
    ∧ (∀ l x : Nat, (∀ k y, p.swap ≠ some (k, y, true)) → p.txCopy = some (l, x) →
        ∃ t, exec (.laneSwitch n) s = .next t ∧ txLane (getPort t n) l = x ∧ (∀ k, k ≠ l → txLane (getPort t n) k = txLane p k)
          ∧ (getPort t n).txCopy = none ∧ (getPort t n).laneOf = p.laneOf ∧ (getPort t n).txq = p.txq ∧ (getPort t n).replay = p.replay
          ∧ logged s t (procIsland (54 + n)) 1 0x0501 n (txLane p l + 32))
    ∧ (∀ lane l : Nat, logicalOf p lane = some l →
        let q := { (if p.swap.map Prod.fst = some l then dropSwap false p else p) with swapWaits := p.swapWaits.filter (· != l) }
        (l ∈ p.dead → ∃ t, exec (.deadLane n lane) s = .next t ∧ getPort t n = p)
        ∧ (l ∉ p.dead → q.dead.length < (sparesFree q).length →
            ∃ t, exec (.deadLane n lane) s = .next t ∧ getPort t n = { q with dead := p.dead ++ [l] })
        ∧ (l ∉ p.dead → (sparesFree q).length ≤ q.dead.length →
            ∃ t, exec (.deadLane n lane) s = .next t ∧ (getPort t n).state = 9 ∧ (getPort t n).failReason = 1
              ∧ (getPort t n).dropped = satAdd max32 p.dropped (p.txq.length + p.replay.length)))
    ∧ (∀ lane : Nat, logicalOf p lane = none → p.swapWaits = [] →
        ((∀ k b, p.swap ≠ some (k, lane, b)) →
          ∃ t, exec (.deadLane n lane) s = .next t ∧ getPort t n = { p with failedRx := setBit18 p.failedRx lane })
        ∧ ∀ k x b, p.swap = some (k, lane, b) → p.dead = [] → portCtl s n = true → spareLane (usedRx p) (setBit18 p.failedRx lane) = some x →
          ∃ t, exec (.deadLane n lane) s = .next t ∧ (getPort t n).swap = some (k, x, false) ∧ (getPort t n).laneOf = p.laneOf)
    ∧ (p.dead ≠ [] → p.dead.Nodup → portCtl s n = true → p.dead.length ≤ (sparesFree p).length →
        ∃ t, exec (.deadLaneResume n) s = .next t ∧ (getPort t n).dead = []
          ∧ (∀ i l x : Nat, p.dead[i]? = some l → (sparesFree p)[i]? = some x → laneOf (getPort t n) l = x)
          ∧ (∀ k, k ∉ p.dead → laneOf (getPort t n) k = laneOf p k)
          ∧ (p.swapWaits = [] → (getPort t n).replay = p.replay ∧ (getPort t n).credits = p.credits ∧ (getPort t n).txq = p.txq))

/-! ### Memory health, faults and resets -/

/-- The patrol counts what it finds and poisons what it cannot correct, repairs and swaps leave every byte, and each fault of an
engine, the array, the fabric, a wait or a ledger makes its record and begins what its class begins. -/
def Obligations.MemoryHealthAndFaults : Prop :=
  ∀ s : State,
    let told := fun (t : State) (l : List Output) => if droneUp s = false then t.fr.noticeHeld = s.fr.noticeHeld ++ l
      else if (s.pw.i3cDead && s.pw.smbDead) = true then t.out = s.out else t.out = s.out ++ l
    (∀ (chest : Bool) (w line h : Nat) (f : PatrolFind), chestCtl s w = true → w < 16 → scrubLine chest w line = some h →
      let m := if f.writtenSince then s.mem else readLine h s.mem
      let n := if chest then 8 else 2
      let up := fun (here : Bool) (c : NMap Nat) (x k : Nat) => if here = true ∧ k = w then satAdd max32 (mget 0 c k) (min n x) else mget 0 c k
      ∃ t, exec (.patrolScrub chest w line f) s = .next t ∧ t.mem.cells = s.mem.cells
        ∧ (∀ l, poisoned t.mem l = (poisoned m l || (l == h && f.uncorrectable != 0 && !f.writtenSince)))
        ∧ (∀ k, mget 0 t.mem.hbmCe k = up (!chest) m.hbmCe f.corrected k) ∧ (∀ k, mget 0 t.mem.hbmUe k = up (!chest) m.hbmUe f.uncorrectable k)
        ∧ (∀ k, mget 0 t.mem.chestCe k = up chest m.chestCe f.corrected k) ∧ (∀ k, mget 0 t.mem.chestUe k = up chest m.chestUe f.uncorrectable k))
    ∧ (∀ (line u : Nat) (m : Mem), m.latent.filter (fun e => e.1 / 8 == line) = [(u, 2)] → u / 8 = line →
      (readLine line m).cells = m.cells ∧ (∀ l, poisoned (readLine line m) l = (poisoned m l || l == line))
      ∧ ((homeWc (8 * u)).2 = 0 → mget 0 (readLine line m).hbmUe (homeWc (8 * u)).1 = satAdd max32 (mget 0 m.hbmUe (homeWc (8 * u)).1) 1))
    ∧ (∀ w pch row : Nat, chestCtl s w = true → w < 16 → (w, pch, row) ∉ s.fl.rowsToRepair →
      ∃ t, exec (.softRepair w pch row) s = .next t ∧ bytesKept s t ∧ t.fl.rowsToRepair = s.fl.rowsToRepair ++ [(w, pch, row)]
        ∧ mget 0 t.mem.pprSoft w = mget 0 s.mem.pprSoft w + 1 ∧ logged s t (procIsland (36 + w)) 2 0x0404 w (2 * pch))
    ∧ (∀ w pch : Nat, chestCtl s w = true → w < 16 → mget false s.mem.swapActive w = false →
      ∃ t, exec (.pchSwapStart w pch) s = .next t ∧ bytesKept s t
        ∧ (if mget false s.mem.spareUsed w = true then mget false t.mem.degraded w = true ∧ mget false t.mem.swapActive w = false
           else mget false t.mem.swapActive w = true ∧ mget 0 t.mem.spareFor w = pch))
    ∧ (∀ w pch : Nat, chestCtl s w = true → w < 16 → mget false s.mem.swapActive w = true → mget 0 s.mem.spareFor w ≠ pch →
      ∃ t, exec (.pchSwapStart w pch) s = .next t ∧ t.mem = { s.mem with degraded := mset false s.mem.degraded w true })
    ∧ (∀ (w line h : Nat) (good : Bool), chestCtl s w = true → w < 16 → mget false s.mem.swapActive w = true → mget 0 s.mem.swapNext w ≤ line →
      scrubLine false w line = some h →
      let m := readLine h s.mem
      ∃ t, exec (.pchSwapCopyStep w line good) s = .next t ∧ t.mem.cells = s.mem.cells ∧ mget 0 t.mem.swapNext w = line + 1
        ∧ (∀ l, poisoned t.mem l = (poisoned m l || (l == h && !good)))
        ∧ mget 0 t.mem.hbmUe w = if good = true then mget 0 m.hbmUe w else satAdd max32 (mget 0 m.hbmUe w) 1)
    ∧ (∀ w : Nat, chestCtl s w = true → mget false s.mem.swapActive w = true →
      ∃ t, exec (.pchSwapEnd w) s = .next t ∧ bytesKept s t ∧ mget false t.mem.spareUsed w = true ∧ mget false t.mem.swapActive w = false
        ∧ logged s t (procIsland (36 + w)) 2 0x0404 w (1 + 2 * mget 0 s.mem.spareFor w))
    ∧ (∀ kind index q : Nat, engUp s kind index = true → faultQc s kind index (fun _ => true) = some q → containing s (.engine kind index) = none →
      ∃ t, exec (.engineHang kind index) s = .next t ∧ faultAdded s t 7 0x31 0 ∧ resetRuns t (.engine kind index) = true
        ∧ (getEng t (engKey kind index)).resets = (getEng s (engKey kind index)).resets + 1
        ∧ (∀ qu, (getQ s qu).live = true → ∀ f ∈ (getQ s qu).inflight, f.result = none → qKind f.target = kind → qIndex f.target = index →
            (getQ t qu).state = qStopped ∧ ∃ g ∈ (getQ t qu).inflight, g.id = f.id ∧ g.result = some 0x31))
    ∧ (∀ (kind index : Nat) (syn : W64), engUp s kind index = true →
      let dom : Domain := if kind ≤ kDM then .core index else .engine kind index
      let level := if kind ≤ kDM then 3 else 2
      containing s dom = none →
      (∃ t, exec (.engineError kind index none syn) s = .next t ∧ faultAdded s t 8 0 0 ∧ resetRuns t dom = true
        ∧ noticed s t (.faultNotice none (engIsland s kind index) 0 level))
      ∧ (∀ c : Byte, (getCtx s c.toNat).state ≠ ctxFree → ctxResetRuns s c.toNat = false → largerRuns s c.toNat = false →
        ∃ t, exec (.engineError kind index (some c) syn) s = .next t ∧ faultAdded s t 8 0x30 0 ∧ resetRuns t dom = true
          ∧ resetRuns t (.context c.toNat) = true ∧ (getCtx t c.toNat).state = ctxResetting
          ∧ ∃ isl, noticed s t (.faultNotice (some c.toNat) isl 0x30 level)))
    ∧ (∀ cd row col : Nat, s.pw.powered = true → s.bt.computeDone = true → frozenIsl s (0x900 + 8 * cd + min 7 (row / 256)) = false →
      resetRuns s .chip = false → s.ob.dumpFor ≠ 2 → s.ob.dumpState ≠ 1 → dumpWanted s 1 = false → computeReached s = true →
      (∃ t, exec (.arrayError cd row col none) s = .next t ∧ faultAdded s t 9 0 0 ∧ resetRuns t .chip = true
        ∧ t.bt.ready = false ∧ t.bt.computeDone = false ∧ t.bt.stage = 6)
      ∧ ∀ c : Byte, (getCtx s c.toNat).state ≠ ctxFree → ctxResetRuns s c.toNat = false → largerRuns s c.toNat = false →
        ∃ t, exec (.arrayError cd row col (some c)) s = .next t ∧ faultAdded s t 9 0x30 0 ∧ resetRuns t .chip = true
          ∧ resetRuns t (.context c.toNat) = true ∧ (getCtx t c.toNat).state = ctxResetting ∧ t.bt.ready = false ∧ t.bt.computeDone = false)
    ∧ (∀ link cls kind isl : Nat, s.pw.powered = true →
      (s.fr.escCfg.getLsbD 0 = false → ∃ t, exec (.fabricError link cls kind isl) s = .next t ∧ faultAdded s t 0xA 0 0 ∧ t.fr.resets = s.fr.resets
        ∧ told t [.faultNotice none isl 0 0] ∧ bytesKept s t ∧ t.fe = s.fe)
      ∧ (s.fr.escCfg.getLsbD 0 = true → s.ob.stopState = 0 → dumpWanted s 2 = false →
        ∃ t, exec (.fabricError link cls kind isl) s = .next t ∧ faultAdded s t 0xA 0 0 ∧ t.fr.resets = s.fr.resets
          ∧ told t [.faultNotice none isl 0 6, .faultNotice none (droneIsland s) 0 6]))
    ∧ (∀ c : Byte, s.pw.powered = true → chanterUp s = true → s.ob.stopState ≠ 2 → allWatched s c.toNat = true → deadlocked s c.toNat = true →
      (getCtx s c.toNat).state ≠ ctxFree → ctxResetRuns s c.toNat = false → largerRuns s c.toNat = false →
      ∃ t, exec (.waitDeadlock c) s = .next t ∧ t.fr.faultCount = s.fr.faultCount + ((ctxWaits s c.toNat).map (fun w => (waiterQueue s w).1)).eraseDups.length
        ∧ resetRuns t (.context c.toNat) = true ∧ (getCtx t c.toNat).state = ctxResetting
        ∧ (∀ w ∈ ctxWaits s c.toNat, w.isQueue = false → ∀ qu id prog, (getQc s w.key).cmd = some (qu, id, prog) → statusGiven s t qu id 0x40)
        ∧ (∀ w ∈ ctxWaits s c.toNat, w.isQueue = true → (getQ s w.key).state = qWaiting → ∀ e, (getQ s w.key).cur = some e →
            ∃ g ∈ (getQ t w.key).inflight, g.entry = e ∧ g.result = some 0x40))
    ∧ (droneUp s = true → exec .ledgerAuditPeriod s = .next { s with fr := { s.fr with ledState := 1 } })
    ∧ (∀ f : Bool, writable s f 0x81000 = true → exec (.audit f) s = .next { s with fr := { s.fr with ledState := 1 } })
    ∧ (s.fr.ledState = 1 →
      (∃ t, exec (.auditComplete none) s = .next t ∧ t.fr.ledState = 2 ∧ t.fr.audits = satAdd max32 s.fr.audits 1 ∧ t.fr.faultCount = s.fr.faultCount
        ∧ ∀ k, k < 304 → mget 0 t.fr.ledSent k = mget 0 t.fr.ledHeld k)
      ∧ (∀ (l c : Nat) (d k : Bool), l < 38 → c < 4 → s.fr.escCfg.getLsbD 0 = false →
        ∃ t, exec (.auditComplete (some (l, c, d, k))) s = .next t ∧ t.fr.ledState = 3 ∧ t.fr.ledLink = l ∧ t.fr.ledClass = c ∧ t.fr.ledDir = d
          ∧ t.fr.ledKind = b01 k ∧ faultAdded s t 0xA 0 0
          ∧ (∀ j, j < 304 → (mget 0 t.fr.ledSent j = mget 0 t.fr.ledHeld j ↔ j ≠ ledKey l c (b01 d)))))
    ∧ (∀ (n since : Nat) (p : Packet), firstPacket n isPeerDown s = some p →
      let h := p.header
      let id : W64 := BitVec.ofNat 64 (bfld h 128 64)
      let here := (getPort s n).fwd = true ∧ s.et.coordValid = true ∧ pktDest h = s.et.coord.toNat ∧ ¬ (id ∈ s.fr.notices ∧ since ≤ 10000)
      (¬ here → ∃ t, exec (.peerDown n since) s = .next t ∧ t.et.inbox = dropOne (n, p) s.et.inbox ∧ t.fr = s.fr ∧ t.fe = s.fe)
      ∧ (here → noticeCtxs s h = [] → ∃ t, exec (.peerDown n since) s = .next t ∧ t.et.inbox = dropOne (n, p) s.et.inbox
          ∧ faultAdded s t 0xB 0x33 0 ∧ id ∈ t.fr.notices ∧ t.fr.resets = s.fr.resets)
      ∧ (here → noticeCtxs s h ≠ [] → ∃ t, exec (.peerDown n since) s = .next t ∧ t.et.inbox = dropOne (n, p) s.et.inbox ∧ id ∈ t.fr.notices
          ∧ t.fr.faultCount = s.fr.faultCount + (noticeCtxs s h).length
          ∧ ∀ c ∈ noticeCtxs s h, ctxResetRuns s c = false → largerRuns s c = false →
              (getCtx t c).state = ctxResetting ∧ ∃ r ∈ t.fr.resets, r.dom = .context c ∧ r.status = 0x33)
      ∧ (∀ c : Nat, here → noticeCtxs s h = [c] → ctxResetRuns s c = false → largerRuns s c = false →
          ∃ t, exec (.peerDown n since) s = .next t ∧ t.et.inbox = dropOne (n, p) s.et.inbox ∧ faultAdded s t 0xB 0x33 0 ∧ id ∈ t.fr.notices
            ∧ t.fr.resets = s.fr.resets ++ [{ dom := .context c, status := 0x33, fabric := false }] ∧ (getCtx t c).state = ctxResetting))

/-- Resets end what their domain holds and nothing before they are asked for; a refused request begins none; a completed one
returns its domain or holds it; one that misses its time goes on in the larger domain; edges absorb what reaches them. -/
def Obligations.ResetsBeginEndAndEscalate : Prop :=
  ∀ s : State, s.pw.powered = true → s.ob.stopState = 0 →
    (∀ (c : Byte) (fabric : Bool), (getCtx s c.toNat).state ≠ ctxFree → (getCtx s c.toNat).state ≠ ctxResetting → ctxResetRuns s c.toNat = false →
      largerRuns s c.toNat = false →
      ∃ t, exec (.contextReset c fabric) s = .next t ∧ (getCtx t c.toNat).state = ctxResetting ∧ (getCtx t c.toNat).prior = (getCtx s c.toNat).state
        ∧ t.fr.resets = s.fr.resets ++ [{ dom := .context c.toNat, status := 0x30, fabric }] ∧ bytesKept s t
        ∧ (∀ k, k ≠ c.toNat → getCtx t k = getCtx s k)
        ∧ (∀ q, (getQc s q).live = true → (getQc s q).ctx = c.toNat → (fabric = true ∨ qKind q ≤ kAX) → (getQc t q).cmd = none)
        ∧ (∀ q, (getQ s q).live = true → (getQ s q).ctx = c.toNat → (fabric = true ∨ (qKind q ≠ kRX ∧ qKind q ≠ kUX)) →
            (getQ t q).state = qStopped
            ∧ ∀ f ∈ (getQ s q).inflight, f.result = none → (fabric = true ∨ qKind f.target ≤ kAX ∨ 4 < qKind f.target) →
                ∃ g ∈ (getQ t q).inflight, g.id = f.id ∧ g.result = some 0x30)
        ∧ (∀ q, (getQ s q).ctx ≠ c.toNat → getQ t q = getQ s q))
    ∧ (∀ (f : Bool) (v : W64), writable s f 0x80010 = true → v.getLsbD 63 = true →
      (reqRefused s f v = true →
        ∀ e ∈ ([(1, .engineReset (.host f v)), (2, .partitionReset (.host f v)), (3, .chipReset (.host f v)), (4, .powerCycleRequest (.host f v)),
                (5, .partitionRelease (.host f v))] : List (Nat × Instr)), (reqLevel v = e.1 ∨ reservedLevel (reqLevel v) = true) →
          ∃ t, exec e.2 s = .next t ∧ t.fr.rsState = 3 ∧ t.fr.rsLevel = reqLevel v ∧ t.fr.rsFunc = f ∧ t.fr.resets = s.fr.resets ∧ bytesKept s t
            ∧ t.en = s.en ∧ t.fe = s.fe)
      ∧ (reqRefused s f v = false → reqLevel v = 1 →
        let dom : Domain := .engine (reqKind v) (reqIndex v)
        resetRuns s dom = false → containing s dom = none →
        ∃ t, exec (.engineReset (.host f v)) s = .next t ∧ t.fr.rsState = 1 ∧ t.fr.rsLevel = 1 ∧ t.fr.rsFunc = f
          ∧ t.fr.resets = s.fr.resets ++ [{ dom, status := 0x31, byReq := true }]
          ∧ (∀ q, (getQc s q).live = true → qKind q = reqKind v → qIndex q = reqIndex v → (getQc t q).cmd = none))
      ∧ (reqRefused s f v = false → reqLevel v = 2 →
        let p := reqPart v
        resetRuns s (.partition p) = false → containing s (.partition p) = none →
        ∃ t, exec (.partitionReset (.host f v)) s = .next t ∧ t.fr.rsState = 1
          ∧ (∃ r ∈ t.fr.resets, r.dom = .partition p ∧ r.hold = reqHold v ∧ r.byReq = true)
          ∧ mget 0 t.fr.partEpoch p = (mget 0 s.fr.partEpoch p + 1) % 2 ^ 32
          ∧ (∀ c, c < 256 → (getCtx s c).state ≠ ctxFree → (getCtx s c).part = p → (getCtx t c).state = ctxResetting))
      ∧ (reqRefused s f v = false → reqLevel v = 5 →
        ∃ t, exec (.partitionRelease (.host f v)) s = .next t ∧ mget false t.fr.heldParts (reqPart v) = false
          ∧ t.fr.resets = s.fr.resets ++ [{ dom := .partition (reqPart v), status := 0x32, byReq := true }] ∧ bytesKept s t)
      ∧ (reqRefused s f v = false → reqLevel v = 3 → resetRuns s .chip = false → s.ob.dumpFor ≠ 2 → s.ob.dumpState ≠ 1 → dumpWanted s 1 = false →
        computeReached s = true →
        ∃ t, exec (.chipReset (.host f v)) s = .next t ∧ t.fr.rsState = 1 ∧ resetRuns t .chip = true ∧ t.bt.ready = false ∧ t.bt.computeDone = false
          ∧ t.bt.stage = 6
          ∧ (∀ c, c < 256 → (getCtx s c).state ≠ ctxFree → (getCtx s c).part < partCount s → (getCtx t c).state = ctxResetting))
      ∧ (reqRefused s f v = false → reqLevel v = 4 → dumpWanted s 2 = false →
        ∃ t, exec (.powerCycleRequest (.host f v)) s = .next t ∧ t.fr.rsState = 2 ∧ noticed s t (.faultNotice none (droneIsland s) 0 6)
          ∧ t.fr.resets = s.fr.resets ∧ bytesKept s t))
    ∧ (∀ w : Nat, resetRuns s (.wcIsland w) = false → (∀ q, qKind q = kUX → qIndex q = w → (getQc s q).chunk = none) →
      ∃ t, exec (.windchestEngineIslandReset w) s = .next t ∧ t.fr.resets = s.fr.resets ++ [{ dom := .wcIsland w, status := 0x31 }]
        ∧ mget false t.fr.wcQuar w = true ∧ mget 0 t.fr.wcEpoch w = (mget 0 s.fr.wcEpoch w + 1) % 2 ^ 32
        ∧ (∀ k, getSlot t k = if k / 64 = w then {} else getSlot s k) ∧ bytesSame s t
        ∧ (∀ l, (∀ e, e ∈ s.mem.dirty → e.1 = l → e.2 - 1 ≠ engKey kRX w ∧ e.2 - 1 ≠ engKey kUX w) → poisoned t.mem l = poisoned s.mem l))
    ∧ (∀ (dom : Domain) (rep : ComputeReport) (x : RunReset), s.fr.resets.find? (fun r => r.dom == dom) = some x → covered s dom = false →
      x.byReq = false →
      let gone := s.fr.resets.filter (fun r => r.dom != dom)
      (∀ p, dom = .partition p → x.hold = true →
        ∃ t, exec (.resetComplete dom rep) s = .next t ∧ mget false t.fr.heldParts p = true ∧ t.fr.resets = gone ∧ bytesKept s t ∧ t.fe = s.fe)
      ∧ (∀ c, dom = .context c → queuesWhere s (fun _ v => v.ctx == c) = [] → x.thenFree = false → x.thenDestroy = false → x.ctl = none →
        (getCtx s c).state = ctxResetting → (getCtx s c).prior ≠ ctxSinkLost →
        ∃ t, exec (.resetComplete dom rep) s = .next t ∧ (getCtx t c).state = (getCtx s c).prior ∧ t.fr.resets = gone ∧ bytesKept s t)
      ∧ (∀ k i, dom = .engine k i → (∀ q, (getQ s q).live = true → ¬ (qKind q = k ∧ qIndex q = i) ∧ ∀ f ∈ (getQ s q).inflight, ¬ (qKind f.target = k ∧ qIndex f.target = i)) →
        ∃ t, exec (.resetComplete dom rep) s = .next t ∧ t.fr.resets = gone ∧ t.fe = s.fe ∧ t.en = s.en ∧ bytesKept s t)
      ∧ (∀ k i, dom = .engine k i → k ≤ kDM → containing s (.core i) = none →
        ∃ t, exec (.resetTimeout dom) s = .next t ∧ resetRuns t (.core i) = true ∧ resetRuns t dom = true)
      ∧ (∀ c, dom = .core c → containing s (.partition (corePart (partCount s) c)) = none →
        ∃ t, exec (.resetTimeout dom) s = .next t ∧ resetRuns t (.partition (corePart (partCount s) c)) = true ∧ resetRuns t dom = true)
      ∧ (∀ i, dom = .engine kAX i → containing s (.partition i) = none →
        ∃ t, exec (.resetTimeout dom) s = .next t ∧ resetRuns t (.partition i) = true ∧ resetRuns t dom = true)
      ∧ (∀ k i, dom = .engine k i → kAX < k → ∃ t, exec (.resetTimeout dom) s = .next t ∧ resetRuns t (.wcIsland i) = true ∧ resetRuns t dom = true)
      ∧ (∀ c, dom = .context c → ∃ t, exec (.resetTimeout dom) s = .next t ∧ resetRuns t dom = true
          ∧ ∀ e ∈ engsOf s c x.fabric, containing s (.engine e.1 e.2) = none → resetRuns t (.engine e.1 e.2) = true)
      ∧ (∀ p, dom = .partition p → s.ob.dumpFor ≠ 2 → s.ob.dumpState ≠ 1 → dumpWanted s 1 = false →
        ∃ t, exec (.resetTimeout dom) s = .next t ∧ resetRuns t .chip = true ∧ resetRuns t dom = true)
      ∧ ((dom = .chip ∨ ∃ w, dom = .wcIsland w) → dumpWanted s 2 = false →
        ∃ t, exec (.resetTimeout dom) s = .next t ∧ noticed s t (.faultNotice none (droneIsland s) 0 6) ∧ t.fr.resets = s.fr.resets))
    ∧ (edgeOpen s = true →
      (∀ l, ∃ t, exec (.edgeAbsorb (.memRead l)) s = .next t ∧ t.out = s.out ++ [.edge 0] ∧ t.fr = s.fr ∧ bytesKept s t)
      ∧ (∃ t, exec (.edgeAbsorb .memWrite) s = .next t ∧ t.out = s.out ++ [.edge 1] ∧ t.fr = { s.fr with absReq := satAdd max48 s.fr.absReq 1 } ∧ bytesKept s t)
      ∧ (∃ t, exec (.edgeAbsorb .memTally) s = .next t ∧ t.out = s.out ++ [.edge 1] ∧ t.fr = { s.fr with absTally := satAdd max48 s.fr.absTally 1 } ∧ bytesKept s t)
      ∧ (∃ t, exec (.edgeAbsorb .response) s = .next t ∧ t.out = s.out ∧ t.fr = { s.fr with absRsp := satAdd max48 s.fr.absRsp 1 } ∧ bytesKept s t)
      ∧ (∃ t, exec (.edgeAbsorb .snoop) s = .next t ∧ t.out = s.out ++ [.edge 2] ∧ t.fr = s.fr ∧ bytesKept s t)
      ∧ (∃ t, exec (.edgeAbsorb .stampOrWake) s = .next t ∧ t.out = s.out ∧ t.fr = s.fr ∧ bytesKept s t)
      ∧ (∃ t, exec (.edgeAbsorb .debugAccess) s = .next t ∧ t.out = s.out ++ [.edge 1] ∧ t.fr = s.fr ∧ bytesKept s t)
      ∧ (∃ t, exec (.edgeAbsorb .fromSite) s = .next t ∧ t.out = s.out ∧ t.fr = { s.fr with epochRefused := satAdd max32 s.fr.epochRefused 1 } ∧ bytesKept s t))
    ∧ (∀ core : Nat, s.bt.computeDone = true → procUp s (4 + core / 64) = true → resetRuns s (.core core) = true →
      let cd := core / 64
      let old := 72 * cd + psite s core
      let spare := spareSite { s with bt := { s.bt with siteBad := mset false s.bt.siteBad old true } } cd
      ∃ t, exec (.spareSubstitution core []) s = .next t ∧ mget false t.bt.siteBad old = true ∧ mget false t.fl.badSites old = true
        ∧ mget false t.fr.quar core = true
        ∧ (∀ i, spare = some i → psite t core = i ∧ mget false t.fr.fence core = mget false s.fr.fence core ∧ logged s t (0xA00 + cd) 2 0x0405 core i)
        ∧ (spare = none → mget false t.fr.fence core = true ∧ psite t core = psite s core))
    ∧ (∀ (id : Nat) (epoch : W32), id < 2048 → mget false s.fr.quar id = true → mget false s.fr.fence id = false → procUp s (4 + id / 64) = true →
      resetRuns s (.core id) = false →
      let p := corePart (partCount s) id
      partInReset s p = false →
      ∃ t, exec (.epochStamp false id epoch) s = .next t ∧ mget false t.fr.quar id = decide (mget 0 s.fr.partEpoch p ≠ epoch.toNat)
        ∧ (∀ c, c ≠ id → mget false t.fr.quar c = mget false s.fr.quar c) ∧ bytesKept s t)
    ∧ (∀ (w : Nat) (epoch : W32), w < 16 → mget false s.fr.wcQuar w = true → procUp s (36 + w) = true →
      resetRuns s (.wcIsland w) = false →
      ∃ t, exec (.epochStamp true w epoch) s = .next t ∧ mget false t.fr.wcQuar w = decide (mget 0 s.fr.wcEpoch w ≠ epoch.toNat) ∧ bytesKept s t)

/-! ### Observation and test (chapter 16) -/

/-- Samples and trace, the stop wave, the crash dump, loop-backs and self-tests. -/
def Obligations.ObservationStopDumpAndLoopbacks : Prop :=
  ∀ s : State,
    (∀ (f : Bool) (v : W64) (start : Bool), writable s f 0x100000 = true → v.getLsbD 63 = true → (getFn s f).sampleStatus.toNat % 4 ≠ 1 →
      ∃ t, exec (.sample f v start) s = .next t ∧ (getFn t f).sampleSel.toNat = v.toNat % 2 ^ 25 ∧ getFn t (!f) = getFn s (!f) ∧ bytesKept s t
        ∧ (∀ q, getQc t q = getQc s q)
        ∧ (sampleError s v ≠ 0 → (getFn t f).sampleStatus = BitVec.ofNat 64 (3 + 4 * sampleError s v) ∧ (getFn t f).sampleValue = (getFn s f).sampleValue
            ∧ (getFn t f).sampleTag = (getFn s f).sampleTag ∧ t.en = s.en)
        ∧ (sampleError s v = 0 →
            let s1 := tickEng (ssKind v) (ssIndex v) s
            (getFn t f).sampleStatus = 2 ∧ (getFn t f).sampleValue = BitVec.ofNat 64 (sampleOf s1 v start).1 ∧ (getFn t f).sampleTag = (sampleOf s1 v start).2
            ∧ (getFn t f).sampleCycle = BitVec.ofNat 64 (cycOf s1 (engIsland s (ssKind v) (ssIndex v)))))
    ∧ (∀ (w u : Nat) (r : TraceRec) (rs : List TraceRec), s.pw.powered = true → w < 16 → mget 0 s.ob.traceSize w ≠ 0 → wcFrozen s w = false →
      mget [] s.ob.buffers u = r :: rs → unitWc s u = w →
      let n := mget 0 s.ob.traceWptr w
      let slot := mget 0 s.ob.traceBase w + 32 * (n % (mget 0 s.ob.traceSize w / 32))
      slot + 32 ≤ 0x28000000 →
      ∃ t, exec (.traceDrain w [u]) s = .next t ∧ mget [] t.ob.buffers u = rs ∧ (∀ k, k ≠ u → mget [] t.ob.buffers k = mget [] s.ob.buffers k)
        ∧ mget 0 t.ob.traceWptr w = (n + 1) % 2 ^ 64 ∧ stored s t (chestBase + w * 2 ^ 30 + slot) (traceBytes r) ∧ t.en = s.en)
    ∧ (∀ kind index : Nat, engUp s kind index = true → bfld s.ob.traceCtrl 26 22 ≠ 0 → kindOn s kind = true → typeOn s 6 = true →
      let u := engKey kind index
      (mget [] s.ob.buffers u).length < 512 → mget 0 s.ob.lostPending u = 0 →
      let e := getEng (tickEng kind index s) u
      ∃ t r, exec (.counters kind index) s = .next t ∧ mget [] t.ob.buffers u = mget [] s.ob.buffers u ++ [r] ∧ r.ty = 6 ∧ r.kind = kind
        ∧ r.data0 = BitVec.ofNat 64 e.busy ∧ r.data1 = BitVec.ofNat 64 e.stall ∧ getEng t u = e ∧ bytesKept s t)
    ∧ (s.pw.powered = true → s.ob.syncPeriod ≠ 0 →
      ∃ t, exec .marker s = .next t ∧ t.ob.markers = s.ob.markers + 1 ∧ bytesKept s t ∧ t.hs = s.hs
        ∧ (typeOn s 7 = false → t.ob.buffers = s.ob.buffers ∧ t.en = s.en))
    ∧ (∀ f : Bool, writable s f 0x100200 = true →
      (s.ob.stopState = 0 → s.fr.resets = [] → ∃ t, exec (.stop f) s = .next t ∧ t.ob.stopState = 1 ∧ t.ob.frozen = [] ∧ t.ob.stopCount = s.ob.stopCount + 1
        ∧ t.mem = s.mem ∧ t.en = s.en)
      ∧ (s.ob.stopState = 0 → s.fr.resets ≠ [] → exec (.stop f) s = .next { s with ob := { s.ob with stopPending := true } })
      ∧ (s.ob.stopState ≠ 0 → exec (.stop f) s = .next s)
      ∧ (s.ob.stopState ≠ 0 → ∃ u, exec (.resume f) s = .next (keepRegs s (afterStop u)) ∧ u.ob.stopState = 0 ∧ u.ob.frozen = []
          ∧ u.ob.timedOut = s.ob.timedOut ∧ u.fe = s.fe ∧ u.et = s.et ∧ u.mem = s.mem ∧ u.fr = s.fr ∧ (∀ q, getQc u q = getQc s q)))
    ∧ (s.ob.dumpState ≠ 1 → s.ob.stopState ≠ 0 → ∃ u, exec .stopLimitExpiry s = .next (keepRegs s (afterStop u)) ∧ u.ob.stopState = 0
        ∧ u.ob.frozen = [] ∧ u.ob.timedOut = true ∧ u.fe = s.fe ∧ u.et = s.et ∧ u.mem = s.mem)
    ∧ (∀ isl : Nat, s.ob.stopState = 1 → isl < 2712 → frozenIsl s isl = false →
      let full := frozenCount { s with ob := { s.ob with frozen := mset false s.ob.frozen isl true } } = 2712
      ∃ t, exec (.stopMarker isl) s = .next t ∧ frozenIsl t isl = true ∧ (∀ k, k ≠ isl → frozenIsl t k = frozenIsl s k)
        ∧ t.ob.stopState = (if full then 2 else 1) ∧ bytesKept s t ∧ (∀ q, getQc t q = getQc s q))
    ∧ (∀ (f : Bool) (v : W64), writable s f 0x86000 = true → v.getLsbD 0 = true → s.ob.dumpSize ≠ 0 → s.ob.dumpState ≠ 1 →
      (v.getLsbD 1 = false → ∃ t, exec (.dump f v) s = .next t ∧ t.ob.dumpState = 1 ∧ t.ob.dumpTrigger = 1 ∧ t.ob.dumpStop = false ∧ t.ob.dumpBegun = true
        ∧ t.ob.dumpFault = BitVec.ofNat 64 s.fr.faultCount - 1 ∧ t.ob.stopState = s.ob.stopState ∧ bytesKept s t)
      ∧ (v.getLsbD 1 = true → s.ob.stopState = 0 → s.fr.resets = [] → ∃ t, exec (.dump f v) s = .next t ∧ t.ob.dumpState = 1 ∧ t.ob.dumpStop = true
        ∧ t.ob.dumpBegun = false ∧ t.ob.stopState = 1 ∧ bytesKept s t))
    ∧ (s.ob.dumpState = 1 → s.ob.dumpBegun = true → s.ob.dumpFor = 0 →
      ∃ t, exec .dumpEnd s = .next t ∧ (t.ob.dumpState = 2 ∨ t.ob.dumpState = 3) ∧ t.ob.dumpBegun = false ∧ t.ob.stopState = s.ob.stopState
        ∧ t.fe = { s.fe with waiters := t.fe.waiters } ∧ t.en = s.en ∧ t.et = s.et ∧ t.hs = s.hs ∧ t.fr.resets = s.fr.resets)
    ∧ (s.ob.dumpState = 1 → s.ob.dumpFor = 2 → s.ob.stopState = 0 →
      ∃ t, exec .dumpWaitExpiry s = .next t ∧ t.ob.dumpState = 1 ∧ t.ob.dumpFor = 0 ∧ resetRuns t .chip = true ∧ t.bt.ready = false
        ∧ (computeReached s = true → t.bt.computeDone = false ∧ t.bt.stage = 6))
    ∧ (∀ (f : Bool) (v : W64) (ready : Bool), writable s f 0x100300 = true → v.getLsbD 63 = true →
      ∃ t, exec (.loopback f v ready) s = .next t ∧ bytesKept s t ∧ t.en = s.en
        ∧ (loopReady s v ready = true → s.ob.loopRuns = false →
            t.ob.loopState = 1 ∧ t.ob.loopRuns = true ∧ t.ob.loopCtrl.toNat = v.toNat % 2 ^ 48 ∧ t.ob.loopBits = 0)
        ∧ ((loopReady s v ready = false ∨ s.ob.loopRuns = true) → t.ob = { s.ob with loopState := 4 }))
    ∧ (∀ (errors : Nat) (ds : List ArrayDefect), s.ob.loopRuns = true →
      let n := lcTarget s.ob.loopCtrl
      let u := Config.memoryUnit n
      ∃ t, exec (.loopbackEnd errors ds) s = .next t ∧ t.ob.loopState = (if errors = 0 then 2 else 3) ∧ t.ob.loopRuns = false
        ∧ t.ob.loopErrors = s.ob.loopErrors + BitVec.ofNat 64 errors
        ∧ (lcIface s.ob.loopCtrl = 0 → s.pw.powered = true → portEnabled s n = true → axisOff s n = false →
            (getPort t n).state = 1 ∧ ∀ m, m ≠ n → getPort t m = getPort s m)
        ∧ (lcIface s.ob.loopCtrl ≠ 0 → lcIface s.ob.loopCtrl ≠ 5 → t.mem = s.mem ∧ t.et = s.et ∧ t.bt = s.bt)
        ∧ (lcIface s.ob.loopCtrl = 5 → lcDepth s.ob.loopCtrl = 1 →
            (u < 16 → ∀ l, chestBase + u * 2 ^ 30 ≤ 64 * l → 64 * l < chestBase + (u + 1) * 2 ^ 30 → poisoned t.mem l = true)
            ∧ (16 ≤ u → u < 48 → (getPart t (cdPart (partCount s) (u - 16))).rows = [])
            ∧ (48 ≤ u → ∀ l, isCoreAddr (64 * l) = true → coreOfAddr (64 * l) = u - 48 → poisoned t.mem l = true)))
end

