-- ==== Sys2Proof/Laws/NMap.lean ====
section
/-! SUPPORT. The laws of the sparse map: a read after a write, and the canonical form kept by every operation. -/

namespace Sys2Proof.Machine

variable {α : Type}

@[simp] theorem mget_nil (d : α) (k : Nat) : mget d [] k = d := rfl

theorem mget_cons (d : α) (i : Nat) (w : α) (m : NMap α) (j : Nat) :
    mget d ((i, w) :: m) j = if i = j then w else mget d m j := rfl

theorem mget_minsert (d : α) (m : NMap α) (k j : Nat) (v : α) :
    mget d (minsert k v m) j = if j = k then v else mget d m j := by
  induction m with
  | nil =>
    by_cases h : j = k
    · simp [minsert, mget, h]
    · simp [minsert, mget, h, Ne.symm h]
  | cons e m ih =>
    obtain ⟨i, w⟩ := e
    by_cases h1 : k < i
    · by_cases h : j = k
      · simp [minsert, mget_cons, h1, h]
      · simp [minsert, mget_cons, h1, h, Ne.symm h]
    · by_cases h2 : k = i
      · subst h2
        by_cases h : j = k
        · simp [minsert, mget_cons, h]
        · simp [minsert, mget_cons, h, Ne.symm h]
      · have h3 : minsert k v ((i, w) :: m) = (i, w) :: minsert k v m := by simp [minsert, h1, h2]
        rw [h3, mget_cons, mget_cons, ih]
        by_cases h : i = j
        · have : j ≠ k := by omega
          simp [h, this]
        · simp [h]

theorem mget_merase (d : α) (m : NMap α) (k j : Nat) :
    mget d (merase k m) j = if j = k then d else mget d m j := by
  induction m with
  | nil => simp [merase]
  | cons e m ih =>
    obtain ⟨i, w⟩ := e
    by_cases h2 : i = k
    · subst h2
      by_cases h : j = i
      · subst h; simpa [merase] using ih
      · simp [merase, mget_cons, ih, h, Ne.symm h]
    · have h3 : merase k ((i, w) :: m) = (i, w) :: merase k m := by simp [merase, h2]
      rw [h3, mget_cons, mget_cons, ih]
      by_cases h : i = j
      · have : j ≠ k := by omega
        simp [h, this]
      · simp [h]

/-- A read after a write: the value written at its key, what was there at any other. -/
theorem mget_mset [DecidableEq α] (d : α) (m : NMap α) (k j : Nat) (v : α) :
    mget d (mset d m k v) j = if j = k then v else mget d m j := by
  unfold mset
  split
  · subst_vars; exact mget_merase _ m k j
  · exact mget_minsert d m k j v

@[simp] theorem mget_mset_self [DecidableEq α] (d : α) (m : NMap α) (k : Nat) (v : α) : mget d (mset d m k v) k = v := by
  simp [mget_mset]

theorem mget_mset_ne [DecidableEq α] (d : α) (m : NMap α) {k j : Nat} (v : α) (h : j ≠ k) :
    mget d (mset d m k v) j = mget d m j := by simp [mget_mset, h]

theorem mget_mdrop (d : α) (p : Nat → Bool) (m : NMap α) (k : Nat) :
    mget d (mdrop p m) k = if p k then d else mget d m k := by
  induction m with
  | nil => simp [mdrop]
  | cons e m ih =>
    obtain ⟨i, w⟩ := e
    by_cases h2 : p i
    · have h3 : mdrop p ((i, w) :: m) = mdrop p m := by simp [mdrop, h2]
      rw [h3, mget_cons, ih]
      by_cases h : i = k
      · subst h; simp [h2]
      · simp [h]
    · have h3 : mdrop p ((i, w) :: m) = (i, w) :: mdrop p m := by simp [mdrop, h2]
      rw [h3, mget_cons, mget_cons, ih]
      by_cases h : i = k
      · subst h; simp [h2]
      · simp [h]

/-! ### The canonical form -/

/-- Every key of the map is above `k`. -/
def mabove (k : Nat) (m : NMap α) : Prop := ∀ e ∈ m, k < e.1

theorem mwf_cons [DecidableEq α] (d : α) (k : Nat) (v : α) (m : NMap α) :
    mwf d ((k, v) :: m) = true ↔ v ≠ d ∧ mabove k m ∧ mwf d m = true := by
  induction m generalizing k v with
  | nil => simp [mwf, mabove]
  | cons e m ih =>
    obtain ⟨i, w⟩ := e
    simp only [mwf, Bool.and_eq_true, decide_eq_true_eq, Bool.not_eq_true', decide_eq_false_iff_not]
    constructor
    · rintro ⟨⟨h1, h2⟩, h3⟩
      refine ⟨h2, ?_, h3⟩
      intro e he
      rcases List.mem_cons.1 he with rfl | he
      · exact h1
      · exact Nat.lt_trans h1 (((ih i w).1 h3).2.1 e he)
    · rintro ⟨h1, h2, h3⟩
      exact ⟨⟨h2 (i, w) (List.mem_cons_self ..), h1⟩, h3⟩

theorem mabove_merase (k j : Nat) (m : NMap α) (h : mabove j m) : mabove j (merase k m) := by
  induction m with
  | nil => simpa [merase] using h
  | cons e m ih =>
    obtain ⟨i, w⟩ := e
    have ih' := ih (fun e he => h e (List.mem_cons_of_mem _ he))
    simp only [merase]
    split
    · exact ih'
    · intro e he
      rcases List.mem_cons.1 he with rfl | he
      · exact h _ (List.mem_cons_self ..)
      · exact ih' e he

theorem mwf_merase [DecidableEq α] (d : α) (k : Nat) (m : NMap α) (h : mwf d m = true) : mwf d (merase k m) = true := by
  induction m with
  | nil => simpa [merase] using h
  | cons e m ih =>
    obtain ⟨i, w⟩ := e
    obtain ⟨h1, h2, h3⟩ := (mwf_cons d i w m).1 h
    simp only [merase]
    split
    · exact ih h3
    · exact (mwf_cons d i w _).2 ⟨h1, mabove_merase k i m h2, ih h3⟩

theorem mabove_minsert (k j : Nat) (v : α) (m : NMap α) (h : mabove j m) (hk : j < k) : mabove j (minsert k v m) := by
  induction m with
  | nil => intro e he; simp [minsert] at he; subst he; exact hk
  | cons e m ih =>
    obtain ⟨i, w⟩ := e
    have ih' := ih (fun e he => h e (List.mem_cons_of_mem _ he))
    simp only [minsert]
    split
    · intro e he
      rcases List.mem_cons.1 he with rfl | he
      · exact hk
      · exact h e he
    · split
      · intro e he
        rcases List.mem_cons.1 he with rfl | he
        · exact hk
        · exact h e (List.mem_cons_of_mem _ he)
      · intro e he
        rcases List.mem_cons.1 he with rfl | he
        · exact h _ (List.mem_cons_self ..)
        · exact ih' e he

theorem mwf_minsert [DecidableEq α] (d : α) (k : Nat) (v : α) (m : NMap α) (hv : v ≠ d) (h : mwf d m = true) :
    mwf d (minsert k v m) = true := by
  induction m with
  | nil => simp [minsert, mwf, hv]
  | cons e m ih =>
    obtain ⟨i, w⟩ := e
    obtain ⟨h1, h2, h3⟩ := (mwf_cons d i w m).1 h
    simp only [minsert]
    split <;> rename_i hk
    · refine (mwf_cons d k v _).2 ⟨hv, ?_, h⟩
      intro e he
      rcases List.mem_cons.1 he with rfl | he
      · exact hk
      · exact Nat.lt_trans hk (h2 e he)
    · split
      · subst_vars; exact (mwf_cons d _ v m).2 ⟨hv, h2, h3⟩
      · exact (mwf_cons d i w _).2 ⟨h1, mabove_minsert k i v m h2 (by omega), ih h3⟩

/-- A write keeps the canonical form. -/
theorem mwf_mset [DecidableEq α] (d : α) (m : NMap α) (k : Nat) (v : α) (h : mwf d m = true) : mwf d (mset d m k v) = true := by
  unfold mset
  split
  · exact mwf_merase d k m h
  · exact mwf_minsert d k v m ‹_› h

theorem mabove_mdrop (p : Nat → Bool) (j : Nat) (m : NMap α) (h : mabove j m) : mabove j (mdrop p m) := by
  induction m with
  | nil => simpa [mdrop] using h
  | cons e m ih =>
    obtain ⟨i, w⟩ := e
    have ih' := ih (fun e he => h e (List.mem_cons_of_mem _ he))
    simp only [mdrop]
    split
    · exact ih'
    · intro e he
      rcases List.mem_cons.1 he with rfl | he
      · exact h _ (List.mem_cons_self ..)
      · exact ih' e he

/-- Clearing a range of keys keeps the canonical form. -/
theorem mwf_mdrop [DecidableEq α] (d : α) (p : Nat → Bool) (m : NMap α) (h : mwf d m = true) : mwf d (mdrop p m) = true := by
  induction m with
  | nil => simpa [mdrop] using h
  | cons e m ih =>
    obtain ⟨i, w⟩ := e
    obtain ⟨h1, h2, h3⟩ := (mwf_cons d i w m).1 h
    simp only [mdrop]
    split
    · exact ih h3
    · exact (mwf_cons d i w _).2 ⟨h1, mabove_mdrop p i m h2, ih h3⟩

end Sys2Proof.Machine
end

