-- ==== Sys2Proof/Laws/State.lean ====
section
/-! SUPPORT. One lemma per field for each update of the state, and the look-ups after an update. -/

namespace Sys2Proof.Machine

/-! ### setQ -/

@[simp] theorem setQ_pending (q : Nat) (v : Queue) (s : State) : (setQ q v s).pending = s.pending := rfl
@[simp] theorem setQ_pw (q : Nat) (v : Queue) (s : State) : (setQ q v s).pw = s.pw := rfl
@[simp] theorem setQ_fl (q : Nat) (v : Queue) (s : State) : (setQ q v s).fl = s.fl := rfl
@[simp] theorem setQ_bt (q : Nat) (v : Queue) (s : State) : (setQ q v s).bt = s.bt := rfl
@[simp] theorem setQ_hs (q : Nat) (v : Queue) (s : State) : (setQ q v s).hs = s.hs := rfl
@[simp] theorem setQ_mem (q : Nat) (v : Queue) (s : State) : (setQ q v s).mem = s.mem := rfl
@[simp] theorem setQ_en (q : Nat) (v : Queue) (s : State) : (setQ q v s).en = s.en := rfl
@[simp] theorem setQ_ax (q : Nat) (v : Queue) (s : State) : (setQ q v s).ax = s.ax := rfl
@[simp] theorem setQ_rx (q : Nat) (v : Queue) (s : State) : (setQ q v s).rx = s.rx := rfl
@[simp] theorem setQ_et (q : Nat) (v : Queue) (s : State) : (setQ q v s).et = s.et := rfl
@[simp] theorem setQ_fr (q : Nat) (v : Queue) (s : State) : (setQ q v s).fr = s.fr := rfl
@[simp] theorem setQ_fw (q : Nat) (v : Queue) (s : State) : (setQ q v s).fw = s.fw := rfl
@[simp] theorem setQ_ob (q : Nat) (v : Queue) (s : State) : (setQ q v s).ob = s.ob := rfl
@[simp] theorem setQ_out (q : Nat) (v : Queue) (s : State) : (setQ q v s).out = s.out := rfl
@[simp] theorem setQ_free (q : Nat) (v : Queue) (s : State) : (setQ q v s).free = s.free := rfl

/-! ### setCtx -/

@[simp] theorem setCtx_pending (c : Nat) (v : Ctx) (s : State) : (setCtx c v s).pending = s.pending := rfl
@[simp] theorem setCtx_pw (c : Nat) (v : Ctx) (s : State) : (setCtx c v s).pw = s.pw := rfl
@[simp] theorem setCtx_fl (c : Nat) (v : Ctx) (s : State) : (setCtx c v s).fl = s.fl := rfl
@[simp] theorem setCtx_bt (c : Nat) (v : Ctx) (s : State) : (setCtx c v s).bt = s.bt := rfl
@[simp] theorem setCtx_hs (c : Nat) (v : Ctx) (s : State) : (setCtx c v s).hs = s.hs := rfl
@[simp] theorem setCtx_mem (c : Nat) (v : Ctx) (s : State) : (setCtx c v s).mem = s.mem := rfl
@[simp] theorem setCtx_en (c : Nat) (v : Ctx) (s : State) : (setCtx c v s).en = s.en := rfl
@[simp] theorem setCtx_ax (c : Nat) (v : Ctx) (s : State) : (setCtx c v s).ax = s.ax := rfl
@[simp] theorem setCtx_rx (c : Nat) (v : Ctx) (s : State) : (setCtx c v s).rx = s.rx := rfl
@[simp] theorem setCtx_et (c : Nat) (v : Ctx) (s : State) : (setCtx c v s).et = s.et := rfl
@[simp] theorem setCtx_fr (c : Nat) (v : Ctx) (s : State) : (setCtx c v s).fr = s.fr := rfl
@[simp] theorem setCtx_fw (c : Nat) (v : Ctx) (s : State) : (setCtx c v s).fw = s.fw := rfl
@[simp] theorem setCtx_ob (c : Nat) (v : Ctx) (s : State) : (setCtx c v s).ob = s.ob := rfl
@[simp] theorem setCtx_out (c : Nat) (v : Ctx) (s : State) : (setCtx c v s).out = s.out := rfl
@[simp] theorem setCtx_free (c : Nat) (v : Ctx) (s : State) : (setCtx c v s).free = s.free := rfl

/-! ### setQc -/

@[simp] theorem setQc_pending (q : Nat) (v : QCtx) (s : State) : (setQc q v s).pending = s.pending := rfl
@[simp] theorem setQc_pw (q : Nat) (v : QCtx) (s : State) : (setQc q v s).pw = s.pw := rfl
@[simp] theorem setQc_fl (q : Nat) (v : QCtx) (s : State) : (setQc q v s).fl = s.fl := rfl
@[simp] theorem setQc_bt (q : Nat) (v : QCtx) (s : State) : (setQc q v s).bt = s.bt := rfl
@[simp] theorem setQc_hs (q : Nat) (v : QCtx) (s : State) : (setQc q v s).hs = s.hs := rfl
@[simp] theorem setQc_mem (q : Nat) (v : QCtx) (s : State) : (setQc q v s).mem = s.mem := rfl
@[simp] theorem setQc_fe (q : Nat) (v : QCtx) (s : State) : (setQc q v s).fe = s.fe := rfl
@[simp] theorem setQc_ax (q : Nat) (v : QCtx) (s : State) : (setQc q v s).ax = s.ax := rfl
@[simp] theorem setQc_rx (q : Nat) (v : QCtx) (s : State) : (setQc q v s).rx = s.rx := rfl
@[simp] theorem setQc_et (q : Nat) (v : QCtx) (s : State) : (setQc q v s).et = s.et := rfl
@[simp] theorem setQc_fr (q : Nat) (v : QCtx) (s : State) : (setQc q v s).fr = s.fr := rfl
@[simp] theorem setQc_fw (q : Nat) (v : QCtx) (s : State) : (setQc q v s).fw = s.fw := rfl
@[simp] theorem setQc_ob (q : Nat) (v : QCtx) (s : State) : (setQc q v s).ob = s.ob := rfl
@[simp] theorem setQc_out (q : Nat) (v : QCtx) (s : State) : (setQc q v s).out = s.out := rfl
@[simp] theorem setQc_free (q : Nat) (v : QCtx) (s : State) : (setQc q v s).free = s.free := rfl

/-! ### setEng -/

@[simp] theorem setEng_pending (k : Nat) (e : Eng) (s : State) : (setEng k e s).pending = s.pending := rfl
@[simp] theorem setEng_pw (k : Nat) (e : Eng) (s : State) : (setEng k e s).pw = s.pw := rfl
@[simp] theorem setEng_fl (k : Nat) (e : Eng) (s : State) : (setEng k e s).fl = s.fl := rfl
@[simp] theorem setEng_bt (k : Nat) (e : Eng) (s : State) : (setEng k e s).bt = s.bt := rfl
@[simp] theorem setEng_hs (k : Nat) (e : Eng) (s : State) : (setEng k e s).hs = s.hs := rfl
@[simp] theorem setEng_mem (k : Nat) (e : Eng) (s : State) : (setEng k e s).mem = s.mem := rfl
@[simp] theorem setEng_fe (k : Nat) (e : Eng) (s : State) : (setEng k e s).fe = s.fe := rfl
@[simp] theorem setEng_ax (k : Nat) (e : Eng) (s : State) : (setEng k e s).ax = s.ax := rfl
@[simp] theorem setEng_rx (k : Nat) (e : Eng) (s : State) : (setEng k e s).rx = s.rx := rfl
@[simp] theorem setEng_et (k : Nat) (e : Eng) (s : State) : (setEng k e s).et = s.et := rfl
@[simp] theorem setEng_fr (k : Nat) (e : Eng) (s : State) : (setEng k e s).fr = s.fr := rfl
@[simp] theorem setEng_fw (k : Nat) (e : Eng) (s : State) : (setEng k e s).fw = s.fw := rfl
@[simp] theorem setEng_ob (k : Nat) (e : Eng) (s : State) : (setEng k e s).ob = s.ob := rfl
@[simp] theorem setEng_out (k : Nat) (e : Eng) (s : State) : (setEng k e s).out = s.out := rfl
@[simp] theorem setEng_free (k : Nat) (e : Eng) (s : State) : (setEng k e s).free = s.free := rfl

/-! ### setPart -/

@[simp] theorem setPart_pending (p : Nat) (v : AxPart) (s : State) : (setPart p v s).pending = s.pending := rfl
@[simp] theorem setPart_pw (p : Nat) (v : AxPart) (s : State) : (setPart p v s).pw = s.pw := rfl
@[simp] theorem setPart_fl (p : Nat) (v : AxPart) (s : State) : (setPart p v s).fl = s.fl := rfl
@[simp] theorem setPart_bt (p : Nat) (v : AxPart) (s : State) : (setPart p v s).bt = s.bt := rfl
@[simp] theorem setPart_hs (p : Nat) (v : AxPart) (s : State) : (setPart p v s).hs = s.hs := rfl
@[simp] theorem setPart_mem (p : Nat) (v : AxPart) (s : State) : (setPart p v s).mem = s.mem := rfl
@[simp] theorem setPart_fe (p : Nat) (v : AxPart) (s : State) : (setPart p v s).fe = s.fe := rfl
@[simp] theorem setPart_en (p : Nat) (v : AxPart) (s : State) : (setPart p v s).en = s.en := rfl
@[simp] theorem setPart_rx (p : Nat) (v : AxPart) (s : State) : (setPart p v s).rx = s.rx := rfl
@[simp] theorem setPart_et (p : Nat) (v : AxPart) (s : State) : (setPart p v s).et = s.et := rfl
@[simp] theorem setPart_fr (p : Nat) (v : AxPart) (s : State) : (setPart p v s).fr = s.fr := rfl
@[simp] theorem setPart_fw (p : Nat) (v : AxPart) (s : State) : (setPart p v s).fw = s.fw := rfl
@[simp] theorem setPart_ob (p : Nat) (v : AxPart) (s : State) : (setPart p v s).ob = s.ob := rfl
@[simp] theorem setPart_out (p : Nat) (v : AxPart) (s : State) : (setPart p v s).out = s.out := rfl
@[simp] theorem setPart_free (p : Nat) (v : AxPart) (s : State) : (setPart p v s).free = s.free := rfl

/-! ### setProc -/

@[simp] theorem setProc_pending (i : Nat) (p : Proc) (s : State) : (setProc i p s).pending = s.pending := rfl
@[simp] theorem setProc_pw (i : Nat) (p : Proc) (s : State) : (setProc i p s).pw = s.pw := rfl
@[simp] theorem setProc_fl (i : Nat) (p : Proc) (s : State) : (setProc i p s).fl = s.fl := rfl
@[simp] theorem setProc_bt (i : Nat) (p : Proc) (s : State) : (setProc i p s).bt = s.bt := rfl
@[simp] theorem setProc_hs (i : Nat) (p : Proc) (s : State) : (setProc i p s).hs = s.hs := rfl
@[simp] theorem setProc_mem (i : Nat) (p : Proc) (s : State) : (setProc i p s).mem = s.mem := rfl
@[simp] theorem setProc_fe (i : Nat) (p : Proc) (s : State) : (setProc i p s).fe = s.fe := rfl
@[simp] theorem setProc_en (i : Nat) (p : Proc) (s : State) : (setProc i p s).en = s.en := rfl
@[simp] theorem setProc_ax (i : Nat) (p : Proc) (s : State) : (setProc i p s).ax = s.ax := rfl
@[simp] theorem setProc_rx (i : Nat) (p : Proc) (s : State) : (setProc i p s).rx = s.rx := rfl
@[simp] theorem setProc_et (i : Nat) (p : Proc) (s : State) : (setProc i p s).et = s.et := rfl
@[simp] theorem setProc_fr (i : Nat) (p : Proc) (s : State) : (setProc i p s).fr = s.fr := rfl
@[simp] theorem setProc_ob (i : Nat) (p : Proc) (s : State) : (setProc i p s).ob = s.ob := rfl
@[simp] theorem setProc_out (i : Nat) (p : Proc) (s : State) : (setProc i p s).out = s.out := rfl
@[simp] theorem setProc_free (i : Nat) (p : Proc) (s : State) : (setProc i p s).free = s.free := rfl

/-! ### setPort -/

@[simp] theorem setPort_pending (n : Nat) (v : Port) (s : State) : (setPort n v s).pending = s.pending := rfl
@[simp] theorem setPort_pw (n : Nat) (v : Port) (s : State) : (setPort n v s).pw = s.pw := rfl
@[simp] theorem setPort_fl (n : Nat) (v : Port) (s : State) : (setPort n v s).fl = s.fl := rfl
@[simp] theorem setPort_bt (n : Nat) (v : Port) (s : State) : (setPort n v s).bt = s.bt := rfl
@[simp] theorem setPort_hs (n : Nat) (v : Port) (s : State) : (setPort n v s).hs = s.hs := rfl
@[simp] theorem setPort_mem (n : Nat) (v : Port) (s : State) : (setPort n v s).mem = s.mem := rfl
@[simp] theorem setPort_fe (n : Nat) (v : Port) (s : State) : (setPort n v s).fe = s.fe := rfl
@[simp] theorem setPort_en (n : Nat) (v : Port) (s : State) : (setPort n v s).en = s.en := rfl
@[simp] theorem setPort_ax (n : Nat) (v : Port) (s : State) : (setPort n v s).ax = s.ax := rfl
@[simp] theorem setPort_rx (n : Nat) (v : Port) (s : State) : (setPort n v s).rx = s.rx := rfl
@[simp] theorem setPort_fr (n : Nat) (v : Port) (s : State) : (setPort n v s).fr = s.fr := rfl
@[simp] theorem setPort_fw (n : Nat) (v : Port) (s : State) : (setPort n v s).fw = s.fw := rfl
@[simp] theorem setPort_ob (n : Nat) (v : Port) (s : State) : (setPort n v s).ob = s.ob := rfl
@[simp] theorem setPort_out (n : Nat) (v : Port) (s : State) : (setPort n v s).out = s.out := rfl
@[simp] theorem setPort_free (n : Nat) (v : Port) (s : State) : (setPort n v s).free = s.free := rfl

/-! ### setSlot -/

@[simp] theorem setSlot_pending (k : Nat) (v : Slot) (s : State) : (setSlot k v s).pending = s.pending := rfl
@[simp] theorem setSlot_pw (k : Nat) (v : Slot) (s : State) : (setSlot k v s).pw = s.pw := rfl
@[simp] theorem setSlot_fl (k : Nat) (v : Slot) (s : State) : (setSlot k v s).fl = s.fl := rfl
@[simp] theorem setSlot_bt (k : Nat) (v : Slot) (s : State) : (setSlot k v s).bt = s.bt := rfl
@[simp] theorem setSlot_hs (k : Nat) (v : Slot) (s : State) : (setSlot k v s).hs = s.hs := rfl
@[simp] theorem setSlot_mem (k : Nat) (v : Slot) (s : State) : (setSlot k v s).mem = s.mem := rfl
@[simp] theorem setSlot_fe (k : Nat) (v : Slot) (s : State) : (setSlot k v s).fe = s.fe := rfl
@[simp] theorem setSlot_en (k : Nat) (v : Slot) (s : State) : (setSlot k v s).en = s.en := rfl
@[simp] theorem setSlot_ax (k : Nat) (v : Slot) (s : State) : (setSlot k v s).ax = s.ax := rfl
@[simp] theorem setSlot_et (k : Nat) (v : Slot) (s : State) : (setSlot k v s).et = s.et := rfl
@[simp] theorem setSlot_fr (k : Nat) (v : Slot) (s : State) : (setSlot k v s).fr = s.fr := rfl
@[simp] theorem setSlot_fw (k : Nat) (v : Slot) (s : State) : (setSlot k v s).fw = s.fw := rfl
@[simp] theorem setSlot_ob (k : Nat) (v : Slot) (s : State) : (setSlot k v s).ob = s.ob := rfl
@[simp] theorem setSlot_out (k : Nat) (v : Slot) (s : State) : (setSlot k v s).out = s.out := rfl
@[simp] theorem setSlot_free (k : Nat) (v : Slot) (s : State) : (setSlot k v s).free = s.free := rfl

/-! ### setGraph -/

@[simp] theorem setGraph_pending (g : Nat) (v : Graph) (s : State) : (setGraph g v s).pending = s.pending := rfl
@[simp] theorem setGraph_pw (g : Nat) (v : Graph) (s : State) : (setGraph g v s).pw = s.pw := rfl
@[simp] theorem setGraph_fl (g : Nat) (v : Graph) (s : State) : (setGraph g v s).fl = s.fl := rfl
@[simp] theorem setGraph_bt (g : Nat) (v : Graph) (s : State) : (setGraph g v s).bt = s.bt := rfl
@[simp] theorem setGraph_hs (g : Nat) (v : Graph) (s : State) : (setGraph g v s).hs = s.hs := rfl
@[simp] theorem setGraph_mem (g : Nat) (v : Graph) (s : State) : (setGraph g v s).mem = s.mem := rfl
@[simp] theorem setGraph_en (g : Nat) (v : Graph) (s : State) : (setGraph g v s).en = s.en := rfl
@[simp] theorem setGraph_ax (g : Nat) (v : Graph) (s : State) : (setGraph g v s).ax = s.ax := rfl
@[simp] theorem setGraph_rx (g : Nat) (v : Graph) (s : State) : (setGraph g v s).rx = s.rx := rfl
@[simp] theorem setGraph_et (g : Nat) (v : Graph) (s : State) : (setGraph g v s).et = s.et := rfl
@[simp] theorem setGraph_fr (g : Nat) (v : Graph) (s : State) : (setGraph g v s).fr = s.fr := rfl
@[simp] theorem setGraph_fw (g : Nat) (v : Graph) (s : State) : (setGraph g v s).fw = s.fw := rfl
@[simp] theorem setGraph_ob (g : Nat) (v : Graph) (s : State) : (setGraph g v s).ob = s.ob := rfl
@[simp] theorem setGraph_out (g : Nat) (v : Graph) (s : State) : (setGraph g v s).out = s.out := rfl
@[simp] theorem setGraph_free (g : Nat) (v : Graph) (s : State) : (setGraph g v s).free = s.free := rfl

/-! ### modQ -/

@[simp] theorem modQ_pending (q : Nat) (f : Queue → Queue) (s : State) : (modQ q f s).pending = s.pending := rfl
@[simp] theorem modQ_pw (q : Nat) (f : Queue → Queue) (s : State) : (modQ q f s).pw = s.pw := rfl
@[simp] theorem modQ_fl (q : Nat) (f : Queue → Queue) (s : State) : (modQ q f s).fl = s.fl := rfl
@[simp] theorem modQ_bt (q : Nat) (f : Queue → Queue) (s : State) : (modQ q f s).bt = s.bt := rfl
@[simp] theorem modQ_hs (q : Nat) (f : Queue → Queue) (s : State) : (modQ q f s).hs = s.hs := rfl
@[simp] theorem modQ_mem (q : Nat) (f : Queue → Queue) (s : State) : (modQ q f s).mem = s.mem := rfl
@[simp] theorem modQ_en (q : Nat) (f : Queue → Queue) (s : State) : (modQ q f s).en = s.en := rfl
@[simp] theorem modQ_ax (q : Nat) (f : Queue → Queue) (s : State) : (modQ q f s).ax = s.ax := rfl
@[simp] theorem modQ_rx (q : Nat) (f : Queue → Queue) (s : State) : (modQ q f s).rx = s.rx := rfl
@[simp] theorem modQ_et (q : Nat) (f : Queue → Queue) (s : State) : (modQ q f s).et = s.et := rfl
@[simp] theorem modQ_fr (q : Nat) (f : Queue → Queue) (s : State) : (modQ q f s).fr = s.fr := rfl
@[simp] theorem modQ_fw (q : Nat) (f : Queue → Queue) (s : State) : (modQ q f s).fw = s.fw := rfl
@[simp] theorem modQ_ob (q : Nat) (f : Queue → Queue) (s : State) : (modQ q f s).ob = s.ob := rfl
@[simp] theorem modQ_out (q : Nat) (f : Queue → Queue) (s : State) : (modQ q f s).out = s.out := rfl
@[simp] theorem modQ_free (q : Nat) (f : Queue → Queue) (s : State) : (modQ q f s).free = s.free := rfl

/-! ### modQc -/

@[simp] theorem modQc_pending (q : Nat) (f : QCtx → QCtx) (s : State) : (modQc q f s).pending = s.pending := rfl
@[simp] theorem modQc_pw (q : Nat) (f : QCtx → QCtx) (s : State) : (modQc q f s).pw = s.pw := rfl
@[simp] theorem modQc_fl (q : Nat) (f : QCtx → QCtx) (s : State) : (modQc q f s).fl = s.fl := rfl
@[simp] theorem modQc_bt (q : Nat) (f : QCtx → QCtx) (s : State) : (modQc q f s).bt = s.bt := rfl
@[simp] theorem modQc_hs (q : Nat) (f : QCtx → QCtx) (s : State) : (modQc q f s).hs = s.hs := rfl
@[simp] theorem modQc_mem (q : Nat) (f : QCtx → QCtx) (s : State) : (modQc q f s).mem = s.mem := rfl
@[simp] theorem modQc_fe (q : Nat) (f : QCtx → QCtx) (s : State) : (modQc q f s).fe = s.fe := rfl
@[simp] theorem modQc_ax (q : Nat) (f : QCtx → QCtx) (s : State) : (modQc q f s).ax = s.ax := rfl
@[simp] theorem modQc_rx (q : Nat) (f : QCtx → QCtx) (s : State) : (modQc q f s).rx = s.rx := rfl
@[simp] theorem modQc_et (q : Nat) (f : QCtx → QCtx) (s : State) : (modQc q f s).et = s.et := rfl
@[simp] theorem modQc_fr (q : Nat) (f : QCtx → QCtx) (s : State) : (modQc q f s).fr = s.fr := rfl
@[simp] theorem modQc_fw (q : Nat) (f : QCtx → QCtx) (s : State) : (modQc q f s).fw = s.fw := rfl
@[simp] theorem modQc_ob (q : Nat) (f : QCtx → QCtx) (s : State) : (modQc q f s).ob = s.ob := rfl
@[simp] theorem modQc_out (q : Nat) (f : QCtx → QCtx) (s : State) : (modQc q f s).out = s.out := rfl
@[simp] theorem modQc_free (q : Nat) (f : QCtx → QCtx) (s : State) : (modQc q f s).free = s.free := rfl

/-! ### modPart -/

@[simp] theorem modPart_pending (p : Nat) (f : AxPart → AxPart) (s : State) : (modPart p f s).pending = s.pending := rfl
@[simp] theorem modPart_pw (p : Nat) (f : AxPart → AxPart) (s : State) : (modPart p f s).pw = s.pw := rfl
@[simp] theorem modPart_fl (p : Nat) (f : AxPart → AxPart) (s : State) : (modPart p f s).fl = s.fl := rfl
@[simp] theorem modPart_bt (p : Nat) (f : AxPart → AxPart) (s : State) : (modPart p f s).bt = s.bt := rfl
@[simp] theorem modPart_hs (p : Nat) (f : AxPart → AxPart) (s : State) : (modPart p f s).hs = s.hs := rfl
@[simp] theorem modPart_mem (p : Nat) (f : AxPart → AxPart) (s : State) : (modPart p f s).mem = s.mem := rfl
@[simp] theorem modPart_fe (p : Nat) (f : AxPart → AxPart) (s : State) : (modPart p f s).fe = s.fe := rfl
@[simp] theorem modPart_en (p : Nat) (f : AxPart → AxPart) (s : State) : (modPart p f s).en = s.en := rfl
@[simp] theorem modPart_rx (p : Nat) (f : AxPart → AxPart) (s : State) : (modPart p f s).rx = s.rx := rfl
@[simp] theorem modPart_et (p : Nat) (f : AxPart → AxPart) (s : State) : (modPart p f s).et = s.et := rfl
@[simp] theorem modPart_fr (p : Nat) (f : AxPart → AxPart) (s : State) : (modPart p f s).fr = s.fr := rfl
@[simp] theorem modPart_fw (p : Nat) (f : AxPart → AxPart) (s : State) : (modPart p f s).fw = s.fw := rfl
@[simp] theorem modPart_ob (p : Nat) (f : AxPart → AxPart) (s : State) : (modPart p f s).ob = s.ob := rfl
@[simp] theorem modPart_out (p : Nat) (f : AxPart → AxPart) (s : State) : (modPart p f s).out = s.out := rfl
@[simp] theorem modPart_free (p : Nat) (f : AxPart → AxPart) (s : State) : (modPart p f s).free = s.free := rfl

/-! ### modPort -/

@[simp] theorem modPort_pending (n : Nat) (f : Port → Port) (s : State) : (modPort n f s).pending = s.pending := rfl
@[simp] theorem modPort_pw (n : Nat) (f : Port → Port) (s : State) : (modPort n f s).pw = s.pw := rfl
@[simp] theorem modPort_fl (n : Nat) (f : Port → Port) (s : State) : (modPort n f s).fl = s.fl := rfl
@[simp] theorem modPort_bt (n : Nat) (f : Port → Port) (s : State) : (modPort n f s).bt = s.bt := rfl
@[simp] theorem modPort_hs (n : Nat) (f : Port → Port) (s : State) : (modPort n f s).hs = s.hs := rfl
@[simp] theorem modPort_mem (n : Nat) (f : Port → Port) (s : State) : (modPort n f s).mem = s.mem := rfl
@[simp] theorem modPort_fe (n : Nat) (f : Port → Port) (s : State) : (modPort n f s).fe = s.fe := rfl
@[simp] theorem modPort_en (n : Nat) (f : Port → Port) (s : State) : (modPort n f s).en = s.en := rfl
@[simp] theorem modPort_ax (n : Nat) (f : Port → Port) (s : State) : (modPort n f s).ax = s.ax := rfl
@[simp] theorem modPort_rx (n : Nat) (f : Port → Port) (s : State) : (modPort n f s).rx = s.rx := rfl
@[simp] theorem modPort_fr (n : Nat) (f : Port → Port) (s : State) : (modPort n f s).fr = s.fr := rfl
@[simp] theorem modPort_fw (n : Nat) (f : Port → Port) (s : State) : (modPort n f s).fw = s.fw := rfl
@[simp] theorem modPort_ob (n : Nat) (f : Port → Port) (s : State) : (modPort n f s).ob = s.ob := rfl
@[simp] theorem modPort_out (n : Nat) (f : Port → Port) (s : State) : (modPort n f s).out = s.out := rfl
@[simp] theorem modPort_free (n : Nat) (f : Port → Port) (s : State) : (modPort n f s).free = s.free := rfl

/-! ### modSlot -/

@[simp] theorem modSlot_pending (k : Nat) (f : Slot → Slot) (s : State) : (modSlot k f s).pending = s.pending := rfl
@[simp] theorem modSlot_pw (k : Nat) (f : Slot → Slot) (s : State) : (modSlot k f s).pw = s.pw := rfl
@[simp] theorem modSlot_fl (k : Nat) (f : Slot → Slot) (s : State) : (modSlot k f s).fl = s.fl := rfl
@[simp] theorem modSlot_bt (k : Nat) (f : Slot → Slot) (s : State) : (modSlot k f s).bt = s.bt := rfl
@[simp] theorem modSlot_hs (k : Nat) (f : Slot → Slot) (s : State) : (modSlot k f s).hs = s.hs := rfl
@[simp] theorem modSlot_mem (k : Nat) (f : Slot → Slot) (s : State) : (modSlot k f s).mem = s.mem := rfl
@[simp] theorem modSlot_fe (k : Nat) (f : Slot → Slot) (s : State) : (modSlot k f s).fe = s.fe := rfl
@[simp] theorem modSlot_en (k : Nat) (f : Slot → Slot) (s : State) : (modSlot k f s).en = s.en := rfl
@[simp] theorem modSlot_ax (k : Nat) (f : Slot → Slot) (s : State) : (modSlot k f s).ax = s.ax := rfl
@[simp] theorem modSlot_et (k : Nat) (f : Slot → Slot) (s : State) : (modSlot k f s).et = s.et := rfl
@[simp] theorem modSlot_fr (k : Nat) (f : Slot → Slot) (s : State) : (modSlot k f s).fr = s.fr := rfl
@[simp] theorem modSlot_fw (k : Nat) (f : Slot → Slot) (s : State) : (modSlot k f s).fw = s.fw := rfl
@[simp] theorem modSlot_ob (k : Nat) (f : Slot → Slot) (s : State) : (modSlot k f s).ob = s.ob := rfl
@[simp] theorem modSlot_out (k : Nat) (f : Slot → Slot) (s : State) : (modSlot k f s).out = s.out := rfl
@[simp] theorem modSlot_free (k : Nat) (f : Slot → Slot) (s : State) : (modSlot k f s).free = s.free := rfl

/-! ### setResult -/

@[simp] theorem setResult_pending (qu id st : Nat) (s : State) : (setResult qu id st s).pending = s.pending := rfl
@[simp] theorem setResult_pw (qu id st : Nat) (s : State) : (setResult qu id st s).pw = s.pw := rfl
@[simp] theorem setResult_fl (qu id st : Nat) (s : State) : (setResult qu id st s).fl = s.fl := rfl
@[simp] theorem setResult_bt (qu id st : Nat) (s : State) : (setResult qu id st s).bt = s.bt := rfl
@[simp] theorem setResult_hs (qu id st : Nat) (s : State) : (setResult qu id st s).hs = s.hs := rfl
@[simp] theorem setResult_mem (qu id st : Nat) (s : State) : (setResult qu id st s).mem = s.mem := rfl
@[simp] theorem setResult_en (qu id st : Nat) (s : State) : (setResult qu id st s).en = s.en := rfl
@[simp] theorem setResult_ax (qu id st : Nat) (s : State) : (setResult qu id st s).ax = s.ax := rfl
@[simp] theorem setResult_rx (qu id st : Nat) (s : State) : (setResult qu id st s).rx = s.rx := rfl
@[simp] theorem setResult_et (qu id st : Nat) (s : State) : (setResult qu id st s).et = s.et := rfl
@[simp] theorem setResult_fr (qu id st : Nat) (s : State) : (setResult qu id st s).fr = s.fr := rfl
@[simp] theorem setResult_fw (qu id st : Nat) (s : State) : (setResult qu id st s).fw = s.fw := rfl
@[simp] theorem setResult_ob (qu id st : Nat) (s : State) : (setResult qu id st s).ob = s.ob := rfl
@[simp] theorem setResult_out (qu id st : Nat) (s : State) : (setResult qu id st s).out = s.out := rfl
@[simp] theorem setResult_free (qu id st : Nat) (s : State) : (setResult qu id st s).free = s.free := rfl

/-! ### emit -/

@[simp] theorem emit_pending (o : Output) (s : State) : (emit o s).pending = s.pending := rfl
@[simp] theorem emit_pw (o : Output) (s : State) : (emit o s).pw = s.pw := rfl
@[simp] theorem emit_fl (o : Output) (s : State) : (emit o s).fl = s.fl := rfl
@[simp] theorem emit_bt (o : Output) (s : State) : (emit o s).bt = s.bt := rfl
@[simp] theorem emit_hs (o : Output) (s : State) : (emit o s).hs = s.hs := rfl
@[simp] theorem emit_mem (o : Output) (s : State) : (emit o s).mem = s.mem := rfl
@[simp] theorem emit_fe (o : Output) (s : State) : (emit o s).fe = s.fe := rfl
@[simp] theorem emit_en (o : Output) (s : State) : (emit o s).en = s.en := rfl
@[simp] theorem emit_ax (o : Output) (s : State) : (emit o s).ax = s.ax := rfl
@[simp] theorem emit_rx (o : Output) (s : State) : (emit o s).rx = s.rx := rfl
@[simp] theorem emit_et (o : Output) (s : State) : (emit o s).et = s.et := rfl
@[simp] theorem emit_fr (o : Output) (s : State) : (emit o s).fr = s.fr := rfl
@[simp] theorem emit_fw (o : Output) (s : State) : (emit o s).fw = s.fw := rfl
@[simp] theorem emit_ob (o : Output) (s : State) : (emit o s).ob = s.ob := rfl
@[simp] theorem emit_free (o : Output) (s : State) : (emit o s).free = s.free := rfl

/-! ### nextFree -/

@[simp] theorem nextFree_pending (s : State) : (nextFree s).pending = s.pending := rfl
@[simp] theorem nextFree_pw (s : State) : (nextFree s).pw = s.pw := rfl
@[simp] theorem nextFree_fl (s : State) : (nextFree s).fl = s.fl := rfl
@[simp] theorem nextFree_bt (s : State) : (nextFree s).bt = s.bt := rfl
@[simp] theorem nextFree_hs (s : State) : (nextFree s).hs = s.hs := rfl
@[simp] theorem nextFree_mem (s : State) : (nextFree s).mem = s.mem := rfl
@[simp] theorem nextFree_fe (s : State) : (nextFree s).fe = s.fe := rfl
@[simp] theorem nextFree_en (s : State) : (nextFree s).en = s.en := rfl
@[simp] theorem nextFree_ax (s : State) : (nextFree s).ax = s.ax := rfl
@[simp] theorem nextFree_rx (s : State) : (nextFree s).rx = s.rx := rfl
@[simp] theorem nextFree_et (s : State) : (nextFree s).et = s.et := rfl
@[simp] theorem nextFree_fr (s : State) : (nextFree s).fr = s.fr := rfl
@[simp] theorem nextFree_fw (s : State) : (nextFree s).fw = s.fw := rfl
@[simp] theorem nextFree_ob (s : State) : (nextFree s).ob = s.ob := rfl
@[simp] theorem nextFree_out (s : State) : (nextFree s).out = s.out := rfl

/-! ### bumpIseq -/

@[simp] theorem bumpIseq_pending (isl : Nat) (s : State) : (bumpIseq isl s).pending = s.pending := rfl
@[simp] theorem bumpIseq_pw (isl : Nat) (s : State) : (bumpIseq isl s).pw = s.pw := rfl
@[simp] theorem bumpIseq_fl (isl : Nat) (s : State) : (bumpIseq isl s).fl = s.fl := rfl
@[simp] theorem bumpIseq_bt (isl : Nat) (s : State) : (bumpIseq isl s).bt = s.bt := rfl
@[simp] theorem bumpIseq_hs (isl : Nat) (s : State) : (bumpIseq isl s).hs = s.hs := rfl
@[simp] theorem bumpIseq_mem (isl : Nat) (s : State) : (bumpIseq isl s).mem = s.mem := rfl
@[simp] theorem bumpIseq_fe (isl : Nat) (s : State) : (bumpIseq isl s).fe = s.fe := rfl
@[simp] theorem bumpIseq_ax (isl : Nat) (s : State) : (bumpIseq isl s).ax = s.ax := rfl
@[simp] theorem bumpIseq_rx (isl : Nat) (s : State) : (bumpIseq isl s).rx = s.rx := rfl
@[simp] theorem bumpIseq_et (isl : Nat) (s : State) : (bumpIseq isl s).et = s.et := rfl
@[simp] theorem bumpIseq_fr (isl : Nat) (s : State) : (bumpIseq isl s).fr = s.fr := rfl
@[simp] theorem bumpIseq_fw (isl : Nat) (s : State) : (bumpIseq isl s).fw = s.fw := rfl
@[simp] theorem bumpIseq_ob (isl : Nat) (s : State) : (bumpIseq isl s).ob = s.ob := rfl
@[simp] theorem bumpIseq_out (isl : Nat) (s : State) : (bumpIseq isl s).out = s.out := rfl
@[simp] theorem bumpIseq_free (isl : Nat) (s : State) : (bumpIseq isl s).free = s.free := rfl

/-! ### markDirty -/

@[simp] theorem markDirty_pending (k l : Nat) (s : State) : (markDirty k l s).pending = s.pending := by unfold markDirty; split <;> rfl
@[simp] theorem markDirty_pw (k l : Nat) (s : State) : (markDirty k l s).pw = s.pw := by unfold markDirty; split <;> rfl
@[simp] theorem markDirty_fl (k l : Nat) (s : State) : (markDirty k l s).fl = s.fl := by unfold markDirty; split <;> rfl
@[simp] theorem markDirty_bt (k l : Nat) (s : State) : (markDirty k l s).bt = s.bt := by unfold markDirty; split <;> rfl
@[simp] theorem markDirty_hs (k l : Nat) (s : State) : (markDirty k l s).hs = s.hs := by unfold markDirty; split <;> rfl
@[simp] theorem markDirty_fe (k l : Nat) (s : State) : (markDirty k l s).fe = s.fe := by unfold markDirty; split <;> rfl
@[simp] theorem markDirty_en (k l : Nat) (s : State) : (markDirty k l s).en = s.en := by unfold markDirty; split <;> rfl
@[simp] theorem markDirty_ax (k l : Nat) (s : State) : (markDirty k l s).ax = s.ax := by unfold markDirty; split <;> rfl
@[simp] theorem markDirty_rx (k l : Nat) (s : State) : (markDirty k l s).rx = s.rx := by unfold markDirty; split <;> rfl
@[simp] theorem markDirty_et (k l : Nat) (s : State) : (markDirty k l s).et = s.et := by unfold markDirty; split <;> rfl
@[simp] theorem markDirty_fr (k l : Nat) (s : State) : (markDirty k l s).fr = s.fr := by unfold markDirty; split <;> rfl
@[simp] theorem markDirty_fw (k l : Nat) (s : State) : (markDirty k l s).fw = s.fw := by unfold markDirty; split <;> rfl
@[simp] theorem markDirty_ob (k l : Nat) (s : State) : (markDirty k l s).ob = s.ob := by unfold markDirty; split <;> rfl
@[simp] theorem markDirty_out (k l : Nat) (s : State) : (markDirty k l s).out = s.out := by unfold markDirty; split <;> rfl
@[simp] theorem markDirty_free (k l : Nat) (s : State) : (markDirty k l s).free = s.free := by unfold markDirty; split <;> rfl

/-! ### absorbReq -/

@[simp] theorem absorbReq_pending (n : Nat) (s : State) : (absorbReq n s).pending = s.pending := rfl
@[simp] theorem absorbReq_pw (n : Nat) (s : State) : (absorbReq n s).pw = s.pw := rfl
@[simp] theorem absorbReq_fl (n : Nat) (s : State) : (absorbReq n s).fl = s.fl := rfl
@[simp] theorem absorbReq_bt (n : Nat) (s : State) : (absorbReq n s).bt = s.bt := rfl
@[simp] theorem absorbReq_hs (n : Nat) (s : State) : (absorbReq n s).hs = s.hs := rfl
@[simp] theorem absorbReq_mem (n : Nat) (s : State) : (absorbReq n s).mem = s.mem := rfl
@[simp] theorem absorbReq_fe (n : Nat) (s : State) : (absorbReq n s).fe = s.fe := rfl
@[simp] theorem absorbReq_en (n : Nat) (s : State) : (absorbReq n s).en = s.en := rfl
@[simp] theorem absorbReq_ax (n : Nat) (s : State) : (absorbReq n s).ax = s.ax := rfl
@[simp] theorem absorbReq_rx (n : Nat) (s : State) : (absorbReq n s).rx = s.rx := rfl
@[simp] theorem absorbReq_et (n : Nat) (s : State) : (absorbReq n s).et = s.et := rfl
@[simp] theorem absorbReq_fw (n : Nat) (s : State) : (absorbReq n s).fw = s.fw := rfl
@[simp] theorem absorbReq_ob (n : Nat) (s : State) : (absorbReq n s).ob = s.ob := rfl
@[simp] theorem absorbReq_out (n : Nat) (s : State) : (absorbReq n s).out = s.out := rfl
@[simp] theorem absorbReq_free (n : Nat) (s : State) : (absorbReq n s).free = s.free := rfl

/-! ### absorbTally -/

@[simp] theorem absorbTally_pending (s : State) : (absorbTally s).pending = s.pending := rfl
@[simp] theorem absorbTally_pw (s : State) : (absorbTally s).pw = s.pw := rfl
@[simp] theorem absorbTally_fl (s : State) : (absorbTally s).fl = s.fl := rfl
@[simp] theorem absorbTally_bt (s : State) : (absorbTally s).bt = s.bt := rfl
@[simp] theorem absorbTally_hs (s : State) : (absorbTally s).hs = s.hs := rfl
@[simp] theorem absorbTally_mem (s : State) : (absorbTally s).mem = s.mem := rfl
@[simp] theorem absorbTally_fe (s : State) : (absorbTally s).fe = s.fe := rfl
@[simp] theorem absorbTally_en (s : State) : (absorbTally s).en = s.en := rfl
@[simp] theorem absorbTally_ax (s : State) : (absorbTally s).ax = s.ax := rfl
@[simp] theorem absorbTally_rx (s : State) : (absorbTally s).rx = s.rx := rfl
@[simp] theorem absorbTally_et (s : State) : (absorbTally s).et = s.et := rfl
@[simp] theorem absorbTally_fw (s : State) : (absorbTally s).fw = s.fw := rfl
@[simp] theorem absorbTally_ob (s : State) : (absorbTally s).ob = s.ob := rfl
@[simp] theorem absorbTally_out (s : State) : (absorbTally s).out = s.out := rfl
@[simp] theorem absorbTally_free (s : State) : (absorbTally s).free = s.free := rfl

/-! ### tickIsland -/

@[simp] theorem tickIsland_pending (isl : Nat) (s : State) : (tickIsland isl s).pending = s.pending := rfl
@[simp] theorem tickIsland_pw (isl : Nat) (s : State) : (tickIsland isl s).pw = s.pw := rfl
@[simp] theorem tickIsland_fl (isl : Nat) (s : State) : (tickIsland isl s).fl = s.fl := rfl
@[simp] theorem tickIsland_bt (isl : Nat) (s : State) : (tickIsland isl s).bt = s.bt := rfl
@[simp] theorem tickIsland_hs (isl : Nat) (s : State) : (tickIsland isl s).hs = s.hs := rfl
@[simp] theorem tickIsland_mem (isl : Nat) (s : State) : (tickIsland isl s).mem = s.mem := rfl
@[simp] theorem tickIsland_fe (isl : Nat) (s : State) : (tickIsland isl s).fe = s.fe := rfl
@[simp] theorem tickIsland_ax (isl : Nat) (s : State) : (tickIsland isl s).ax = s.ax := rfl
@[simp] theorem tickIsland_rx (isl : Nat) (s : State) : (tickIsland isl s).rx = s.rx := rfl
@[simp] theorem tickIsland_et (isl : Nat) (s : State) : (tickIsland isl s).et = s.et := rfl
@[simp] theorem tickIsland_fr (isl : Nat) (s : State) : (tickIsland isl s).fr = s.fr := rfl
@[simp] theorem tickIsland_fw (isl : Nat) (s : State) : (tickIsland isl s).fw = s.fw := rfl
@[simp] theorem tickIsland_ob (isl : Nat) (s : State) : (tickIsland isl s).ob = s.ob := rfl
@[simp] theorem tickIsland_out (isl : Nat) (s : State) : (tickIsland isl s).out = s.out := rfl

/-! ### What each kind of command leaves unchanged, and what it takes from its effect -/

@[simp] theorem onlyPower_pending (s t : State) : (onlyPower s t).pending = s.pending := rfl
@[simp] theorem onlyPower_bt (s t : State) : (onlyPower s t).bt = t.bt := rfl
@[simp] theorem onlyPower_mem (s t : State) : (onlyPower s t).mem = s.mem := rfl
@[simp] theorem onlyPower_fe (s t : State) : (onlyPower s t).fe = s.fe := rfl
@[simp] theorem onlyPower_en (s t : State) : (onlyPower s t).en = t.en := rfl
@[simp] theorem onlyPower_ax (s t : State) : (onlyPower s t).ax = s.ax := rfl
@[simp] theorem onlyPower_rx (s t : State) : (onlyPower s t).rx = s.rx := rfl
@[simp] theorem onlyPower_et (s t : State) : (onlyPower s t).et = s.et := rfl
@[simp] theorem onlyPower_fw (s t : State) : (onlyPower s t).fw = t.fw := rfl
@[simp] theorem onlyPower_ob (s t : State) : (onlyPower s t).ob = s.ob := rfl
@[simp] theorem onlyPower_out (s t : State) : (onlyPower s t).out = t.out := rfl
@[simp] theorem onlyPower_free (s t : State) : (onlyPower s t).free = t.free := rfl
@[simp] theorem onlyMgmt_pending (s t : State) : (onlyMgmt s t).pending = s.pending := rfl
@[simp] theorem onlyMgmt_bt (s t : State) : (onlyMgmt s t).bt = t.bt := rfl
@[simp] theorem onlyMgmt_mem (s t : State) : (onlyMgmt s t).mem = s.mem := rfl
@[simp] theorem onlyMgmt_fe (s t : State) : (onlyMgmt s t).fe = t.fe := rfl
@[simp] theorem onlyMgmt_ax (s t : State) : (onlyMgmt s t).ax = s.ax := rfl
@[simp] theorem onlyMgmt_rx (s t : State) : (onlyMgmt s t).rx = s.rx := rfl
@[simp] theorem onlyMgmt_et (s t : State) : (onlyMgmt s t).et = t.et := rfl
@[simp] theorem onlyMgmt_fw (s t : State) : (onlyMgmt s t).fw = t.fw := rfl
@[simp] theorem onlyMgmt_out (s t : State) : (onlyMgmt s t).out = t.out := rfl
@[simp] theorem onlyMgmt_free (s t : State) : (onlyMgmt s t).free = t.free := rfl
@[simp] theorem onlySideband_pending (s t : State) : (onlySideband s t).pending = s.pending := rfl
@[simp] theorem onlySideband_pw (s t : State) : (onlySideband s t).pw = s.pw := rfl
@[simp] theorem onlySideband_bt (s t : State) : (onlySideband s t).bt = t.bt := rfl
@[simp] theorem onlySideband_hs (s t : State) : (onlySideband s t).hs = s.hs := rfl
@[simp] theorem onlySideband_mem (s t : State) : (onlySideband s t).mem = s.mem := rfl
@[simp] theorem onlySideband_fe (s t : State) : (onlySideband s t).fe = s.fe := rfl
@[simp] theorem onlySideband_ax (s t : State) : (onlySideband s t).ax = s.ax := rfl
@[simp] theorem onlySideband_rx (s t : State) : (onlySideband s t).rx = s.rx := rfl
@[simp] theorem onlySideband_et (s t : State) : (onlySideband s t).et = s.et := rfl
@[simp] theorem onlySideband_fw (s t : State) : (onlySideband s t).fw = t.fw := rfl
@[simp] theorem onlySideband_ob (s t : State) : (onlySideband s t).ob = s.ob := rfl
@[simp] theorem onlySideband_out (s t : State) : (onlySideband s t).out = t.out := rfl
@[simp] theorem onlySideband_free (s t : State) : (onlySideband s t).free = t.free := rfl
@[simp] theorem onlyRun_pending (s t : State) : (onlyRun s t).pending = s.pending := rfl
@[simp] theorem onlyRun_pw (s t : State) : (onlyRun s t).pw = s.pw := rfl
@[simp] theorem onlyRun_fl (s t : State) : (onlyRun s t).fl = s.fl := by simp [onlyRun, keepRegs, keepQueue, keepFn]
@[simp] theorem onlyRun_bt (s t : State) : (onlyRun s t).bt = s.bt := rfl
@[simp] theorem onlyRun_hs (s t : State) : (onlyRun s t).hs = s.hs := rfl
@[simp] theorem onlyRun_mem (s t : State) : (onlyRun s t).mem = s.mem := rfl
@[simp] theorem onlyRun_fe (s t : State) : (onlyRun s t).fe = t.fe := rfl
@[simp] theorem onlyRun_en (s t : State) : (onlyRun s t).en = t.en := rfl
@[simp] theorem onlyRun_ax (s t : State) : (onlyRun s t).ax = s.ax := rfl
@[simp] theorem onlyRun_rx (s t : State) : (onlyRun s t).rx = s.rx := rfl
@[simp] theorem onlyRun_et (s t : State) : (onlyRun s t).et = s.et := rfl
@[simp] theorem onlyRun_fr (s t : State) : (onlyRun s t).fr = s.fr := rfl
@[simp] theorem onlyRun_fw (s t : State) : (onlyRun s t).fw = s.fw := rfl
@[simp] theorem onlyRun_out (s t : State) : (onlyRun s t).out = s.out := rfl
@[simp] theorem onlyRun_free (s t : State) : (onlyRun s t).free = t.free := rfl
@[simp] theorem onlyWork_pending (s t : State) : (onlyWork s t).pending = s.pending := rfl
@[simp] theorem onlyWork_pw (s t : State) : (onlyWork s t).pw = s.pw := rfl
@[simp] theorem onlyWork_fl (s t : State) : (onlyWork s t).fl = s.fl := by simp [onlyWork, keepRegs, keepQueue, keepFn]
@[simp] theorem onlyWork_bt (s t : State) : (onlyWork s t).bt = s.bt := rfl
@[simp] theorem onlyWork_fe (s t : State) : (onlyWork s t).fe = t.fe := rfl
@[simp] theorem onlyWork_en (s t : State) : (onlyWork s t).en = t.en := rfl
@[simp] theorem onlyWork_ax (s t : State) : (onlyWork s t).ax = t.ax := rfl
@[simp] theorem onlyWork_et (s t : State) : (onlyWork s t).et = s.et := rfl
@[simp] theorem onlyWork_fw (s t : State) : (onlyWork s t).fw = s.fw := rfl
@[simp] theorem onlyWork_out (s t : State) : (onlyWork s t).out = t.out := rfl
@[simp] theorem onlyWork_free (s t : State) : (onlyWork s t).free = t.free := rfl
@[simp] theorem onlyFabric_pending (s t : State) : (onlyFabric s t).pending = s.pending := rfl
@[simp] theorem onlyFabric_pw (s t : State) : (onlyFabric s t).pw = s.pw := rfl
@[simp] theorem onlyFabric_fl (s t : State) : (onlyFabric s t).fl = s.fl := by simp [onlyFabric, keepRegs, keepQueue, keepFn]
@[simp] theorem onlyFabric_bt (s t : State) : (onlyFabric s t).bt = s.bt := rfl
@[simp] theorem onlyFabric_fe (s t : State) : (onlyFabric s t).fe = t.fe := rfl
@[simp] theorem onlyFabric_en (s t : State) : (onlyFabric s t).en = t.en := rfl
@[simp] theorem onlyFabric_ax (s t : State) : (onlyFabric s t).ax = t.ax := rfl
@[simp] theorem onlyFabric_et (s t : State) : (onlyFabric s t).et = t.et := rfl
@[simp] theorem onlyFabric_fw (s t : State) : (onlyFabric s t).fw = s.fw := rfl
@[simp] theorem onlyFabric_out (s t : State) : (onlyFabric s t).out = t.out := rfl
@[simp] theorem onlyFabric_free (s t : State) : (onlyFabric s t).free = t.free := rfl
@[simp] theorem onlyPort_pending (s t : State) : (onlyPort s t).pending = s.pending := rfl
@[simp] theorem onlyPort_pw (s t : State) : (onlyPort s t).pw = s.pw := rfl
@[simp] theorem onlyPort_bt (s t : State) : (onlyPort s t).bt = t.bt := rfl
@[simp] theorem onlyPort_hs (s t : State) : (onlyPort s t).hs = s.hs := rfl
@[simp] theorem onlyPort_mem (s t : State) : (onlyPort s t).mem = s.mem := rfl
@[simp] theorem onlyPort_fe (s t : State) : (onlyPort s t).fe = s.fe := rfl
@[simp] theorem onlyPort_ax (s t : State) : (onlyPort s t).ax = s.ax := rfl
@[simp] theorem onlyPort_rx (s t : State) : (onlyPort s t).rx = s.rx := rfl
@[simp] theorem onlyPort_et (s t : State) : (onlyPort s t).et = t.et := rfl
@[simp] theorem onlyPort_fw (s t : State) : (onlyPort s t).fw = s.fw := rfl
@[simp] theorem onlyPort_out (s t : State) : (onlyPort s t).out = t.out := rfl
@[simp] theorem onlyPort_free (s t : State) : (onlyPort s t).free = t.free := rfl
@[simp] theorem onlyMemory_pending (s t : State) : (onlyMemory s t).pending = s.pending := rfl
@[simp] theorem onlyMemory_pw (s t : State) : (onlyMemory s t).pw = s.pw := rfl
@[simp] theorem onlyMemory_bt (s t : State) : (onlyMemory s t).bt = s.bt := rfl
@[simp] theorem onlyMemory_hs (s t : State) : (onlyMemory s t).hs = s.hs := rfl
@[simp] theorem onlyMemory_fe (s t : State) : (onlyMemory s t).fe = s.fe := rfl
@[simp] theorem onlyMemory_ax (s t : State) : (onlyMemory s t).ax = s.ax := rfl
@[simp] theorem onlyMemory_rx (s t : State) : (onlyMemory s t).rx = s.rx := rfl
@[simp] theorem onlyMemory_et (s t : State) : (onlyMemory s t).et = s.et := rfl
@[simp] theorem onlyMemory_fw (s t : State) : (onlyMemory s t).fw = s.fw := rfl
@[simp] theorem onlyMemory_out (s t : State) : (onlyMemory s t).out = t.out := rfl
@[simp] theorem onlyMemory_free (s t : State) : (onlyMemory s t).free = t.free := rfl
@[simp] theorem onlyObserve_pending (s t : State) : (onlyObserve s t).pending = s.pending := rfl
@[simp] theorem onlyObserve_pw (s t : State) : (onlyObserve s t).pw = s.pw := rfl
@[simp] theorem onlyObserve_fl (s t : State) : (onlyObserve s t).fl = s.fl := by simp [onlyObserve, keepRegs, keepQueue, keepFn]
@[simp] theorem onlyObserve_bt (s t : State) : (onlyObserve s t).bt = s.bt := rfl
@[simp] theorem onlyObserve_fe (s t : State) : (onlyObserve s t).fe = { s.fe with waiters := t.fe.waiters } := rfl
@[simp] theorem onlyObserve_en (s t : State) : (onlyObserve s t).en = t.en := rfl
@[simp] theorem onlyObserve_ax (s t : State) : (onlyObserve s t).ax = s.ax := rfl
@[simp] theorem onlyObserve_slots (s t : State) : (onlyObserve s t).rx.slots = t.rx.slots := rfl
@[simp] theorem onlyObserve_et (s t : State) : (onlyObserve s t).et = s.et := rfl
@[simp] theorem onlyObserve_fr (s t : State) : (onlyObserve s t).fr = s.fr := rfl
@[simp] theorem onlyObserve_fw (s t : State) : (onlyObserve s t).fw = s.fw := rfl
@[simp] theorem onlyObserve_out (s t : State) : (onlyObserve s t).out = s.out := rfl
@[simp] theorem onlyObserve_free (s t : State) : (onlyObserve s t).free = t.free := rfl

/-! ### Components that a kind of command takes in part -/

@[simp] theorem onlyWork_cells (s t : State) : (onlyWork s t).mem.cells = t.mem.cells := rfl
@[simp] theorem onlyWork_marks (s t : State) : (onlyWork s t).mem.marks = t.mem.marks := rfl
@[simp] theorem onlyWork_hostMem (s t : State) : (onlyWork s t).hs.hostMem = t.hs.hostMem := rfl
@[simp] theorem onlyWork_faults (s t : State) : (onlyWork s t).fr.faults = t.fr.faults := rfl
@[simp] theorem onlyWork_faultCount (s t : State) : (onlyWork s t).fr.faultCount = t.fr.faultCount := rfl
@[simp] theorem onlyWork_resets (s t : State) : (onlyWork s t).fr.resets = t.fr.resets := rfl
@[simp] theorem onlyWork_slots (s t : State) : (onlyWork s t).rx.slots = t.rx.slots := rfl
@[simp] theorem onlyFabric_cells (s t : State) : (onlyFabric s t).mem.cells = t.mem.cells := rfl
@[simp] theorem onlyFabric_hostMem (s t : State) : (onlyFabric s t).hs.hostMem = t.hs.hostMem := rfl
@[simp] theorem onlyFabric_slots (s t : State) : (onlyFabric s t).rx.slots = t.rx.slots := rfl
@[simp] theorem onlyFabric_faults (s t : State) : (onlyFabric s t).fr.faults = t.fr.faults := rfl
@[simp] theorem onlyMemory_cells (s t : State) : (onlyMemory s t).mem.cells = t.mem.cells := rfl
@[simp] theorem onlyObserve_cells (s t : State) : (onlyObserve s t).mem.cells = t.mem.cells := rfl

/-! ### Look-up after an update -/

@[simp] theorem getQc_setQc (q k : Nat) (v : QCtx) (s : State) : getQc (setQc q v s) k = if k = q then v else getQc s k :=
  mget_mset _ _ _ _ _
@[simp] theorem getQ_setQ (q k : Nat) (v : Queue) (s : State) : getQ (setQ q v s) k = if k = q then v else getQ s k :=
  mget_mset _ _ _ _ _
@[simp] theorem getCtx_setCtx (c k : Nat) (v : Ctx) (s : State) : getCtx (setCtx c v s) k = if k = c then v else getCtx s k :=
  mget_mset _ _ _ _ _
@[simp] theorem getEng_setEng (k j : Nat) (e : Eng) (s : State) : getEng (setEng k e s) j = if j = k then e else getEng s j :=
  mget_mset _ _ _ _ _
@[simp] theorem getPart_setPart (p j : Nat) (v : AxPart) (s : State) : getPart (setPart p v s) j = if j = p then v else getPart s j :=
  mget_mset _ _ _ _ _
@[simp] theorem getPort_setPort (n j : Nat) (v : Port) (s : State) : getPort (setPort n v s) j = if j = n then v else getPort s j :=
  mget_mset _ _ _ _ _
@[simp] theorem getSlot_setSlot (n j : Nat) (v : Slot) (s : State) : getSlot (setSlot n v s) j = if j = n then v else getSlot s j :=
  mget_mset _ _ _ _ _
@[simp] theorem getProc_setProc (n j : Nat) (v : Proc) (s : State) : getProc (setProc n v s) j = if j = n then v else getProc s j :=
  mget_mset _ _ _ _ _

@[simp] theorem getQc_modQc (q k : Nat) (f : QCtx → QCtx) (s : State) : getQc (modQc q f s) k = if k = q then f (getQc s q) else getQc s k :=
  mget_mset _ _ _ _ _
@[simp] theorem getQ_modQ (q k : Nat) (f : Queue → Queue) (s : State) : getQ (modQ q f s) k = if k = q then f (getQ s q) else getQ s k :=
  mget_mset _ _ _ _ _
@[simp] theorem getPart_modPart (p k : Nat) (f : AxPart → AxPart) (s : State) : getPart (modPart p f s) k = if k = p then f (getPart s p) else getPart s k :=
  mget_mset _ _ _ _ _
@[simp] theorem getPort_modPort (p k : Nat) (f : Port → Port) (s : State) : getPort (modPort p f s) k = if k = p then f (getPort s p) else getPort s k :=
  mget_mset _ _ _ _ _

@[simp] theorem getQc_setEng (k q : Nat) (e : Eng) (s : State) : getQc (setEng k e s) q = getQc s q := rfl
@[simp] theorem getQc_setQ (k q : Nat) (v : Queue) (s : State) : getQc (setQ k v s) q = getQc s q := rfl
@[simp] theorem getQc_modQ (k q : Nat) (f : Queue → Queue) (s : State) : getQc (modQ k f s) q = getQc s q := rfl
@[simp] theorem getQc_setResult (qu id st q : Nat) (s : State) : getQc (setResult qu id st s) q = getQc s q := rfl
@[simp] theorem getQc_tickIsland (isl q : Nat) (s : State) : getQc (tickIsland isl s) q = getQc s q := rfl
@[simp] theorem getQc_bumpIseq (isl q : Nat) (s : State) : getQc (bumpIseq isl s) q = getQc s q := rfl
@[simp] theorem getQ_setQc (k q : Nat) (v : QCtx) (s : State) : getQ (setQc k v s) q = getQ s q := rfl
@[simp] theorem getQ_modQc (k q : Nat) (f : QCtx → QCtx) (s : State) : getQ (modQc k f s) q = getQ s q := rfl
@[simp] theorem getQ_setEng (k q : Nat) (e : Eng) (s : State) : getQ (setEng k e s) q = getQ s q := rfl
@[simp] theorem getQc_onlyRun (s t : State) (q : Nat) : getQc (onlyRun s t) q = getQc t q := rfl
@[simp] theorem getQc_onlyWork (s t : State) (q : Nat) : getQc (onlyWork s t) q = getQc t q := rfl
@[simp] theorem getQc_onlyFabric (s t : State) (q : Nat) : getQc (onlyFabric s t) q = getQc t q := rfl
@[simp] theorem getQ_onlyRun (s t : State) (q : Nat) : getQ (onlyRun s t) q = getQ t q := rfl
@[simp] theorem getQ_onlyWork (s t : State) (q : Nat) : getQ (onlyWork s t) q = getQ t q := rfl
@[simp] theorem getQ_onlyFabric (s t : State) (q : Nat) : getQ (onlyFabric s t) q = getQ t q := rfl

/-! ### Registers -/

@[simp] theorem rdG_wrG (c : QCtx) (r k : BitVec 5) (v : W64) : rdG (wrG r v c) k = if k = r then (if r = 0 then 0 else v) else rdG c k := by
  unfold rdG wrG
  by_cases h : r = 0
  · rw [if_pos h]
    by_cases hk : k = r
    · rw [if_pos (hk.trans h), if_pos hk, if_pos h]
    · rw [if_neg hk]
  · rw [if_neg h]
    by_cases hk : k = r
    · rw [if_pos hk, if_neg (hk ▸ h), if_neg h, hk]; exact mget_mset_self ..
    · have h' : k.toNat ≠ r.toNat := fun e => hk (BitVec.eq_of_toNat_eq e)
      rw [if_neg hk]
      split
      · rfl
      · exact mget_mset_ne _ _ _ h'

@[simp] theorem rdV_wrG (c : QCtx) (r k : BitVec 5) (v : W64) : rdV (wrG r v c) k = rdV c k := by unfold rdV wrG; split <;> rfl
@[simp] theorem rdP_wrG (c : QCtx) (r : BitVec 5) (k : Nat) (v : W64) : rdP (wrG r v c) k = rdP c k := by
  unfold wrG; split <;> rfl
@[simp] theorem wrG_pc (c : QCtx) (r : BitVec 5) (v : W64) : (wrG r v c).pc = c.pc := by unfold wrG; split <;> rfl
@[simp] theorem wrG_cmd (c : QCtx) (r : BitVec 5) (v : W64) : (wrG r v c).cmd = c.cmd := by unfold wrG; split <;> rfl
@[simp] theorem wrG_ctx (c : QCtx) (r : BitVec 5) (v : W64) : (wrG r v c).ctx = c.ctx := by unfold wrG; split <;> rfl
@[simp] theorem wrG_vfcsr (c : QCtx) (r : BitVec 5) (v : W64) : (wrG r v c).vfcsr = c.vfcsr := by unfold wrG; split <;> rfl
@[simp] theorem wrG_v (c : QCtx) (r : BitVec 5) (v : W64) : (wrG r v c).v = c.v := by unfold wrG; split <;> rfl
@[simp] theorem wrG_p (c : QCtx) (r : BitVec 5) (v : W64) : (wrG r v c).p = c.p := by unfold wrG; split <;> rfl
@[simp] theorem wrG_seq (c : QCtx) (r : BitVec 5) (v : W64) : (wrG r v c).seq = c.seq := by unfold wrG; split <;> rfl
@[simp] theorem wrG_live (c : QCtx) (r : BitVec 5) (v : W64) : (wrG r v c).live = c.live := by unfold wrG; split <;> rfl
@[simp] theorem wrG_nums (c : QCtx) (r : BitVec 5) (v : W64) : (wrG r v c).nums = c.nums := by unfold wrG; split <;> rfl

@[simp] theorem rdV_wrV (c : QCtx) (r k : BitVec 5) (v : VReg) : rdV (wrV r v c) k = if k = r then v else rdV c k := by
  unfold rdV wrV
  by_cases hk : k = r
  · subst hk; simp
  · have : k.toNat ≠ r.toNat := fun e => hk (BitVec.eq_of_toNat_eq e)
    simp [hk, mget_mset, this]
@[simp] theorem rdG_wrV (c : QCtx) (r k : BitVec 5) (v : VReg) : rdG (wrV r v c) k = rdG c k := rfl
@[simp] theorem rdP_wrV (c : QCtx) (r : BitVec 5) (k : Nat) (v : VReg) : rdP (wrV r v c) k = rdP c k := rfl
@[simp] theorem wrV_pc (c : QCtx) (r : BitVec 5) (v : VReg) : (wrV r v c).pc = c.pc := rfl
@[simp] theorem wrV_cmd (c : QCtx) (r : BitVec 5) (v : VReg) : (wrV r v c).cmd = c.cmd := rfl

@[simp] theorem rdP_wrP (c : QCtx) (r k : Nat) (v : W64) : rdP (wrP r v c) k = if k = r then (if r = 0 then BitVec.allOnes 64 else v) else rdP c k := by
  unfold rdP wrP
  by_cases h : r = 0
  · subst h; by_cases hk : k = 0 <;> simp [hk]
  · by_cases hk : k = r
    · subst hk; simp [h]
    · simp [h, hk, mget_mset]
@[simp] theorem rdG_wrP (c : QCtx) (r : Nat) (k : BitVec 5) (v : W64) : rdG (wrP r v c) k = rdG c k := by unfold wrP; split <;> rfl
@[simp] theorem rdV_wrP (c : QCtx) (r : Nat) (k : BitVec 5) (v : W64) : rdV (wrP r v c) k = rdV c k := by unfold rdV wrP; split <;> rfl
@[simp] theorem wrP_pc (c : QCtx) (r : Nat) (v : W64) : (wrP r v c).pc = c.pc := by unfold wrP; split <;> rfl
@[simp] theorem wrP_cmd (c : QCtx) (r : Nat) (v : W64) : (wrP r v c).cmd = c.cmd := by unfold wrP; split <;> rfl
@[simp] theorem wrP_vfcsr (c : QCtx) (r : Nat) (v : W64) : (wrP r v c).vfcsr = c.vfcsr := by unfold wrP; split <;> rfl

end Sys2Proof.Machine
end

