-- ==== Sys2Proof/Laws/Memory.lean ====
section
/-! SUPPORT. Memory operations keep the canonical form, and read after write. -/

namespace Sys2Proof.Machine

/-! ### Byte maps -/

theorem mwf_putBytes (a : Nat) (bs : List Byte) (c : NMap Byte) (h : mwf 0 c = true) : mwf 0 (putBytes a bs c) = true := by
  induction bs generalizing a c with
  | nil => exact h
  | cons b bs ih => exact ih _ _ (mwf_mset 0 c a b h)

/-- A byte outside the written range reads as before. -/
theorem mget_putBytes_out (a : Nat) (bs : List Byte) (c : NMap Byte) (k : Nat) (h : k < a ∨ a + bs.length ≤ k) :
    mget 0 (putBytes a bs c) k = mget 0 c k := by
  induction bs generalizing a c with
  | nil => rfl
  | cons b bs ih =>
    rw [List.length_cons] at h
    rw [putBytes, ih (a + 1) _ (by omega), mget_mset_ne 0 c b (by omega)]

/-- A byte inside the written range reads as written. -/
theorem mget_putBytes_in (a : Nat) (bs : List Byte) (c : NMap Byte) (i : Nat) (h : i < bs.length) :
    mget 0 (putBytes a bs c) (a + i) = bs[i] := by
  induction bs generalizing a c i with
  | nil => exact absurd h (Nat.not_lt_zero _)
  | cons b bs ih =>
    rw [putBytes]
    cases i with
    | zero => rw [mget_putBytes_out _ _ _ _ (by omega)]; simp
    | succ i =>
      have := ih (a + 1) (mset 0 c a b) i (by simpa using h)
      rw [show a + (i + 1) = a + 1 + i by omega, this]; rfl

/-! ### Stores -/

@[simp] theorem setPoison_cells (l : Nat) (v : Bool) (m : Mem) : (setPoison l v m).cells = m.cells := rfl
@[simp] theorem dropDirty_cells (a n : Nat) (m : Mem) : (dropDirty a n m).cells = m.cells := rfl
@[simp] theorem poisonCore_cells (c : Nat) (m : Mem) : (poisonCore c m).cells = m.cells := rfl
@[simp] theorem poisonChest_cells (w : Nat) (m : Mem) : (poisonChest w m).cells = m.cells := rfl

theorem foldl_setPoison_cells (v : Bool) (ls : List Nat) (m : Mem) : (ls.foldl (fun t l => setPoison l v t) m).cells = m.cells := by
  induction ls generalizing m with
  | nil => rfl
  | cons l ls ih => rw [List.foldl_cons, ih]; rfl

@[simp] theorem strike_cells (w : Bool) (u : Nat) (m : Mem) : (strike w u m).cells = m.cells := by unfold strike; split <;> rfl

/-- A fold of steps that keep the bytes keeps them. -/
theorem foldl_cells {β : Type} (f : Mem → β → Mem) (h : ∀ t x, (f t x).cells = t.cells) (l : List β) (m : Mem) :
    (l.foldl f m).cells = m.cells := by
  induction l generalizing m with
  | nil => rfl
  | cons x l ih => rw [List.foldl_cons, ih, h]

@[simp] theorem strikeAll_cells (a n : Nat) (m : Mem) : (strikeAll a n m).cells = m.cells := foldl_cells _ (fun _ _ => strike_cells ..) ..

@[simp] theorem metError_cells (u v : Nat) (m : Mem) : (metError u v m).cells = m.cells := by
  unfold metError; dsimp only; repeat' split
  all_goals rfl

@[simp] theorem readLine_cells (l : Nat) (m : Mem) : (readLine l m).cells = m.cells := foldl_cells _ (fun _ _ => metError_cells ..) ..

@[simp] theorem memStore_cells (a : Nat) (bs : List Byte) (m : Mem) : (memStore a bs m).cells = putBytes a bs m.cells := by
  unfold memStore
  rw [foldl_setPoison_cells, strikeAll_cells]

theorem memStoreOne_cells (ws : NMap Nat) (w : Nat × Nat) (m : Mem) :
    (memStoreOne ws w m).cells = mset 0 m.cells w.1 (BitVec.ofNat 8 (w.2 - 1)) := by
  unfold memStoreOne; dsimp only; repeat' split
  all_goals simp

theorem mwf_memStoreAll (ws : NMap Nat) (m : Mem) (h : mwf 0 m.cells = true) : mwf 0 (memStoreAll ws m).cells = true := by
  unfold memStoreAll
  suffices key : ∀ (l : List (Nat × Nat)) (t : Mem), mwf 0 t.cells = true → mwf 0 (l.foldl (fun t w => memStoreOne ws w t) t).cells = true
    from key ws m h
  intro l
  induction l with
  | nil => intro t ht; exact ht
  | cons w l ih =>
    intro t ht
    exact ih _ (by rw [memStoreOne_cells]; exact mwf_mset 0 _ _ _ ht)

theorem wf_locStore (l : Nat) (bs : List Byte) (s : State) (h : Memory.wf s = true) : Memory.wf (locStore l bs s) = true := by
  simp only [Memory.wf, Bool.and_eq_true] at h ⊢
  unfold locStore
  split
  · exact ⟨h.1, mwf_putBytes _ _ _ h.2⟩
  · split
    · exact h
    · exact ⟨by simpa using mwf_putBytes _ _ _ h.1, h.2⟩

/-! ### What a change of memory wakes leaves memory alone -/

theorem rxFill_mem (s : State) : (rxFill s).mem = s.mem ∧ (rxFill s).hs = s.hs := by
  unfold rxFill
  dsimp only
  have key : ∀ (l : List (Nat × Slot)) (t : State),
      (l.foldl (fun t e =>
        let v := getSlot t e.1
        if v.live && !v.ready && filled s v then
          let t1 := setSlot e.1 (fillSlot t.free v) { t with free := t.free + 1 }
          { t1 with rx := { t1.rx with late := satAdd max32 t1.rx.late (if reduces v then outCount v else 0) } }
        else t) t).mem = t.mem
      ∧ (l.foldl (fun t e =>
        let v := getSlot t e.1
        if v.live && !v.ready && filled s v then
          let t1 := setSlot e.1 (fillSlot t.free v) { t with free := t.free + 1 }
          { t1 with rx := { t1.rx with late := satAdd max32 t1.rx.late (if reduces v then outCount v else 0) } }
        else t) t).hs = t.hs := by
    intro l
    induction l with
    | nil => intro t; exact ⟨rfl, rfl⟩
    | cons e l ih =>
      intro t
      rw [List.foldl_cons]
      obtain ⟨h1, h2⟩ := ih (if (getSlot t e.1).live && !(getSlot t e.1).ready && filled s (getSlot t e.1) then
          let t1 := setSlot e.1 (fillSlot t.free (getSlot t e.1)) { t with free := t.free + 1 }
          { t1 with rx := { t1.rx with late := satAdd max32 t1.rx.late (if reduces (getSlot t e.1) then outCount (getSlot t e.1) else 0) } }
        else t)
      refine ⟨h1.trans ?_, h2.trans ?_⟩ <;> split <;> rfl
  exact ⟨(key s.rx.slots s).1, (key s.rx.slots s).2⟩

@[simp] theorem changed_mem (cause : Nat) (s : State) : (changed cause s).mem = s.mem := (rxFill_mem _).1
@[simp] theorem changed_hs (cause : Nat) (s : State) : (changed cause s).hs = s.hs := (rxFill_mem _).2

theorem wf_storeAt (cause loc : Nat) (bs : List Byte) (s : State) (h : Memory.wf s = true) : Memory.wf (storeAt cause loc bs s) = true := by
  have := wf_locStore loc bs s h
  simp only [Memory.wf, storeAt, changed_mem, changed_hs] at this ⊢
  exact this

theorem wf_tallyAddAt (cause loc d : Nat) (s : State) (h : Memory.wf s = true) : Memory.wf (tallyAddAt cause loc d s) = true := by
  unfold tallyAddAt
  split
  · exact h
  · exact wf_storeAt _ _ _ _ h

theorem wf_poisonLoc (l : Nat) (s : State) : Memory.wf (poisonLoc l s) = Memory.wf s := by unfold poisonLoc; split <;> rfl

/-- The writes of a tensor command keep the canonical form. -/
theorem wf_jobCommit (cause : Nat) (j : Job) (h : Memory.wf j.s = true) : Memory.wf (jobCommit cause j) = true := by
  simp only [Memory.wf, Bool.and_eq_true] at h
  have stays : ∀ (l : List Nat) (t : State), Memory.wf (l.foldl (fun t l => poisonLoc l t) t) = Memory.wf t := by
    intro l
    induction l with
    | nil => intro t; rfl
    | cons x l ih => intro t; rw [List.foldl_cons, ih, wf_poisonLoc]
  have key : ∀ (l : List (Nat × Nat)) (m : NMap Byte), mwf 0 m = true →
      mwf 0 (l.foldl (fun m w => mset 0 m (w.1 - hostBit) (BitVec.ofNat 8 (w.2 - 1))) m) = true := by
    intro l
    induction l with
    | nil => intro m hm; exact hm
    | cons x l ih => intro m hm; exact ih _ (mwf_mset 0 _ _ _ hm)
  have wf_changed : ∀ t, Memory.wf (changed cause t) = Memory.wf t := by intro t; simp [Memory.wf]
  have wf_absorb : ∀ n t, Memory.wf (absorbReq n t) = Memory.wf t := fun _ _ => rfl
  unfold jobCommit
  dsimp only
  rw [wf_changed, wf_absorb, stays]
  simp only [Memory.wf, Bool.and_eq_true]
  exact ⟨mwf_memStoreAll _ _ h.1, key _ _ h.2⟩

theorem wf_reset : Memory.wf State.reset = true := by decide

end Sys2Proof.Machine
end

