-- ==== Sys2Proof/Laws/Run.lean ====
section
/-! SUPPORT. What the operations shared by engine instructions can change: clocks, trace records, the end of a command. -/

namespace Sys2Proof.Machine

/-! ### Clocks -/

theorem foldl_charge_keep {β : Type} (f : State → β) (h : ∀ k e t, f (setEng k e t) = f t) (g : State → Nat → Eng) (ks : List Nat)
    (s : State) : f (ks.foldl (fun t k => setEng k (g t k) t) s) = f s := by
  induction ks generalizing s with
  | nil => rfl
  | cons k ks ih => rw [List.foldl_cons, ih, h]

/-- A component that neither cycle counts nor cycle accounts belong to is as before. -/
theorem tickEng_keep {β : Type} (f : State → β) (h1 : ∀ k e t, f (setEng k e t) = f t) (h2 : ∀ isl t, f (tickIsland isl t) = f t)
    (kind index : Nat) (s : State) : f (tickEng kind index s) = f s := by
  unfold tickEng
  rw [foldl_charge_keep f h1, h2]

theorem tick_keep {β : Type} (f : State → β) (h1 : ∀ k e t, f (setEng k e t) = f t) (h2 : ∀ isl t, f (tickIsland isl t) = f t)
    (isl : Nat) (s : State) : f (tick isl s) = f s := by
  unfold tick
  split
  · exact tickEng_keep f h1 h2 ..
  · exact h2 ..

@[simp] theorem tickEng_pending (kind index : Nat) (s : State) : (tickEng kind index s).pending = s.pending := tickEng_keep (·.pending) (fun _ _ _ => rfl) (fun _ _ => rfl) ..
@[simp] theorem tickEng_pw (kind index : Nat) (s : State) : (tickEng kind index s).pw = s.pw := tickEng_keep (·.pw) (fun _ _ _ => rfl) (fun _ _ => rfl) ..
@[simp] theorem tickEng_fl (kind index : Nat) (s : State) : (tickEng kind index s).fl = s.fl := tickEng_keep (·.fl) (fun _ _ _ => rfl) (fun _ _ => rfl) ..
@[simp] theorem tickEng_bt (kind index : Nat) (s : State) : (tickEng kind index s).bt = s.bt := tickEng_keep (·.bt) (fun _ _ _ => rfl) (fun _ _ => rfl) ..
@[simp] theorem tickEng_hs (kind index : Nat) (s : State) : (tickEng kind index s).hs = s.hs := tickEng_keep (·.hs) (fun _ _ _ => rfl) (fun _ _ => rfl) ..
@[simp] theorem tickEng_mem (kind index : Nat) (s : State) : (tickEng kind index s).mem = s.mem := tickEng_keep (·.mem) (fun _ _ _ => rfl) (fun _ _ => rfl) ..
@[simp] theorem tickEng_fe (kind index : Nat) (s : State) : (tickEng kind index s).fe = s.fe := tickEng_keep (·.fe) (fun _ _ _ => rfl) (fun _ _ => rfl) ..
@[simp] theorem tickEng_ax (kind index : Nat) (s : State) : (tickEng kind index s).ax = s.ax := tickEng_keep (·.ax) (fun _ _ _ => rfl) (fun _ _ => rfl) ..
@[simp] theorem tickEng_rx (kind index : Nat) (s : State) : (tickEng kind index s).rx = s.rx := tickEng_keep (·.rx) (fun _ _ _ => rfl) (fun _ _ => rfl) ..
@[simp] theorem tickEng_et (kind index : Nat) (s : State) : (tickEng kind index s).et = s.et := tickEng_keep (·.et) (fun _ _ _ => rfl) (fun _ _ => rfl) ..
@[simp] theorem tickEng_fr (kind index : Nat) (s : State) : (tickEng kind index s).fr = s.fr := tickEng_keep (·.fr) (fun _ _ _ => rfl) (fun _ _ => rfl) ..
@[simp] theorem tickEng_fw (kind index : Nat) (s : State) : (tickEng kind index s).fw = s.fw := tickEng_keep (·.fw) (fun _ _ _ => rfl) (fun _ _ => rfl) ..
@[simp] theorem tickEng_ob (kind index : Nat) (s : State) : (tickEng kind index s).ob = s.ob := tickEng_keep (·.ob) (fun _ _ _ => rfl) (fun _ _ => rfl) ..
@[simp] theorem tickEng_out (kind index : Nat) (s : State) : (tickEng kind index s).out = s.out := tickEng_keep (·.out) (fun _ _ _ => rfl) (fun _ _ => rfl) ..
@[simp] theorem tickEng_qcs (kind index : Nat) (s : State) : (tickEng kind index s).en.qcs = s.en.qcs := tickEng_keep (·.en.qcs) (fun _ _ _ => rfl) (fun _ _ => rfl) ..
@[simp] theorem getQc_tickEng (kind index : Nat) (s : State) (q : Nat) : getQc (tickEng kind index s) q = getQc s q := tickEng_keep (getQc · q) (fun _ _ _ => rfl) (fun _ _ => rfl) ..
@[simp] theorem getQ_tickEng (kind index : Nat) (s : State) (q : Nat) : getQ (tickEng kind index s) q = getQ s q := tickEng_keep (getQ · q) (fun _ _ _ => rfl) (fun _ _ => rfl) ..

@[simp] theorem tick_pending (isl : Nat) (s : State) : (tick isl s).pending = s.pending := tick_keep (·.pending) (fun _ _ _ => rfl) (fun _ _ => rfl) ..
@[simp] theorem tick_pw (isl : Nat) (s : State) : (tick isl s).pw = s.pw := tick_keep (·.pw) (fun _ _ _ => rfl) (fun _ _ => rfl) ..
@[simp] theorem tick_fl (isl : Nat) (s : State) : (tick isl s).fl = s.fl := tick_keep (·.fl) (fun _ _ _ => rfl) (fun _ _ => rfl) ..
@[simp] theorem tick_bt (isl : Nat) (s : State) : (tick isl s).bt = s.bt := tick_keep (·.bt) (fun _ _ _ => rfl) (fun _ _ => rfl) ..
@[simp] theorem tick_hs (isl : Nat) (s : State) : (tick isl s).hs = s.hs := tick_keep (·.hs) (fun _ _ _ => rfl) (fun _ _ => rfl) ..
@[simp] theorem tick_mem (isl : Nat) (s : State) : (tick isl s).mem = s.mem := tick_keep (·.mem) (fun _ _ _ => rfl) (fun _ _ => rfl) ..
@[simp] theorem tick_fe (isl : Nat) (s : State) : (tick isl s).fe = s.fe := tick_keep (·.fe) (fun _ _ _ => rfl) (fun _ _ => rfl) ..
@[simp] theorem tick_ax (isl : Nat) (s : State) : (tick isl s).ax = s.ax := tick_keep (·.ax) (fun _ _ _ => rfl) (fun _ _ => rfl) ..
@[simp] theorem tick_rx (isl : Nat) (s : State) : (tick isl s).rx = s.rx := tick_keep (·.rx) (fun _ _ _ => rfl) (fun _ _ => rfl) ..
@[simp] theorem tick_et (isl : Nat) (s : State) : (tick isl s).et = s.et := tick_keep (·.et) (fun _ _ _ => rfl) (fun _ _ => rfl) ..
@[simp] theorem tick_fr (isl : Nat) (s : State) : (tick isl s).fr = s.fr := tick_keep (·.fr) (fun _ _ _ => rfl) (fun _ _ => rfl) ..
@[simp] theorem tick_fw (isl : Nat) (s : State) : (tick isl s).fw = s.fw := tick_keep (·.fw) (fun _ _ _ => rfl) (fun _ _ => rfl) ..
@[simp] theorem tick_ob (isl : Nat) (s : State) : (tick isl s).ob = s.ob := tick_keep (·.ob) (fun _ _ _ => rfl) (fun _ _ => rfl) ..
@[simp] theorem tick_out (isl : Nat) (s : State) : (tick isl s).out = s.out := tick_keep (·.out) (fun _ _ _ => rfl) (fun _ _ => rfl) ..
@[simp] theorem tick_qcs (isl : Nat) (s : State) : (tick isl s).en.qcs = s.en.qcs := tick_keep (·.en.qcs) (fun _ _ _ => rfl) (fun _ _ => rfl) ..
@[simp] theorem getQc_tick (isl : Nat) (s : State) (q : Nat) : getQc (tick isl s) q = getQc s q := tick_keep (getQc · q) (fun _ _ _ => rfl) (fun _ _ => rfl) ..
@[simp] theorem getQ_tick (isl : Nat) (s : State) (q : Nat) : getQ (tick isl s) q = getQ s q := tick_keep (getQ · q) (fun _ _ _ => rfl) (fun _ _ => rfl) ..

/-! ### Trace records -/

theorem putTrace_keep {β : Type} (f : State → β) (h1 : ∀ (t : State) (o : Ob), f { t with ob := o } = f t) (h2 : ∀ isl t, f (bumpIseq isl t) = f t)
    (unit isl kind ty wc d0 d1 : Nat) (s : State) : f (putTrace unit isl kind ty wc d0 d1 s) = f s := by
  unfold putTrace
  dsimp only
  by_cases h : mget 0 s.ob.lostPending unit = 0
  · simp only [h, if_true]
    split
    · rw [h2, h1]
    · rw [h1]
  · simp only [h, if_false]
    split
    · rw [h2, h1, h1, h2, h1]
    · rw [h1]

theorem traceEng_keep {β : Type} (f : State → β) (h1 : ∀ (t : State) (o : Ob), f { t with ob := o } = f t) (h2 : ∀ isl t, f (bumpIseq isl t) = f t)
    (h3 : ∀ k e t, f (setEng k e t) = f t) (h4 : ∀ isl t, f (tickIsland isl t) = f t)
    (kind index ty d0 d1 : Nat) (s : State) : f (traceEng kind index ty d0 d1 s) = f s := by
  unfold traceEng pushTrace
  split
  · rw [putTrace_keep f h1 h2, tick_keep f h3 h4]
  · rfl

@[simp] theorem traceEng_pending (kind index ty d0 d1 : Nat) (s : State) : (traceEng kind index ty d0 d1 s).pending = s.pending :=
  traceEng_keep (·.pending) (fun _ _ => rfl) (fun _ _ => rfl) (fun _ _ _ => rfl) (fun _ _ => rfl) ..
@[simp] theorem traceEng_pw (kind index ty d0 d1 : Nat) (s : State) : (traceEng kind index ty d0 d1 s).pw = s.pw :=
  traceEng_keep (·.pw) (fun _ _ => rfl) (fun _ _ => rfl) (fun _ _ _ => rfl) (fun _ _ => rfl) ..
@[simp] theorem traceEng_fl (kind index ty d0 d1 : Nat) (s : State) : (traceEng kind index ty d0 d1 s).fl = s.fl :=
  traceEng_keep (·.fl) (fun _ _ => rfl) (fun _ _ => rfl) (fun _ _ _ => rfl) (fun _ _ => rfl) ..
@[simp] theorem traceEng_bt (kind index ty d0 d1 : Nat) (s : State) : (traceEng kind index ty d0 d1 s).bt = s.bt :=
  traceEng_keep (·.bt) (fun _ _ => rfl) (fun _ _ => rfl) (fun _ _ _ => rfl) (fun _ _ => rfl) ..
@[simp] theorem traceEng_hs (kind index ty d0 d1 : Nat) (s : State) : (traceEng kind index ty d0 d1 s).hs = s.hs :=
  traceEng_keep (·.hs) (fun _ _ => rfl) (fun _ _ => rfl) (fun _ _ _ => rfl) (fun _ _ => rfl) ..
@[simp] theorem traceEng_mem (kind index ty d0 d1 : Nat) (s : State) : (traceEng kind index ty d0 d1 s).mem = s.mem :=
  traceEng_keep (·.mem) (fun _ _ => rfl) (fun _ _ => rfl) (fun _ _ _ => rfl) (fun _ _ => rfl) ..
@[simp] theorem traceEng_fe (kind index ty d0 d1 : Nat) (s : State) : (traceEng kind index ty d0 d1 s).fe = s.fe :=
  traceEng_keep (·.fe) (fun _ _ => rfl) (fun _ _ => rfl) (fun _ _ _ => rfl) (fun _ _ => rfl) ..
@[simp] theorem traceEng_ax (kind index ty d0 d1 : Nat) (s : State) : (traceEng kind index ty d0 d1 s).ax = s.ax :=
  traceEng_keep (·.ax) (fun _ _ => rfl) (fun _ _ => rfl) (fun _ _ _ => rfl) (fun _ _ => rfl) ..
@[simp] theorem traceEng_rx (kind index ty d0 d1 : Nat) (s : State) : (traceEng kind index ty d0 d1 s).rx = s.rx :=
  traceEng_keep (·.rx) (fun _ _ => rfl) (fun _ _ => rfl) (fun _ _ _ => rfl) (fun _ _ => rfl) ..
@[simp] theorem traceEng_et (kind index ty d0 d1 : Nat) (s : State) : (traceEng kind index ty d0 d1 s).et = s.et :=
  traceEng_keep (·.et) (fun _ _ => rfl) (fun _ _ => rfl) (fun _ _ _ => rfl) (fun _ _ => rfl) ..
@[simp] theorem traceEng_fr (kind index ty d0 d1 : Nat) (s : State) : (traceEng kind index ty d0 d1 s).fr = s.fr :=
  traceEng_keep (·.fr) (fun _ _ => rfl) (fun _ _ => rfl) (fun _ _ _ => rfl) (fun _ _ => rfl) ..
@[simp] theorem traceEng_fw (kind index ty d0 d1 : Nat) (s : State) : (traceEng kind index ty d0 d1 s).fw = s.fw :=
  traceEng_keep (·.fw) (fun _ _ => rfl) (fun _ _ => rfl) (fun _ _ _ => rfl) (fun _ _ => rfl) ..
@[simp] theorem traceEng_out (kind index ty d0 d1 : Nat) (s : State) : (traceEng kind index ty d0 d1 s).out = s.out :=
  traceEng_keep (·.out) (fun _ _ => rfl) (fun _ _ => rfl) (fun _ _ _ => rfl) (fun _ _ => rfl) ..
@[simp] theorem getQc_traceEng (kind index ty d0 d1 : Nat) (s : State) (q : Nat) : getQc (traceEng kind index ty d0 d1 s) q = getQc s q :=
  traceEng_keep (getQc · q) (fun _ _ => rfl) (fun _ _ => rfl) (fun _ _ _ => rfl) (fun _ _ => rfl) ..
@[simp] theorem getQ_traceEng (kind index ty d0 d1 : Nat) (s : State) (q : Nat) : getQ (traceEng kind index ty d0 d1 s) q = getQ s q :=
  traceEng_keep (getQ · q) (fun _ _ => rfl) (fun _ _ => rfl) (fun _ _ _ => rfl) (fun _ _ => rfl) ..

/-! ### The end of a command -/

@[simp] theorem leaveEng_pending (q : Nat) (s : State) : (leaveEng q s).pending = s.pending := by unfold leaveEng; dsimp only; split <;> rfl
@[simp] theorem leaveEng_pw (q : Nat) (s : State) : (leaveEng q s).pw = s.pw := by unfold leaveEng; dsimp only; split <;> rfl
@[simp] theorem leaveEng_fl (q : Nat) (s : State) : (leaveEng q s).fl = s.fl := by unfold leaveEng; dsimp only; split <;> rfl
@[simp] theorem leaveEng_bt (q : Nat) (s : State) : (leaveEng q s).bt = s.bt := by unfold leaveEng; dsimp only; split <;> rfl
@[simp] theorem leaveEng_hs (q : Nat) (s : State) : (leaveEng q s).hs = s.hs := by unfold leaveEng; dsimp only; split <;> rfl
@[simp] theorem leaveEng_mem (q : Nat) (s : State) : (leaveEng q s).mem = s.mem := by unfold leaveEng; dsimp only; split <;> rfl
@[simp] theorem leaveEng_fe (q : Nat) (s : State) : (leaveEng q s).fe = s.fe := by unfold leaveEng; dsimp only; split <;> rfl
@[simp] theorem leaveEng_ax (q : Nat) (s : State) : (leaveEng q s).ax = s.ax := by unfold leaveEng; dsimp only; split <;> rfl
@[simp] theorem leaveEng_rx (q : Nat) (s : State) : (leaveEng q s).rx = s.rx := by unfold leaveEng; dsimp only; split <;> rfl
@[simp] theorem leaveEng_et (q : Nat) (s : State) : (leaveEng q s).et = s.et := by unfold leaveEng; dsimp only; split <;> rfl
@[simp] theorem leaveEng_fr (q : Nat) (s : State) : (leaveEng q s).fr = s.fr := by unfold leaveEng; dsimp only; split <;> rfl
@[simp] theorem leaveEng_fw (q : Nat) (s : State) : (leaveEng q s).fw = s.fw := by unfold leaveEng; dsimp only; split <;> rfl
@[simp] theorem leaveEng_ob (q : Nat) (s : State) : (leaveEng q s).ob = s.ob := by unfold leaveEng; dsimp only; split <;> rfl
@[simp] theorem leaveEng_out (q : Nat) (s : State) : (leaveEng q s).out = s.out := by unfold leaveEng; dsimp only; split <;> rfl
@[simp] theorem leaveEng_qcs (q : Nat) (s : State) : (leaveEng q s).en.qcs = s.en.qcs := by unfold leaveEng; dsimp only; split <;> rfl
@[simp] theorem getQc_leaveEng (q k : Nat) (s : State) : getQc (leaveEng q s) k = getQc s k := by simp [getQc]
@[simp] theorem getQ_leaveEng (q k : Nat) (s : State) : getQ (leaveEng q s) k = getQ s k := by simp [getQ]

theorem stallEnds_keep {β : Type} (f : State → β) (h1 : ∀ (t : State) (o : Ob), f { t with ob := o } = f t) (h2 : ∀ isl t, f (bumpIseq isl t) = f t)
    (h3 : ∀ k e t, f (setEng k e t) = f t) (h4 : ∀ isl t, f (tickIsland isl t) = f t) (h5 : ∀ t, f (nextFree t) = f t)
    (kind index : Nat) (e : Eng) (s : State) : f (stallEnds kind index e s) = f s := by
  unfold stallEnds; dsimp only
  split
  · split
    · rw [traceEng_keep f h1 h2 h3 h4, h5]
    · rfl
  · rfl

theorem cmdEnds_keep {β : Type} (f : State → β) (h1 : ∀ (t : State) (o : Ob), f { t with ob := o } = f t) (h2 : ∀ isl t, f (bumpIseq isl t) = f t)
    (h3 : ∀ k e t, f (setEng k e t) = f t) (h4 : ∀ isl t, f (tickIsland isl t) = f t) (h5 : ∀ t, f (nextFree t) = f t)
    (q st : Nat) (s : State) : f (cmdEnds q st s) = f s := by
  unfold cmdEnds; dsimp only
  rw [traceEng_keep f h1 h2 h3 h4]
  split
  · rw [stallEnds_keep f h1 h2 h3 h4 h5, tickEng_keep f h3 h4]
  · rw [h3, stallEnds_keep f h1 h2 h3 h4 h5, tickEng_keep f h3 h4]

theorem endTurn_keep {β : Type} (f : State → β) (h : ∀ k e t, f (setEng k e t) = f t) (q : Nat) (s : State) : f (endTurn q s) = f s := by
  unfold endTurn; dsimp only; split
  · exact h ..
  · rfl

/-- The end of a command leaves alone whatever neither queue contexts, queues, engines nor the trace belong to. -/
theorem finishCmd_keep {β : Type} (f : State → β) (h1 : ∀ (t : State) (o : Ob), f { t with ob := o } = f t) (h2 : ∀ isl t, f (bumpIseq isl t) = f t)
    (h3 : ∀ k e t, f (setEng k e t) = f t) (h4 : ∀ isl t, f (tickIsland isl t) = f t) (h5 : ∀ t, f (nextFree t) = f t)
    (h6 : ∀ q v t, f (setQc q v t) = f t) (h7 : ∀ q v t, f (setQ q v t) = f t) (q st : Nat) (s : State) : f (finishCmd q st s) = f s := by
  unfold finishCmd; dsimp only; split
  · rfl
  · split
    · exact h6 ..
    · unfold setResult modQ modQc
      rw [h7, endTurn_keep f h3, h6, cmdEnds_keep f h1 h2 h3 h4 h5]

/-- An instruction that is done has moved the PC on or ended its command. -/
theorem doneInsn_keep {β : Type} (f : State → β) (h1 : ∀ (t : State) (o : Ob), f { t with ob := o } = f t) (h2 : ∀ isl t, f (bumpIseq isl t) = f t)
    (h3 : ∀ k e t, f (setEng k e t) = f t) (h4 : ∀ isl t, f (tickIsland isl t) = f t) (h5 : ∀ t, f (nextFree t) = f t)
    (h6 : ∀ q v t, f (setQc q v t) = f t) (h7 : ∀ q v t, f (setQ q v t) = f t) (q len : Nat) (s : State) : f (doneInsn q len s) = f s := by
  unfold doneInsn; split
  · exact h6 ..
  · exact finishCmd_keep f h1 h2 h3 h4 h5 h6 h7 ..

@[simp] theorem finishCmd_pending (q st : Nat) (s : State) : (finishCmd q st s).pending = s.pending :=
  finishCmd_keep (·.pending) (fun _ _ => rfl) (fun _ _ => rfl) (fun _ _ _ => rfl) (fun _ _ => rfl) (fun _ => rfl) (fun _ _ _ => rfl) (fun _ _ _ => rfl) ..
@[simp] theorem doneInsn_pending (q len : Nat) (s : State) : (doneInsn q len s).pending = s.pending :=
  doneInsn_keep (·.pending) (fun _ _ => rfl) (fun _ _ => rfl) (fun _ _ _ => rfl) (fun _ _ => rfl) (fun _ => rfl) (fun _ _ _ => rfl) (fun _ _ _ => rfl) ..
@[simp] theorem finishCmd_pw (q st : Nat) (s : State) : (finishCmd q st s).pw = s.pw :=
  finishCmd_keep (·.pw) (fun _ _ => rfl) (fun _ _ => rfl) (fun _ _ _ => rfl) (fun _ _ => rfl) (fun _ => rfl) (fun _ _ _ => rfl) (fun _ _ _ => rfl) ..
@[simp] theorem doneInsn_pw (q len : Nat) (s : State) : (doneInsn q len s).pw = s.pw :=
  doneInsn_keep (·.pw) (fun _ _ => rfl) (fun _ _ => rfl) (fun _ _ _ => rfl) (fun _ _ => rfl) (fun _ => rfl) (fun _ _ _ => rfl) (fun _ _ _ => rfl) ..
@[simp] theorem finishCmd_fl (q st : Nat) (s : State) : (finishCmd q st s).fl = s.fl :=
  finishCmd_keep (·.fl) (fun _ _ => rfl) (fun _ _ => rfl) (fun _ _ _ => rfl) (fun _ _ => rfl) (fun _ => rfl) (fun _ _ _ => rfl) (fun _ _ _ => rfl) ..
@[simp] theorem doneInsn_fl (q len : Nat) (s : State) : (doneInsn q len s).fl = s.fl :=
  doneInsn_keep (·.fl) (fun _ _ => rfl) (fun _ _ => rfl) (fun _ _ _ => rfl) (fun _ _ => rfl) (fun _ => rfl) (fun _ _ _ => rfl) (fun _ _ _ => rfl) ..
@[simp] theorem finishCmd_bt (q st : Nat) (s : State) : (finishCmd q st s).bt = s.bt :=
  finishCmd_keep (·.bt) (fun _ _ => rfl) (fun _ _ => rfl) (fun _ _ _ => rfl) (fun _ _ => rfl) (fun _ => rfl) (fun _ _ _ => rfl) (fun _ _ _ => rfl) ..
@[simp] theorem doneInsn_bt (q len : Nat) (s : State) : (doneInsn q len s).bt = s.bt :=
  doneInsn_keep (·.bt) (fun _ _ => rfl) (fun _ _ => rfl) (fun _ _ _ => rfl) (fun _ _ => rfl) (fun _ => rfl) (fun _ _ _ => rfl) (fun _ _ _ => rfl) ..
@[simp] theorem finishCmd_hs (q st : Nat) (s : State) : (finishCmd q st s).hs = s.hs :=
  finishCmd_keep (·.hs) (fun _ _ => rfl) (fun _ _ => rfl) (fun _ _ _ => rfl) (fun _ _ => rfl) (fun _ => rfl) (fun _ _ _ => rfl) (fun _ _ _ => rfl) ..
@[simp] theorem doneInsn_hs (q len : Nat) (s : State) : (doneInsn q len s).hs = s.hs :=
  doneInsn_keep (·.hs) (fun _ _ => rfl) (fun _ _ => rfl) (fun _ _ _ => rfl) (fun _ _ => rfl) (fun _ => rfl) (fun _ _ _ => rfl) (fun _ _ _ => rfl) ..
@[simp] theorem finishCmd_mem (q st : Nat) (s : State) : (finishCmd q st s).mem = s.mem :=
  finishCmd_keep (·.mem) (fun _ _ => rfl) (fun _ _ => rfl) (fun _ _ _ => rfl) (fun _ _ => rfl) (fun _ => rfl) (fun _ _ _ => rfl) (fun _ _ _ => rfl) ..
@[simp] theorem doneInsn_mem (q len : Nat) (s : State) : (doneInsn q len s).mem = s.mem :=
  doneInsn_keep (·.mem) (fun _ _ => rfl) (fun _ _ => rfl) (fun _ _ _ => rfl) (fun _ _ => rfl) (fun _ => rfl) (fun _ _ _ => rfl) (fun _ _ _ => rfl) ..
@[simp] theorem finishCmd_ax (q st : Nat) (s : State) : (finishCmd q st s).ax = s.ax :=
  finishCmd_keep (·.ax) (fun _ _ => rfl) (fun _ _ => rfl) (fun _ _ _ => rfl) (fun _ _ => rfl) (fun _ => rfl) (fun _ _ _ => rfl) (fun _ _ _ => rfl) ..
@[simp] theorem doneInsn_ax (q len : Nat) (s : State) : (doneInsn q len s).ax = s.ax :=
  doneInsn_keep (·.ax) (fun _ _ => rfl) (fun _ _ => rfl) (fun _ _ _ => rfl) (fun _ _ => rfl) (fun _ => rfl) (fun _ _ _ => rfl) (fun _ _ _ => rfl) ..
@[simp] theorem finishCmd_rx (q st : Nat) (s : State) : (finishCmd q st s).rx = s.rx :=
  finishCmd_keep (·.rx) (fun _ _ => rfl) (fun _ _ => rfl) (fun _ _ _ => rfl) (fun _ _ => rfl) (fun _ => rfl) (fun _ _ _ => rfl) (fun _ _ _ => rfl) ..
@[simp] theorem doneInsn_rx (q len : Nat) (s : State) : (doneInsn q len s).rx = s.rx :=
  doneInsn_keep (·.rx) (fun _ _ => rfl) (fun _ _ => rfl) (fun _ _ _ => rfl) (fun _ _ => rfl) (fun _ => rfl) (fun _ _ _ => rfl) (fun _ _ _ => rfl) ..
@[simp] theorem finishCmd_et (q st : Nat) (s : State) : (finishCmd q st s).et = s.et :=
  finishCmd_keep (·.et) (fun _ _ => rfl) (fun _ _ => rfl) (fun _ _ _ => rfl) (fun _ _ => rfl) (fun _ => rfl) (fun _ _ _ => rfl) (fun _ _ _ => rfl) ..
@[simp] theorem doneInsn_et (q len : Nat) (s : State) : (doneInsn q len s).et = s.et :=
  doneInsn_keep (·.et) (fun _ _ => rfl) (fun _ _ => rfl) (fun _ _ _ => rfl) (fun _ _ => rfl) (fun _ => rfl) (fun _ _ _ => rfl) (fun _ _ _ => rfl) ..
@[simp] theorem finishCmd_fr (q st : Nat) (s : State) : (finishCmd q st s).fr = s.fr :=
  finishCmd_keep (·.fr) (fun _ _ => rfl) (fun _ _ => rfl) (fun _ _ _ => rfl) (fun _ _ => rfl) (fun _ => rfl) (fun _ _ _ => rfl) (fun _ _ _ => rfl) ..
@[simp] theorem doneInsn_fr (q len : Nat) (s : State) : (doneInsn q len s).fr = s.fr :=
  doneInsn_keep (·.fr) (fun _ _ => rfl) (fun _ _ => rfl) (fun _ _ _ => rfl) (fun _ _ => rfl) (fun _ => rfl) (fun _ _ _ => rfl) (fun _ _ _ => rfl) ..
@[simp] theorem finishCmd_fw (q st : Nat) (s : State) : (finishCmd q st s).fw = s.fw :=
  finishCmd_keep (·.fw) (fun _ _ => rfl) (fun _ _ => rfl) (fun _ _ _ => rfl) (fun _ _ => rfl) (fun _ => rfl) (fun _ _ _ => rfl) (fun _ _ _ => rfl) ..
@[simp] theorem doneInsn_fw (q len : Nat) (s : State) : (doneInsn q len s).fw = s.fw :=
  doneInsn_keep (·.fw) (fun _ _ => rfl) (fun _ _ => rfl) (fun _ _ _ => rfl) (fun _ _ => rfl) (fun _ => rfl) (fun _ _ _ => rfl) (fun _ _ _ => rfl) ..
@[simp] theorem finishCmd_out (q st : Nat) (s : State) : (finishCmd q st s).out = s.out :=
  finishCmd_keep (·.out) (fun _ _ => rfl) (fun _ _ => rfl) (fun _ _ _ => rfl) (fun _ _ => rfl) (fun _ => rfl) (fun _ _ _ => rfl) (fun _ _ _ => rfl) ..
@[simp] theorem doneInsn_out (q len : Nat) (s : State) : (doneInsn q len s).out = s.out :=
  doneInsn_keep (·.out) (fun _ _ => rfl) (fun _ _ => rfl) (fun _ _ _ => rfl) (fun _ _ => rfl) (fun _ => rfl) (fun _ _ _ => rfl) (fun _ _ _ => rfl) ..

theorem getQc_cmdEnds (q st k : Nat) (s : State) : getQc (cmdEnds q st s) k = getQc s k :=
  cmdEnds_keep (getQc · k) (fun _ _ => rfl) (fun _ _ => rfl) (fun _ _ _ => rfl) (fun _ _ => rfl) (fun _ => rfl) ..
theorem getQc_endTurn (q k : Nat) (s : State) : getQc (endTurn q s) k = getQc s k := endTurn_keep (getQc · k) (fun _ _ _ => rfl) ..

/-- A queue context after its command has ended: no command in progress, its registers as they were. -/
def idleCtx (c : QCtx) : QCtx := { c with cmd := none, started := false, blocked := false, heldAdd := none, heldEnd := none }

@[simp] theorem rdG_idleCtx (c : QCtx) (r : BitVec 5) : rdG (idleCtx c) r = rdG c r := rfl
@[simp] theorem rdV_idleCtx (c : QCtx) (r : BitVec 5) : rdV (idleCtx c) r = rdV c r := rfl
@[simp] theorem rdP_idleCtx (c : QCtx) (r : Nat) : rdP (idleCtx c) r = rdP c r := rfl
@[simp] theorem idleCtx_pc (c : QCtx) : (idleCtx c).pc = c.pc := rfl
@[simp] theorem idleCtx_vfcsr (c : QCtx) : (idleCtx c).vfcsr = c.vfcsr := rfl
@[simp] theorem idleCtx_cmd (c : QCtx) : (idleCtx c).cmd = none := rfl

/-- A queue context after `finishCmd`: a program whose array commands or collectives have yet to retire keeps its status. -/
def finCtx (s : State) (q st : Nat) : QCtx :=
  match (getQc s q).cmd with
  | none => getQc s q
  | some (_, _, prog) =>
    if prog && (decide (st < stXlat) || st == stPeerDown) && unretired s q then { getQc s q with heldEnd := some st }
    else idleCtx (getQc s q)

theorem getQc_finishCmd (q st k : Nat) (s : State) : getQc (finishCmd q st s) k = if k = q then finCtx s q st else getQc s k := by
  unfold finishCmd finCtx; dsimp only
  cases hc : (getQc s q).cmd with
  | none => by_cases hk : k = q <;> simp [hk]
  | some v =>
    obtain ⟨qu, id, prog⟩ := v
    by_cases hk : k = q
    · subst hk
      dsimp only
      split
      · simp [hc]
      · simp [getQc_endTurn, getQc_cmdEnds, idleCtx]
    · dsimp only
      split
      · simp [hk]
      · simp [getQc_endTurn, getQc_cmdEnds, hk]

/-- An instruction command always ends at once. -/
theorem finCtx_insn {s : State} {q st : Nat} (h : (getQc s q).cmd.isSome = true) (hp : isProg (getQc s q) = false) :
    finCtx s q st = idleCtx (getQc s q) := by
  unfold finCtx
  obtain ⟨⟨qu, id, prog⟩, hc⟩ := Option.isSome_iff_exists.mp h
  simp [isProg, hc] at hp ⊢
  simp [hp]

theorem getQc_doneInsn (q len k : Nat) (s : State) :
    getQc (doneInsn q len s) k =
      if k ≠ q then getQc s k
      else if isProg (getQc s q) then { getQc s q with pc := (getQc s q).pc + BitVec.ofNat 64 len }
      else if (getQc s q).cmd.isSome then idleCtx (getQc s q) else getQc s q := by
  unfold doneInsn
  by_cases hk : k = q
  · subst hk
    split
    · simp_all
    · rename_i hp
      simp only [getQc_finishCmd, ne_eq, not_true_eq_false, if_false, if_true]
      split
      · rename_i hs; exact finCtx_insn hs (by simpa using hp)
      · rename_i hs; simp [finCtx, Option.not_isSome_iff_eq_none.mp hs]
  · split <;> simp_all [getQc_finishCmd]

/-- A queue context after its instruction of `len` bytes: a program's PC moves on, an instruction command has ended. -/
def endCtx (len : Nat) (c : QCtx) : QCtx := if isProg c then { c with pc := c.pc + BitVec.ofNat 64 len } else idleCtx c

@[simp] theorem rdG_endCtx (len : Nat) (c : QCtx) (r : BitVec 5) : rdG (endCtx len c) r = rdG c r := by unfold endCtx; split <;> rfl
@[simp] theorem rdV_endCtx (len : Nat) (c : QCtx) (r : BitVec 5) : rdV (endCtx len c) r = rdV c r := by unfold endCtx; split <;> rfl
@[simp] theorem rdP_endCtx (len : Nat) (c : QCtx) (r : Nat) : rdP (endCtx len c) r = rdP c r := by unfold endCtx; split <;> rfl
@[simp] theorem endCtx_vfcsr (len : Nat) (c : QCtx) : (endCtx len c).vfcsr = c.vfcsr := by unfold endCtx; split <;> rfl

/-- What the end of an instruction does to its own queue context. -/
theorem getQc_doneInsn_self (q len : Nat) (s : State) (h : (getQc s q).cmd.isSome = true) :
    getQc (doneInsn q len s) q = endCtx len (getQc s q) := by
  rw [getQc_doneInsn]; simp [endCtx, h]

@[simp] theorem getQc_doneInsn_ne (q len k : Nat) (s : State) (h : k ≠ q) : getQc (doneInsn q len s) k = getQc s k := by
  rw [getQc_doneInsn]; simp [h]

@[simp] theorem getQc_finishCmd_ne (q st k : Nat) (s : State) (h : k ≠ q) : getQc (finishCmd q st s) k = getQc s k := by
  rw [getQc_finishCmd]; simp [h]

theorem isProg_wrG (c : QCtx) (r : BitVec 5) (v : W64) : isProg (wrG r v c) = isProg c := by simp [isProg]

/-- A queue context that runs an instruction is live and has its command. -/
theorem canRun_has {s : State} {q : Nat} {k : Nat → Bool} (h : canRun s q k = true) :
    (getQc s q).live = true ∧ (getQc s q).cmd.isSome = true := by
  unfold canRun at h
  simp only [Bool.and_eq_true] at h
  tauto

end Sys2Proof.Machine
end

