-- ==== Sys2Proof/Laws/Scalar.lean ====
section
/-! SUPPORT. What an instruction that gives a register a value does, said once. -/

namespace Sys2Proof.Machine

/-- Register work changes nothing of the board, memory, arrays, collectives, faults or output. -/
theorem memKept_onlyRun (s t : State) : memKept s (onlyRun s t) := by
  refine ⟨⟨?_, ?_, ?_, ?_, ?_⟩, ?_, ?_, ?_, ?_, ?_, ?_⟩ <;> simp

/-- Where it can run, a register instruction answers a next state with its register result and its frame. -/
theorem regInsn_result (q : Nat) (rd : BitVec 5) (len : Nat) (v : QCtx → W64) (s : State) (h : canRun s q anyKind = true) :
    ∃ t, regInsn q rd len v s = .next t ∧ regResult s t q rd len (v (getQc s q)) := by
  obtain ⟨hl, hc⟩ := canRun_has h
  refine ⟨_, by unfold regInsn; rw [if_pos h], ?_⟩
  have hd := getQc_doneInsn_self q len (modQc q (fun c => wrG rd (v c) c) s) (by simpa using hc)
  simp only [getQc_modQc, if_true] at hd
  refine ⟨?_, ⟨?_, ?_, ?_, ?_⟩, ?_, ?_, memKept_onlyRun _ _⟩
  · simp [hd]
  · intro r hr; simp [hd, hr]
  · intro r; simp [hd]
  · intro r; simp [hd]
  · simp [hd]
  · simp only [ended, getQc_onlyRun, hd]
    unfold endCtx
    rw [isProg_wrG]
    by_cases hp : isProg (getQc s q) <;> simp [hp]
  · intro k hk; simp [hk]

end Sys2Proof.Machine
end

