-- ==== Sys2Proof/Laws/Xlat.lean ====
section
/-! SUPPORT. A translation changes the translation cache, what the lines it reads meet of memory errors, and the count of free values
alone; a running program reaches no core memory in quarantine. -/

namespace Sys2Proof.Machine

/-- Memory without the translation cache and what reads meet of memory errors: poison, counts and the errors not yet met. -/
def sansErrors (m : Mem) : Mem :=
  { m with xcache := [], marks := [], latent := [], hbmCe := [], hbmUe := [], chestCe := [], chestUe := [], coreCe := [], coreUe := []
           lastUe := [] }

/-- Everything but those and the count of free values. -/
def sansCache (s : State) : State := { s with mem := sansErrors s.mem, free := 0 }

/-! ### What a read meets -/

theorem metError_sans (u v : Nat) (m : Mem) : sansErrors (metError u v m) = sansErrors m := by
  unfold metError; dsimp only; repeat' split
  all_goals rfl

theorem foldl_sans {β : Type} (f : Mem → β → Mem) (h : ∀ t x, sansErrors (f t x) = sansErrors t) (l : List β) (m : Mem) :
    sansErrors (l.foldl f m) = sansErrors m := by
  induction l generalizing m with
  | nil => rfl
  | cons x l ih => rw [List.foldl_cons, ih, h]

theorem readLine_sans (l : Nat) (m : Mem) : sansErrors (readLine l m) = sansErrors m := foldl_sans _ (fun _ _ => metError_sans ..) ..

theorem readLoc_sans (l : Nat) (s : State) : sansCache (readLoc l s) = sansCache s := by
  unfold readLoc sansCache; split
  · rfl
  · dsimp only; rw [readLine_sans]

theorem reached_sans (acc : Nat) (o : XOut) (s : State) : sansCache (reached acc o s) = sansCache s := by
  unfold reached; split
  · split
    · rfl
    · exact readLoc_sans ..
  · rfl

theorem meetWalk_sans (s : State) (ctx va : Nat) : sansCache (meetWalk s ctx va) = sansCache s := by
  unfold meetWalk; split
  · rfl
  · split
    · rfl
    · unfold sansCache; dsimp only; rw [foldl_sans _ (fun _ _ => readLine_sans ..)]

/-! ### A translation -/

theorem fillCache_sans (ctx va : Nat) (w : Walk) (s : State) : sansCache (fillCache ctx va w s) = sansCache s := by
  cases w <;> rfl

theorem lookup_sans (s : State) (ctx va : Nat) : sansCache (lookup s ctx va).2 = sansCache s := by
  unfold lookup
  dsimp only
  split
  · split <;> rfl
  · rfl

theorem walkFor_sans (s : State) (ctx va : Nat) (who : Who) : sansCache (walkFor s ctx va who).2 = sansCache s := by
  cases who with
  | kept e n =>
    unfold walkFor sansCache; dsimp only
    rw [foldl_sans _ (fun _ _ => readLine_sans ..)]
  | _ =>
    unfold walkFor; dsimp only
    rw [fillCache_sans, lookup_sans, meetWalk_sans]

theorem translate_sans (s : State) (ctx va acc : Nat) (who : Who) : sansCache (translate s ctx va acc who).2 = sansCache s := by
  unfold translate
  split
  · rfl
  · dsimp only
    have h := walkFor_sans s ctx va who
    generalize walkFor s ctx va who = p at h ⊢
    obtain ⟨w, s1⟩ := p
    cases w with
    | bad r l a => exact h
    | poisonAt p => exact h
    | leaf pte lvl =>
      dsimp only
      split
      · exact h
      · exact (reached_sans ..).trans h

theorem translate_ok_sans {s s1 : State} {ctx va acc : Nat} {who : Who} {o : XOut} (h : translate s ctx va acc who = (o, s1)) :
    sansCache s1 = sansCache s := by
  have := translate_sans s ctx va acc who
  rw [h] at this
  exact this

theorem sans_cells {s t : State} (h : sansCache s = sansCache t) : s.mem.cells = t.mem.cells := congrArg (fun x => x.mem.cells) h
theorem sans_en {s t : State} (h : sansCache s = sansCache t) : s.en = t.en := congrArg (fun x => x.en) h
theorem sans_fe {s t : State} (h : sansCache s = sansCache t) : s.fe = t.fe := congrArg (fun x => x.fe) h
theorem sans_hs {s t : State} (h : sansCache s = sansCache t) : s.hs = t.hs := congrArg (fun x => x.hs) h
theorem sans_rx {s t : State} (h : sansCache s = sansCache t) : s.rx = t.rx := congrArg (fun x => x.rx) h
theorem sans_fr {s t : State} (h : sansCache s = sansCache t) : s.fr = t.fr := congrArg (fun x => x.fr) h
theorem sans_bt {s t : State} (h : sansCache s = sansCache t) : s.bt = t.bt := congrArg (fun x => x.bt) h

theorem readChunks_sans (ctx acc : Nat) (who : Who) (cs : List (Nat × Nat)) (s : State) :
    sansCache (readChunks ctx acc who cs s).2 = sansCache s := by
  induction cs generalizing s with
  | nil => rfl
  | cons c cs ih =>
    unfold readChunks
    have h := translate_sans s ctx c.1 acc who
    generalize translate s ctx c.1 acc who = p at h ⊢
    obtain ⟨o, s1⟩ := p
    cases o with
    | ok loc =>
      dsimp only at h ⊢
      split
      · exact h
      · have h2 := ih s1
        generalize readChunks ctx acc who cs s1 = r at h2 ⊢
        obtain ⟨b, s2⟩ := r
        cases b <;> exact h2.trans h
    | bad r l a => exact h
    | poisonAt p => exact h

/-- A read changes, of the bytes of memory and of all other state, nothing. -/
theorem readVa_sans (s : State) (ctx va n acc : Nat) (who : Who) : sansCache (readVa s ctx va n acc who).2 = sansCache s :=
  readChunks_sans ..

/-! ### Core memories -/

theorem partWcs_lt {cnt p : Nat} (h : p < cnt) : ∀ w ∈ partWcs cnt p, w < 16 := by
  unfold partWcs
  split
  all_goals simp [upto]
  all_goals omega

theorem partWcs_getD_lt {cnt p : Nat} (h : p < cnt) (i : Nat) : (partWcs cnt p).getD i 0 < 16 := by
  rw [List.getD_eq_getElem?_getD]
  cases e : (partWcs cnt p)[i]? with
  | none => simp
  | some w => exact partWcs_lt h w (List.mem_of_getElem? e)

/-- Only the core memory window has its home in the core memory window. -/
theorem homeOf_core {cnt pa h : Nat} (e : homeOf cnt pa = some h) (c : isCoreAddr h = true) : pa = h ∧ isCoreMem pa = true := by
  have hc : coreBase ≤ h ∧ h < coreBase + 2048 * 2 ^ 22 := by simpa [isCoreAddr] using c
  unfold homeOf at e
  dsimp only at e
  split at e
  · split at e
    · unfold coreBase at hc; simp at e; omega
    · simp at e
  · split at e
    · split at e
      · rename_i _ _ g
        have k := partWcs_getD_lt g.1 (pa % 2 ^ 40 / 4096 % (partWcs cnt (pa / 2 ^ 40 - 1)).length)
        have d := Nat.div_le_self (pa % 2 ^ 40 / 4096) (partWcs cnt (pa / 2 ^ 40 - 1)).length
        injection e with e
        unfold coreBase at hc
        omega
      · simp at e
    · split at e
      · split at e
        · unfold coreBase at hc; simp [chestBase] at *; omega
        · simp at e
      · split at e
        · split at e
          · simp_all [isCoreMem]
          · simp at e
        · simp at e

/-- A location in a core memory is one that the access may reach. -/
theorem pageOut_core {s : State} {ctx pte lvl va loc : Nat} {who : Who} (e : pageOut s ctx who pte lvl va = .ok loc)
    (h : isHost loc = false) (c : isCoreAddr loc = true) : mayReachCore who loc = true := by
  unfold pageOut at e
  dsimp only at e
  generalize fld pte 12 45 * 4096 + va % (if lvl = 0 then 2 ^ 21 else 2 ^ 30) = pa at e
  by_cases host : fld pte 5 1 = 1
  · rw [if_pos host] at e
    split at e
    · cases e
    · split at e
      · cases e
      · cases e
        simp [isHost] at h
  · rw [if_neg host] at e
    split at e
    · cases e
    · rename_i n
      split at e
      · rename_i x hx
        cases e
        obtain ⟨this, cm⟩ := homeOf_core hx c
        subst this
        simpa [cm] using n
      · cases e

theorem translate_core {s s1 : State} {ctx va acc loc : Nat} {who : Who} (e : translate s ctx va acc who = (.ok loc, s1))
    (h : isHost loc = false) (c : isCoreAddr loc = true) : mayReachCore who loc = true := by
  unfold translate at e
  dsimp only at e
  split at e
  · simp at e
  · split at e
    · simp at e
    · simp at e
    · split at e
      · simp at e
      · exact pageOut_core (Prod.ext_iff.mp e).1 h c

/-- A running program's own accesses never meet a core memory in quarantine. -/
theorem closed_of_run {s s1 : State} {q ctx va acc loc : Nat} (r : canRun s q anyKind = true)
    (e : translate s ctx va acc (whoOf q) = (.ok loc, s1)) : coreClosed s1 loc = false := by
  by_contra n
  have n : coreClosed s1 loc = true := by simpa using n
  unfold coreClosed at n
  simp only [Bool.and_eq_true, Bool.not_eq_true'] at n
  obtain ⟨⟨h, c⟩, quar⟩ := n
  have sans := translate_ok_sans e
  have reach := translate_core e h c
  have up : engUp s (qKind q) (qIndex q) = true := by
    simp only [canRun, Bool.and_eq_true] at r
    tauto
  unfold inQuar at quar
  rw [sans_bt sans, sans_fr sans] at quar
  unfold whoOf at reach
  split at reach
  · rename_i k
    have k2 : qKind q ≤ 1 := k
    simp only [engUp, Bool.and_eq_true, if_pos k2] at up
    have own : coreOfAddr loc = qIndex q := by simpa [mayReachCore] using reach
    have := up.2.1.1.1
    rw [own] at quar
    unfold inQuar at this
    rw [quar] at this
    cases this
  · cases reach

end Sys2Proof.Machine
end

