-- ==== Sys2Proof/WellFormed.lean ====
section
/-! DEFINITION. Which commands are well-formed: every number an operand gives names something that the
spec gives the module (Table 00-4, Table 06-1, R241). -/

namespace Sys2Proof

/-- A queue context's number: its kind is an engine kind, and it lies in the range R241 gives. -/
def qcOk (q : BitVec 20) : Bool := decide (q.toNat / 131072 < 5)

/-- A QID: KIND values 5 and 6 are reserved (R241). -/
def qidOk (q : BitVec 20) : Bool := q.toNat / 131072 != 5 && q.toNat / 131072 != 6

/-- The source names a queue by a QID that is not reserved. -/
def srcOk : Src → Bool
  | .queue q => qidOk q
  | .admin _ => true

/-- A reset domain names resources of the module. -/
def domOk : Domain → Bool
  | .context c => decide (c < 256)
  | .engine k i => decide (k < 5) && decide (i < 2048)
  | .core c => decide (c < 2048)
  | .partition p => decide (p < 8)
  | .chip => true
  | .wcIsland w => decide (w < 16)

/-- Every operand of the command is in its range. -/
def Instr.wf : Instr → Bool
  | .coldPowerOn _ _ => true
  | .powerDown _ => true
  | .vinOutOfRange _ _ => true
  | .vinMarginal _ => true
  | .vinReversed _ _ => true
  | .auxLost => true
  | .auxMarginal _ => true
  | .railFault _ => true
  | .phaseFail bw phase => decide (bw < 2) && decide (phase < 42)
  | .currentLimitClamp _ => true
  | .powerLoop _ _ => true
  | .thermalLoop _ _ => true
  | .thermTrip wc _ => decide (wc < 16)
  | .thermTripClear wc _ => decide (wc < 16)
  | .leakWet => true
  | .leakOpen => true
  | .inletOpen => true
  | .coolantHot _ => true
  | .sbI3cFault => true
  | .sbSmbFault => true
  | .clkFallback die => decide (die < 64)
  | .refclkLost _ _ _ => true
  | .perstAssert _ => true
  | .perstRelease _ _ => true
  | .functionLevelReset _ => true
  | .function1Promotion _ => true
  | .hostLink0Down => true
  | .hdmRead _ => true
  | .hdmWrite _ bytes => decide (bytes.length ≤ 64)
  | .power => true
  | .rom => true
  | .licence => true
  | .fabric => true
  | .memory _ => true
  | .links => true
  | .compute _ => true
  | .topology => true
  | .stageTimeout => true
  | .manifestExtract bytes => decide (bytes.length = 320)
  | .collLineSet _ _ => true
  | .routeExcWrite _ _ => true
  | .sbLicenceInstall bytes => decide (bytes.length = 256)
  | .setEndpointId _ => true
  | .getEndpointId => true
  | .getEndpointUuid => true
  | .getMctpVersionSupport => true
  | .getMessageTypeSupport => true
  | .getVendorDefinedMessageSupport => true
  | .gettid => true
  | .settid _ => true
  | .getpldmversion _ => true
  | .getpldmtypes => true
  | .getpldmcommands _ => true
  | .getpdr _ => true
  | .getsensorreading _ => true
  | .getstatesensorreadings _ => true
  | .seteventreceiver _ => true
  | .querydeviceidentifiers => true
  | .getfirmwareparameters => true
  | .requestupdate => true
  | .passcomponenttable _ => true
  | .updatecomponent _ _ => true
  | .activatefirmware => true
  | .getstatus => true
  | .cancelupdatecomponent => true
  | .cancelupdate => true
  | .getVersion => true
  | .getCapabilities => true
  | .negotiateAlgorithms _ => true
  | .getDigests => true
  | .getCertificate _ _ _ => true
  | .challenge _ _ => true
  | .getMeasurements _ _ => true
  | .keyExchange _ => true
  | .finish _ => true
  | .keyUpdate _ => true
  | .endSession _ => true
  | .unsupportedMessage _ _ => true
  | .hostHeartbeat _ => true
  | .heartbeatTimeout _ => true
  | .orphanGraceExpiry _ => true
  | .quiesceComplete _ => true
  | .negHostFeatures _ _ => true
  | .adminCfgWrite _ _ => true
  | .partFrontModeWrite _ _ => true
  | .hdmCfgWrite _ _ _ _ => true
  | .registerWrite _ _ _ _ => true
  | .rcRegisterRead _ _ _ => true
  | .licenceInstall _ => true
  | .repairAuth _ _ => true
  | .fuseEntryBlown tile => decide (tile < 32)
  | .fwWrite _ => true
  | .fwCheck _ => true
  | .idCert _ => true
  | .watchdogFire proc _ _ => decide (proc < 66)
  | .procRestart proc => decide (proc < 66)
  | .procTakeover proc => decide (proc < 66)
  | .producerIndexWatch _ _ => true
  | .producerIndexPoll _ => true
  | .commandWaitRelease qid => qidOk qid
  | .nop src => srcOk src
  | .insn qid => qidOk qid
  | .prog qid _ => qidOk qid
  | .ifCmd qid => qidOk qid
  | .loopCmd qid => qidOk qid
  | .callCmd qid => qidOk qid
  | .retCmd qid => qidOk qid
  | .launch qid => qidOk qid
  | .patchgraph qid => qidOk qid
  | .ctxCreate _ => true
  | .ctxDestroy _ => true
  | .ctxReset _ => true
  | .ctxResume _ => true
  | .qCreate _ => true
  | .qDestroy _ => true
  | .qRestart _ => true
  | .sinkSet _ => true
  | .xlatInval _ => true
  | .graphStore _ => true
  | .graphFree _ => true
  | .commandCompletion src _ => srcOk src
  | .contextSwitch kind index _ => decide (kind < 5) && decide (index < 2048)
  | .add q _ _ _ => qcOk q
  | .sub q _ _ _ => qcOk q
  | .mul q _ _ _ => qcOk q
  | .mulh q _ _ _ => qcOk q
  | .mulhu q _ _ _ => qcOk q
  | .div q _ _ _ => qcOk q
  | .divu q _ _ _ => qcOk q
  | .rem q _ _ _ => qcOk q
  | .remu q _ _ _ => qcOk q
  | .andInsn q _ _ _ => qcOk q
  | .orInsn q _ _ _ => qcOk q
  | .xorInsn q _ _ _ => qcOk q
  | .shl q _ _ _ => qcOk q
  | .shr q _ _ _ => qcOk q
  | .sar q _ _ _ => qcOk q
  | .min q _ _ _ => qcOk q
  | .max q _ _ _ => qcOk q
  | .minu q _ _ _ => qcOk q
  | .maxu q _ _ _ => qcOk q
  | .slt q _ _ _ => qcOk q
  | .sltu q _ _ _ => qcOk q
  | .seq q _ _ _ => qcOk q
  | .clz q _ _ => qcOk q
  | .ctz q _ _ => qcOk q
  | .popc q _ _ => qcOk q
  | .sel q _ _ _ _ => qcOk q
  | .addi q _ _ _ _ => qcOk q
  | .andi q _ _ _ _ => qcOk q
  | .ori q _ _ _ _ => qcOk q
  | .xori q _ _ _ _ => qcOk q
  | .shli q _ _ _ _ => qcOk q
  | .shri q _ _ _ _ => qcOk q
  | .sari q _ _ _ _ => qcOk q
  | .slti q _ _ _ _ => qcOk q
  | .sltui q _ _ _ _ => qcOk q
  | .li q _ _ _ => qcOk q
  | .beq q _ _ _ => qcOk q
  | .bne q _ _ _ => qcOk q
  | .blt q _ _ _ => qcOk q
  | .bge q _ _ _ => qcOk q
  | .bltu q _ _ _ => qcOk q
  | .bgeu q _ _ _ => qcOk q
  | .jal q _ _ => qcOk q
  | .jalr q _ _ _ => qcOk q
  | .ld8 q _ _ _ => qcOk q
  | .ld16 q _ _ _ => qcOk q
  | .ld32 q _ _ _ => qcOk q
  | .ld64 q _ _ _ => qcOk q
  | .ld8u q _ _ _ => qcOk q
  | .ld16u q _ _ _ => qcOk q
  | .ld32u q _ _ _ => qcOk q
  | .st8 q _ _ _ => qcOk q
  | .st16 q _ _ _ => qcOk q
  | .st32 q _ _ _ => qcOk q
  | .st64 q _ _ _ => qcOk q
  | .tallyAdd q _ _ _ => qcOk q
  | .tallyWait q _ _ _ => qcOk q
  | .tallyWait2 q _ _ _ _ _ => qcOk q
  | .tallySet q _ _ => qcOk q
  | .tallyWaitRelease q => qcOk q
  | .nopInstruction q => qcOk q
  | .endInsn q => qcOk q
  | .rdfeat q _ _ => qcOk q
  | .rdcyc q _ => qcOk q
  | .rdid q _ => qcOk q
  | .ifence q => qcOk q
  | .rdseq q _ => qcOk q
  | .vadd q _ _ _ _ _ _ => qcOk q
  | .vsub q _ _ _ _ _ _ => qcOk q
  | .vmul q _ _ _ _ _ _ => qcOk q
  | .vdiv q _ _ _ _ _ _ => qcOk q
  | .vsqrt q _ _ _ _ _ => qcOk q
  | .vfma q _ _ _ _ _ _ _ => qcOk q
  | .vfms q _ _ _ _ _ _ _ => qcOk q
  | .vfnma q _ _ _ _ _ _ _ => qcOk q
  | .vmin q _ _ _ _ _ => qcOk q
  | .vmax q _ _ _ _ _ => qcOk q
  | .vabs q _ _ _ _ => qcOk q
  | .vneg q _ _ _ _ => qcOk q
  | .vrem q _ _ _ _ _ => qcOk q
  | .vrint q _ _ _ _ _ => qcOk q
  | .vcmp q _ _ _ _ _ _ => qcOk q
  | .vclass q _ _ _ _ => qcOk q
  | .viadd q _ _ _ _ _ => qcOk q
  | .visub q _ _ _ _ _ => qcOk q
  | .vimul q _ _ _ _ _ => qcOk q
  | .viand q _ _ _ _ _ => qcOk q
  | .vior q _ _ _ _ _ => qcOk q
  | .vixor q _ _ _ _ _ => qcOk q
  | .vishl q _ _ _ _ _ => qcOk q
  | .vishr q _ _ _ _ _ => qcOk q
  | .visar q _ _ _ _ _ => qcOk q
  | .vimin q _ _ _ _ _ => qcOk q
  | .vimax q _ _ _ _ _ => qcOk q
  | .viminu q _ _ _ _ _ => qcOk q
  | .vimaxu q _ _ _ _ _ => qcOk q
  | .viseq q _ _ _ _ _ => qcOk q
  | .vcvtf q _ _ _ _ _ _ => qcOk q
  | .vcvtfi q _ _ _ _ _ => qcOk q
  | .vcvtif q _ _ _ _ _ => qcOk q
  | .vcvte q _ _ _ _ _ => qcOk q
  | .vdece q _ _ _ _ _ => qcOk q
  | .vcvtbm q _ _ _ _ => qcOk q
  | .vdecbm q _ _ _ _ => qcOk q
  | .vld q _ _ _ => qcOk q
  | .vst q _ _ _ _ => qcOk q
  | .pld q _ _ _ => qcOk q
  | .pst q _ _ _ => qcOk q
  | .vmov q _ _ _ _ => qcOk q
  | .vsplat q _ _ _ _ => qcOk q
  | .vext q _ _ _ _ _ => qcOk q
  | .vins q _ _ _ _ _ => qcOk q
  | .vperm q _ _ _ _ _ => qcOk q
  | .vrsum q _ _ _ _ _ => qcOk q
  | .vrmax q _ _ _ _ => qcOk q
  | .pand q _ _ _ => qcOk q
  | .por q _ _ _ => qcOk q
  | .pxor q _ _ _ => qcOk q
  | .pnot q _ _ => qcOk q
  | .pmovg q _ _ => qcOk q
  | .pmovp q _ _ => qcOk q
  | .rdvfcsr q _ => qcOk q
  | .wrvfcsr q _ => qcOk q
  | .clrvff q _ => qcOk q
  | .vact q _ _ _ _ _ _ _ => qcOk q
  | .vder q _ _ _ _ _ _ _ _ => qcOk q
  | .vderi q _ _ _ _ _ _ _ => qcOk q
  | .vtMap q _ _ _ _ => qcOk q
  | .vtReduce q _ _ _ => qcOk q
  | .dmCopy q _ _ _ => qcOk q
  | .dmCvt q _ _ _ => qcOk q
  | .dmTranspose q _ _ _ => qcOk q
  | .dmGather q _ _ _ => qcOk q
  | .dmScatteradd q _ _ _ => qcOk q
  | .dmFill q _ _ => qcOk q
  | .axLoadw q _ _ _ => qcOk q
  | .loadwStart p _ => decide (p < 8)
  | .loadwRetire p => decide (p < 8)
  | .axPass q _ _ _ _ _ _ => qcOk q
  | .passFront p _ => decide (p < 8)
  | .passRetire p => decide (p < 8)
  | .axDrain q _ _ _ => qcOk q
  | .drainRetire p => decide (p < 8)
  | .axMask q _ _ => qcOk q
  | .axFence q => qcOk q
  | .rxRs q _ => qcOk q
  | .rxAg q _ => qcOk q
  | .rxAr q _ => qcOk q
  | .rxPerm q _ => qcOk q
  | .contributionDeadline wc slot chunk _ => decide (wc < 16) && decide (slot < 64) && decide (chunk < 128)
  | .pieceHeader n => decide (n < 12)
  | .rxDataPacket n => decide (n < 12)
  | .permuteAck n => decide (n < 12)
  | .unmatchedPacketTimeout n => decide (n < 12)
  | .collectiveComplete wc slot => decide (wc < 16) && decide (slot < 64)
  | .uxBegin q _ _ => qcOk q
  | .uxChunk q _ _ _ _ _ => qcOk q
  | .uxEnd q _ => qcOk q
  | .detect n _ _ _ => decide (n < 12)
  | .eqFull n => decide (n < 12)
  | .eqSeed n _ => decide (n < 12)
  | .align n _ => decide (n < 12)
  | .linkInit n => decide (n < 12)
  | .discover n _ => decide (n < 12)
  | .portStateTimeout n => decide (n < 12)
  | .retrain n _ => decide (n < 12)
  | .discoveryRecord n _ => decide (n < 12)
  | .flitReceive n _ => decide (n < 12)
  | .flitTransmit n => decide (n < 12)
  | .replayRequest n _ => decide (n < 12)
  | .replayRequestResend n => decide (n < 12)
  | .laneDegrade n lane _ => decide (n < 12) && decide (lane < 18)
  | .swapReq n lane _ => decide (n < 12) && decide (lane < 18)
  | .spareTrained n _ => decide (n < 12)
  | .laneSwitch n => decide (n < 12)
  | .deadLane n lane => decide (n < 12) && decide (lane < 18)
  | .deadLaneResume n => decide (n < 12)
  | .peerDown n _ => decide (n < 12)
  | .patrolScrub _ wc _ _ => decide (wc < 16)
  | .softRepair stack pch _ => decide (stack < 16) && decide (pch < 32)
  | .pchSwapStart stack pch => decide (stack < 16) && decide (pch < 32)
  | .pchSwapCopyStep stack _ _ => decide (stack < 16)
  | .pchSwapEnd stack => decide (stack < 16)
  | .engineHang kind index => decide (kind < 5) && decide (index < 2048)
  | .engineError kind index _ _ => decide (kind < 5) && decide (index < 2048)
  | .arrayError cd _ _ _ => decide (cd < 32)
  | .fabricError link _ kind island => decide (link < 38) && decide (kind < 5) && decide (island < 2726)
  | .contextReset _ _ => true
  | .engineReset _ => true
  | .windchestEngineIslandReset w => decide (w < 16)
  | .partitionReset _ => true
  | .partitionRelease _ => true
  | .chipReset _ => true
  | .powerCycleRequest _ => true
  | .resetComplete dom _ => domOk dom
  | .resetTimeout dom => domOk dom
  | .edgeAbsorb _ => true
  | .spareSubstitution core _ => decide (core < 2048)
  | .epochStamp _ _ _ => true
  | .waitDeadlock _ => true
  | .ledgerAuditPeriod => true
  | .audit _ => true
  | .auditComplete _ => true
  | .sample _ _ _ => true
  | .traceDrain wc units => decide (wc < 16) && decide (units.length ≤ 512)
  | .counters kind index => decide (kind < 5) && decide (index < 2048)
  | .marker => true
  | .stop _ => true
  | .stopMarker island => decide (island < 2726)
  | .resume _ => true
  | .stopLimitExpiry => true
  | .dump _ _ => true
  | .dumpEnd => true
  | .loopback _ _ _ => true
  | .loopbackEnd _ _ => true
  | .hostLinkTrained _ _ => true
  | .powerDownComplete => true
  | .dumpWaitExpiry => true
  | .thermAlertClear _ => true
  | .lifeHours => true

end Sys2Proof
end

