-- ==== Sys2Proof/Tests/Slice0.lean ====
section
/-! SUPPORT. Tests: ill-formed commands are refused, small steps give what the spec says, and every statement's hypotheses
are met by a state. -/

open Sys2Proof Sys2Proof.Machine

namespace Sys2Proof.Tests

set_option Elab.async false

/-! ### Small states -/

/-- Tables that map virtual addresses below 1 GiB of context 1 to the same addresses of HBM: its context entry, three tables
with one entry each, and a 1 GiB leaf that allows every access (Tables 05-6 and 05-7). -/
def tables : NMap Byte :=
  [(0x1010, 0x01), (0x1011, 0x20), (0x2000, 0x01), (0x2001, 0x30), (0x3000, 0x01), (0x3001, 0x40), (0x4000, 0x1F)]

/-- A module that is powered and Ready, of grade 1, with both processors at work and both links up. -/
def up : State :=
  { State.reset with
    pw := { State.reset.pw with powered := true, pwrGood := true, modReset := false }
    bt := { State.reset.bt with stage := 8, ready := true, computeDone := true, personalityOk := true, grade := 1 }
    fe := { State.reset.fe with xlatBase := 0x1000#64, ctxs := [(1, { state := 1 })] }
    mem := { State.reset.mem with cells := tables } }

/-- Puts a command of queue `q` in progress at its queue context, in context 1, on its engine. -/
def running (q : Nat) (prog : Bool) (f : QCtx → QCtx) (s : State) : State :=
  setEng (engKey (qKind q) (qIndex q)) { running := some q }
    (setQc q (f { live := true, ctx := 1, cmd := some (q, 0, prog), started := true })
      (setQ q { live := true, ctx := 1, state := 2, inflight := [{ entry := { cmd := 0, seq := 0, addr := 0 }, target := q, id := 0 }], dispatched := 1 } s))

/-- A program on VX of core 0 with g1 = 7 and g2 = 64. -/
def prog : State := running 0 true (fun c => { c with pc := 0x8000#64, g := [(1, 7#64), (2, 64#64)] }) up

theorem test_can_run : canRun prog 0 anyKind = true := by decide +kernel

/-! ### Ill-formed commands are refused -/

theorem test_wf_refuses_1 : ∀ c ∈ ([
    .commandWaitRelease 0xA0000, .nop (.queue 0xA0000), .insn 0xA0000, .prog 0xA0000 0, .ifCmd 0xA0000, .loopCmd 0xA0000, .callCmd 0xA0000,
    .retCmd 0xA0000, .launch 0xA0000, .patchgraph 0xA0000, .commandCompletion (.queue 0xA0000) 0, .add 0xA0000 0 0 0, .sub 0xA0000 0 0 0,
    .mul 0xA0000 0 0 0, .mulh 0xA0000 0 0 0, .mulhu 0xA0000 0 0 0, .div 0xA0000 0 0 0, .divu 0xA0000 0 0 0, .rem 0xA0000 0 0 0, .remu 0xA0000 0 0 0,
    .andInsn 0xA0000 0 0 0, .orInsn 0xA0000 0 0 0, .xorInsn 0xA0000 0 0 0, .shl 0xA0000 0 0 0, .shr 0xA0000 0 0 0, .sar 0xA0000 0 0 0,
    .min 0xA0000 0 0 0, .max 0xA0000 0 0 0, .minu 0xA0000 0 0 0, .maxu 0xA0000 0 0 0, .slt 0xA0000 0 0 0, .sltu 0xA0000 0 0 0, .seq 0xA0000 0 0 0,
    .clz 0xA0000 0 0, .ctz 0xA0000 0 0, .popc 0xA0000 0 0, .sel 0xA0000 0 0 0 0, .addi 0xA0000 0 0 0 false, .andi 0xA0000 0 0 0 false,
    .ori 0xA0000 0 0 0 false] : List Instr), c.wf = false := by decide

theorem test_wf_refuses_2 : ∀ c ∈ ([
    .xori 0xA0000 0 0 0 false, .shli 0xA0000 0 0 0 false, .shri 0xA0000 0 0 0 false, .sari 0xA0000 0 0 0 false, .slti 0xA0000 0 0 0 false,
    .sltui 0xA0000 0 0 0 false, .li 0xA0000 0 0 false, .beq 0xA0000 0 0 0, .bne 0xA0000 0 0 0, .blt 0xA0000 0 0 0, .bge 0xA0000 0 0 0,
    .bltu 0xA0000 0 0 0, .bgeu 0xA0000 0 0 0, .jal 0xA0000 0 0, .jalr 0xA0000 0 0 0, .ld8 0xA0000 0 0 0, .ld16 0xA0000 0 0 0, .ld32 0xA0000 0 0 0,
    .ld64 0xA0000 0 0 0, .ld8u 0xA0000 0 0 0, .ld16u 0xA0000 0 0 0, .ld32u 0xA0000 0 0 0, .st8 0xA0000 0 0 0, .st16 0xA0000 0 0 0,
    .st32 0xA0000 0 0 0, .st64 0xA0000 0 0 0, .tallyAdd 0xA0000 0 0 0, .tallyWait 0xA0000 0 0 0, .tallyWait2 0xA0000 0 0 0 0 0,
    .tallySet 0xA0000 0 0, .tallyWaitRelease 0xA0000, .nopInstruction 0xA0000, .endInsn 0xA0000, .rdfeat 0xA0000 0 0, .rdcyc 0xA0000 0,
    .rdid 0xA0000 0, .ifence 0xA0000, .rdseq 0xA0000 0, .vadd 0xA0000 0 0 0 0 0 0, .vsub 0xA0000 0 0 0 0 0 0] : List Instr), c.wf = false := by decide

theorem test_wf_refuses_3 : ∀ c ∈ ([
    .vmul 0xA0000 0 0 0 0 0 0, .vdiv 0xA0000 0 0 0 0 0 0, .vsqrt 0xA0000 0 0 0 0 0, .vfma 0xA0000 0 0 0 0 0 0 0, .vfms 0xA0000 0 0 0 0 0 0 0,
    .vfnma 0xA0000 0 0 0 0 0 0 0, .vmin 0xA0000 0 0 0 0 0, .vmax 0xA0000 0 0 0 0 0, .vabs 0xA0000 0 0 0 0, .vneg 0xA0000 0 0 0 0,
    .vrem 0xA0000 0 0 0 0 0, .vrint 0xA0000 0 0 0 0 0, .vcmp 0xA0000 0 0 0 0 0 0, .vclass 0xA0000 0 0 0 0, .viadd 0xA0000 0 0 0 0 0,
    .visub 0xA0000 0 0 0 0 0, .vimul 0xA0000 0 0 0 0 0, .viand 0xA0000 0 0 0 0 0, .vior 0xA0000 0 0 0 0 0, .vixor 0xA0000 0 0 0 0 0,
    .vishl 0xA0000 0 0 0 0 0, .vishr 0xA0000 0 0 0 0 0, .visar 0xA0000 0 0 0 0 0, .vimin 0xA0000 0 0 0 0 0, .vimax 0xA0000 0 0 0 0 0,
    .viminu 0xA0000 0 0 0 0 0, .vimaxu 0xA0000 0 0 0 0 0, .viseq 0xA0000 0 0 0 0 0, .vcvtf 0xA0000 0 0 0 0 0 0, .vcvtfi 0xA0000 0 0 0 0 0,
    .vcvtif 0xA0000 0 0 0 0 0, .vcvte 0xA0000 0 0 0 0 0, .vdece 0xA0000 0 0 0 0 0, .vcvtbm 0xA0000 0 0 0 0, .vdecbm 0xA0000 0 0 0 0,
    .vld 0xA0000 0 0 0, .vst 0xA0000 0 0 0 0, .pld 0xA0000 0 0 0, .pst 0xA0000 0 0 0, .vmov 0xA0000 0 0 0 0] : List Instr), c.wf = false := by decide

theorem test_wf_refuses_4 : ∀ c ∈ ([
    .vsplat 0xA0000 0 0 0 0, .vext 0xA0000 0 0 0 0 0, .vins 0xA0000 0 0 0 0 0, .vperm 0xA0000 0 0 0 0 0, .vrsum 0xA0000 0 0 0 0 0,
    .vrmax 0xA0000 0 0 0 0, .pand 0xA0000 0 0 0, .por 0xA0000 0 0 0, .pxor 0xA0000 0 0 0, .pnot 0xA0000 0 0, .pmovg 0xA0000 0 0, .pmovp 0xA0000 0 0,
    .rdvfcsr 0xA0000 0, .wrvfcsr 0xA0000 0, .clrvff 0xA0000 0, .vact 0xA0000 0 0 0 0 0 0 0, .vder 0xA0000 0 0 0 0 0 0 0 0,
    .vderi 0xA0000 0 0 0 0 0 0 0, .vtMap 0xA0000 0 0 0 {}, .vtReduce 0xA0000 0 0 {}, .dmCopy 0xA0000 0 0 {}, .dmCvt 0xA0000 0 0 {},
    .dmTranspose 0xA0000 0 0 {}, .dmGather 0xA0000 0 0 {}, .dmScatteradd 0xA0000 0 0 {}, .dmFill 0xA0000 0 {}, .axLoadw 0xA0000 0 false {},
    .axPass 0xA0000 0 0 0 false false {}, .axDrain 0xA0000 0 0 {}, .axMask 0xA0000 0 false, .axFence 0xA0000, .rxRs 0xA0000 0, .rxAg 0xA0000 0,
    .rxAr 0xA0000 0, .rxPerm 0xA0000 0, .uxBegin 0xA0000 0 0, .uxChunk 0xA0000 0 0 0 0 0, .uxEnd 0xA0000 0] : List Instr), c.wf = false := by decide

theorem test_wf_refuses_5 : ∀ c ∈ ([
    .phaseFail 2 0, .phaseFail 0 42, .thermTrip 16 0, .thermTripClear 16 [], .clkFallback 64, .hdmWrite 0 (List.replicate 65 0),
    .manifestExtract [], .sbLicenceInstall [], .fuseEntryBlown 32, .watchdogFire 66 false [], .procRestart 66, .procTakeover 66,
    .contextSwitch 5 0 0, .contextSwitch 0 2048 0, .loadwStart 8 0, .loadwRetire 8, .passFront 8 0, .passRetire 8, .drainRetire 8,
    .contributionDeadline 16 0 0 0, .contributionDeadline 0 64 0 0, .contributionDeadline 0 0 128 0, .pieceHeader 12, .rxDataPacket 12,
    .permuteAck 12, .unmatchedPacketTimeout 12, .collectiveComplete 16 0, .collectiveComplete 0 64, .detect 12 0 0 false, .eqFull 12,
    .eqSeed 12 false, .align 12 ⟨0, 0, 0, 0, false⟩, .linkInit 12, .discover 12 ⟨0, 0, 0, 0, none⟩, .portStateTimeout 12, .retrain 12 0,
    .discoveryRecord 12 ⟨0, 0, 0, 0, none⟩, .flitReceive 12 ⟨0, [], 0, false, [], 0, 0⟩, .flitTransmit 12, .replayRequest 12 0] : List Instr), c.wf = false := by decide

theorem test_wf_refuses_6 : ∀ c ∈ ([
    .replayRequestResend 12, .laneDegrade 12 0 0, .laneDegrade 0 18 0, .swapReq 12 0 0, .swapReq 0 18 0, .spareTrained 12 0, .laneSwitch 12,
    .deadLane 12 0, .deadLane 0 18, .deadLaneResume 12, .peerDown 12 0, .patrolScrub false 16 0 ⟨0, 0, false⟩, .softRepair 16 0 0,
    .softRepair 0 32 0, .pchSwapStart 16 0, .pchSwapStart 0 32, .pchSwapCopyStep 16 0 false, .pchSwapEnd 16, .engineHang 5 0, .engineHang 0 2048,
    .engineError 5 0 none 0, .engineError 0 2048 none 0, .arrayError 32 0 0 none, .fabricError 38 0 0 0, .fabricError 0 0 5 0,
    .fabricError 0 0 0 2726, .windchestEngineIslandReset 16, .resetComplete (.context 256) {}, .resetComplete (.engine 5 0) {},
    .resetComplete (.engine 0 2048) {}, .resetComplete (.core 2048) {}, .resetComplete (.partition 8) {}, .resetComplete (.wcIsland 16) {},
    .resetTimeout (.context 256), .resetTimeout (.engine 5 0), .resetTimeout (.engine 0 2048), .resetTimeout (.core 2048),
    .resetTimeout (.partition 8), .resetTimeout (.wcIsland 16), .spareSubstitution 2048 []] : List Instr), c.wf = false := by decide

theorem test_wf_refuses_7 : ∀ c ∈ ([
    .traceDrain 16 [], .counters 5 0, .counters 0 2048, .stopMarker 2726] : List Instr), c.wf = false := by decide

theorem test_wf_refuses_long_trace_drain (us : List Nat) (h : us.length = 513) : (Instr.traceDrain 0 us).wf = false := by
  show (decide (0 < 16) && decide (us.length ≤ 512)) = false
  rw [h]; rfl

/-! ### Witnesses: the queue, scalar instructions, memory and tallies -/

/-- An access is translated, and its location and the state left meet `P`. -/
def okAt (s : State) (va acc : Nat) (who : Who) (P : Nat → State → Bool) : Bool :=
  match translate s 1 va acc who with
  | (.ok loc, s1) => P loc s1
  | _ => false

/-- A read of `n` bytes succeeds, and its bytes and the state left meet `P`. -/
def readAt (s : State) (va n : Nat) (P : List Byte → State → Bool) : Bool :=
  match readVa s 1 va n accRead .other with
  | (.ok bs, s1) => P bs s1
  | _ => false

theorem witness_step : ({ up with pending := [.power] } : State).pending = .power :: [] ∧ up.pending = [] := by decide +kernel

theorem witness_configuration_legal : configLegal State.reset = true ∧ configLegal up = true
    ∧ ∃ t, step { State.reset with pending := [.coldPowerOn 48000 3300] } = .next t := ⟨by decide +kernel, by decide +kernel, _, rfl⟩

theorem witness_scalar : canRun prog 0 anyKind = true ∧ rdG (getQc prog 0) 1 = 7 ∧ rdG (getQc prog 0) 2 = 64
    ∧ (getQc prog 0).cmd = some (0, 0, true) ∧ (getQ prog 0).inflight.all (fun f => f.id == 0 && f.result == none) = true
    ∧ isProg (getQc prog 0) = true ∧ unretired prog 0 = false := by decide +kernel

/-- An instruction command in place of a program. -/
theorem witness_instruction_command : let s := running 0 false id up
    canRun s 0 anyKind = true ∧ isProg (getQc s 0) = false ∧ (getQc s 0).cmd = some (0, 0, false) := by decide +kernel

/-- A quotient by 0, the overflowing quotient, and one of neither kind. -/
theorem witness_division_corners :
    let s := running 0 true (fun c => { c with g := [(1, BitVec.intMin 64), (2, BitVec.allOnes 64), (3, 7)] }) up
    canRun s 0 anyKind = true ∧ rdG (getQc s 0) 0 = 0 ∧ rdG (getQc s 0) 1 = BitVec.intMin 64 ∧ rdG (getQc s 0) 2 = BitVec.allOnes 64
    ∧ rdG (getQc s 0) 3 ≠ 0 ∧ rdG (getQc s 0) 3 ≠ BitVec.allOnes 64 := by decide +kernel

theorem witness_jump_targets : (rdG (getQc prog 0) 2 + 8 * (1 : W32).signExtend 64).toNat % 8 = 0
    ∧ (rdG (getQc prog 0) 1 + 8 * (1 : W32).signExtend 64).toNat % 8 ≠ 0 := by decide +kernel

/-- An aligned load and store at address 64, and misaligned ones at 7. -/
theorem witness_scalar_accesses : canRun prog 0 anyKind = true
    ∧ okAt prog 64 accRead (whoOf 0) (fun loc s1 => loc == 64 && !locPoison s1 loc && !axRaces prog 0 loc 8 false && !axRaces prog 0 loc 8 true) = true
    ∧ okAt prog 64 accWrite (whoOf 0) (fun loc s1 => loc == 64 && !coreClosed s1 loc) = true
    ∧ (rdG (getQc prog 0) 2 + (0 : W32).signExtend 64).toNat = 64 ∧ (rdG (getQc prog 0) 1 + (0 : W32).signExtend 64).toNat = 7 := by decide +kernel

/-- A tally at 64 that holds 0: a threshold of 0 is met, one of 7 is not; a second tally at 128. -/
theorem witness_tallies :
    let s := running 0 true (fun c => { c with g := [(1, 7), (2, 64), (3, 128)] }) up
    canRun s 0 anyKind = true ∧ unretired s 0 = false
    ∧ okAt s 64 accTally (whoOf 0) (fun l1 s1 => !coreClosed s1 l1 && !locPoison s1 l1 && locNat s l1 8 == 0
        && okAt s1 128 accTally (whoOf 0) (fun l2 s2 => !locPoison s2 l2 && locNat s l2 8 == 0)) = true
    ∧ (rdG (getQc s 0) 0).toNat ≤ 0 ∧ 0 < (rdG (getQc s 0) 1).toNat := by decide +kernel

def releasedWaiter : Waiter := { key := 0, isQueue := false, ctx := 1, host := false, addr := 64, va := 64, thresh := 1, released := some (true, false, 1), rd := 4 }

/-- A blocked program whose wait has been released, of one tally and of two. -/
theorem witness_released_wait : ∀ w ∈ [releasedWaiter, { releasedWaiter with second := some (false, 128, 128, 1) }],
    let s := running 0 true (fun c => { c with blocked := true }) { up with fe := { up.fe with waiters := [w] } }
    s.fe.waiters.find? (fun x => !x.isQueue && x.key == 0 && x.released.isSome) = some w ∧ w.released = some (true, false, 1)
    ∧ (getQc s 0).blocked = true ∧ (getQc s 0).cmd.isSome = true ∧ engUp s (qKind 0) (qIndex 0) = true := by decide +kernel

/-! ### Witnesses: vector and tensor instructions -/

/-- A program with g1 to g4 that hold a legal VFCSR, a reserved one, flags and an address. -/
def vprog : State := running 0 true (fun c => { c with pc := 0x8000, g := [(1, 4), (2, 7), (3, 0x3E0), (4, 128)] }) up

theorem witness_vector : canRun vprog 0 anyKind = true ∧ qKind 0 = kVX ∧ wBits 1 = 32 ∧ (1 : BitVec 2) ≠ 3 ∧ (4 : BitVec 3) ≠ 5 ∧ (7 : BitVec 3) ≠ 6
    ∧ isLong 0 = true ∧ isElemFloat 3 = true ∧ isBM 8 = true ∧ derCode 6 = true := by decide +kernel

theorem witness_vector_memory : canRun vprog 0 anyKind = true
    ∧ okAt vprog 128 accRead (whoOf 0) (fun loc s1 => loc == 128 && poisonIn (readLoc (loc + 64) s1) loc 128 == none && poisonIn s1 loc 8 == none) = true
    ∧ okAt vprog 128 accWrite (whoOf 0) (fun loc s1 => loc == 128 && !coreClosed s1 loc) = true
    ∧ (rdG (getQc vprog 0) 4 + (0 : W32).signExtend 64).toNat = 128 := by decide +kernel

/-- No element is active under p1. -/
theorem witness_no_active_element : (∀ i, i < 64 → active (getQc vprog 0) 1 i = false) ∧ (rdG (getQc vprog 0) 1).toNat < lanes (wBits 1)
    ∧ active (getQc vprog 0) 1 (rdG (getQc vprog 0) 1).toNat = false := by
  refine ⟨?_, by decide +kernel, by decide +kernel⟩
  intro i hi
  have h : ∀ j : Fin 64, active (getQc vprog 0) 1 j.val = false := by decide +kernel
  exact h ⟨i, hi⟩

/-- Element 0 and the last element are active under p0. -/
theorem witness_vector_elements : active (getQc vprog 0) 0 0 = true ∧ active (getQc vprog 0) 0 (lanes 32 - 1) = true ∧ (rdG (getQc vprog 0) 0).toNat = 0 := by
  decide +kernel

theorem witness_vfcsr_values : vfcsrOk (rdG (getQc vprog 0) 1) = true ∧ vfcsrOk (rdG (getQc vprog 0) 2) = false
    ∧ rdG (getQc vprog 0) 3 &&& ~~~ (0x3E0 : W64) = 0 := by decide +kernel

/-- A descriptor of a LINEAR tensor of format `fmt` with rows of `n` elements, `m` of them, `row` bytes apart, at `at_`. -/
def linearTd (fmt n m row at_ : Nat) : Nat :=
  1 + 2 * fmt + 64 + 2 ^ 64 * at_ + 2 ^ 192 * n + 2 ^ 224 * m + 2 ^ 256 * 1 + 2 ^ 288 * 1 + 2 ^ 320 * row

/-- A descriptor of an INT32 row of `n` elements at `at_`. -/
def rowTd (n at_ : Nat) : Nat := 1 + 2 * 0x10 + 2 ^ 64 * at_ + 2 ^ 192 * n + 2 ^ 224 + 2 ^ 256 + 2 ^ 288

/-- A module with descriptors of partition 0, whose table starts at 0x8000: 1 and 2 binary16 rows of 2, 3 its transpose's shape,
4 a row of 2 of format 3, 5 an INT32 index of 2, 6 with an undefined format. -/
def tds : State :=
  { up with
    fe := { up.fe with descBase := [(0, 0x8000)] }
    mem := { up.mem with cells := [
    (0x1010, 0x1), (0x1011, 0x20), (0x2000, 0x1), (0x2001, 0x30), (0x3000, 0x1), (0x3001, 0x40), (0x4000, 0x1f), (0x8040, 0x41), (0x804a, 0x1),
    (0x8058, 0x2), (0x805c, 0x1), (0x8060, 0x1), (0x8064, 0x1), (0x8068, 0x40), (0x8080, 0x41), (0x8089, 0x1), (0x808a, 0x1), (0x8098, 0x2),
    (0x809c, 0x1), (0x80a0, 0x1), (0x80a4, 0x1), (0x80a8, 0x40), (0x80c0, 0x41), (0x80c9, 0x2), (0x80ca, 0x1), (0x80d8, 0x1), (0x80dc, 0x2),
    (0x80e0, 0x1), (0x80e4, 0x1), (0x80e8, 0x40), (0x8100, 0x47), (0x8109, 0x3), (0x810a, 0x1), (0x8118, 0x2), (0x811c, 0x1), (0x8120, 0x1),
    (0x8124, 0x1), (0x8128, 0x40), (0x8140, 0x21), (0x8149, 0x4), (0x814a, 0x1), (0x8158, 0x2), (0x815c, 0x1), (0x8160, 0x1), (0x8164, 0x1),
    (0x8180, 0x7f), (0x8189, 0x5), (0x818a, 0x1), (0x8198, 0x2), (0x819c, 0x1), (0x81a0, 0x1), (0x81a4, 0x1), (0x81a8, 0x40)] } }

def dmQ : Nat := qcKey 1 0 0
def dmProg : State := running dmQ true id tds
def vtProg : State := running 0 true id tds
def idxOn : TExt := { idxen := true, idxh := 5 }

theorem witness_descriptors : readTd dmProg 0 1 = .ok (linearTd 0 2 1 64 0x10000) ∧ readTd dmProg 0 2 = .ok (linearTd 0 2 1 64 0x10100)
    ∧ readTd dmProg 0 3 = .ok (linearTd 0 1 2 64 0x10200) ∧ readTd dmProg 0 4 = .ok (linearTd 3 2 1 64 0x10300)
    ∧ readTd dmProg 0 5 = .ok (rowTd 2 0x10400) ∧ readTd dmProg 0 6 = .ok (linearTd 0x1F 2 1 64 0x10500)
    ∧ engPart dmProg kDM (qIndex dmQ) = 0 ∧ canRun dmProg dmQ anyKind = true ∧ qKind dmQ = kDM := by decide +kernel

theorem witness_descriptor_checks : tdOk true (linearTd 0 2 1 64 0x10000) = true ∧ tdOk false (linearTd 0 2 1 64 0x10100) = true
    ∧ tdOk false (linearTd 0 1 2 64 0x10200) = true ∧ tdOk false (linearTd 3 2 1 64 0x10300) = true
    ∧ tdOk false (rowTd 2 0x10400) = true ∧ tdOk true (linearTd 0x1F 2 1 64 0x10500) = false
    ∧ tdDims (linearTd 0 2 1 64 0x10000) = tdDims (linearTd 0 2 1 64 0x10100) ∧ idxOk (rowTd 2 0x10400) 2 = true := by decide +kernel

/-- Descriptors are read, and they and the state left meet `P`. -/
def tdsAt (s : State) (hs : List Nat) (P : List Nat → State → Bool) : Bool :=
  match readTds 0 hs s with
  | some (ds, u) => P ds u
  | none => false

/-- A DM instruction of this minor number has started. -/
def dmOn (minor : Nat) : State := startLong dmQ (0x10 * 2 ^ 58 + minor * 2 ^ 52) dmProg

/-- The accesses of a copy, a conversion, transpositions of the same and of another format, and a fill all succeed. -/
theorem witness_dm_moves :
    let d1 := linearTd 0 2 1 64 0x10000
    let d2 := linearTd 0 2 1 64 0x10100
    let d3 := linearTd 0 1 2 64 0x10200
    let c := fun (u : State) (b : Bool) => dmAcc u dmQ b
    let seq := longSeq dmProg dmQ
    firstBad (dmChecks {} false false false) = none ∧ firstBad (dmChecks {} true false false) = none ∧ firstBad (dmChecks {} true false true) = none
    ∧ tdsAt (dmOn 0) [1, 2] (fun ds u => ds == [d1, d2] && (moveAll (c u false) (tcOf u) d1 d2 some { s := u }).errs.isEmpty) = true
    ∧ tdsAt (dmOn 1) [1, 4] (fun ds u => ds == [d1, linearTd 3 2 1 64 0x10300]
        && (convertAll (c u true) (tcOf u) d1 (linearTd 3 2 1 64 0x10300) (dmRnd u dmQ seq {}) id { s := u }).errs.isEmpty) = true
    ∧ tdsAt (dmOn 2) [1, 3] (fun ds u => ds == [d1, d3] && (moveAll (c u false) (tcOf u) d1 d3 (fun ix => some (swap01 ix)) { s := u }).errs.isEmpty) = true
    ∧ tdsAt (dmOn 5) [1] (fun ds u => ds == [d1]
        && (wrAll (c u false) (tcOf u) d1 (dmRnd u dmQ seq {}) (fun _ b => (some (val32 0, false), b)) { s := u }).errs.isEmpty) = true
    ∧ tdRank d1 = 2 ∧ tdRank d3 = 2 ∧ isFloating 0 = true ∧ cvtSource 3 = true ∧ tdTiled d1 = false := by decide +kernel

/-- A gather and a scatter along dimension 0 with the index of descriptor 5. -/
theorem witness_dm_indexed :
    let d1 := linearTd 0 2 1 64 0x10000
    let d2 := linearTd 0 2 1 64 0x10100
    let dx := rowTd 2 0x10400
    let c := fun (u : State) => dmAcc u dmQ false
    let sel := fun (u : State) => rdIndex { c u with who := whoOf dmQ } (tcOf u) dx 2 { s := u }
    firstBad (dmChecks idxOn false true false) = none ∧ dimsBut d2 d1 0 = true ∧ tdTiled d1 = false ∧ tdTiled d2 = false ∧ tdBM d1 = false
    ∧ isLong (tdFmt d1) = true ∧ isFloating (tdFmt d2) = true ∧ idxOk dx (tdDim d1 0) = true
    ∧ tdsAt (dmOn 3) [1, 2, 5] (fun ds u => ds == [d1, d2, dx] && (moveAll (c u) (tcOf u) d1 d2 (gatherAt 0 (sel u).1) (sel u).2).errs.isEmpty) = true
    ∧ tdsAt (dmOn 4) [1, 2, 5] (fun ds u => ds == [d1, d2, dx]
        && (scatterOne (c u) (tcOf u) d1 (0, 0, 0, 0) posZero false (rdVal (c u) (tcOf u) d2 (0, 0, 0, 0) (sel u).2).2).errs.isEmpty) = true := by
  decide +kernel

/-- A mapping of one source without an index, and a reduction over dimension 1 into as many elements. -/
theorem witness_vector_tensors :
    let d1 := linearTd 0 2 1 64 0x10000
    let d2 := linearTd 0 2 1 64 0x10100
    let v := fun (minor : Nat) => startLong 0 (0x0E * 2 ^ 58 + minor * 2 ^ 52) vtProg
    let r := fun (u : State) => vtRnd u 0 (longSeq vtProg 0) {}
    let x : TExt := { opx := 0x10 }
    canRun vtProg 0 anyKind = true ∧ vtFmt d1 = true ∧ vtFmt d2 = true ∧ blockSource d1 d2 = true
    ∧ firstBad (mapChecks 0 {}) = none ∧ bfld ({} : TExt).opx 0 4 = 0 ∧ firstBad (mapChecks 3 { opx := 1 }) = none
    ∧ firstBad (mapChecks 0 idxOn) = none ∧ firstBad (reduceChecks x) = none ∧ bfld x.opx 4 2 = 1
    ∧ tdDim d1 1 = 1 ∧ (∀ k, k < 4 → k ≠ 1 → tdDim d2 k = tdDim d1 k)
    ∧ tdsAt (v 0) [1, 2] (fun ds u => ds == [d1, d2]
        && (wrAll (vtAcc u 0) (tcOf u) d1 (r u) (mapElem (vtAcc u 0) (tcOf u) d1 d2 none (computeIn [d1, d2]) .rne {} none) { s := u }).errs.isEmpty) = true
    ∧ tdsAt (v 0) [1, 2, 5] (fun ds _ => ds == [d1, d2, rowTd 2 0x10400]) = true ∧ tdsAt (v 0) [1, 2, 3] (fun ds _ => ds.length == 3) = true
    ∧ tdsAt (v 1) [1, 2] (fun ds _ => ds == [d1, d2]) = true := by decide +kernel

/-- Invalid first descriptors: one that fails its checks and one whose table is not backed. -/
theorem witness_invalid_descriptors :
    let s := { dmProg with fe := { dmProg.fe with descBase := [(0, 0xBA0000000)] } }
    readTd (meetTd dmProg 0 6) 0 6 = .ok (linearTd 0x1F 2 1 64 0x10500) ∧ tdOk true (linearTd 0x1F 2 1 64 0x10500) = false
    ∧ canRun s dmQ anyKind = true ∧ readTd (meetTd s 0 1) 0 1 = .invalid := by decide +kernel


/-! ### Witnesses: power, hosts, bring-up, messages and processors -/

theorem witness_power_states : State.reset.pw.modReset = true ∧ State.reset.pw.goingDown = false ∧ up.pw.powered = true ∧ up.pw.pwrGood = true
    ∧ procUp up 52 = true ∧ procUp up 53 = true ∧ (getProc up 53).state ≠ 1 ∧ up.ob.stopState = 0 := by decide +kernel

/-- The edges of the cap, each step of the power loop, and a bellows processor that is down beside one that is not. -/
theorem witness_power_boundaries : effectiveCap up 48000 < 10 * 4201 ∧ 10 * 4200 ≤ effectiveCap up 48000 ∧ mget 0 up.pw.arrayDrop 1 < 2475
    ∧ mget 0 up.pw.coreDrop 1 = 0
    ∧ (let low := { up with pw := { up.pw with arrayDrop := [(1, 2475)] } }
       effectiveCap low 48000 < 10 * 4201 ∧ 2475 ≤ mget 0 low.pw.arrayDrop 1 ∧ mget 0 low.pw.coreDrop 1 < 2475)
    ∧ (let low := { up with pw := { up.pw with arrayDrop := [(1, 2475)], coreDrop := [(1, 25)] } }
       10 * 4200 ≤ effectiveCap low 48000 ∧ 0 < mget 0 low.pw.coreDrop 1)
    ∧ (let one := { up with fw := { up.fw with procs := [(52, { state := 1 })] } }
       (procUp one 52 || procUp one 53) = true ∧ procUp one 52 = false)
    ∧ bfld up.pw.thermCfg 0 16 < 951 ∧ tripped up 15 = false ∧ wcBw 15 < 2 := by decide +kernel

/-- A power-down under way with a release held and one without, a converged loop, a trip, and a bellows with two spares in use. -/
theorem witness_power_conditions :
    let down := { up with pw := { up.pw with goingDown := true, releaseHeld := true, vin := 40000, aux := 3465 } }
    let hot := { up with pw := { up.pw with converged := true, wcTrip := [(15, true)], failedCount := [(1, 2)] } }
    down.pw.goingDown = true ∧ down.pw.releaseHeld = true ∧ (40000 : Int) ≤ down.pw.vin ∧ down.pw.aux ≤ 3465
    ∧ ({ down with pw := { down.pw with releaseHeld := false } } : State).pw.goingDown = true
    ∧ hot.pw.converged = true ∧ tripped hot 15 = true ∧ tripped hot 14 = false ∧ wcLimit hot 14 ≤ (wcCeiling hot 0).1
    ∧ mget false hot.pw.failedPhase 83 = false ∧ 2 ≤ mget 0 hot.pw.failedCount 1 ∧ procUp hot (52 + wcBw 14) = true := by decide +kernel

/-- Function 0's link and function 1's are up, and both hosts agreed every feature. -/
def hosts : State :=
  let f : Fn := { linkUp := true, trainedEver := true, perst := false, negAgreed := 0x70301, adminCfg := 0x80000000000001AD }
  { up with hs := { up.hs with f0 := f, f1 := f, l1Act := true, hdmSize := 1, hdmBase := 1024, hdmLocked := true } }

theorem witness_host_links : (getFn hosts false).linkUp = true ∧ (getFn hosts true).linkUp = true ∧ mget false hosts.pw.fallback 63 = false
    ∧ hosts.bt.stage ≠ 10 ∧ fld (gradeHostLinks hosts.bt.grade) 1 1 = 1 ∧ (getFn hosts true).perst = false ∧ hosts.bt.grade ≠ 0 ∧ hosts.ob.stopState = 0
    ∧ portRuns { hosts with et := { hosts.et with ports := [(0, { state := 7 })] } } (48 - 48) = true
    ∧ standbyReady up = true ∧ up.hs.f0.linkUp = false ∧ (getFn hosts false).attach = 0 ∧ (getFn hosts false).trainedEver = true := by decide +kernel

/-- A line of the window, a write across a granule's end, and the window with BAD set. -/
theorem witness_host_window : hdmTarget hosts 0x40 1 = some 0x10000000040 ∧ hosts.hs.hdmBad = false
    ∧ homeOf (partCount hosts) (0x10000000040 / 64 * 64) = some 64
    ∧ hdmTarget hosts 0x40 64 = some 0x10000000040 ∧ 0x10000000040 % 64 + 64 ≤ 64 ∧ homeOf (partCount hosts) 0x10000000040 = some 64
    ∧ hdmTarget hosts 0xFFF 2 = some 0x10000000FFF ∧ homeOf (partCount hosts) 0x10000001000 = some (2 ^ 36) ∧ coreClosed hosts 64 = false
    ∧ hdmTarget { hosts with hs := { hosts.hs with hdmBad := true } } 0x40 1 = some 0x10000000040 := by decide +kernel

theorem witness_host_states :
    let s := fun (a : Nat) (b : Bool) => { hosts with hs := { hosts.hs with f0 := { hosts.hs.f0 with attach := a, quiescing := b } } }
    (getFn (s 1 false) false).attach = 1 ∧ (getFn (s 2 true) false).attach = 2 ∧ (getFn (s 2 true) false).quiescing = true ∧ (s 2 true).pw.powered = true := by decide +kernel

theorem witness_management : droneUp hosts = true ∧ agreed hosts false 16 = true ∧ agreed hosts true 18 = true ∧ hosts.hs.hdmLocked = true
    ∧ accessOk 0x81010 8 = true ∧ pageServed hosts true 0x81010 = true ∧ bfld (0x0301 : W64) 0 8 = 1 ∧ bfld (0x0102 : W64) 0 8 ≠ 1
    ∧ (getFn up false).negAgreed = 0 ∧ (getFn hosts false).negAgreed ≠ 0 ∧ (0x80000000000001AD : W64).getLsbD 63 = true
    ∧ 6 ≤ bfld (0x80000000000001AD : W64) 0 5 ∧ bfld (0x80000000000001AD : W64) 5 5 ≤ 13
    ∧ droneUp { hosts with bt := { hosts.bt with stage := 10 } } = false ∧ hubServed 0x80028 = false := by decide +kernel

/-- A licence of SERIAL 2 for the shipped module, signed like the shipped one (by the private key 3 of P-256). -/
def goodLicence : List Byte :=
  mapBytes shippedLicence 0 56 ++ leBytes 8 2 ++ mapBytes shippedLicence 64 128
  ++ leBytes 32 0x100effdbc0e5a386048b0931a3a3bc9949d3875670819d1bf7c43440fa16ea8f
  ++ leBytes 32 0xc6805cecb933ba35a2b63e45a4d439c8a322f14dd70b182caede79f018ebae5b

/-- An extract of generation 1 for the shipped module alone, signed with the private key 4. -/
def goodExtract : List Byte :=
  leBytes 160 (0x51585433 + 2 ^ 32 + 2 ^ 128 + 2 ^ 192 * 0x2924fb715b5155a9)
  ++ leBytes 32 0xe2534a3532d08fbba02dde659ee62bd0031fe2db785596ef509302446b030852
  ++ leBytes 32 0xe0f1575a4c633cc719dfee5fda862d764efc96c3f30ee0055c42c23f184ed8c6
  ++ leBytes 32 0
  ++ leBytes 32 0x268cb9d002ccc7dfff07357a81127b217ac6b940efab604b1f52ec21a9d32572
  ++ leBytes 32 0x34e73f4afc9c117b0de7028e49484c583ccc20d0b482cbd05af952fea2073944

theorem extract_signed : recordSigned (goodExtract.take 256) ((goodExtract.drop 160).take 64) ((goodExtract.drop 256).take 64) = true := by decide +kernel

theorem bank_signed : recordSigned (mapBytes shippedBank 0 192) (mapBytes shippedBank 64 64) (mapBytes shippedBank 192 64) = true := by decide +kernel

/-- The module with the shipped licence in force. -/
def licensed : State := { up with bt := { up.bt with licInForce := shippedLicence } }

/-- The first example of FIPS 180: the digest of the bytes of abc. -/
theorem test_sha256_of_abc : sha256 [0x61, 0x62, 0x63] = 0xBA7816BF8F01CFEA414140DE5DAE2223B00361A396177A9CB410FF61F20015AD := by decide +kernel

theorem witness_good_licence : licenceCode up (putBytes 0 goodLicence []) = 0 ∧ mapField up.fl.licence 56 8 < mapField (putBytes 0 goodLicence []) 56 8 := by
  decide +kernel

/-- A licence whose revision byte is wrong, and no licence at all. -/
theorem witness_bad_licence : licenceCode up (putBytes 4 [2] shippedLicence) = 2 ∧ ({ up with fl := { up.fl with licHeld := false } } : State).fl.licHeld = false := by
  decide +kernel

/-- A bank that is accepted, and one whose reserved bytes are not 0. -/
theorem witness_banks : bankOk up true = true ∧ bankOk { up with fl := { up.fl with bankA := putBytes 9 [1] shippedBank } } false = false := by
  refine ⟨?_, by decide +kernel⟩
  unfold bankOk
  rw [show bankOf up true = shippedBank from rfl]
  simp only [bank_signed]
  decide +kernel

/-- Each stage of bring-up, with what its end asks for. -/
theorem witness_stages :
    let s := fun (n : Nat) => { up with bt := { up.bt with stage := n, ready := false } }
    (s 0).pw.powered = true ∧ ({ s 0 with pw := { up.pw with pwrGood := false } } : State).pw.pwrGood = false ∧ (s 7).bt.computeDone = true
    ∧ droneUp (s 7) = true ∧ (∀ x ∈ (s 6).fr.resets, x.dom ≠ .chip) ∧ (s 6).bt.stage ≤ 6 ∧ (s 4).bt.grade ≠ 0
    ∧ ({ s 4 with bt := { (s 4).bt with grade := 0 } } : State).bt.grade = 0
    ∧ ({ s 7 with bt := { (s 7).bt with held := some (parseExtract []) } } : State).bt.held = some (parseExtract [])
    ∧ (∀ n, n < 12 → portEnabled (s 5) n = true ∧ axisOff (s 5) n = false ∧ (getPort (s 5) n).state ≠ 7 ∧ (getPort (s 5) n).state ≠ 9)
    ∧ (let ended := { s 5 with et := { up.et with ports := (upto 12).map (fun n => (n, { state := if n = 11 then 9 else 7 })) } }
       ∀ n, n < 12 → (getPort ended n).state = 7 ∨ (getPort ended n).state = 9)
    ∧ (let off := { s 5 with et := { up.et with coordValid := true } }
       ∀ n, n < 12 → axisOff off n = true) := by decide +kernel

/-- A tile with a whole set of 16 unused columns, the last one among them, and one with a block out of use. -/
theorem witness_repaired_tiles :
    let r : TileRep := { cols := (upto 15).map (fun i => (i, true)) ++ [(1039, true)], blk := some 0 }
    r.cols.length ≤ 16 ∧ r.blk = some 0 := by decide +kernel

theorem witness_extract : extractReason licensed goodExtract = 0 := by
  unfold extractReason
  simp only [extract_signed]
  decide +kernel

theorem witness_extract_conditions : sidebandUp licensed = true ∧ licensed.bt.held = none
    ∧ licensed.bt.computeDone = true ∧ licensed.bt.stage ≠ 9
    ∧ ({ licensed with bt := { licensed.bt with stage := 9 } } : State).bt.stage = 9
    ∧ mget 0 licensed.rx.line 3 ≠ (0x80007F7F : W32) &&& 0x80007F7F#32 := by decide +kernel

/-- An extract that is in force is sent again, and one of another module. -/
theorem witness_extract_refused :
    let s := { licensed with fl := { licensed.fl with manifestGen := 1 }, bt := { licensed.bt with inForce := some (parseExtract goodExtract) } }
    extractReason s goodExtract = 4 ∧ s.bt.inForce = some (parseExtract goodExtract)
    ∧ extractReason { licensed with bt := { licensed.bt with grade := 0 } } goodExtract = 6 := by
  refine ⟨?_, rfl, by decide +kernel⟩
  unfold extractReason
  simp only [extract_signed]
  decide +kernel

theorem witness_messages : numericSensor up 33 = some 0 ∧ stateSensor up 67 = some 0 ∧ up.fw.pldm = 0 ∧ bfld (7 : W32) 0 3 = 7
    ∧ protoUp up 2 = true ∧ doeUp hosts = true ∧ protoUp up 5 = true ∧ protoUp State.reset 5 = false
    ∧ sidebandUp State.reset = false ∧ updateUp State.reset = false ∧ doeUp State.reset = false
    ∧ (let s := { up with bt := { up.bt with stage := 10 } }
       sidebandUp s = false ∧ s.pw.i3cDead = false ∧ updateUp s = true) := by decide +kernel

/-- A mailbox command of function 0 runs. -/
def mailbox (cmd len : Nat) (bs : List Byte) : State :=
  { hosts with
    hs := { hosts.hs with mbxState := 1, mbxCtrl := BitVec.ofNat 64 (cmd + 2 ^ 8 * len), mbxData := putBytes 0 bs [] }
    fr := { hosts.fr with heldParts := [(0, true)] }
    bt := { hosts.bt with tiles := [(0, { cols := [(1039, true)] })] } }

theorem witness_mailbox : mbxRuns (mailbox 1 256 []) false 1 = true ∧ mbxLen (mailbox 1 256 []) = 256 ∧ mbxLen (mailbox 1 255 []) ≠ 256
    ∧ mbxRuns (mailbox 1 255 []) false 1 = true
    ∧ mbxRuns (mailbox 2 0 []) false 2 = true ∧ repairReason (mailbox 2 0 []) ⟨moduleId up, 0, false, [1039], {}⟩ = 0
    ∧ repairReason (mailbox 2 0 []) ⟨2, 0, false, [1039], {}⟩ = 1 ∧ (mailbox 2 0 []).hs.blowing = none
    ∧ (mailbox 2 0 []).hs.blowMbx = false ∧ (mailbox 2 0 []).hs.blowNext = none
    ∧ mbxRuns (mailbox 3 16 [1]) false 3 = true ∧ leNat (mbxBytes (mailbox 3 16 [1]) 0 1) = 1 ∧ (mailbox 3 16 [1]).bt.bank = false
    ∧ ({ mailbox 3 16 [1] with bt := { up.bt with bank := true } } : State).bt.bank = true
    ∧ mbxRuns (mailbox 4 1 [1]) false 4 = true ∧ mbxRuns (mailbox 5 8 [2]) false 5 = true
    ∧ leNat (mbxBytes (mailbox 5 8 [2]) 0 8) < 3 := by decide +kernel

/-- The licence that the mailbox holds passes its checks. -/
theorem witness_mailbox_licence : putBytes 0 (mbxBytes (mailbox 1 256 goodLicence) 0 256) [] = putBytes 0 goodLicence [] := by decide +kernel

/-- Entries being blown: one column of two, the last one, a block, and entries that a restart left begun. -/
theorem witness_blowing :
    let s := fun (b : Option (Nat × Bool × List Nat)) (mbx : Bool) =>
      { mailbox 2 0 [] with hs := { (mailbox 2 0 []).hs with blowing := b, blowMbx := mbx }, bt := { up.bt with tiles := [(0, { blk := some 16 })] } }
    (s (some (0, false, [1039, 7])) true).hs.blowing = some (0, false, [1039, 7]) ∧ procUp (s none true) (tileChest 0) = true
    ∧ (s (some (0, true, [])) true).hs.blowing = some (0, true, []) ∧ (mget {} (s none true).bt.tiles 0).blk = some 16
    ∧ mget false (s none true).fr.heldParts (cdPart (partCount (s none true)) 0) = true ∧ mget false up.fr.heldParts 0 = false
    ∧ (s (some (0, false, [1039])) false).hs.blowMbx = false := by decide +kernel

theorem witness_processors :
    let s := fun (p : Nat) => { up with fw := { up.fw with procs := [(p, { state := 1, fires := 3 })] } }
    procLoaded up 65 = true ∧ (getProc up 65).state ≠ 1 ∧ (getProc up 65).state ≠ 3 ∧ frozenIsl up (procIsland 65) = false
    ∧ (getProc (s 4) 4).state = 1 ∧ isDrone (s 4) 4 = false ∧ chanterProc (s 4) ≠ 4
    ∧ (getProc (s 36) 36).state = 1 ∧ 3 ≤ (getProc (s 36) 36).fires
    ∧ (let t := { up with fw := { up.fw with procs := [(1, { state := 1, fires := 3 }), (3, { state := 2 })] } }
       procLoaded t 1 = true ∧ (getProc t 1).state = 1 ∧ (getProc t 3).state = 2) := by decide +kernel

/-! ### Witnesses: the front end and control commands -/

/-- A command of opcode `op`, with flag bits and ARG0 to ARG2. -/
def cmdOf (op flags a0 a1 a2 : Nat) : W512 := BitVec.ofNat 512 (op + flags + 2 ^ 256 * a0 + 2 ^ 320 * a1 + 2 ^ 384 * a2)
def entry (op flags a0 a1 a2 : Nat) : Entry := { cmd := cmdOf op flags a0 a1 a2, seq := 5, addr := 0x9000 }

/-- Queue `q` of context 1 is ready to carry out that command. -/
def heads (q op flags a0 a1 a2 : Nat) (f : Queue → Queue) : State :=
  setQ q (f { live := true, ctx := 1, state := 2, ring := 0xA000, cq := 0xB000, cur := some (entry op flags a0 a1 a2) }) up
def tq : Nat := qcKey 7 0 0
def someFrame : Frame := { left := 1, kind := 2, id := 3 }

/-- A direct queue whose queue context is live and idle holds a command. -/
def engineHead (op flags a0 a1 a2 : Nat) : State := setQc 0 { live := true, ctx := 1 } (heads 0 op flags a0 a1 a2 id)

theorem witness_at_rest : atRest (engineHead 1 0 0 0 0) 0 ∧ headCmd (engineHead 1 0 0 0 0) 0 0x01 = some (entry 1 0 0 0 0) ∧ qKind 0 ≠ 7 := by
  unfold atRest; decide +kernel

theorem witness_front_end_commands :
    headCmd (heads tq 0x01 0 0 0 0 id) tq 0x01 = some (entry 0x01 0 0 0 0)
    ∧ headCmd (heads tq 0x10 0 64 0 0x9000 id) tq 0x10 = some (entry 0x10 0 64 0 0x9000)
    ∧ readAt (heads tq 0x10 0 64 0 0x9000 id) 64 8 (fun bs _ => ifHolds 0 (leNat bs) 0 && !ifHolds 1 (leNat bs) 0) = true
    ∧ headCmd (heads tq 0x11 0 0 64 0 id) tq 0x11 = some (entry 0x11 0 0 64 0)
    ∧ headCmd (heads tq 0x11 0 2 64 0 id) tq 0x11 = some (entry 0x11 0 2 64 0)
    ∧ okAt (heads tq 0x11 0 2 64 0 id) 64 accWrite .other (fun loc _ => loc % 8 == 0 && !coreClosed (heads tq 0x11 0 2 64 0 id) loc) = true
    ∧ headCmd (heads tq 0x12 0 0 0 0x9000 (fun v => { v with frames := List.replicate 7 someFrame })) tq 0x12 = some (entry 0x12 0 0 0 0x9000)
    ∧ headCmd (heads tq 0x13 0 0 0 0 (fun v => { v with frames := [someFrame] })) tq 0x13 = some (entry 0x13 0 0 0 0)
    ∧ someFrame.kind ≠ 3 ∧ someFrame.left ≤ 1 := by decide +kernel

/-- A queue with two commands fetched, the first a LAUNCH of graph 3, and nothing taken. -/
theorem witness_next_command :
    let s := setQ tq { live := true, ctx := 1, state := 1, entries := [entry 0x14 0 3 0 0, entry 1 0 0 0 0] } up
    (getQ s tq).cur = none ∧ (getQ s tq).chainFrom = none ∧ (getQ s tq).back = [] ∧ (getQ s tq).frames = [] ∧ (getQ s tq).launch = none
    ∧ (getQ s tq).entries = entry 0x14 0 3 0 0 :: [entry 1 0 0 0 0] ∧ cmdOp (entry 0x14 0 3 0 0).cmd = 0x14 := by decide +kernel

/-- A stored graph 3 of context 1: its version 1 has 64 commands in page 0 of a pool of 512. -/
def stored3 (s : State) : State :=
  setGraph 3 { stored := true, owner := 1, versions := [(1, [0])], lengths := [(1, 64)], current := some 1, nextVersion := 2 }
    { s with fe := { s.fe with graphSize := 1, graphBase := 0x20000 } }

theorem witness_graphs :
    let g := stored3 (heads tq 0x14 0 3 0 0 id)
    let p := stored3 (heads tq 0x15 0 (3 + 2 ^ 16) 0x6000 0x7000 id)
    let b := heads tq 0x14 0 3 0 0 (fun v => { v with cur := some { entry 0x14 0 3 0 0 with bound := some (1, 1) } })
    headCmd g tq 0x14 = some (entry 0x14 0 3 0 0) ∧ (entry 0x14 0 3 0 0).bound = none
    ∧ headCmd b tq 0x14 = some { entry 0x14 0 3 0 0 with bound := some (1, (getQ b tq).ctx) }
    ∧ (getGraph p 3).current = some 1 ∧ (getGraph p 3).owner = (getQ p tq).ctx ∧ (getGraph p 3).versions.length < 4 ∧ headCmd p tq 0x15 = some (entry 0x15 0 (3 + 2 ^ 16) 0x6000 0x7000)
    ∧ freeVersions p = p ∧ readAt p 0x6000 4 (fun ib s1 => (indices 1 ib).all (· < 64) && readAt s1 0x7000 64 (fun _ s2 => allocPages s2 1 == some [1])) = true
    ∧ 2 ∉ mkeys (getGraph p 3).versions
    ∧ headCmd (heads tq 0x12 0 0 0 0x9000 (fun v => { v with frames := List.replicate 8 someFrame })) tq 0x12 = some (entry 0x12 0 0 0 0x9000) := by
  decide +kernel

theorem witness_admin_nop :
    let f : Fn := { (getFn hosts false) with adminBusy := some { entry := entry 1 0 0 0 0 } }
    let s := { hosts with hs := { hosts.hs with f0 := f } }
    adminOn s false = true ∧ (getFn s false).adminBusy = some { entry := entry 1 0 0 0 0 } ∧ cmdOp (entry 1 0 0 0 0).cmd = 1 := by decide +kernel

/-- INSN and PROG on a direct queue, and on a tiered one that names queue context 5 of VX 3. -/
theorem witness_engine_commands :
    let tgt := 2 ^ 11 * 3 + 2 ^ 22 * 5
    startsAt (engineHead 2 0 0 0 0) 0 0 (entry 2 0 0 0 0) ∧ headCmd (engineHead 2 0 0 0 0) 0 0x02 = some (entry 2 0 0 0 0)
    ∧ startsAt (engineHead 3 0 0x8000 9 0) 0 0 (entry 3 0 0x8000 9 0) ∧ headCmd (engineHead 3 0 0x8000 9 0) 0 0x03 = some (entry 3 0 0x8000 9 0)
    ∧ startsAt (heads tq 3 tgt 0x8000 9 0 id) tq (qcKey 0 3 5) (entry 3 tgt 0x8000 9 0)
    ∧ headCmd (heads tq 3 tgt 0x8000 9 0 id) tq 0x03 = some (entry 3 tgt 0x8000 9 0) ∧ cmdInd (entry 3 tgt 0x8000 9 0).cmd = false := by
  unfold startsAt atRest; decide +kernel

/-- A read that gives these bytes is a witness of what holds of them. -/
theorem read_given {s : State} {c va n : Nat} {bs : List Byte} {P : List Byte → State → Prop} (h : (readVa s c va n accRead .other).1 = .ok bs)
    (hp : P bs (readVa s c va n accRead .other).2) : ∃ bs s1, readVa s c va n accRead .other = (.ok bs, s1) ∧ P bs s1 :=
  ⟨bs, _, Prod.ext h rfl, hp⟩

/-- An indirect PROG: its ARG2 names an address at which the program counter 0 and g1 stand. -/
theorem witness_indirect_program :
    let s := engineHead 3 (2 ^ 32) 0 0 0x6000
    let e := entry 3 (2 ^ 32) 0 0 0x6000
    cmdInd e.cmd = true ∧ targetFenced s 0 = false ∧ targetOf 0 e = 0 ∧ targetAbsent s 0 e = false ∧ targetBad s 0 e = false ∧ dispatchWaits s 0 0 = false
    ∧ headCmd s 0 0x03 = some e
    ∧ ∃ bs s1, readVa s (getQ s 0).ctx (cmdArg e.cmd 2) 16 accRead .other = (.ok bs, s1) ∧ leNat (bs.take 8) % 8 = 0 ∧ startsAt s1 0 0 e := by
  refine ⟨by decide +kernel, by decide +kernel, by decide +kernel, by decide +kernel, by decide +kernel, by decide +kernel, by decide +kernel, ?_⟩
  exact read_given (bs := List.replicate 16 0) (by decide +kernel) ⟨by decide +kernel, by unfold startsAt atRest; decide +kernel⟩

/-- A context that is ready on an engine that runs none, and on one whose time slice is over; on AX nothing waits for acceptance. -/
theorem witness_switches :
    let s := setQc 5 { live := true, ctx := 1, cmd := some (5, 0, true) } up
    let r := setQc 5 { live := true, ctx := 1, cmd := some (5, 0, true) } prog
    let next := fun (w : State) (last : Nat) =>
      nextReady last (qcsWhere w (fun x _ => qKind x == 0 && qIndex x == 0 && (getEng w (engKey 0 0)).running != some x && readyCtx w x))
    (getEng s (engKey 0 0)).running = none ∧ staysWith s (engKey 0 0) = none ∧ next s (getEng s (engKey 0 0)).last = some 5
    ∧ (getEng r (engKey 0 0)).running = some 0 ∧ (getQc r 0).chunk = none ∧ next r (qCtxNo 0) = some 5 ∧ engUp s 0 0 = true ∧ engUp r 0 0 = true
    ∧ engUp up 2 0 = true ∧ (getPart up 0).fence = none ∧ (getPart up 0).next = none ∧ (getQc s 5).cmd ≠ none := by decide +kernel

/-- A queue with a producer index in device memory, polled, and one whose index lies in host memory, watched. -/
def polled : State := setQ 0 { live := true, ctx := 1, state := 1, polled := true, piAddr := 64, ring := 0xA000 } up
def watched : State :=
  setQ 0 { live := true, ctx := 1, state := 1, piAddr := 0x40000040, ring := 0xA000 }
    { hosts with mem := { hosts.mem with cells :=
        [(0x1010, 0x03), (0x1011, 0x20), (0x2000, 0x01), (0x2001, 0x30), (0x3000, 0x01), (0x3001, 0x40), (0x4000, 0x1F), (0x4008, 0x3F)] } }

theorem witness_fetch :
    queuesWhere (applyDelta {} polled) (fun _ x => x.polled) = [0] ∧ mayFetch (applyDelta {} polled) 0 = true
    ∧ (getQ polled 0).destroying = false ∧ (getQ polled 0).state ≠ qStopped ∧ (getQ polled 0).state ≠ qHalted ∧ ringAt (getQ polled 0) = 0xA000
    ∧ readAt (applyDelta {} polled) 64 8 (fun _ _ => true) = true ∧ readAt polled 0xA000 64 (fun _ _ => true) = true
    ∧ queuesWhere (applyDelta {} watched) (fun k x => !x.polled && (getFn (applyDelta {} watched) x.owner).linkUp && indexInLine (applyDelta {} watched) k 64) = [0]
    ∧ (∀ x ∈ [false, true], (getFn (fetchQ 0 (applyDelta {} watched)) x).adminPi.toNat / 64 ≠ (64 : W64).toNat / 64) := by decide +kernel

/-- A released command wait, a completed command, and a failed one on a queue whose sink is bad. -/
theorem witness_completions :
    let w : Waiter := { key := tq, isQueue := true, ctx := 1, host := false, addr := 64, va := 64, thresh := 1, released := some (true, false, 1) }
    let r := setQ tq { live := true, ctx := 1, state := 3 } { up with fe := { up.fe with waiters := [w] } }
    let f : InFlight := { entry := entry 1 (2 ^ 28) 0 0 0, result := some 0 }
    let d := setQ tq { live := true, ctx := 1, state := 2, cq := 0xB000, inflight := [f] } up
    let g : InFlight := { entry := entry 1 0 0 0 0, result := some 0x20 }
    let b := setQ tq { live := true, ctx := 1, state := 2, sinkBad := true, inflight := [g] } up
    waitReleased r tq = true ∧ (getQ r tq).state = qWaiting ∧ (getQ d tq).inflight.find? (fun x => x.result.isSome && x.entry.seq == 5) = some f
    ∧ cmdCw f.entry.cmd = true ∧ cmdIrq f.entry.cmd = false ∧ cmdSig f.entry.cmd = false ∧ cmdChainEn f.entry.cmd = false
    ∧ (getQ d tq).sinkBad = false ∧ f.inGraph = false ∧ (getQ d tq).cq.toNat % 8 = 0 ∧ (getQ d tq).cqLog2 = 6
    ∧ okAt (modQ tq (fun w => { w with inflight := w.inflight.filter (fun y => y.id != f.id) }) d) (0xB000 + 8 * (5 % 64)) accWrite .other (fun loc _ => loc % 8 == 0 && !coreClosed d loc) = true
    ∧ (getQ b tq).inflight.find? (fun x => x.result.isSome && x.entry.seq == 5) = some g ∧ (getQ b tq).sinkBad = true ∧ (getQ b tq).state ≠ qStopped := by
  decide +kernel

/-- Function 0 executes a control command, in a module changed by `f`. -/
def admin (op a0 a1 a2 : Nat) (f : State → State) : State :=
  let x : Fn := { (getFn hosts false) with adminBusy := some { entry := entry op 0 a0 a1 a2 } }
  f { hosts with hs := { hosts.hs with f0 := x } }

theorem witness_context_commands :
    let fresh := admin 0x20 1 9 0 (fun s => { s with fe := { s.fe with ctxs := [] } })
    let quiet := admin 0x23 1 0 0 (fun s => { s with fe := { s.fe with ctxs := [(1, { state := 3 })] } })
    adminCmd fresh false 0x20 = some (entry 0x20 0 1 9 0) ∧ (getCtx fresh 1).state = ctxFree ∧ homeOf (partCount fresh) (ctxEntryPa fresh 1) = some 0x1010
    ∧ poisoned (readLoc 0x1010 fresh).mem (0x1010 / 64) = false ∧ fld (memNat fresh.mem 0x1010 16) 0 1 = 1 ∧ fld (memNat fresh.mem 0x1010 16) 2 10 = 0
    ∧ fld (memNat fresh.mem 0x1010 16) 48 16 = 0 ∧ fld (memNat fresh.mem 0x1010 16) 84 44 = 0 ∧ (getFn quiet false).negAgreed ≠ 0
    ∧ partInReset fresh 0 = false ∧ adminCmd (admin 0x21 1 0 0 id) false 0x21 = some (entry 0x21 0 1 0 0) ∧ ownsCtx hosts false 1 = true
    ∧ adminCmd (admin 0x22 1 1 0 id) false 0x22 = some (entry 0x22 0 1 1 0) ∧ ctxResetRuns hosts 1 = false ∧ largerRuns hosts 1 = false
    ∧ adminCmd quiet false 0x23 = some (entry 0x23 0 1 0 0) ∧ (getCtx quiet 1).state = ctxQuiesced ∧ anySinkBad quiet 1 = false
    ∧ adminCmd (admin 0x28 1 0 0 id) false 0x28 = some (entry 0x28 0 1 0 0) ∧ inSinkLost hosts 1 = false
    ∧ (let r := admin 0x28 1 (2 ^ 21) (2 ^ 21) (fun s => { s with hs := { s.hs with f0 := { s.hs.f0 with negAgreed := 0x1F0301 } } })
       adminCmd r false 0x28 = some (entry 0x28 0 1 (2 ^ 21) (2 ^ 21)) ∧ agreed r false 20 = true)
    ∧ ownsCtx hosts false 2 = false ∧ adminCmd (admin 0x21 256 0 0 id) false 0x21 = some (entry 0x21 0 256 0 0) := by decide +kernel

/-- A queue record in host memory: QID 0 of context 1, rings of 64 entries. -/
def queueRecord : NMap Byte := putBytes 0 (leBytes 64 (2 ^ 20 + 6 * 2 ^ 28 + 6 * 2 ^ 33 + 0xA000 * 2 ^ 64 + 0xB000 * 2 ^ 256)) []

theorem witness_queue_commands :
    let c := admin 0x24 0 0 0 (fun s => { s with hs := { s.hs with hostMem := queueRecord } })
    let r : W512 := BitVec.ofNat 512 (leNat ((hostBytes c 0 64).getD []))
    let stopped := fun (op a1 a2 : Nat) (x : Option Entry) =>
      admin op 0 a1 a2 (setQ 0 { live := true, ctx := 1, state := 4, stopped := x, ring := 0xA000 })
    adminCmd c false 0x24 = some (entry 0x24 0 0 0 0) ∧ (hostBytes c 0 64).isSome = true ∧ recordOk r = true ∧ ownsCtx c false (bfld r 20 8) = true
    ∧ kindAbsent c (bfld r 0 20) = false ∧ queueAllowed c false (bfld r 0 20) (bfld r 20 8) = true
    ∧ ownsQueue (admin 0x25 0 0 0 (setQ 0 { live := true, ctx := 1, state := 1 })) false 0 = true
    ∧ adminCmd (stopped 0x26 1 0 none) false 0x26 = some (entry 0x26 0 0 1 0) ∧ (getQ (stopped 0x26 1 0 none) 0).state = qStopped
    ∧ ownsQueue (stopped 0x26 1 0 none) false 0 = true ∧ (getQ (stopped 0x26 0 0 (some (entry 1 0 0 0 0))) 0).stopped = some (entry 1 0 0 0 0)
    ∧ readAt (stopped 0x26 1 0 (some (entry 1 0 0 0 0))) 0x9000 64 (fun _ _ => true) = true
    ∧ cmdChainEn (entry 1 0 0 0 0).cmd = false ∧ adminCmd (stopped 0x27 0xC000 20 none) false 0x27 = some (entry 0x27 0 0 0xC000 20)
    ∧ agreed hosts false 17 = true ∧ (6 : Nat) ≤ 20 := by decide +kernel

theorem witness_graph_commands :
    let s := admin 0x29 (3 + 2 ^ 12) 0 1 (fun s => { s with fe := { s.fe with graphSize := 1, graphBase := 0x20000 } })
    let t := admin 0x2A 3 0 0 stored3
    adminCmd s false 0x29 = some (entry 0x29 0 (3 + 2 ^ 12) 0 1) ∧ (getGraph s 3).stored = false ∧ agreed s false 16 = true
    ∧ (1 + 63) / 64 ≤ poolPages s ∧ freeVersions s = s ∧ allocPages s 1 = some [0] ∧ (hostBytes s 0 64).isSome = true
    ∧ adminCmd t false 0x2A = some (entry 0x2A 0 3 0 0) ∧ (getGraph t 3).stored = true ∧ ownsCtx t false (getGraph t 3).owner = true := by decide +kernel

/-! ### Witnesses: the array engine -/

/-- Descriptors 7 to 10: a BM8 matrix of one row of 32, a stream of one row of 32, a binary32 output of one element, an INT64
mask of 4096 rows. -/
def axTds : State :=
  { tds with mem := { tds.mem with cells := tds.mem.cells ++ [
    (0x81c0, 0x51), (0x81c9, 0x6), (0x81ca, 0x1), (0x81d1, 0x8), (0x81d2, 0x1), (0x81d8, 0x20), (0x81dc, 0x1), (0x81e0, 0x1), (0x81e4, 0x1),
    (0x81e8, 0x40), (0x8200, 0x51), (0x8209, 0x7), (0x820a, 0x1), (0x8210, 0x40), (0x8211, 0x8), (0x8212, 0x1), (0x8218, 0x20), (0x821c, 0x1),
    (0x8220, 0x1), (0x8224, 0x1), (0x8228, 0x40), (0x8240, 0x43), (0x8249, 0x9), (0x824a, 0x1), (0x8258, 0x1), (0x825c, 0x1), (0x8260, 0x1),
    (0x8264, 0x1), (0x8268, 0x40), (0x8280, 0x63), (0x828a, 0x2), (0x8298, 0x4), (0x829d, 0x10), (0x82a0, 0x1), (0x82a4, 0x1), (0x82a8, 0x40)] } }
def axQ : Nat := qcKey 2 0 0
def axProg : State := running axQ true id axTds
def bm (at_ ex : Nat) : Nat := linearTd 8 32 1 64 at_ + 2 ^ 128 * ex

/-- A load, a pass whose sums stay in row 4095, a pass that writes out, and a drain of row 4095, each of one row and one column. -/
def aLoad : AxCmd := { bank := 0, q := axQ, seq := 1, ctx := 1, m := 32, n := 1, h2 := 7, d2 := BitVec.ofNat 512 (bm 0x10600 0x10800) }
def aPass : AxCmd := { bank := 1, q := axQ, seq := 2, ctx := 1, rbase := 4095, m := 1, n := 1, swidth := 4, h2 := 8, d2 := BitVec.ofNat 512 (bm 0x10700 0x10840) }
def aWrite : AxCmd := { aPass with dt := true, d1 := BitVec.ofNat 512 (linearTd 1 1 1 64 0x10900) }
def aDrain : AxCmd := { bank := 2, q := axQ, seq := 3, ctx := 1, rbase := 4095, m := 1, n := 1, d1 := BitVec.ofNat 512 (linearTd 1 1 1 64 0x10900) }
def withAx (f : AxPart → AxPart) : State := modPart 0 f (running axQ true id up)

theorem witness_array_descriptors :
    canRun axProg axQ anyKind = true ∧ qKind axQ = kAX
    ∧ axHeld axProg 0 = false ∧ tdsAt axProg [7] (fun ds _ => ds == [bm 0x10600 0x10800]) = true ∧ tdOk false (bm 0x10600 0x10800) = true
    ∧ tdBM (bm 0x10600 0x10800) = true ∧ tdRank (bm 0x10600 0x10800) = 2 ∧ tdTiled (bm 0x10600 0x10800) = false ∧ tdDim (bm 0x10600 0x10800) 0 = 32
    ∧ 32 * cdiv 32 32 ≤ arrRows (partCount axProg) ∧ 2 ≤ arrCols (partCount axProg)
    ∧ tdsAt axProg [9, 8] (fun ds _ => ds == [linearTd 1 1 1 64 0x10900, bm 0x10700 0x10840]) = true ∧ tdOk false (bm 0x10700 0x10840) = true ∧ tdDim (bm 0x10700 0x10840) 1 = 1
    ∧ tdOk true (linearTd 1 1 1 64 0x10900) = true ∧ bellFmt 1 = true
    ∧ tdsAt axProg [10] (fun ds _ => ds == [linearTd 0x11 4 4096 64 0x20000]) = true ∧ tdOk false (linearTd 0x11 4 4096 64 0x20000) = true
    ∧ arrCols (partCount axProg) / 2048 = 4 := by decide +kernel

theorem witness_array_fields :
    firstBad ([(({} : TExt).opx != 0, rNonzero)] ++ axChecks {} false true false ++ [(true && ({} : TExt).srnd == 2, rEncoding)]) = none
    ∧ firstBad (inOrder ([(false, rNonzero)] ++ axChecks {} true false false ++ epiChecks 0)) = none
    ∧ (getPart (withAx (fun v => { v with last := some (1, 32, 1, 8) })) 0).last = some (1, 32, 1, 8) ∧ (4095 : BitVec 12).toNat + 1 ≤ 4096
    ∧ (getPart axProg 0).cmds = [] ∧ (getPart (withAx (fun v => { v with cmds := [aLoad] })) 0).cmds ≠ []
    ∧ axHeld (withAx (fun v => { v with fence := some (axQ, 1, 5) })) 0 = true := by decide +kernel

/-- A pass into memory with cols 1 and k 32 from the last load; rows that a pass has written and a drain of them. -/
theorem witness_array_rows :
    firstBad (inOrder ([(!true && ((9 : BitVec 16) != 0 || (0 : W32) != 0), rNonzero)] ++ axChecks {} true false false ++ epiChecks 0)) = none
    ∧ (let v : AxPart := { rows := passRows {} aPass }
       (∀ t ∈ tilesOf aPass, (tileRow v 4095 t).valid = true) ∧ laidOut v 1 4095 1 (upto 8) true = false) := by decide +kernel

/-- A load that waits and may start. -/
theorem witness_load_start :
    let s := withAx (fun v => { v with next := some aLoad, loadAt := some (0, 32) })
    engUp s kAX 0 = true ∧ (getPart s 0).next = some aLoad ∧ aLoad.bank = 0 ∧ loadMay (getPart s 0) 32 = true := by decide +kernel

/-- A front that may pass, with weights waiting since cycle 0 and a front of 4 cycles before it. -/
theorem witness_pass_front :
    let w : Wts := { ctx := 1, k := 32, n := 1, fmt := 8 }
    let s := withAx (fun v => { v with next := some aPass, shadow := some w, loadAt := some (0, 32), frontAt := some (0, 4) })
    engUp s kAX 0 = true ∧ (getPart s 0).next = some aPass ∧ aPass.bank = 1 ∧ frontMay (getPart s 0) 4 = true := by decide +kernel

/-- Accepted commands that retire: a load, a pass into the rows and one into memory, a drain. -/
theorem witness_retirements :
    let v : AxPart := { cmds := [aLoad, aPass, aDrain] }
    let w : AxPart := { cmds := [aWrite, aDrain] }
    let s := withAx (fun _ => w)
    v.cmds.find? (fun c => c.bank == 0) = some aLoad ∧ v.cmds.find? (fun c => c.bank == 1) = some aPass ∧ aPass.dt = false ∧ regionFail v aPass = none
    ∧ aPass.fail = none ∧ aPass.n ≤ 8192 ∧ aWrite.dt = true ∧ aWrite.ended = false ∧ regionFail w aWrite = none
    ∧ v.cmds.find? (fun c => c.bank == 2) = some aDrain
    ∧ (let s2 := modPart 0 (fun u => { u with rows := passRows w aWrite }) (modPart 0 (snapBefore aWrite) s)
       (emitAll (axAcc aWrite aWrite.race) (tcOf s2) aWrite (passPair w aWrite) { s := s2, reads := aWrite.own }).errs = []) := by decide +kernel

/-- A drain of rows that hold nothing writes its output, and one of a poisoned row fails. -/
theorem witness_drain :
    let s := withAx (fun _ => { cmds := [aDrain] })
    let c1 := snapDrain (rowsFor (getPart s 0) []) aDrain
    c1.fail = none ∧ (emitAll (axAcc aDrain []) (tcOf s) c1 (fun r col => mget (0, 0) c1.sums (8192 * r + col)) { s, reads := aDrain.own }).errs = [] := by
  decide +kernel

/-- A load, a pass and a drain that failed in an access; a failed one, and one that a reset ended. -/
theorem witness_failed_commands :
    let f : AxFail := { status := 0x20, cls := 4, reason := 0 }
    (AxPart.cmds { cmds := [{ aLoad with fail := some f }] }).find? (fun c => c.bank == 0) = some { aLoad with fail := some f }
    ∧ (AxPart.cmds { cmds := [{ aPass with fail := some f }] }).find? (fun c => c.bank == 1) = some { aPass with fail := some f }
    ∧ (({ aPass with fail := some f } : AxCmd).fail.or (regionFail {} { aPass with fail := some f })) = some f
    ∧ (snapDrain {} { aDrain with fail := some f }).fail = some f ∧ ({ aLoad with ended := true } : AxCmd).ended = true := by decide +kernel

/-- A program whose accepted command has not retired (R97), and scalar accesses that must come after it: a load of the bytes it writes,
not of others (R95). -/
theorem witness_unretired :
    let s := modPart 0 (fun v => { v with cmds := [aWrite] }) axProg
    canRun s axQ anyKind = true ∧ isProg (getQc s axQ) = true ∧ unretired s axQ = true ∧ axRaces s axQ 0x10900 4 false = true
    ∧ axRaces s axQ 0x10900 4 true = true ∧ axRaces s axQ 0x10908 8 true = false ∧ okAt s 0x10900 accRead (whoOf axQ) (fun loc _ => loc == 0x10900) = true := by
  decide +kernel

/-! ### Witnesses: collectives and the update engine -/

/-- An AR, RS, AG or PERM descriptor on axis 0 with TAG 9, of `rows` by `cols`, with a given deadline. -/
def collDesc (rows cols handle : Nat) : Nat :=
  1 + 32 + 2 ^ 16 * 9 + 2 ^ 64 * rows + 2 ^ 88 * cols + 2 ^ 160 * 0x100000 + 2 ^ 256 * (8 * cols) + 2 ^ 352 * 1 + 2 ^ 384 * 100
    + 2 ^ 416 * 0x200000 + 2 ^ 672 * handle

/-- Bytes from `at_` on, as memory lists them. -/
def listed (at_ : Nat) (bs : List Byte) : NMap Byte := (bs.zipIdx.filter (fun e => e.1 != 0)).map (fun e => (at_ + e.2, e.1))

/-- A program of RX of windchest 0 whose g1 holds the address of a descriptor, on a ring of 4 members with this one at 1. -/
def rxQ : Nat := qcKey 3 0 0
def rxProg (d : Nat) : State :=
  running rxQ true (fun c => { c with pc := 0x8000, g := [(1, 0x9000)] })
    { up with
      et := { up.et with axisSize := 2, coord := 1, coordValid := true }
      mem := { up.mem with cells := up.mem.cells ++ listed 0x9000 (leBytes 128 d) } }
def collSlot (kind d : Nat) : Slot := { kind, q := rxQ, ctx := 1, desc := BitVec.ofNat 1024 d, va := 0x9000, n := 4, me := 1 }

theorem witness_collectives_open : ∀ e ∈ [(cRS, 1024, 1024, 0), (cAR, 128, 128, 0), (cAG, 2, 1, 1), (cPERM, 128, 128, 1)],
    let d := collDesc e.2.1 e.2.2.1 e.2.2.2
    canRun (rxProg d) rxQ anyKind = true ∧ qKind rxQ = kRX ∧ readAt (startLong rxQ (0x16 * 2 ^ 58 + e.1 * 2 ^ 52) (rxProg d)) 0x9000 128 (fun bs _ => leNat bs == d) = true
    ∧ cdBad (collSlot e.1 d) = false ∧ bucketBad (collSlot e.1 d) = false ∧ tagOpen (rxProg d) 1 9 = false
    ∧ freeSlot (rxProg d) 0 = some 0 ∧ axisSizeOf (rxProg d).et.axisSize 0 = 4 ∧ coordOn (rxProg d).et.coord 0 = 1
    ∧ okAt (rxProg d) 0 accTally .other (fun loc t3 => !locPoison t3 loc) = true := by decide +kernel

/-- What AG and PERM read behind their descriptors. -/
theorem witness_latched : weightsOk (collSlot cAG (collDesc 2 1 1)) (linearTd 0 2 1 64 0x10000) = true
    ∧ readAt (rxProg (collDesc 128 128 1)) 0x200000 32 (fun bs _ => !entryBad (BitVec.ofNat 256 (leNat bs))) = true := by decide +kernel

/-- An open AR in slot 0 of windchest 0, changed by `f`. -/
def openAR (f : Slot → Slot) : State :=
  modSlot 0 (fun _ => f { collSlot cAR (collDesc 128 128 0) with live := true, dl := 100, arrived := [(0, true)] }) (rxProg (collDesc 128 128 0))

theorem witness_decisions :
    let s := openAR id
    let v := getSlot s 0
    let p : Piece := { hasHdr := true, empty := true }
    let w := { v with decisions := [(0, 2)], pieces := [(pieceKey 0 0 2 false, p)] }
    v.live = true ∧ engUp s kRX 0 = true ∧ reduces v = true ∧ 0 ∈ undecided v ∧ hasArrival v 0 = true ∧ filled s v = false ∧ v.dl < 101
    ∧ onReduce w false 2 0 = some 1 ∧ 1 ≠ reduceSpan w false 2 0 ∧ mget 0 w.decisions 0 = dOut ∧ complete (getPiece w (pieceKey 0 0 2 false)) = true ∧ mget 0 w.fetched 0 = 0
    ∧ (getPiece w (pieceKey 0 0 2 false)).sent = false := by decide +kernel

/-- Packets of context 1 and TAG 9: data and a header of chunk 1, stream − of quarter 0, and the acknowledgement of entry 5. -/
def dataPkt (tag : Nat) : Packet := { header := BitVec.ofNat 256 (2 ^ 42 + 2 ^ 64 * tag + 2 ^ 96), body := [] }
def headerPkt (units : Nat) : Packet := { header := BitVec.ofNat 256 (2 ^ 34 + 2 ^ 42 + 2 ^ 66 * 9 + 2 ^ 98 + 2 ^ 109 * units), body := [] }
def ackPkt : Packet := { header := BitVec.ofNat 256 (2 ^ 34 + 2 ^ 42 + 2 ^ 64 + 2 ^ 66 * 9 + 2 ^ 98 * 5), body := [] }
def waits (p : Packet) (s : State) : State := { s with et := { s.et with inbox := [(0, p)] } }

/-- Packets whose collective an engine reset has ended. -/
theorem witness_dead_packets : ∀ p ∈ [dataPkt 10, { headerPkt 0 with header := (headerPkt 0).header + 2 ^ 66 }, { ackPkt with header := ackPkt.header + 2 ^ 66 }],
    let s := { openAR id with rx := { (openAR id).rx with deadTags := [(1, 10)] }, et := { (openAR id).et with inbox := [(0, p)] } }
    matchSlot s p = none ∧ deadTag s p = true ∧ (isData p || isPieceHeader p || isAck p) = true ∧ firstPacket 0 (deadTag s) s = some p := by decide +kernel

/-- A packet of a permute's shard: entry 5 from the module at 0, 64 bytes to be received at 0x300000. -/
def shardPkt : Packet := { header := BitVec.ofNat 256 (2 ^ 42 + 2 ^ 64 * 9 + 2 ^ 96 * 5 + 2 ^ 105), body := List.replicate 480 1 }
def recvEntry : BitVec 256 := BitVec.ofNat 256 (0x300000 + 64 * 2 ^ 64 + 2 ^ 113 + 5 * 2 ^ 115)

theorem witness_shards :
    let s := waits shardPkt (openAR (fun v => { v with kind := cPERM, entries := [recvEntry] }))
    let v := getSlot s 0
    let units := dataUnits shardPkt (peLen recvEntry / 64)
    let s1 := modSlot 0 (fun w => { setPiece (shardKey 0) { getPiece v (shardKey 0) with units := units } w with cause := 1 + portAxis 0 }) (takePacket 0 shardPkt s)
    isData shardPkt = true ∧ matchSlot s shardPkt = some 0 ∧ shardPkt.header.getLsbD 105 = true ∧ v.kind = cPERM ∧ v.halted = false ∧ entryBad recvEntry = false
    ∧ entriesWhere v (fun i e => peRecv e && peEntry e == bfld shardPkt.header 96 9 && pePeer e == pktSrc shardPkt.header && !mget false v.stored i)
        = (0, recvEntry) :: []
    ∧ (writePiece (rxAcc v) (runVas (recvBase v recvEntry) (64 * units))
        ((shardPkt.body.take (64 * units)).zipIdx.map (fun b => (b.1, shardPkt.poison.contains (b.2 / 64)))) { s := s1 }).errs = [] := by decide +kernel

theorem witness_packets :
    let perm := waits ackPkt (openAR (fun v => { v with kind := cPERM, entries := [BitVec.ofNat 256 (5 * 2 ^ 115)] }))
    (∀ p ∈ [dataPkt 9, headerPkt 0, headerPkt 1], matchSlot (waits p (openAR id)) p = some 0
      ∧ firstPacket 0 (fun x => (isData x || isPieceHeader x) && matchSlot (waits p (openAR id)) x == some 0) (waits p (openAR id)) = some p)
    ∧ expects (getSlot (openAR id) 0) 0 1 0 (!portPlus 0) = true ∧ pieceLen (getSlot (openAR id) 0) 1 = 0 ∧ (dataPkt 9).header.getLsbD 105 = false
    ∧ isData (dataPkt 9) = true ∧ isPieceHeader (headerPkt 1) = true ∧ isAck ackPkt = true ∧ matchSlot perm ackPkt = some 0
    ∧ engUp perm kRX 0 = true
    ∧ (getSlot perm 0).halted = false ∧ entriesWhere (getSlot perm 0) (fun i e => !peRecv e && peEntry e == bfld ackPkt.header 98 9
        && pePeer e == pktSrc ackPkt.header && !mget false (getSlot perm 0).acked i) = (0, BitVec.ofNat 256 (5 * 2 ^ 115)) :: []
    ∧ matchSlot (waits (dataPkt 10) (openAR id)) (dataPkt 10) = none := by
  decide +kernel

/-- Where no stored queue context holds anything back, none does. -/
theorem none_held {s : State} (h : s.en.qcs.all (fun e => e.2.heldAdd.isNone && e.2.heldEnd.isNone) = true) (x : Nat) :
    (getQc s x).heldAdd = none ∧ (getQc s x).heldEnd = none := by
  unfold getQc
  generalize s.en.qcs = m at h
  induction m with
  | nil => exact ⟨rfl, rfl⟩
  | cons e m ih =>
    simp only [List.all_cons, Bool.and_eq_true, Option.isNone_iff_eq_none] at h
    rw [show mget {} (e :: m) x = if e.1 = x then e.2 else mget {} m x from rfl]
    split
    · exact h.1
    · exact ih h.2

/-- A permute without entries left, ones that a reset and a bad entry have ended, and one whose ring has changed. -/
theorem witness_completion : ∀ e ∈ [none, some 0x30, some 0x12, some 0x33],
    let s := openAR (fun v => { v with kind := cPERM, shardsSent := true, ending := e, halted := e.isSome })
    let w := getSlot (rxPump s) 0
    w.live = true ∧ engUp (rxPump s) kRX 0 = true ∧ partDone w = true ∧ w.ending = e ∧ w.poisonAt = none
    ∧ (rxPump s).en.qcs.all (fun e => e.2.heldAdd.isNone && e.2.heldEnd.isNone) = true
    ∧ okAt (rxPump s) (cdDone w) accTally (rxWho w) (fun loc s2 => !locPoison s2 loc && !coreClosed s2 loc) = true := by
  decide +kernel

/-- An update descriptor of one block of 1 by 1, of rule 0 or 2, open or not, and group step `n`. -/
def updDesc (rule open_ n : Nat) : Nat :=
  1 + 2 * rule + 2 ^ 28 + 2 ^ 256 + 2 ^ 280 + 2 ^ 304 + 2 ^ 320 * 0x40000 + 2 ^ 384 * 0x50000 + 2 ^ 448 * 0x51000 + 2 ^ 512 * 0x60000
    + 2 ^ 768 * n + 2 ^ 992 * open_
def uxQ : Nat := qcKey 4 0 0
def uxProg (d : Nat) : State :=
  running uxQ true (fun c => { c with pc := 0x8000, g := [(1, 0x9000), (3, 0xA000)] })
    { up with mem := { up.mem with cells := up.mem.cells ++ listed 0x9000 (leBytes 128 d) ++ [(0x51000, 1), (0x60004, 0x40)] } }

theorem witness_begin : ∀ o ∈ [0, 1],
    let d := updDesc 0 o 0
    canRun (uxProg d) uxQ anyKind = true ∧ qKind uxQ = kUX ∧ readAt (uxProg d) 0x9000 128 (fun bs s1 => leNat bs == d && !scheduleBad uxQ d 0 s1) = true
    ∧ udBad d = false ∧ udOpen d = decide (o = 1) ∧ udLatch d = 0 ∧ (scheduleOf d 0 (2 ^ 38) [0]).isSome = true
    ∧ okAt (uxProg d) (0x9000 + 88) accWrite .other (fun loc s1 => !coreClosed s1 loc) = true := by decide +kernel

/-- A published root set: its tally holds 1. -/
theorem witness_root_set : udRule (updDesc 2 0 0) = 2 ∧ udRootset (updDesc 2 0 0) = 0x51000
    ∧ okAt (uxProg 0) 0x51000 accTally .other (fun loc s1 => locNat (uxProg 0) loc 8 == 1 && !locPoison s1 loc && !coreClosed s1 (loc + 16)) = true := by
  decide +kernel

/-- The blocks of a chunk: step 0 skips, step 1 on a record already at step 1 replays, step 1 without members skips. -/
theorem witness_blocks : ∀ e ∈ [(0, 0), (1, 1), (1, 0)],
    let d := updDesc 0 1 e.1
    let t := uxProg d
    let a := uxAcc t uxQ
    let m := rdNat a (udRecmap d) 2 { s := t }
    let h := rdNat a (recAddr d 0) 12 m.2
    udStepN d = e.1 ∧ 0 < cdiv (udK d) (udB d) * cdiv (udN d) (udB d) ∧ 0 < udNrec d ∧ fld (e.2 + 0) 63 1 = 0
    ∧ m.1 = (0, false) ∧ m.2.errs = [] ∧ h.2.errs = [] ∧ fld h.1.1 64 32 = 0
    ∧ (runBlock a (tcOf t) d (linearTd 1 128 128 512 0xB0000) (linearTd 1 1 1 64 0xA1000) (uxRnd t uxQ {}) 0 0 0 (recAddr d 0) 0 e.2 { s := h.2.s }).2.errs = [] := by
  decide +kernel

/-- A chunk of no block read, one that waits for its next row, and one whose layer is not open. -/
theorem witness_chunks :
    let d := updDesc 0 1 0
    let w : UxWork := { desc := BitVec.ofNat 1024 d, blocks := [(0, 0)] }
    let p := modQc uxQ (fun c => { c with chunk := some w }) (uxProg d)
    readAt (startLong uxQ (0x18 * 2 ^ 58 + 0x01 * 2 ^ 52) (uxProg d)) 0x9000 128 (fun bs _ => leNat bs == d) = true ∧ udBad d = false ∧ udOpen d = true
    ∧ readAt (uxProg d) 0xA000 32 (fun hd _ => leNat ((hd.drop 16).take 2) == 0) = true ∧ (0xA000 : Nat) % 64 = 0
    ∧ (getQc p uxQ).chunk = some w ∧ canRun (modQc uxQ (fun x => { x with chunk := none }) p) uxQ anyKind = true ∧ w.blocks ≠ [] ∧ ({} : UxWork).blocks = []
    ∧ tdOk false (linearTd 1 128 128 512 0xB0000) = true ∧ tdOk true (linearTd 1 1 1 64 0xA1000) = true ∧ udB d = 128 ∧ udK d = 1 ∧ udN d = 1 := by
  decide +kernel

/-! ### Witnesses: ports -/

/-- Port 0 of a module in this state. -/
def portIn (p : Port) : State := { up with et := { up.et with ports := [(0, p)] } }
def upPort : Port := { state := 7, credits := firstCredits, peerId := 5 }
def dataFlit (k : Nat) : Flit := { ty := 2, vc := 0, fseq := k, payload := [] }

theorem witness_training : portRuns up 0 = true ∧ portCtl up 0 = true ∧ (mget {} up.fl.seeds 0).stored = false
    ∧ failedCount 3 = 2 ∧ failedCount 7 = 3 ∧ inStep { state := 4 } 4 = true ∧ inStep { state := 8, sub := 4 } 4 = true ∧ inStep { state := 8, sub := 3 } 4 = false
    ∧ (∀ n ∈ [1, 2, 3, 4, 5, 6, 7, 8], portRuns (portIn { state := n, sub := 3 }) 0 = true ∧ portCtl (portIn { state := n, sub := 3 }) 0 = true
        ∧ (getPort (portIn { state := n, sub := 3 }) 0).state = n)
    ∧ (getPort (portIn { state := 8, sub := 5 }) 0).sub = 5 ∧ upPort.fallbackClk = false ∧ upPort.dead = [] ∧ up.bt.inForce = none := by decide +kernel

/-- A port in RETRAIN that has failed in it never, once, and once before a success within 10 s; one whose peer is due a record. -/
theorem witness_retraining : ∀ k ∈ [0, 1, 2],
    let q : Port := { state := 8, sub := 3, retrainFails := k, recordDue := true }
    portCtl (portIn q) 0 = true ∧ q.state = 8 ∧ q.sub = 3 ∧ q.retrainFails = k ∧ q.recordDue = true ∧ failedCount (q.failedRx ||| 3) ≤ 2
    ∧ failedCount (q.failedRx ||| 7) > 2 ∧ (portIn q).bt.stage ≠ 5 ∧ (portIn q).bt.inForce = none ∧ inStep { q with sub := 4 } 4 = true
    ∧ ({ upPort with fallbackClk := true } : Port).fallbackClk = true := by decide +kernel

/-- A seed of the peer 6: the record of peer 5 differs from it, that of peer 6 does not. -/
theorem witness_seeds :
    let s := { portIn { state := 6, seeded := true } with fl := { up.fl with seeds := [(0, { stored := true, peerId := 6 })] } }
    (getPort s 0).seeded = true ∧ (mget {} s.fl.seeds 0).peerId ≠ 5 ∧ (mget {} s.fl.seeds 0).peerId = 6 ∧ (mget {} s.fl.seeds 0).peerPort = 16 % 16 := by
  decide +kernel

theorem witness_flits : portRuns (portIn upPort) 0 = true ∧ (getPort (portIn upPort) 0).state = 7 ∧ upPort.dead = [] ∧ upPort.txSeq < 4096
    ∧ upPort.requested = false ∧ sendable { upPort with txq := [dataFlit 0] } = some 0 ∧ sendable upPort = none
    ∧ sendable { upPort with txq := [dataFlit 0], credits := [] } = none ∧ (dataFlit 4095).fseq < 4096
    ∧ (∀ c, ({ upPort with resend := [c] } : Port).resend = c :: []) := by
  refine ⟨by decide +kernel, by decide +kernel, by decide +kernel, by decide +kernel, by decide +kernel, by decide +kernel, by decide +kernel,
    by decide +kernel, by decide +kernel, fun _ => rfl⟩

/-- A flit of this header that arrives sound. -/
def soundFlit (h : Nat) : FlitIn :=
  { header := BitVec.ofNat 96 h, payload := List.replicate 512 0, crc := flitCrc (BitVec.ofNat 96 h) (List.replicate 512 0), codewordOk := true }

/-- A replay request, the first flit of a packet, its only one, and one that comes out of order. -/
theorem witness_received :
    (∀ h, (soundFlit h).codewordOk = true ∧ (soundFlit h).crc = flitCrc (soundFlit h).header (soundFlit h).payload ∧ (soundFlit h).payload.length = 512)
    ∧ fhType (soundFlit 4).header = 4 ∧ fhType (soundFlit 1).header = 1 ∧ fhType (soundFlit 2).header = 2 ∧ fhSeq (soundFlit 2).header = upPort.rxSeq
    ∧ fhVc (soundFlit (1 + 8 * 5)).header = 5 ∧ fhSeq (soundFlit (1 + 64)).header ≠ upPort.rxSeq
    ∧ (fhSeq (soundFlit (1 + 64 * 2047)).header + 4096 - upPort.rxSeq) % 4096 < 2048 := by
  refine ⟨fun h => ⟨rfl, rfl, List.length_replicate⟩, by decide +kernel, by decide +kernel, by decide +kernel, by decide +kernel, by decide +kernel,
    by decide +kernel, by decide +kernel⟩

/-- Flits that cannot be read, or whose CRC is wrong. -/
theorem witness_bad_flits : ({ soundFlit 1 with codewordOk := false } : FlitIn).codewordOk = false ∧ ({ soundFlit 1 with uncorrected := 1 } : FlitIn).uncorrected ≠ 0
    ∧ ({ soundFlit 1 with payload := [] } : FlitIn).payload.length ≠ 512 ∧ (soundFlit 1).uncorrected = 0 := ⟨rfl, by decide, by decide, rfl⟩

/-- A packet of zeros for this module stays here. -/
theorem witness_packet_here :
    let s := { portIn { upPort with fwd := true } with et := { up.et with ports := [(0, { upPort with fwd := true })], axisSize := 2, coordValid := true } }
    staysHere s { header := 0, body := List.replicate 480 0 } = true ∧ (getPort s 0).fwd = true ∧ pktLenM1 0 + 1 = 1 ∧ 2 * pktClass 0 + 0 % 2 = 0 := by decide +kernel

/-- Lanes with both spares free, one, and none; a swap under way and one that trains; a waiting one. -/
theorem witness_lanes :
    let one : Port := { upPort with failedRx := 0x10000 }
    let none_ : Port := { upPort with failedRx := 0x30000 }
    let swap : Port := { upPort with swap := some (15, 16, false) }
    logicalOf upPort 15 = some 15 ∧ logicalOf upPort 16 = none ∧ spareLane (usedRx upPort) upPort.failedRx = some 16 ∧ upPort.swapWaits = []
    ∧ upPort.swap = none ∧ upPort.txCopy = none ∧ upPort.dead = [] ∧ swapping upPort 15 = false ∧ portCtl (portIn upPort) 0 = true
    ∧ spareLane (usedRx one) one.failedRx = some 17 ∧ spareLane (usedRx none_) none_.failedRx = none ∧ swap.swap ≠ none ∧ swapping swap 15 = true
    ∧ swapping swap 14 = false ∧ logicalOf swap 14 = some 14 ∧ ({ swap with swap := some (15, 16, true) } : Port).swap = some (15, 16, true)
    ∧ spareLane (usedRx swap) (setBit18 swap.failedRx 16) = some 17
    ∧ ({ upPort with txCopy := some (15, 17) } : Port).txCopy = some (15, 17) := by decide +kernel

/-- Dead lanes: with both spares free a first one and a second, a third without a spare left, one that a swap was moving. -/
theorem witness_dead_lanes :
    let q := fun (d : List Nat) => { upPort with dead := d }
    (q []).dead.length < (sparesFree (q [])).length ∧ (q [3]).dead.length < (sparesFree (q [3])).length ∧ (sparesFree (q [3, 4])).length ≤ (q [3, 4]).dead.length
    ∧ 15 ∉ (q [3]).dead ∧ 3 ∈ (q [3]).dead ∧ (q [3, 4]).dead.Nodup ∧ (q [3, 4]).dead.length ≤ (sparesFree (q [3, 4])).length
    ∧ portCtl (portIn (q [3, 4])) 0 = true ∧ portRuns (portIn (q [3])) 0 = true ∧ (getPort (portIn (q [3])) 0).state = 7
    ∧ (q [3, 4]).dead[1]? = some 4 ∧ (sparesFree (q [3, 4]))[1]? = some 17 := by decide +kernel

/-! ### Witnesses: memory health, faults and resets -/

theorem witness_memory_health : chestCtl up 15 = true ∧ scrubLine false 15 (0xBA0000000 / 64 - 1) = some (15 * 2 ^ 30 + 0xBA0000000 / 64 - 1)
    ∧ scrubLine true 0 0 = some (chestBase / 64) ∧ mget false up.mem.swapActive 15 = false ∧ (15, 0, 0) ∉ up.fl.rowsToRepair
    ∧ (let s := { up with mem := { up.mem with swapActive := [(15, true)] } }
       chestCtl s 15 = true ∧ mget false s.mem.swapActive 15 = true ∧ mget 0 s.mem.swapNext 15 ≤ 0 ∧ mget 0 s.mem.spareFor 15 ≠ 31)
    ∧ (let m : Mem := { latent := [(3, 2)] }
       m.latent.filter (fun e => e.1 / 8 == 0) = [(3, 2)] ∧ 3 / 8 = 0 ∧ (homeWc (8 * 3)).2 = 0) := by decide +kernel

theorem witness_engine_faults : engUp prog kVX 0 = true ∧ faultQc prog kVX 0 (fun _ => true) = some 0 ∧ containing prog (.engine kVX 0) = none
    ∧ containing prog (.core 0) = none ∧ engUp up kRX 15 = true ∧ containing up (.engine kRX 15) = none
    ∧ (getCtx prog 1).state ≠ ctxFree ∧ ctxResetRuns prog 1 = false ∧ largerRuns prog 1 = false
    ∧ frozenIsl up (0x900 + 8 * 31 + min 7 (2047 / 256)) = false ∧ resetRuns up .chip = false ∧ up.ob.dumpFor ≠ 2 ∧ up.ob.dumpState ≠ 1
    ∧ dumpWanted up 1 = false ∧ dumpWanted up 2 = false ∧ computeReached up = true ∧ up.ob.stopState = 0 ∧ up.bt.computeDone = true ∧ up.fr.escCfg.getLsbD 0 = false
    ∧ ({ up with fr := { up.fr with escCfg := 7 } } : State).fr.escCfg.getLsbD 0 = true := by decide +kernel

/-- A context whose one queue waits for a tally of device memory. -/
def waiting : State :=
  let w : Waiter := { key := tq, isQueue := true, ctx := 1, host := false, addr := 64, va := 64, thresh := 1 }
  setQ tq { live := true, ctx := 1, state := 3, cur := some (entry 1 0 0 0 0) } { up with fe := { up.fe with waiters := [w] } }

theorem witness_deadlock : deadlocked waiting 1 = true ∧ allWatched waiting 1 = true ∧ (getCtx waiting 1).state ≠ ctxFree ∧ chanterUp waiting = true ∧ waiting.ob.stopState ≠ 2 ∧ ctxResetRuns waiting 1 = false
    ∧ largerRuns waiting 1 = false := by decide +kernel

theorem witness_audits : droneUp up = true ∧ writable hosts false 0x81000 = true
    ∧ ({ up with fr := { up.fr with ledState := 1 } } : State).fr.ledState = 1 := by decide +kernel

/-- A notice for context 1 (`all` false) or for a context that is FREE, addressed to this module. -/
def notice (c : Nat) : Packet := { header := BitVec.ofNat 256 (2 ^ 35 + 2 ^ 64 + 2 ^ 89 * c + 2 ^ 128 * 77), body := [] }
theorem witness_notices : ∀ c ∈ [1, 2],
    let s := { portIn { upPort with fwd := true } with et := { up.et with ports := [(0, { upPort with fwd := true })], coordValid := true, inbox := [(0, notice c)] } }
    firstPacket 0 isPeerDown s = some (notice c) ∧ (getPort s 0).fwd = true ∧ s.et.coordValid = true ∧ pktDest (notice c).header = s.et.coord.toNat
    ∧ s.fr.notices = [] ∧ noticeCtxs s (notice c).header = (if c = 1 then [1] else []) ∧ ctxResetRuns s 1 = false := by decide +kernel

/-- Requests of RESET_REQ: each level with GO set, taken from a module whose contexts function 0 owns, and one that is refused. -/
theorem witness_reset_requests : writable hosts false 0x80010 = true ∧ hosts.ob.stopState = 0
    ∧ (∀ l ∈ [1, 2, 3, 4], reqRefused hosts false (BitVec.ofNat 64 (2 ^ 63 + l)) = false ∧ reqLevel (BitVec.ofNat 64 (2 ^ 63 + l)) = l)
    ∧ reqRefused { hosts with fr := { hosts.fr with heldParts := [(0, true)] } } false (BitVec.ofNat 64 (2 ^ 63 + 5)) = false
    ∧ (∀ l ∈ [1, 2, 3, 4, 5], reqRefused hosts false (BitVec.ofNat 64 (2 ^ 63 + 2 ^ 30 + l)) = true)
    ∧ reservedLevel (reqLevel (BitVec.ofNat 64 (2 ^ 63 + 7))) = true ∧ reqRefused hosts false (BitVec.ofNat 64 (2 ^ 63 + 7)) = true
    ∧ computeReached hosts = true ∧ resetRuns hosts .chip = false ∧ resetRuns hosts (.partition 0) = false ∧ resetRuns hosts (.wcIsland 0) = false
    ∧ (getQc hosts (qcKey kUX 0 0)).chunk = none ∧ resetRuns hosts (.engine 0 0) = false ∧ containing hosts (.engine 0 0) = none ∧ containing hosts (.partition 0) = none
    ∧ (2 ^ 63 + 5 : W64).getLsbD 63 = true := by decide +kernel

/-- A running reset of each domain, none of them asked for by the host and none inside another. -/
theorem witness_running_resets : ∀ d ∈ [Domain.context 1, .engine 0 0, .engine kAX 0, .engine kRX 0, .engine kUX 0, .core 0, .partition 0, .wcIsland 0, .chip],
    let x : RunReset := { dom := d, status := 0x30, hold := true }
    let s := { up with fr := { up.fr with resets := [x] }, fe := { up.fe with ctxs := [(1, { state := 4, prior := 1 })] } }
    s.fr.resets.find? (fun r => r.dom == d) = some x ∧ covered s d = false ∧ x.byReq = false ∧ queuesWhere s (fun _ v => v.ctx == 1) = []
    ∧ (getCtx s 1).state = ctxResetting ∧ (getCtx s 1).prior ≠ ctxSinkLost ∧ containing s (.core 0) = (if d = .partition 0 ∨ d = .chip then some x else none) := by
  decide +kernel

theorem witness_edges_and_stamps :
    let s := { up with fr := { up.fr with quar := [(7, true)], wcQuar := [(3, true)], resets := [{ dom := .core 9, status := 0x31 }] } }
    edgeOpen s = true ∧ mget false s.fr.quar 7 = true ∧ mget false s.fr.fence 7 = false ∧ procUp s (4 + 7 / 64) = true
    ∧ partInReset s (corePart (partCount s) 7) = false ∧ resetRuns s (.core 7) = false ∧ resetRuns s (.wcIsland 3) = false ∧ s.bt.computeDone = true ∧ mget false s.fr.wcQuar 3 = true ∧ procUp s (36 + 3) = true ∧ resetRuns s (.core 9) = true
    ∧ spareSite { s with bt := { s.bt with siteBad := mset false s.bt.siteBad (psite s 9) true } } 0 = some 64
    ∧ spareSite { s with bt := { s.bt with siteBad := (upto 72).map (fun i => (i, true)) } } 0 = none := by decide +kernel

/-! ### Witnesses: observation -/

theorem witness_samples : writable hosts false 0x100000 = true ∧ sampleError hosts (BitVec.ofNat 64 (2 ^ 63)) = 0
    ∧ sampleError hosts (BitVec.ofNat 64 (2 ^ 63 + 7)) = 3 ∧ (getFn hosts false).sampleStatus.toNat % 4 ≠ 1 := by decide +kernel

theorem witness_trace :
    let s := { up with ob := { up.ob with traceSize := [(7, 32)], traceBase := [(7, 0x27FFFFE0)], traceCtrl := 0x3FFFFFFFFFFFFFFF } }
    let t := { s with ob := { s.ob with buffers := [(engKey 0 0, [{}])] } }
    mget 0 t.ob.traceSize (unitWc t (engKey 0 0)) = (if unitWc t (engKey 0 0) = 7 then 32 else 0) ∧ unitWc t (engKey 0 0) < 16
    ∧ wcFrozen t 7 = false ∧ mget [] t.ob.buffers (engKey 0 0) = [{}] ∧ mget 0 t.ob.traceBase 7 + 32 ≤ 0x28000000
    ∧ bfld s.ob.traceCtrl 26 22 ≠ 0 ∧ kindOn s 0 = true ∧ typeOn s 6 = true ∧ typeOn up 7 = false ∧ up.ob.syncPeriod ≠ 0
    ∧ (mget [] t.ob.buffers (engKey 0 0)).length < 512 ∧ mget 0 t.ob.lostPending (engKey 0 0) = 0 := by decide +kernel

theorem witness_stop_and_dump :
    let s := { hosts with ob := { hosts.ob with stopState := 1 } }
    let d := { hosts with ob := { hosts.ob with dumpSize := 4096, dumpState := 1, dumpBegun := true } }
    writable s false 0x100200 = true ∧ hosts.fr.resets = [] ∧ s.ob.stopState ≠ 0 ∧ frozenIsl s 2711 = false ∧ s.ob.dumpState ≠ 1
    ∧ writable hosts false 0x86000 = true ∧ d.ob.dumpSize ≠ 0 ∧ d.ob.dumpFor = 0 ∧ d.ob.dumpBegun = true
    ∧ ({ d with ob := { d.ob with dumpFor := 2 } } : State).ob.dumpFor = 2 := by decide +kernel

theorem witness_loopbacks :
    let v : W64 := BitVec.ofNat 64 (2 ^ 63 + 2 ^ 4 + 2 ^ 16)
    let s := { hosts with ob := { hosts.ob with loopState := 1, loopRuns := true, loopCtrl := 0x10015 } }
    writable hosts false 0x100300 = true ∧ v.getLsbD 63 = true ∧ hosts.ob.loopRuns = false ∧ s.ob.loopRuns = true ∧ loopReady hosts v true = true
    ∧ loopReady hosts (BitVec.ofNat 64 (2 ^ 63 + 2 ^ 4)) true = false ∧ lcIface s.ob.loopCtrl = 5 ∧ lcDepth s.ob.loopCtrl = 1
    ∧ portEnabled hosts 0 = true ∧ axisOff hosts 0 = false ∧ lcIface v = 0 ∧ computeReached hosts = true := by decide +kernel

/-! ### Single steps, with values worked out by hand from the spec -/

/-- The state after a command meets `P`. -/
def after (c : Instr) (s : State) (P : State → Bool) : Bool :=
  match exec c s with
  | .next t => P t
  | _ => false

/-- A program of VX whose g1 to g3 are given. -/
def gs (a b c : W64) : State := running 0 true (fun x => { x with pc := 0x8000, g := [(1, a), (2, b), (3, c)] }) up
def g4 (t : State) : W64 := rdG (getQc t 0) 4

theorem test_step_takes_the_front_command :
    step { gs 1 2 0 with pending := [.add 0 4 1 2, .sub 0 4 1 2] } = exec (.add 0 4 1 2) { gs 1 2 0 with pending := [.sub 0 4 1 2] } := rfl

/-- R111's corners. -/
theorem test_div_by_zero : after (.div 0 4 1 2) (gs 5 0 0) (fun t => g4 t == BitVec.allOnes 64) = true := by decide +kernel
theorem test_rem_by_zero : after (.rem 0 4 1 2) (gs 5 0 0) (fun t => g4 t == 5) = true := by decide +kernel
theorem test_div_overflows : after (.div 0 4 1 2) (gs (2 ^ 63) (BitVec.allOnes 64) 0) (fun t => g4 t == 2 ^ 63) = true := by decide +kernel
theorem test_div_truncates : after (.div 0 4 1 2) (gs (-7) 2 0) (fun t => g4 t == -3) = true := by decide +kernel
theorem test_rem_takes_the_sign_of_ra : after (.rem 0 4 1 2) (gs (-7) 2 0) (fun t => g4 t == -1) = true := by decide +kernel
theorem test_add_wraps : after (.add 0 4 1 2) (gs (BitVec.allOnes 64) 1 0) (fun t => g4 t == 0 && (getQc t 0).pc == 0x8008) = true := by decide +kernel
theorem test_mulh_is_signed : after (.mulh 0 4 1 2) (gs (-1) 2 0) (fun t => g4 t == -1) = true := by decide +kernel
theorem test_shift_takes_six_bits : after (.shl 0 4 1 2) (gs 1 65 0) (fun t => g4 t == 2) = true := by decide +kernel
theorem test_sar_fills_with_the_sign : after (.sar 0 4 1 2) (gs (-8) 1 0) (fun t => g4 t == -4) = true := by decide +kernel
theorem test_clz_of_zero : after (.clz 0 4 1) (gs 0 0 0) (fun t => g4 t == 64) = true := by decide +kernel
theorem test_register_zero_stays_zero : after (.add 0 0 1 2) (gs 1 2 0) (fun t => rdG (getQc t 0) 0 == 0) = true := by decide +kernel
theorem test_two_word_immediate_moves_pc_by_16 : after (.addi 0 4 1 0x100000000 true) (gs 1 0 0) (fun t => g4 t == 0x100000001 && (getQc t 0).pc == 0x8010) = true := by
  decide +kernel
theorem test_branch_back : after (.beq 0 1 2 (-2)) (gs 3 3 0) (fun t => (getQc t 0).pc == 0x7FF0) = true := by decide +kernel
theorem test_branch_not_taken : after (.blt 0 1 2 4) (gs 3 (-3) 0) (fun t => (getQc t 0).pc == 0x8008) = true := by decide +kernel
theorem test_jal_links : after (.jal 0 4 3) (gs 0 0 0) (fun t => g4 t == 0x8008 && (getQc t 0).pc == 0x8018) = true := by decide +kernel

/-- A byte of memory at 64. -/
def withByte (b : Byte) (s : State) : State := { s with mem := { s.mem with cells := (64, b) :: s.mem.cells } }

theorem test_load_extends_the_sign : after (.ld8 0 4 1 0) (withByte 0x80 (gs 64 0 0)) (fun t => g4 t == -128) = true := by decide +kernel
theorem test_load_extends_with_zero : after (.ld8u 0 4 1 0) (withByte 0x80 (gs 64 0 0)) (fun t => g4 t == 128) = true := by decide +kernel
theorem test_store_is_little_endian :
    after (.st16 0 1 2 0) (gs 0x1234 64 0) (fun t => locByte t 64 == 0x34 && locByte t 65 == 0x12 && locByte t 66 == 0) = true := by decide +kernel
theorem test_tally_add_returns_the_old_value : after (.tallyAdd 0 4 1 2) (withByte 5 (gs 64 3 0)) (fun t => g4 t == 5 && locByte t 64 == 8) = true := by
  decide +kernel
theorem test_wait_not_met_blocks :
    after (.tallyWait 0 4 1 2) (withByte 5 (gs 64 6 0)) (fun t => (getQc t 0).blocked && t.fe.waiters.length == 1 && (getQc t 0).pc == 0x8000) = true := by
  decide +kernel
theorem test_instruction_outside_a_program_has_no_effect : exec (.add 0 4 1 2) up = .next up := rfl

/-- 1.0 and 2.0 as binary32, in element 0 of v1 and v2. -/
def vs (a b : VReg) : State := running 0 true (fun x => { x with v := [(1, a), (2, b)] }) up
def v3 (t : State) (i : Nat) : Nat := elem (rdV (getQc t 0) 3) 32 i

theorem test_vadd_binary32 : after (.vadd 0 3 1 2 0 1 7) (vs 0x3F800000 0x40000000) (fun t => v3 t 0 == 0x40400000 && v3 t 1 == 0) = true := by decide +kernel
theorem test_vdiv_by_zero_is_infinite :
    after (.vdiv 0 3 1 2 0 1 7) (vs 0x3F800000 0) (fun t => v3 t 0 == 0x7F800000 && (getQc t 0).vfcsr.getLsbD 8 == true) = true := by decide +kernel
theorem test_visub_wraps : after (.visub 0 3 1 2 0 1) (vs 0 1) (fun t => v3 t 0 == 0xFFFFFFFF && v3 t 1 == 0) = true := by decide +kernel
/-- The local view starts at address 0, partition 0's view at 2^40, and a core's window holds 2 MiB (Table 05-5). -/
theorem test_homes : homeOf 1 0 = some 0 ∧ homeOf 1 0xBA0000000 = none ∧ homeOf 1 (2 ^ 40 + 4096) = some (2 ^ 36) ∧ homeOf 1 (coreBase + 0x1FFFFF) = some (coreBase + 0x1FFFFF)
    ∧ homeOf 1 (coreBase + 0x200000) = none := by decide +kernel

theorem test_power_on : after (.coldPowerOn 48000 3300) State.reset (fun t => t.pw.powered && t.fl.boots == 1 && t.bt.stage == 0) = true := by decide +kernel
theorem test_power_out_of_range_stays_off : after (.coldPowerOn 39999 3300) State.reset (fun t => !t.pw.powered) = true := by decide +kernel
theorem test_short_reset_pulse_is_ignored : exec (.powerDown 999) up = .next up := rfl
theorem test_shipped_licence_is_grade_a :
    after .licence { up with bt := { up.bt with stage := 2, grade := 0 } } (fun t => t.bt.grade == 1 && t.bt.licCode == 0 && t.bt.stage == 3) = true := by decide +kernel
theorem test_revoked_licence_key :
    after .licence { up with bt := { up.bt with stage := 2, grade := 0 }, fl := { up.fl with licRevoked := [(0, true)] } } (fun t => t.bt.grade == 0 && t.bt.licCode == 3) = true := by decide +kernel
theorem test_leak_limits_every_windchest : after .leakWet up (fun t => (upto 16).all (fun w => decide (wcLimit t w ≤ 1200))) = true := by decide +kernel
theorem test_read_to_clear : after (.rcRegisterRead false 0x81010 8) { hosts with fr := { hosts.fr with absReq := 9 } }
    (fun t => t.fr.absReq == 0 && t.out == [.hostData false 9]) = true := by decide +kernel
theorem test_half_read_does_not_clear : after (.rcRegisterRead false 0x81010 4) { hosts with fr := { hosts.fr with absReq := 9 } } (fun t => t.fr.absReq == 9) = true := by
  decide +kernel
theorem test_power_cap_out_of_range_is_ignored : after (.registerWrite false 0x25408 8 999) hosts (fun t => t.pw.pwrCap == 4200) = true := by decide +kernel
theorem test_other_major_agrees_nothing : after (.negHostFeatures false 0x0102) hosts (fun t => (getFn t false).negAgreed == 0) = true := by decide +kernel
theorem test_settid : after (.settid 9) up (fun t => t.fw.tid == 9 && t.out == [.reply 1 1 0 []]) = true := by decide +kernel
theorem test_call_at_depth_8_is_illegal :
    after (.callCmd 0xE0000) (heads tq 0x12 0 0 0 0x9000 (fun v => { v with frames := List.replicate 8 someFrame }))
      (fun t => t.fr.faultCount == 1 && (getQ t tq).inflight.all (fun f => f.result == some 0x11)) = true := by decide +kernel
theorem test_context_create_wants_a_free_context :
    after (.ctxCreate false) (admin 0x20 1 0 0 id) (fun t => t.fr.faultCount == 1 && (getFn t false).adminBusy.all (fun b => b.result == some 0x11)) = true := by decide +kernel
theorem test_third_failed_lane_fails_the_port : after (.detect 0 7 0 true) (portIn { state := 1 }) (fun t => (getPort t 0).state == 9 && (getPort t 0).failReason == 1) = true := by
  decide +kernel
theorem test_patrol_counts_corrected_bits : after (.patrolScrub false 3 0 ⟨1, 0, false⟩) up (fun t => mget 0 t.mem.hbmCe 3 == 1 && mget 0 t.mem.hbmUe 3 == 0) = true := by
  decide +kernel
theorem test_context_reset : after (.contextReset 1 false) up (fun t => (getCtx t 1).state == 4) = true := by decide +kernel
theorem test_stop_freezes_nothing_at_once : after (.stop false) hosts (fun t => t.ob.stopState == 1 && t.ob.frozen == []) = true := by decide +kernel
/-- Reserved bits of a route-exception entry read 0 (R7). -/
theorem test_reserved_bits_of_a_route_entry : after (.routeExcWrite 5 (BitVec.allOnes 64)) up (fun t => mget 0 t.et.route 5 == 0x800007FFFFFFFFFF) = true := by
  decide +kernel
/-- Logical columns pass over the unused ones (R57). -/
theorem test_columns_shift_past_unused_ones : let r : TileRep := { cols := [(3, true), (7, true)] }
    physCol r 2 = 2 ∧ physCol r 3 = 4 ∧ physCol r 5 = 6 ∧ physCol r 6 = 8 ∧ physCol r 1023 = 1025 := by decide +kernel
/-- No engine, link or partition is served without a licence (R1). -/
theorem test_no_licence_no_engines : let s := { up with bt := { up.bt with grade := 0 } }
    (∀ k, k < 5 → engUp s k 0 = false) ∧ linkAllowed s true = false := by decide +kernel
theorem test_idle_step : step up = .next up := rfl

end Sys2Proof.Tests
end

section
/-! SUPPORT. What a log record, a notice, a trace point of a firmware processor and the alert's event change. -/

namespace Sys2Proof.Machine

/-! ### Log records (R290) -/

/-- A log record touches cycle counts, cycle accounts and the fault and log registers alone. -/
theorem addLog_keep {β : Type} (f : State → β) (h1 : ∀ k e t, f (setEng k e t) = f t) (h2 : ∀ isl t, f (tickIsland isl t) = f t)
    (h3 : ∀ isl t, f (bumpIseq isl t) = f t) (h4 : ∀ (t : State) (x : Fr), f { t with fr := x } = f t)
    (isl sev event a0 a1 : Nat) (s : State) : f (addLog isl sev event a0 a1 s) = f s := by
  have counted : f (bumpIseq isl (tick isl s)) = f s := (h3 ..).trans (tick_keep f h1 h2 ..)
  unfold addLog; dsimp only
  split
  · unfold appendLog; split
    · exact counted
    · exact (h4 ..).trans counted
  · split <;> exact (h4 ..).trans counted

@[simp] theorem addLog_pw (isl sev event a0 a1 : Nat) (s : State) : (addLog isl sev event a0 a1 s).pw = s.pw :=
  addLog_keep (·.pw) (fun _ _ _ => rfl) (fun _ _ => rfl) (fun _ _ => rfl) (fun _ _ => rfl) ..
@[simp] theorem addLog_fl (isl sev event a0 a1 : Nat) (s : State) : (addLog isl sev event a0 a1 s).fl = s.fl :=
  addLog_keep (·.fl) (fun _ _ _ => rfl) (fun _ _ => rfl) (fun _ _ => rfl) (fun _ _ => rfl) ..
@[simp] theorem addLog_bt (isl sev event a0 a1 : Nat) (s : State) : (addLog isl sev event a0 a1 s).bt = s.bt :=
  addLog_keep (·.bt) (fun _ _ _ => rfl) (fun _ _ => rfl) (fun _ _ => rfl) (fun _ _ => rfl) ..
@[simp] theorem addLog_fe (isl sev event a0 a1 : Nat) (s : State) : (addLog isl sev event a0 a1 s).fe = s.fe :=
  addLog_keep (·.fe) (fun _ _ _ => rfl) (fun _ _ => rfl) (fun _ _ => rfl) (fun _ _ => rfl) ..
@[simp] theorem addLog_et (isl sev event a0 a1 : Nat) (s : State) : (addLog isl sev event a0 a1 s).et = s.et :=
  addLog_keep (·.et) (fun _ _ _ => rfl) (fun _ _ => rfl) (fun _ _ => rfl) (fun _ _ => rfl) ..
@[simp] theorem addLog_fw (isl sev event a0 a1 : Nat) (s : State) : (addLog isl sev event a0 a1 s).fw = s.fw :=
  addLog_keep (·.fw) (fun _ _ _ => rfl) (fun _ _ => rfl) (fun _ _ => rfl) (fun _ _ => rfl) ..
@[simp] theorem addLog_ob (isl sev event a0 a1 : Nat) (s : State) : (addLog isl sev event a0 a1 s).ob = s.ob :=
  addLog_keep (·.ob) (fun _ _ _ => rfl) (fun _ _ => rfl) (fun _ _ => rfl) (fun _ _ => rfl) ..
@[simp] theorem addLog_out (isl sev event a0 a1 : Nat) (s : State) : (addLog isl sev event a0 a1 s).out = s.out :=
  addLog_keep (·.out) (fun _ _ _ => rfl) (fun _ _ => rfl) (fun _ _ => rfl) (fun _ _ => rfl) ..

/-- A log record leaves the notices kept for the Drone alone. -/
@[simp] theorem addLog_noticeHeld (isl sev event a0 a1 : Nat) (s : State) : (addLog isl sev event a0 a1 s).fr.noticeHeld = s.fr.noticeHeld := by
  unfold addLog appendLog; dsimp only; repeat' split
  all_goals simp

/-- Whether a processor works depends on power, bring-up and the processors alone. -/
theorem procUp_congr {s t : State} (hp : t.pw.powered = s.pw.powered) (hg : t.pw.goingDown = s.pw.goingDown) (hb : t.bt = s.bt)
    (hw : t.fw = s.fw) (i : Nat) : procUp t i = procUp s i := by
  simp only [procUp, procLoaded, fwUp, fabricEnded, getProc, hp, hg, hb, hw]

theorem droneUp_congr {s t : State} (hp : t.pw.powered = s.pw.powered) (hg : t.pw.goingDown = s.pw.goingDown) (hb : t.bt = s.bt)
    (hw : t.fw = s.fw) : droneUp t = droneUp s := by
  have role : droneProc t = droneProc s := by unfold droneProc getProc; rw [hw]
  unfold droneUp
  rw [role, procUp_congr hp hg hb hw]

/-- The log ring, its count, what processors keep while the Drone is down, and the count of dropped records. -/
def logParts (x : Fr) : NMap LogRec × Nat × NMap (List LogRec) × Nat := (x.logs, x.logCount, x.logHeld, x.logDropped)

/-- Where the fault and log registers at the record are those of `s`, and the log of `t` is as the record left it, `t` has logged it. -/
theorem logged_of_addLog {s s1 t : State} {isl sev event a0 a1 : Nat} (hfr : s1.fr = s.fr) (hd : droneUp s1 = droneUp s)
    (kept : logParts t.fr = logParts (addLog isl sev event a0 a1 s1).fr) : logged s t isl sev event a0 a1 := by
  simp only [logParts, Prod.mk.injEq] at kept
  obtain ⟨hl, hc, hh, hx⟩ := kept
  refine ⟨{ cycle := cycOf (tick isl s1) isl, iseq := iseqOf (tick isl s1) isl, island := isl, sev, event,
            arg0 := BitVec.ofNat 64 a0, arg1 := BitVec.ofNat 64 a1 }, rfl, rfl, rfl, rfl, rfl, ?_⟩
  unfold addLog at hl hc hh hx
  dsimp only at hl hc hh hx
  rw [hd] at hl hc hh hx
  by_cases up : droneUp s = true
  · rw [if_pos up] at hl hc ⊢
    unfold appendLog at hl hc
    by_cases low : sev < s.fr.logSevMin
    · rw [if_pos low]
      simpa [hfr, low] using And.intro hl hc
    · rw [if_neg low]
      simp only [bumpIseq_fr, tick_fr, hfr, if_neg low] at hl hc
      exact ⟨hc, by rw [hl, mget_mset_self]⟩
  · rw [if_neg up] at hh hx ⊢
    simp only [bumpIseq_fr, tick_fr, hfr] at hh hx
    split
    · rename_i room
      rw [hh, if_pos room]; exact mget_mset_self ..
    · rename_i full
      rw [hx, if_neg full]

/-! ### Notices and trace points (R293, R365) -/

theorem notice_keep {β : Type} (f : State → β) (h1 : ∀ (t : State) (x : List Output), f { t with fr := { t.fr with noticeHeld := x } } = f t)
    (h2 : ∀ o t, f (emit o t) = f t) (o : Output) (s : State) : f (notice o s) = f s := by
  unfold notice; repeat' split
  · exact h1 ..
  · rfl
  · exact h2 ..

/-- Where the buses and what waits for the Drone at the notice are those of `s`, and what leaves or waits in `t` is as the notice
left it, the notice of `t` went out. -/
theorem noticed_of_notice {s s1 t : State} {o : Output} (hd : droneUp s1 = droneUp s) (hp : s1.pw.i3cDead = s.pw.i3cDead)
    (hm : s1.pw.smbDead = s.pw.smbDead) (hh : s1.fr.noticeHeld = s.fr.noticeHeld) (ho : s1.out = s.out)
    (kept : t.fr.noticeHeld = (notice o s1).fr.noticeHeld) (sent : t.out = (notice o s1).out) : noticed s t o := by
  unfold noticed
  unfold notice at kept sent
  rw [hd, hp, hm] at kept sent
  by_cases up : droneUp s = true
  · rw [if_neg (by simp [up])]
    by_cases dead : (s.pw.i3cDead && s.pw.smbDead) = true
    · rw [if_pos dead]
      have same : t.out = s.out := by simpa [up, dead, ho] using sent
      exact fun x hx => .inl (same ▸ hx)
    · rw [if_neg dead]
      exact ⟨[], by simpa [up, dead, emit, ho] using sent⟩
  · have down : droneUp s = false := by simpa using up
    rw [if_pos down]
    simpa [down, hh] using kept

theorem fwPoint_keep {β : Type} (f : State → β) (h1 : ∀ (t : State) (o : Ob), f { t with ob := o } = f t)
    (h2 : ∀ isl t, f (bumpIseq isl t) = f t) (h3 : ∀ k e t, f (setEng k e t) = f t) (h4 : ∀ isl t, f (tickIsland isl t) = f t) (i code arg : Nat) (s : State) :
    f (fwPoint i code arg s) = f s := by
  unfold fwPoint pushTrace; split
  · rw [putTrace_keep f h1 h2, tick_keep f h3 h4]
  · rfl

@[simp] theorem fwPoint_pw (i code arg : Nat) (s : State) : (fwPoint i code arg s).pw = s.pw :=
  fwPoint_keep (·.pw) (fun _ _ => rfl) (fun _ _ => rfl) (fun _ _ _ => rfl) (fun _ _ => rfl) ..

/-! ### The alert's event (R361) -/

theorem sensorEvent_keep {β : Type} (f : State → β) (h : ∀ o t, f (emit o t) = f t) (x v : Nat) (s : State) : f (sensorEvent x v s) = f s := by
  unfold sensorEvent; split
  · exact h ..
  · rfl

theorem alertEvent_keep {β : Type} (f : State → β) (h : ∀ o t, f (emit o t) = f t) (s t : State) : f (alertEvent s t) = f t := by
  unfold alertEvent; split
  · rfl
  · exact sensorEvent_keep f h ..

@[simp] theorem alertEvent_pw (s t : State) : (alertEvent s t).pw = t.pw := alertEvent_keep (·.pw) (fun _ _ => rfl) ..
@[simp] theorem alertEvent_fl (s t : State) : (alertEvent s t).fl = t.fl := alertEvent_keep (·.fl) (fun _ _ => rfl) ..
@[simp] theorem alertEvent_fr (s t : State) : (alertEvent s t).fr = t.fr := alertEvent_keep (·.fr) (fun _ _ => rfl) ..

end Sys2Proof.Machine
end

section
/-! SUPPORT. The power loop, the thermal loop, trips, phases, clamps and hours (R21, R82, R294 to R297, R361, R366). -/

namespace Sys2Proof.Machine

/-! ### What a power event keeps and takes -/

@[simp] theorem wcLimit_onlyPower (s t : State) (w : Nat) : wcLimit (onlyPower s t) w = wcLimit t w := rfl
@[simp] theorem tripped_onlyPower (s t : State) (w : Nat) : tripped (onlyPower s t) w = tripped t w := rfl
@[simp] theorem wcLimit_onlyMgmt (s t : State) (w : Nat) : wcLimit (onlyMgmt s t) w = wcLimit t w := rfl

theorem workKept_onlyPower (s t : State) : workKept s (onlyPower s t) := ⟨rfl, rfl, rfl, rfl, rfl, rfl⟩

/-- Flash with its fused parts taken from a state whose own they are. -/
theorem keepQueue_fl_self {s t : State} (h : t.fl = s.fl) : (keepQueue s t).fl = s.fl := by
  simp [keepQueue, h]

theorem onlyPower_fl_of_same {s t : State} (h : t.fl = s.fl) : (onlyPower s t).fl = s.fl :=
  keepQueue_fl_self (s := s) (t := { t with fl := t.fl }) h

@[simp] theorem wcLimit_alertEvent (s t : State) (w : Nat) : wcLimit (alertEvent s t) w = wcLimit t w := by simp [wcLimit]
@[simp] theorem tripped_alertEvent (s t : State) (w : Nat) : tripped (alertEvent s t) w = tripped t w := by simp [tripped]

@[simp] theorem wcLimit_addLog (isl sev event a0 a1 : Nat) (s : State) (w : Nat) : wcLimit (addLog isl sev event a0 a1 s) w = wcLimit s w := by
  simp [wcLimit]

/-! ### The power loop -/

/-- How far a Bellows' half holds its array and its core islands below their highest clock. -/
def dropsOf (pw : Pw) (bw : Nat) : Nat × Nat := (mget 0 pw.arrayDrop bw, mget 0 pw.coreDrop bw)

/-- One round on the pair of drops: `d` down where the power is above the cap, 25 MHz back up where it is not. -/
def stepDrops (above : Bool) (d : Nat) (x : Nat × Nat) : Nat × Nat :=
  if above then if x.1 < 2475 then (min 2475 (x.1 + d), x.2) else (x.1, min 2475 (x.2 + d))
  else if 0 < x.2 then (x.1, x.2 - 25) else (x.1 - 25, x.2)

/-- A round of one Bellows moves its own half and leaves the other's. -/
theorem dropsOf_capStep (above : Bool) (bw n : Nat) (pw : Pw) (k : Nat) :
    dropsOf (capStep above bw n pw) k =
      if k = bw then stepDrops above (25 * (1 + Config.powerSteps n)) (dropsOf pw bw) else dropsOf pw k := by
  unfold capStep stepDrops dropsOf
  by_cases hk : k = bw
  · subst hk
    dsimp only
    rw [if_pos rfl]
    repeat' split
    all_goals simp
  · dsimp only
    rw [if_neg hk]
    repeat' split
    all_goals simp [mget_mset, hk]

theorem capStep_readings (above : Bool) (bw n : Nat) (pw : Pw) :
    (capStep above bw n pw).powerNow = pw.powerNow ∧ (capStep above bw n pw).vinNow = pw.vinNow
    ∧ (capStep above bw n pw).clamped = pw.clamped := by
  unfold capStep
  dsimp only
  repeat' split
  all_goals exact ⟨rfl, rfl, rfl⟩

/-- The turn of one Bellows in a round of the power loop. -/
def powerTurn (s : State) (above : Bool) (t : State) (bw : Nat) : State :=
  if procUp s (52 + bw) then fwPoint (52 + bw) 3 0 (nextFree { t with pw := capStep above bw t.free t.pw }) else t

/-- What a round reads before the Bellows act. -/
def powerRead (s : State) (watts vin : Nat) : State :=
  { s with pw := { s.pw with powerNow := watts, vinNow := vin / 10, vin := (vin : Int), currentHeld := decide (vin < 40000), clamped := [] } }

theorem exec_powerLoop {s : State} {watts vin : Nat} (hp : s.pw.powered = true) (hg : s.pw.pwrGood = true)
    (up : (procUp s 52 || procUp s 53) = true) :
    exec (.powerLoop watts vin) s = .next (onlyMgmt s (
      powerTurn s (decide (effectiveCap s vin < 10 * watts)) (powerTurn s (decide (effectiveCap s vin < 10 * watts)) (powerRead s watts vin) 0) 1)) := by
  show execPowerLoop watts vin s = _
  unfold execPowerLoop
  rw [if_neg (by simp [hp, hg, up])]
  rfl

theorem powerTurn_readings (s : State) (above : Bool) (t : State) (bw : Nat) :
    (powerTurn s above t bw).pw.powerNow = t.pw.powerNow ∧ (powerTurn s above t bw).pw.vinNow = t.pw.vinNow
    ∧ (powerTurn s above t bw).pw.clamped = t.pw.clamped := by
  unfold powerTurn; split
  · simpa using capStep_readings ..
  · exact ⟨rfl, rfl, rfl⟩

theorem dropsOf_powerTurn_other (s : State) (above : Bool) (t : State) {bw k : Nat} (h : k ≠ bw) :
    dropsOf (powerTurn s above t bw).pw k = dropsOf t.pw k := by
  unfold powerTurn; split
  · simp [dropsOf_capStep, h]
  · rfl

/-- What the rule says of one half: it stands where its Bellows is down; above the cap its array islands step down, and its core
islands once those are at their lowest; else its core islands rise first. -/
def halfMoves (up above : Bool) (x y : Nat × Nat) : Prop :=
  (up = false → y = x)
  ∧ (up = true → above = true → x.1 < 2475 → x.1 < y.1 ∧ y.1 ≤ 2475 ∧ y.2 = x.2)
  ∧ (up = true → above = true → 2475 ≤ x.1 → x.2 < 2475 → y.1 = x.1 ∧ x.2 < y.2 ∧ y.2 ≤ 2475)
  ∧ (up = true → above = false → 0 < x.2 → y = (x.1, x.2 - 25))
  ∧ (up = true → above = false → x.2 = 0 → y = (x.1 - 25, 0))

theorem halfMoves_stepDrops (above : Bool) {d : Nat} (hd : 0 < d) (x : Nat × Nat) : halfMoves true above x (stepDrops above d x) := by
  obtain ⟨a, c⟩ := x
  unfold halfMoves stepDrops
  cases above with
  | true =>
    by_cases ha : a < 2475
    · simp [ha]; omega
    · simp [ha]; omega
  | false =>
    by_cases hc : 0 < c
    · simp [hc]; omega
    · simp [hc]

theorem halfMoves_powerTurn (s : State) (above : Bool) (t : State) (bw : Nat) :
    halfMoves (procUp s (52 + bw)) above (dropsOf t.pw bw) (dropsOf (powerTurn s above t bw).pw bw) := by
  unfold powerTurn
  cases up : procUp s (52 + bw) with
  | true =>
    simp only [if_true, fwPoint_pw, nextFree_pw, dropsOf_capStep]
    exact halfMoves_stepDrops _ (by omega) _
  | false => simp [halfMoves]

/-- Both halves after a round: each by its own Bellows' turn alone. -/
theorem halfMoves_round (s u : State) (above : Bool) {bw : Nat} (h : bw < 2) :
    halfMoves (procUp s (52 + bw)) above (dropsOf u.pw bw) (dropsOf (powerTurn s above (powerTurn s above u 0) 1).pw bw) := by
  obtain rfl | rfl : bw = 0 ∨ bw = 1 := by omega
  · rw [dropsOf_powerTurn_other _ _ _ (by decide)]
    exact halfMoves_powerTurn ..
  · rw [← dropsOf_powerTurn_other s above u (show 1 ≠ 0 by decide)]
    exact halfMoves_powerTurn ..

theorem powerLoop_moves {s : State} (hp : s.pw.powered = true) (watts vin : Nat) (hg : s.pw.pwrGood = true)
    (up : (procUp s 52 || procUp s 53) = true) :
    ∃ t, exec (.powerLoop watts vin) s = .next t ∧ t.pw.powerNow = watts ∧ t.pw.vinNow = vin / 10 ∧ t.pw.clamped = []
      ∧ (∀ bw, bw < 2 → halfMoves (procUp s (52 + bw)) (decide (effectiveCap s vin < 10 * watts)) (dropsOf s.pw bw) (dropsOf t.pw bw))
      ∧ t.mem = s.mem ∧ t.ax = s.ax ∧ t.rx = s.rx := by
  refine ⟨_, exec_powerLoop hp hg up, ?_⟩
  generalize decide (effectiveCap s vin < 10 * watts) = above
  obtain ⟨w1, v1, c1⟩ := powerTurn_readings s above (powerTurn s above (powerRead s watts vin) 0) 1
  obtain ⟨w0, v0, c0⟩ := powerTurn_readings s above (powerRead s watts vin) 0
  exact ⟨w1.trans w0, v1.trans v0, c1.trans c0, fun bw hb => halfMoves_round s (powerRead s watts vin) above hb, rfl, rfl, rfl⟩

/-! ### The thermal loop -/

/-- The thermal periods since a windchest's last step. -/
def setTick (w n : Nat) (s : State) : State := { s with pw := { s.pw with wcTick := mset 0 s.pw.wcTick w n } }

@[simp] theorem setLimit_wcDrop (w mhz cause : Nat) (s : State) : (setLimit w mhz cause s).pw.wcDrop = mset 0 s.pw.wcDrop w (2500 - mhz) := rfl

@[simp] theorem wcLimit_setTick (w n k : Nat) (s : State) : wcLimit (setTick w n s) k = wcLimit s k := rfl

theorem wcLimit_setLimit {w mhz cause : Nat} {s : State} (h : mhz ≤ 2500) : wcLimit (setLimit w mhz cause s) w = mhz := by
  simp [wcLimit]; omega

theorem foldl_addLog_pw (ls : List Nat) (isl sev event a0 : Nat) (s : State) :
    (ls.foldl (fun t i => addLog isl sev event a0 i t) s).pw = s.pw := by
  induction ls generalizing s with
  | nil => rfl
  | cons i ls ih => rw [List.foldl_cons, ih, addLog_pw]

/-- A THROTTLE record changes no reading and no limit. -/
theorem throttleLog_pw (w before : Nat) (s : State) : ∃ q, (throttleLog w before s).pw = { s.pw with wcQuiet := q } := by
  unfold throttleLog; dsimp only; split
  · exact ⟨_, addLog_pw ..⟩
  · exact ⟨_, rfl⟩

/-- The readings of a period, stored and with a record of each sensor that has become invalid. -/
def thermalRead (r : WcReading) (s : State) : State :=
  ((upto r.sensors.length).filter (fun i =>
      invalidMask r.sensors / 256 ^ i % 256 == 1 && mget 0 s.pw.wcInvalid r.wc / 256 ^ i % 256 == 0)).foldl
    (fun t i => addLog (bwIsland (wcBw r.wc)) 2 0x0303 r.wc i t)
    { s with pw := { s.pw with
        wcHot := mset 0 s.pw.wcHot r.wc ((r.sensors.map sensorTemp).foldl max 0), wcHbm := mset 0 s.pw.wcHbm r.wc r.hbm
        wcInvalid := mset 0 s.pw.wcInvalid r.wc (invalidMask r.sensors)
        wcAlert := mset false s.pw.wcAlert r.wc (decide (1050 ≤ (r.sensors.map sensorTemp).foldl max 0)) } }

/-- The limit that a period sets, by the first cause that applies in the state `s` before it; `u` is the state that takes it. -/
def thermalChoose (r : WcReading) (hot : Nat) (ceil : Nat × Nat) (s u : State) : State :=
  if tripped s r.wc then setLimit r.wc 1200 5 u
  else if 1050 ≤ hot then setTick r.wc 0 (setLimit r.wc 1200 4 u)
  else if ceil.1 < wcLimit s r.wc then setTick r.wc 0 (setLimit r.wc ceil.1 ceil.2 u)
  else if bfld s.pw.thermCfg 0 16 < hot then setTick r.wc 0 (setLimit r.wc (max 25 (wcLimit s r.wc - 25)) 2 u)
  else if bfld s.pw.thermCfg 16 16 < r.hbm then setTick r.wc 0 (setLimit r.wc (max 25 (wcLimit s r.wc - 25)) 3 u)
  else if (if ceil.1 = 2300 then 20 else 10) ≤ mget 0 s.pw.wcTick r.wc + 1 then
    setTick r.wc 0 (setLimit r.wc (min ceil.1 (wcLimit s r.wc + 25)) (if ceil.1 ≤ wcLimit s r.wc + 25 then ceil.2 else mget 0 s.pw.wcCause r.wc) u)
  else setTick r.wc (mget 0 s.pw.wcTick r.wc + 1) u

theorem thermalStep_eq {r : WcReading} {s : State} (hw : r.wc < 16) (up : procUp s (52 + wcBw r.wc) = true) :
    thermalStep r s = fwPoint (52 + wcBw r.wc) 7 r.wc (throttleLog r.wc (wcLimit s r.wc)
      (thermalChoose r ((r.sensors.map sensorTemp).foldl max 0) (wcCeiling s (r.sensors.filter (·.isNone)).length) s (thermalRead r s))) := by
  unfold thermalStep
  rw [if_neg (by simp [up]; omega)]
  rfl

/-- Only the limit, its cause and the periods counted depend on what a period chooses. -/
theorem thermalChoose_keep {β : Type} (f : State → β) (h1 : ∀ w n t, f (setTick w n t) = f t)
    (h2 : ∀ w mhz cause t, f (setLimit w mhz cause t) = f t)
    (r : WcReading) (hot : Nat) (ceil : Nat × Nat) (s u : State) : f (thermalChoose r hot ceil s u) = f u := by
  unfold thermalChoose
  repeat' split
  all_goals simp only [h1, h2]

theorem thermalChoose_other (r : WcReading) (hot : Nat) (ceil : Nat × Nat) (s u : State) {k : Nat} (h : k ≠ r.wc) :
    wcLimit (thermalChoose r hot ceil s u) k = wcLimit u k := by
  unfold thermalChoose
  repeat' split
  all_goals simp [wcLimit, setLimit, setTick, mget_mset, h]

/-- A windchest that has tripped, or has a sensor at TL_MAX, is held at 1.2 GHz. -/
theorem thermalChoose_hot {r : WcReading} {hot : Nat} (ceil : Nat × Nat) (s u : State) (h : 1050 ≤ hot) :
    wcLimit (thermalChoose r hot ceil s u) r.wc = 1200 := by
  unfold thermalChoose
  by_cases trip : tripped s r.wc = true
  · rw [if_pos trip]; exact wcLimit_setLimit (by decide)
  · rw [if_neg trip, if_pos h, wcLimit_setTick]; exact wcLimit_setLimit (by decide)

/-- Above the sensor limit of THERM_CFG one step of 25 MHz is taken down. -/
theorem thermalChoose_step {r : WcReading} {hot : Nat} {ceil : Nat × Nat} {s : State} (u : State) (cool : hot < 1050)
    (above : bfld s.pw.thermCfg 0 16 < hot) (free : tripped s r.wc = false) (fits : wcLimit s r.wc ≤ ceil.1) :
    wcLimit (thermalChoose r hot ceil s u) r.wc = max 25 (wcLimit s r.wc - 25) := by
  unfold thermalChoose
  rw [if_neg (by simp [free]), if_neg (by omega), if_neg (by omega), if_pos above, wcLimit_setTick]
  exact wcLimit_setLimit (by unfold wcLimit; omega)

@[simp] theorem thermalRead_pw (r : WcReading) (s : State) : (thermalRead r s).pw =
    { s.pw with
      wcHot := mset 0 s.pw.wcHot r.wc ((r.sensors.map sensorTemp).foldl max 0), wcHbm := mset 0 s.pw.wcHbm r.wc r.hbm
      wcInvalid := mset 0 s.pw.wcInvalid r.wc (invalidMask r.sensors)
      wcAlert := mset false s.pw.wcAlert r.wc (decide (1050 ≤ (r.sensors.map sensorTemp).foldl max 0)) } := foldl_addLog_pw ..

@[simp] theorem wcLimit_thermalRead (r : WcReading) (s : State) (k : Nat) : wcLimit (thermalRead r s) k = wcLimit s k := by simp [wcLimit]

theorem throttleLog_keep {β : Type} (f : Pw → β) (h : ∀ (p : Pw) (q : NMap Nat), f { p with wcQuiet := q } = f p) (w before : Nat) (s : State) :
    f (throttleLog w before s).pw = f s.pw := by
  obtain ⟨q, hq⟩ := throttleLog_pw w before s
  rw [hq, h]

theorem wcLimit_thermalStep {r : WcReading} {s : State} (hw : r.wc < 16) (up : procUp s (52 + wcBw r.wc) = true) (k : Nat) :
    wcLimit (thermalStep r s) k = wcLimit (thermalChoose r ((r.sensors.map sensorTemp).foldl max 0)
      (wcCeiling s (r.sensors.filter (·.isNone)).length) s (thermalRead r s)) k := by
  rw [thermalStep_eq hw up]
  unfold wcLimit
  rw [fwPoint_pw, throttleLog_keep (fun p => 2500 - mget 0 p.wcDrop k) (fun _ _ => rfl)]

theorem thermalStep_readings {r : WcReading} {s : State} (hw : r.wc < 16) (up : procUp s (52 + wcBw r.wc) = true) :
    (thermalStep r s).pw.wcHot = mset 0 s.pw.wcHot r.wc ((r.sensors.map sensorTemp).foldl max 0)
    ∧ (thermalStep r s).pw.wcHbm = mset 0 s.pw.wcHbm r.wc r.hbm ∧ (thermalStep r s).pw.fastRefresh = s.pw.fastRefresh := by
  rw [thermalStep_eq hw up, fwPoint_pw, throttleLog_keep (·.wcHot) (fun _ _ => rfl), throttleLog_keep (·.wcHbm) (fun _ _ => rfl),
    throttleLog_keep (·.fastRefresh) (fun _ _ => rfl), thermalChoose_keep (·.pw.wcHot) (fun _ _ _ => rfl) (fun _ _ _ _ => rfl),
    thermalChoose_keep (·.pw.wcHbm) (fun _ _ _ => rfl) (fun _ _ _ _ => rfl),
    thermalChoose_keep (·.pw.fastRefresh) (fun _ _ _ => rfl) (fun _ _ _ _ => rfl), thermalRead_pw]
  exact ⟨rfl, rfl, rfl⟩

/-- The state that a period of the thermal loop begins with: the refresh rate follows the stack's readout. -/
def thermalStart (r : WcReading) (s : State) : State :=
  setRefresh r { s with pw := { s.pw with converged := s.pw.converged || true } }

theorem exec_thermalLoop {s : State} (hp : s.pw.powered = true) (hg : s.pw.pwrGood = true) (r : WcReading) :
    exec (.thermalLoop [r] true) s = .next (onlyMgmt s (alertEvent s (thermalStep r (thermalStart r s)))) := by
  show execThermalLoop [r] true s = _
  unfold execThermalLoop
  rw [if_pos (by simp [hp, hg])]
  rfl

theorem thermalStart_pw {r : WcReading} {s : State} (hw : r.wc < 16) (hc : s.pw.converged = true) :
    (thermalStart r s).pw = { s.pw with fastRefresh := mset false s.pw.fastRefresh r.wc (decide (850 < r.hbm)) } := by
  unfold thermalStart setRefresh
  rw [if_pos hw]
  simp [hc]

theorem thermalLoop_effect {s : State} (hp : s.pw.powered = true) (r : WcReading) (hg : s.pw.pwrGood = true) (hc : s.pw.converged = true)
    (hw : r.wc < 16) (up : procUp s (52 + wcBw r.wc) = true) :
    let hot := (r.sensors.map sensorTemp).foldl max 0
    ∃ t, exec (.thermalLoop [r] true) s = .next t ∧ mget 0 t.pw.wcHot r.wc = hot ∧ mget 0 t.pw.wcHbm r.wc = r.hbm
      ∧ mget false t.pw.fastRefresh r.wc = decide (850 < r.hbm)
      ∧ (1050 ≤ hot → wcLimit t r.wc = 1200)
      ∧ (hot < 1050 → bfld s.pw.thermCfg 0 16 < hot → tripped s r.wc = false → wcLimit s r.wc ≤ (wcCeiling s (r.sensors.filter (·.isNone)).length).1 →
          wcLimit t r.wc = max 25 (wcLimit s r.wc - 25))
      ∧ (∀ w, w ≠ r.wc → wcLimit t w = wcLimit s w) ∧ t.mem = s.mem := by
  intro hot
  refine ⟨_, exec_thermalLoop hp hg r, ?_⟩
  have start := thermalStart_pw (r := r) hw hc
  have up' : procUp (thermalStart r s) (52 + wcBw r.wc) = true := by
    have outer : (thermalStart r s).bt = s.bt ∧ (thermalStart r s).fw = s.fw := by
      unfold thermalStart setRefresh; rw [if_pos hw]; exact ⟨rfl, rfl⟩
    rw [procUp_congr (by rw [start]) (by rw [start]) outer.1 outer.2]; exact up
  have before : ∀ w, wcLimit (thermalStart r s) w = wcLimit s w := by intro w; simp [wcLimit, start]
  have cfg : (thermalStart r s).pw.thermCfg = s.pw.thermCfg := by rw [start]
  have trip : tripped (thermalStart r s) r.wc = tripped s r.wc := by simp [tripped, start]
  have top : ∀ n, wcCeiling (thermalStart r s) n = wcCeiling s n := by intro n; simp [wcCeiling, start]
  obtain ⟨hotIs, hbmIs, fastIs⟩ := thermalStep_readings hw up'
  have limit : ∀ w, wcLimit (onlyMgmt s (alertEvent s (thermalStep r (thermalStart r s)))) w
      = wcLimit (thermalChoose r hot (wcCeiling s (r.sensors.filter (·.isNone)).length) (thermalStart r s) (thermalRead r (thermalStart r s))) w := by
    intro w
    rw [wcLimit_onlyMgmt, wcLimit_alertEvent, wcLimit_thermalStep hw up', top]
  refine ⟨?_, ?_, ?_, ?_, ?_, ?_, rfl⟩
  · show mget 0 (alertEvent s _).pw.wcHot r.wc = hot
    rw [alertEvent_pw, hotIs, mget_mset_self]
  · show mget 0 (alertEvent s _).pw.wcHbm r.wc = r.hbm
    rw [alertEvent_pw, hbmIs, mget_mset_self]
  · show mget false (alertEvent s _).pw.fastRefresh r.wc = _
    rw [alertEvent_pw, fastIs, start, mget_mset_self]
  · intro h
    rw [limit, thermalChoose_hot _ _ _ h]
  · intro cool above free fits
    rw [limit, thermalChoose_step _ cool (by rwa [cfg]) (by rwa [trip]) (by rwa [before]), before]
  · intro w hne
    rw [limit, thermalChoose_other _ _ _ _ _ hne, wcLimit_thermalRead, before]

/-! ### Trips, phases, clamps, hours and alerts -/

theorem thermAlert_of_tripped {s : State} {w : Nat} (hw : w < 16) (h : tripped s w = true) : thermAlert s = true := by
  have any : (upto 16).any (fun w => mget false s.pw.wcAlert w || tripped s w) = true :=
    List.any_eq_true.mpr ⟨w, List.mem_range.mpr hw, by simp [h]⟩
  simp [thermAlert, any]

/-- A hardware trip of a windchest, counted in flash, before its limit is set. -/
def tripState (wc temp : Nat) (s : State) : State :=
  { s with
    pw := { s.pw with wcTrip := mset false s.pw.wcTrip wc true, wcAlert := mset false s.pw.wcAlert wc true
                      wcHot := mset 0 s.pw.wcHot wc (max temp (mget 0 s.pw.wcHot wc)) }
    fl := { s.fl with lifeTrips := s.fl.lifeTrips + 1 } }

theorem exec_thermTrip {s : State} {wc temp : Nat} (hp : s.pw.powered = true) (hw : wc < 16) (hot : 1150 ≤ temp) (free : tripped s wc = false) :
    exec (.thermTrip wc temp) s =
      .next (onlyPower s (alertEvent s (addLog (bwIsland (wcBw wc)) 3 0x0302 wc temp (setLimit wc 1200 5 (tripState wc temp s))))) := by
  show execThermTrip wc temp s = _
  unfold execThermTrip
  rw [if_pos (by simp [hp, hw, hot, free])]
  rfl

theorem thermTrip_stops {s : State} (hp : s.pw.powered = true) (wc temp : Nat) (hw : wc < 16) (hot : 1150 ≤ temp) (free : tripped s wc = false) :
    ∃ t, exec (.thermTrip wc temp) s = .next t ∧ tripped t wc = true ∧ wcLimit t wc = 1200 ∧ thermAlert t = true
      ∧ t.fl.lifeTrips = s.fl.lifeTrips + 1 ∧ logged s t (bwIsland (wcBw wc)) 3 0x0302 wc temp ∧ workKept s t := by
  refine ⟨_, exec_thermTrip hp hw hot free, ?_⟩
  generalize hu : setLimit wc 1200 5 (tripState wc temp s) = u
  have trip : tripped u wc = true := by subst hu; exact mget_mset_self false s.pw.wcTrip wc true
  have trip' : tripped (onlyPower s (alertEvent s (addLog (bwIsland (wcBw wc)) 3 0x0302 wc temp u))) wc = true := by
    rw [tripped_onlyPower, tripped_alertEvent]; unfold tripped; rw [addLog_pw]; exact trip
  refine ⟨trip', ?_, thermAlert_of_tripped hw trip', ?_, ?_, workKept_onlyPower ..⟩
  · rw [wcLimit_onlyPower, wcLimit_alertEvent, wcLimit_addLog, ← hu]
    exact wcLimit_setLimit (by decide)
  · show (alertEvent s _).fl.lifeTrips = _
    rw [alertEvent_fl, addLog_fl, ← hu]; rfl
  · subst hu
    refine logged_of_addLog (s1 := setLimit wc 1200 5 (tripState wc temp s)) rfl (droneUp_congr rfl rfl rfl rfl) ?_
    show logParts (alertEvent s _).fr = _
    rw [alertEvent_fr]

/-! ### The end of a trip -/

theorem thermalStall_keep {β : Type} (f : State → β) (h1 : ∀ (t : State) (x : En), f { t with en := x } = f t)
    (h2 : ∀ k e t, f (setEng k e t) = f t)
    (kind index : Nat) (s : State) : f (thermalStall kind index s) = f s := by
  unfold thermalStall
  exact (foldl_charge_keep f h2 ..).trans (h1 ..)

@[simp] theorem thermalStall_pw (kind index : Nat) (s : State) : (thermalStall kind index s).pw = s.pw :=
  thermalStall_keep (·.pw) (fun _ _ => rfl) (fun _ _ _ => rfl) ..

theorem foldl_thermalStall_pw (kind : Nat) (index : Nat → Nat) (ks : List Nat) (s : State) :
    (ks.foldl (fun u k => thermalStall kind (index k) u) s).pw = s.pw := by
  induction ks generalizing s with
  | nil => rfl
  | cons k ks ih => rw [List.foldl_cons, ih, thermalStall_pw]

theorem foldl_dies_pw (f : Nat → State → State) (h : ∀ cd t, (f cd t).pw = t.pw) (cds : List Nat) (s : State) :
    (cds.foldl (fun t cd => f cd t) s).pw = s.pw := by
  induction cds generalizing s with
  | nil => rfl
  | cons cd cds ih => rw [List.foldl_cons, ih, h]

theorem thermTripClear_ends {s : State} (hp : s.pw.powered = true) (wc : Nat) (temps : List Nat) (trip : tripped s wc = true) (given : temps ≠ [])
    (cool : ∀ x ∈ temps, x < 1000) :
    ∃ t, exec (.thermTripClear wc temps) s = .next t ∧ tripped t wc = false ∧ workKept s t := by
  have clears : (s.pw.powered && tripped s wc && temps.all (fun t => decide (t < 1000)) && !temps.isEmpty) = true := by
    simpa [hp, trip, given] using cool
  refine ⟨_, show execThermTripClear wc temps s = _ by unfold execThermTripClear; rw [if_pos clears], ?_, workKept_onlyPower ..⟩
  rw [tripped_onlyPower, tripped_alertEvent]
  unfold tripped
  rw [nextFree_pw]
  have chest : ∀ u : State, ((wcCds wc).foldl (fun t cd => (upto 64).foldl (fun u k => thermalStall kVX (64 * cd + k) u) t) u).pw = u.pw :=
    fun u => foldl_dies_pw _ (fun cd t => foldl_thermalStall_pw kVX (64 * cd + ·) (upto 64) t) _ u
  split
  · rw [thermalStall_pw, chest]; exact mget_mset_self false s.pw.wcTrip wc false
  · rw [chest]; exact mget_mset_self false s.pw.wcTrip wc false

/-! ### Phases -/

/-- The phase listed as failed and counted. -/
def phaseState (bw phase : Nat) (s : State) : State :=
  { s with pw := { s.pw with failedCount := mset 0 s.pw.failedCount bw (mget 0 s.pw.failedCount bw + 1)
                             failedPhase := mset false s.pw.failedPhase (42 * bw + phase) true } }

/-- The phase's record, and the tray's notice where no spare is left. -/
def phaseTold (bw phase : Nat) (s : State) : State :=
  let u := addLog (bwIsland bw) 2 0x0304 bw (phase + 64 * b01 (decide (2 ≤ mget 0 s.pw.failedCount bw))) (phaseState bw phase s)
  if 2 ≤ mget 0 s.pw.failedCount bw then faultNotice none (bwIsland bw) 0 0 u else u

theorem exec_phaseFail {s : State} {bw phase : Nat} (hp : s.pw.powered = true) (hb : bw < 2) (hph : phase < 42)
    (works : mget false s.pw.failedPhase (42 * bw + phase) = false) :
    exec (.phaseFail bw phase) s = .next (onlyPower s (phaseTold bw phase s)) := by
  show execPhaseFail bw phase s = _
  unfold execPhaseFail
  rw [if_neg (by simp [hp, works]; omega)]
  rfl

theorem phaseTold_keep {β : Type} (f : State → β) (h : ∀ o t, f (notice o t) = f t) (bw phase : Nat) (s : State) :
    f (phaseTold bw phase s) =
      f (addLog (bwIsland bw) 2 0x0304 bw (phase + 64 * b01 (decide (2 ≤ mget 0 s.pw.failedCount bw))) (phaseState bw phase s)) := by
  unfold phaseTold; dsimp only; split
  · exact h ..
  · rfl

theorem phaseTold_pw (bw phase : Nat) (s : State) : (phaseTold bw phase s).pw = (phaseState bw phase s).pw := by
  rw [phaseTold_keep (·.pw) (notice_keep (·.pw) (fun _ _ => rfl) (fun _ _ => rfl)), addLog_pw]

/-- A phase beyond the spares is one more phase short. -/
theorem phasesShort_phaseTold {s : State} {bw phase : Nat} (hb : bw < 2) (short : 2 ≤ mget 0 s.pw.failedCount bw) :
    phasesShort (phaseTold bw phase s) = phasesShort s + 1 := by
  unfold phasesShort
  rw [phaseTold_pw]
  obtain rfl | rfl : bw = 0 ∨ bw = 1 := by omega
  · simp only [phaseState, mget_mset]; simp; omega
  · simp only [phaseState, mget_mset]; simp; omega

theorem phaseFail_told {s : State} (hp : s.pw.powered = true) (bw phase : Nat) (hb : bw < 2) (hph : phase < 42)
    (works : mget false s.pw.failedPhase (42 * bw + phase) = false) :
    let n := mget 0 s.pw.failedCount bw
    ∃ t, exec (.phaseFail bw phase) s = .next t ∧ mget 0 t.pw.failedCount bw = n + 1
      ∧ logged s t (bwIsland bw) 2 0x0304 bw (phase + 64 * b01 (decide (2 ≤ n)))
      ∧ (2 ≤ n → noticed s t (.faultNotice none (bwIsland bw) 0 0) ∧ phasesShort t = phasesShort s + 1) ∧ workKept s t := by
  intro n
  refine ⟨_, exec_phaseFail hp hb hph works, ?_, ?_, ?_, workKept_onlyPower ..⟩
  · show mget 0 (phaseTold bw phase s).pw.failedCount bw = n + 1
    rw [phaseTold_pw]; exact mget_mset_self 0 s.pw.failedCount bw (n + 1)
  · refine logged_of_addLog (s1 := phaseState bw phase s) rfl (droneUp_congr rfl rfl rfl rfl) ?_
    exact phaseTold_keep (logParts ·.fr) (notice_keep (logParts ·.fr) (fun _ _ => rfl) (fun _ _ => rfl)) bw phase s
  · intro short
    refine ⟨?_, phasesShort_phaseTold hb short⟩
    have told : phaseTold bw phase s = notice (.faultNotice none (bwIsland bw) 0 0)
        (addLog (bwIsland bw) 2 0x0304 bw (phase + 64 * b01 (decide (2 ≤ n))) (phaseState bw phase s)) := if_pos short
    rw [told]
    apply noticed_of_notice (s1 := addLog (bwIsland bw) 2 0x0304 bw (phase + 64 * b01 (decide (2 ≤ n))) (phaseState bw phase s)) _ _ _ _ _ rfl rfl
    · exact droneUp_congr (by rw [addLog_pw]; rfl) (by rw [addLog_pw]; rfl) (addLog_bt ..) (addLog_fw ..)
    · rw [addLog_pw]; rfl
    · rw [addLog_pw]; rfl
    · rw [addLog_noticeHeld]; rfl
    · rw [addLog_out]; rfl

/-! ### Clamps, hours and the ends of alerts -/

theorem currentLimitClamp_clamps {s : State} (hp : s.pw.powered = true) (rail : Nat) :
    ∃ t, exec (.currentLimitClamp rail) s = .next t ∧ mget false t.pw.clamped rail = true ∧ t.fl = s.fl ∧ workKept s t := by
  have run : execCurrentLimitClamp rail s = .next (onlyPower s { s with pw := { s.pw with clamped := mset false s.pw.clamped rail true } }) := by
    unfold execCurrentLimitClamp; rw [if_pos hp]
  exact ⟨_, run, mget_mset_self false s.pw.clamped rail true, onlyPower_fl_of_same rfl, workKept_onlyPower ..⟩

theorem lifeHours_counts {s : State} (hp : s.pw.powered = true) :
    ∃ t, exec .lifeHours s = .next t ∧ t.fl.lifeHours = (s.fl.lifeHours + 1) % 2 ^ 32 ∧ t.fl.tjCount = s.fl.tjCount + 1 ∧ workKept s t := by
  exact ⟨_, show execLifeHours s = _ by unfold execLifeHours; rw [if_pos hp], rfl, rfl, workKept_onlyPower ..⟩

/-- The end of an alert's cause: the pins follow, flash and the work stand. -/
theorem thermAlertClear_effect {s u : State} {e : AlertEnd} (run : exec (.thermAlertClear e) s = .next (onlyPower s (alertEvent s u)))
    (hf : u.fl = s.fl) :
    ∃ t, exec (.thermAlertClear e) s = .next t ∧ t.pw = { u.pw with thermCfg := s.pw.thermCfg, pwrCap := s.pw.pwrCap } ∧ t.fl = s.fl ∧ workKept s t := by
  refine ⟨_, run, ?_, onlyPower_fl_of_same ((alertEvent_fl ..).trans hf), workKept_onlyPower ..⟩
  show { (alertEvent s u).pw with thermCfg := s.pw.thermCfg, pwrCap := s.pw.pwrCap } = _
  rw [alertEvent_pw]

theorem leakDry_clears (s : State) :
    ∃ t, exec (.thermAlertClear .leakDry) s = .next t ∧ t.pw.alertLeak = false ∧ t.pw.leak = 0 ∧ t.fl = s.fl ∧ workKept s t := by
  obtain ⟨t, run, hw, kept⟩ := thermAlertClear_effect (s := s) (e := .leakDry) rfl rfl
  exact ⟨t, run, by rw [hw], by rw [hw], kept⟩

theorem inletCool_clears (s : State) {x : Nat} (h : x ≤ 450) :
    ∃ t, exec (.thermAlertClear (.inletCool x)) s = .next t ∧ t.pw.alertInlet = false ∧ t.pw.inlet = x ∧ t.fl = s.fl ∧ workKept s t := by
  have run : execThermAlertClear (.inletCool x) s = .next (onlyPower s (alertEvent s
      { s with pw := { s.pw with inlet := x, inletValid := true, inletOpen := false, alertInlet := false } })) := by
    unfold execThermAlertClear; dsimp only; rw [if_pos h]
  obtain ⟨t, run, hw, kept⟩ := thermAlertClear_effect (s := s) (e := .inletCool x) run rfl
  exact ⟨t, run, by rw [hw], by rw [hw], kept⟩

theorem reverseRemoved_clears (s : State) :
    ∃ t, exec (.thermAlertClear .reverseRemoved) s = .next t ∧ t.pw.alertReverse = false ∧ t.fl = s.fl ∧ workKept s t := by
  obtain ⟨t, run, hw, kept⟩ := thermAlertClear_effect (s := s) (e := .reverseRemoved) rfl rfl
  exact ⟨t, run, by rw [hw], kept⟩

/-- Settles O33: each form of the loops, trips, phases and alerts by its own lemma above. -/
theorem powerAndThermalLoops : Obligations.PowerAndThermalLoops := by
  intro s hp
  refine ⟨?_, fun r => thermalLoop_effect hp r, thermTrip_stops hp, thermTripClear_ends hp, phaseFail_told hp, currentLimitClamp_clamps hp,
    lifeHours_counts hp, leakDry_clears s, fun _ => inletCool_clears s, reverseRemoved_clears s⟩
  intro watts vin hg up
  obtain ⟨t, run, now, volts, clear, halves, kept⟩ := powerLoop_moves hp watts vin hg up
  refine ⟨t, run, now, volts, clear, fun bw hb => ?_, kept⟩
  obtain ⟨down, arrays, cores, coresUp, arraysUp⟩ := halves bw hb
  refine ⟨fun d => ?_, fun u above a => arrays u (decide_eq_true above) a,
    fun u above a c => cores u (decide_eq_true above) a c, fun u under c => ?_,
    fun u under c => ?_⟩
  · exact Prod.mk.inj (down d)
  · exact (Prod.mk.inj (coresUp u (decide_eq_false (by omega)) c)).symm
  · exact (Prod.mk.inj (arraysUp u (decide_eq_false (by omega)) c)).symm

end Sys2Proof.Machine
end

section
/-! SUPPORT. Host functions and links: what a change of a function, a link that trains or goes down, and new watchers leave alone
(R231, R234, R243, R360, R362). -/

namespace Sys2Proof.Machine

/-! ### Sparse maps -/

theorem mget_of_not_listed {α : Type} {d : α} {m : NMap α} {k : Nat} (h : k ∉ m.map Prod.fst) : mget d m k = d := by
  induction m with
  | nil => rfl
  | cons e m ih =>
    obtain ⟨i, v⟩ := e
    simp only [List.map_cons, List.mem_cons, not_or] at h
    rw [mget_cons, if_neg (Ne.symm h.1), ih h.2]

theorem mget_map {α : Type} (d : α) (f : α → α) (hd : f d = d) (m : NMap α) (k : Nat) :
    mget d (m.map (fun e => (e.1, f e.2))) k = f (mget d m k) := by
  induction m with
  | nil => exact hd.symm
  | cons e m ih =>
    obtain ⟨i, v⟩ := e
    rw [List.map_cons, mget_cons, mget_cons]
    split
    · rfl
    · exact ih

/-! ### One function at a time -/

theorem getFn_modFn (f k : Bool) (g : Fn → Fn) (s : State) : getFn (modFn f g s) k = if k = f then g (getFn s f) else getFn s k := by
  cases f <;> cases k <;> rfl

@[simp] theorem getFn_modFn_self (f : Bool) (g : Fn → Fn) (s : State) : getFn (modFn f g s) f = g (getFn s f) := by simp [getFn_modFn]
@[simp] theorem getFn_modFn_not (f : Bool) (g : Fn → Fn) (s : State) : getFn (modFn f g s) (!f) = getFn s (!f) := by simp [getFn_modFn]

/-- A change of a function leaves alone whatever does not belong to the host side. -/
theorem modFn_keep {β : Type} (p : State → β) (h : ∀ (t : State) (x : Hs), p { t with hs := x } = p t) (f : Bool) (g : Fn → Fn) (s : State) :
    p (modFn f g s) = p s := by
  cases f <;> exact h ..

/-- The registers that only the host writes come back; of a function everything else is as the event left it. -/
@[simp] theorem getFn_keepRegs (s t : State) (f : Bool) : getFn (keepRegs s t) f = keepFn (getFn s f) (getFn t f) := by cases f <;> rfl

@[simp] theorem keepFn_self (v : Fn) : keepFn v v = v := rfl

/-- The parts of the module that an event of a host link leaves alone. -/
def linkParts (s : State) : Mem × NMap AxPart × Rx × Ob × Et × En × NMap Ctx := (s.mem, s.ax, s.rx, s.ob, s.et, s.en, s.fe.ctxs)

theorem linkWork_keepRegs {s t : State} (h : linkParts t = linkParts s) : linkWork s (keepRegs s t) := by
  simp only [linkParts, Prod.mk.injEq] at h
  obtain ⟨hm, ha, hr, ho, he, hn, hc⟩ := h
  refine ⟨?_, ha, ?_, ?_, he, hn, fun c => by unfold getCtx; exact congrArg (mget _ · c) hc⟩
  · show { t.mem with scrub := s.mem.scrub } = s.mem
    rw [hm]
  · show { t.rx with deadlineInit := s.rx.deadlineInit, deadlineMin := s.rx.deadlineMin, deadlineMax := s.rx.deadlineMax } = s.rx
    rw [hr]
  · show { t.ob with traceCtrl := s.ob.traceCtrl, syncPeriod := s.ob.syncPeriod, stopLimit := s.ob.stopLimit
                     dumpBase := s.ob.dumpBase, dumpSize := s.ob.dumpSize } = s.ob
    rw [ho]

/-! ### New watchers -/

theorem foldl_modQ_keep {β : Type} (p : State → β) (h : ∀ q v t, p (setQ q v t) = p t) (g : State → Nat → Queue → Queue) (qs : List Nat)
    (s : State) : p (qs.foldl (fun t q => modQ q (g t q) t) s) = p s := by
  induction qs generalizing s with
  | nil => rfl
  | cons q qs ih => rw [List.foldl_cons, ih]; exact h ..

/-- New watchers change the queues of the function and whether its admin ring is polled. -/
theorem rewatch_keep {β : Type} (p : State → β) (h1 : ∀ q v t, p (setQ q v t) = p t) (f : Bool)
    (h2 : ∀ (b : Bool) t, p (modFn f (fun x => { x with adminPolled := b }) t) = p t) (s : State) : p (rewatch f s) = p s := by
  unfold rewatch
  dsimp only
  rw [foldl_modQ_keep p h1, h2, foldl_modQ_keep p h1 (fun _ _ v => { v with polled := true }), h2]

/-- A part of a function that does not say whether its ring is polled. -/
theorem getFn_rewatch {β : Type} (p : Fn → β) (h : ∀ (v : Fn) (b : Bool), p { v with adminPolled := b } = p v) (f k : Bool) (s : State) :
    p (getFn (rewatch f s) k) = p (getFn s k) := by
  refine rewatch_keep (fun t => p (getFn t k)) (fun _ _ _ => rfl) f (fun b t => ?_) s
  rw [getFn_modFn]
  split
  · subst_vars; exact h ..
  · rfl

theorem getFn_rewatch_not (f : Bool) (s : State) : getFn (rewatch f s) (!f) = getFn s (!f) :=
  rewatch_keep (getFn · (!f)) (fun _ _ _ => rfl) f (fun _ _ => getFn_modFn_not ..) s

/-! ### A link trains, or goes down -/

theorem linkTrains_keep {β : Type} (p : State → β) (h1 : ∀ q v t, p (setQ q v t) = p t) (l : Bool) (h2 : ∀ g t, p (modFn l g t) = p t)
    (h3 : ∀ (t : State) (n : Nat), p { t with free := n } = p t) (cache sris : Bool) (s : State) : p (linkTrains l cache sris s) = p s := by
  unfold linkTrains
  split
  · rw [rewatch_keep p h1 l (fun _ => h2 _), h2, h3]
  · rfl

/-- A link that may train is up afterwards; another stays as it is. -/
theorem linkUp_linkTrains (l cache sris : Bool) (s : State) :
    (getFn (linkTrains l cache sris s) l).linkUp = ((getFn s l).linkUp || linkAllowed s l) := by
  unfold linkTrains
  cases allowed : linkAllowed s l <;> cases up : (getFn s l).linkUp
  all_goals simp [up]
  rw [getFn_rewatch (·.linkUp) (fun _ _ => rfl), getFn_modFn_self]

theorem perst_linkTrains (l cache sris : Bool) (s : State) : (getFn (linkTrains l cache sris s) l).perst = (getFn s l).perst := by
  unfold linkTrains
  split
  · rw [getFn_rewatch (·.perst) (fun _ _ => rfl), getFn_modFn_self]; rfl
  · rfl

theorem getFn_linkTrains_not (l cache sris : Bool) (s : State) : getFn (linkTrains l cache sris s) (!l) = getFn s (!l) := by
  unfold linkTrains
  split
  · rw [getFn_rewatch_not, getFn_modFn_not]; rfl
  · rfl

theorem linkParts_linkTrains (l cache sris : Bool) (s : State) : linkParts (linkTrains l cache sris s) = linkParts s :=
  linkTrains_keep linkParts (fun _ _ _ => rfl) l (modFn_keep linkParts (fun _ _ => rfl) l) (fun _ _ => rfl) cache sris s

theorem linkDown_keep {β : Type} (p : State → β) (h : ∀ (t : State) (x : Hs), p { t with hs := x } = p t) (l : Bool) (s : State) :
    p (linkDown l s) = p s := by
  unfold linkDown
  dsimp only
  split
  · exact modFn_keep p h ..
  · exact (h ..).trans (modFn_keep p h ..)

/-- The function of a link that has gone down. -/
theorem getFn_linkDown_self (l : Bool) (s : State) :
    getFn (linkDown l s) l = { getFn s l with linkUp := false, sris := false, rate := 0, width := 0 } := by cases l <;> rfl

theorem getFn_linkDown_not (l : Bool) (s : State) : getFn (linkDown l s) (!l) = getFn s (!l) := by cases l <;> rfl

end Sys2Proof.Machine
end

section
/-! SUPPORT. What a context's reset, and the reset of a function, change: the work of engines, queues, arrays and collectives, and the
contexts that are reset (R232, R308). -/

namespace Sys2Proof.Machine

/-! ### A context reset leaves the board, memory and other contexts alone -/

/-- Everything but engines' work, queues, waits, bindings, arrays, collectives, observation, cached translations and free values. -/
def sansWork (s : State) : State :=
  { s with mem := { s.mem with xcache := [] }, fe := { s.fe with queues := [], waiters := [], binds := [] }
           en := {}, ax := [], rx := {}, ob := {}, free := 0 }

theorem traceEng_sansWork (kind index ty d0 d1 : Nat) (s : State) : sansWork (traceEng kind index ty d0 d1 s) = sansWork s :=
  traceEng_keep sansWork (fun _ _ => rfl) (fun _ _ => rfl) (fun _ _ _ => rfl) (fun _ _ => rfl) ..

theorem endChunk_sansWork (st q : Nat) (s : State) : sansWork (endChunk st q s) = sansWork s := by
  unfold endChunk
  dsimp only
  split
  · exact traceEng_sansWork ..
  · rfl
  · rfl

theorem cmdEnds_sansWork (q st : Nat) (s : State) : sansWork (cmdEnds q st s) = sansWork s :=
  cmdEnds_keep sansWork (fun _ _ => rfl) (fun _ _ => rfl) (fun _ _ _ => rfl) (fun _ _ => rfl) (fun _ => rfl) ..

theorem leaveEng_sansWork (q : Nat) (s : State) : sansWork (leaveEng q s) = sansWork s := by
  unfold leaveEng; dsimp only; split <;> rfl

theorem dropWaits_sansWork (w : Waiter → Bool) (s : State) : sansWork (dropWaits w s) = sansWork s := rfl
theorem setEng_sansWork (k : Nat) (e : Eng) (s : State) : sansWork (setEng k e s) = sansWork s := rfl
theorem setQc_sansWork (q : Nat) (v : QCtx) (s : State) : sansWork (setQc q v s) = sansWork s := rfl

theorem endQc_sansWork (st q : Nat) (s : State) : sansWork (endQc st q s) = sansWork s := by
  unfold endQc
  dsimp only
  rw [setQc_sansWork, leaveEng_sansWork]
  split <;> split
  all_goals simp only [setEng_sansWork, dropWaits_sansWork, cmdEnds_sansWork, endChunk_sansWork]

theorem foldl_sansWork {α : Type} (f : State → α → State) (h : ∀ t x, sansWork (f t x) = sansWork t) (l : List α) (s : State) :
    sansWork (l.foldl f s) = sansWork s := by
  induction l generalizing s with
  | nil => rfl
  | cons x l ih => rw [List.foldl_cons, ih, h]

theorem axShadow_sansWork (p : Nat) (c : AxCmd) (st : Nat) (n : Nums) (s : State) : sansWork (axShadow p c st n s) = sansWork s := by
  unfold axShadow
  rw [traceEng_sansWork]
  rfl

theorem axShadows_sansWork (p st : Nat) (sel : AxCmd → Bool) (s : State) : sansWork (axShadows p st sel s) = sansWork s :=
  foldl_sansWork (fun t c => axShadow p c st c.nums t) (fun _ _ => axShadow_sansWork ..) _ s

/-- A context as its reset leaves it while it runs: a free one stays free. -/
def toReset (x : Ctx) : Ctx := if x.state = ctxFree ∨ x.state = ctxResetting then x else { x with state := ctxResetting, prior := x.state }

theorem toReset_idem (x : Ctx) : toReset (toReset x) = toReset x := by
  unfold toReset
  by_cases h : x.state = ctxFree ∨ x.state = ctxResetting
  · rw [if_pos h, if_pos h]
  · rw [if_neg h, if_pos (.inr rfl)]

theorem dropXlat_sansWork (c : Nat) (s : State) : sansWork (dropXlat c s) = sansWork s := rfl
theorem queues_sansWork (qs : NMap Queue) (s : State) : sansWork { s with fe := { s.fe with queues := qs } } = sansWork s := rfl
theorem binds_sansWork (b : NMap Nat) (s : State) : sansWork { s with fe := { s.fe with binds := b } } = sansWork s := rfl
theorem axFree_sansWork (a : NMap AxPart) (n : Nat) (s : State) : sansWork { s with ax := a, free := n } = sansWork s := rfl
theorem rxAbort_sansWork (sel : Slot → Bool) (st : Nat) (s : State) : sansWork (rxAbort sel st s) = sansWork s := rfl
theorem rxSettle_sansWork (c : Nat) (s : State) : sansWork (rxSettle c s) = sansWork s := rfl

/-- Beside the work it ends, a context reset changes the context's own state. -/
theorem endCtxWork_sansWork (c st : Nat) (fabric : Bool) (s : State) :
    sansWork (endCtxWork c st fabric s) =
      sansWork (if (getCtx s c).state = ctxResetting then s
        else setCtx c { getCtx s c with state := ctxResetting, prior := (getCtx s c).state } s) := by
  unfold endCtxWork
  extract_lets cx s0 s1 fe1 s2 qs s3 s4 fe4 s5 s6 s7
  have fabricEnds : sansWork s1 = sansWork s0 := by
    show sansWork (if _ then _ else _) = _
    split
    · exact rxAbort_sansWork ..
    · exact rxSettle_sansWork ..
  have bound : sansWork s5 = sansWork s4 := binds_sansWork ..
  have arrays : sansWork s7 = sansWork s6 := axFree_sansWork ..
  rw [dropXlat_sansWork, arrays, foldl_sansWork (fun t p => axShadows p st (fun x => x.ctx == c) t) (fun _ _ => axShadows_sansWork ..), bound,
    dropWaits_sansWork, foldl_sansWork (fun t q => endQc st q t) (fun _ _ => endQc_sansWork ..)]
  exact (queues_sansWork ..).trans fabricEnds

/-- As sansWork, without the contexts and the resets that run. -/
def sansCtxs (s : State) : State := { sansWork s with fe := { (sansWork s).fe with ctxs := [] }, fr := { s.fr with resets := [] } }

theorem sansCtxs_of_sansWork {s t : State} (h : sansWork t = sansWork s) : sansCtxs t = sansCtxs s :=
  congrArg (fun x => { x with fe := { x.fe with ctxs := [] }, fr := { x.fr with resets := [] } }) h

theorem endCtxWork_sansCtxs (c st : Nat) (fabric : Bool) (s : State) : sansCtxs (endCtxWork c st fabric s) = sansCtxs s := by
  rw [sansCtxs_of_sansWork (endCtxWork_sansWork ..)]
  split <;> rfl

theorem getCtx_sansWork (s : State) (k : Nat) : getCtx (sansWork s) k = getCtx s k := rfl

/-- A context reset puts its own context, where there is one, into reset and leaves every other. -/
theorem getCtx_endCtxWork {c : Nat} {s : State} (st : Nat) (fabric : Bool) (busy : (getCtx s c).state ≠ ctxFree) (k : Nat) :
    getCtx (endCtxWork c st fabric s) k = if k = c then toReset (getCtx s k) else getCtx s k := by
  rw [← getCtx_sansWork, endCtxWork_sansWork, getCtx_sansWork]
  by_cases running : (getCtx s c).state = ctxResetting
  · rw [if_pos running]
    split
    · subst_vars; rw [toReset, if_pos (.inr running)]
    · rfl
  · rw [if_neg running, getCtx_setCtx]
    split
    · subst_vars; rw [toReset, if_neg (by simp [busy, running])]
    · rfl

/-! ### Contexts under a function's reset -/

/-- The same state with these resets running. -/
def withResets (rs : List RunReset) (s : State) : State := { s with fr := { s.fr with resets := rs } }

theorem withResets_sansCtxs (rs : List RunReset) (s : State) : sansCtxs (withResets rs s) = sansCtxs s := rfl
theorem getCtx_withResets (rs : List RunReset) (s : State) (k : Nat) : getCtx (withResets rs s) k = getCtx s k := rfl

/-- A context reset that ends the fabric work too does its work even where it merges into one that runs (R307). -/
theorem ctxReset_fabric (c st : Nat) (s : State) :
    ctxReset c st true s = s ∧ (getCtx s c).state = ctxFree
    ∨ (∃ rs, ctxReset c st true s = withResets rs (endCtxWork c st true s)) ∧ (getCtx s c).state ≠ ctxFree := by
  by_cases free : (getCtx s c).state = ctxFree
  · exact .inl ⟨by unfold ctxReset; rw [if_pos free], free⟩
  · refine .inr ⟨?_, free⟩
    unfold ctxReset
    rw [if_neg free]
    simp only [Bool.not_true, Bool.and_false, Bool.false_eq_true, if_false]
    generalize endCtxWork c st true s = u
    split
    · exact ⟨u.fr.resets, rfl⟩
    · exact ⟨u.fr.resets ++ [{ dom := .context c, status := st, fabric := true }], rfl⟩

theorem ctxReset_sansCtxs (c st : Nat) (s : State) : sansCtxs (ctxReset c st true s) = sansCtxs s := by
  obtain ⟨same, -⟩ | ⟨⟨rs, run⟩, -⟩ := ctxReset_fabric c st s
  · rw [same]
  · rw [run, withResets_sansCtxs, endCtxWork_sansCtxs]

theorem getCtx_ctxReset (c st : Nat) (s : State) (k : Nat) :
    getCtx (ctxReset c st true s) k = if k = c then toReset (getCtx s k) else getCtx s k := by
  obtain ⟨same, free⟩ | ⟨⟨rs, run⟩, busy⟩ := ctxReset_fabric c st s
  · rw [same]
    split
    · subst_vars; rw [toReset, if_pos (.inl free)]
    · rfl
  · rw [run, getCtx_withResets, getCtx_endCtxWork st true busy]

/-- The reset of one context of a function, after which its queues go. -/
def fnCtxReset (s : State) (c : Nat) : State :=
  markReset c (fun r => { r with thenDestroy := true, ctl := none }) (ctxReset c stCtxReset true s)

theorem foldl_fnCtxReset_sansCtxs (cs : List Nat) (s : State) : sansCtxs (cs.foldl fnCtxReset s) = sansCtxs s := by
  induction cs generalizing s with
  | nil => rfl
  | cons c cs ih => rw [List.foldl_cons, ih]; exact ctxReset_sansCtxs c stCtxReset s

theorem getCtx_foldl_fnCtxReset (cs : List Nat) (s : State) (k : Nat) :
    getCtx (cs.foldl fnCtxReset s) k = if k ∈ cs then toReset (getCtx s k) else getCtx s k := by
  induction cs generalizing s with
  | nil => rfl
  | cons c cs ih =>
    have first : getCtx (fnCtxReset s c) k = if k = c then toReset (getCtx s k) else getCtx s k := getCtx_ctxReset c stCtxReset s k
    rw [List.foldl_cons, ih, first]
    by_cases hk : k = c <;> by_cases hm : k ∈ cs <;> simp [hk, hm, toReset_idem]

/-- The contexts a function owns are those that are not free and name it. -/
theorem mem_ownedCtxs {s : State} {f : Bool} {c : Nat} : c ∈ ownedCtxs s f ↔ (getCtx s c).state ≠ ctxFree ∧ (getCtx s c).owner = f := by
  unfold ownedCtxs
  simp only [List.mem_filter, Bool.and_eq_true, bne_iff_ne, beq_iff_eq]
  refine ⟨And.right, fun h => ⟨?_, h⟩⟩
  by_contra absent
  exact h.1 (by unfold getCtx; rw [mget_of_not_listed absent]; rfl)

end Sys2Proof.Machine
end

section
/-! SUPPORT. The events of host links, functions and die clocks (R14, R231, R232, R234, R289, R360, R362). -/

namespace Sys2Proof.Machine

/-! ### The reset of a function -/

/-- A function's admin queue registers and its agreement, cleared. -/
def clearFn (v : Fn) : Fn :=
  { v with adminRing := 0, adminPi := 0, adminCq := 0, adminCfg := 0, adminCount := 0, adminSeq := 0
           adminFetched := [], adminBusy := none, negAgreed := 0 }

theorem functionReset_eq (f : Bool) (s : State) : functionReset f s = modFn f clearFn ((ownedCtxs s f).foldl fnCtxReset s) := rfl

theorem functionReset_sansCtxs (f : Bool) (s : State) : sansCtxs (functionReset f s) = sansCtxs (modFn f clearFn s) := by
  have host := congrArg (modFn f clearFn) (foldl_fnCtxReset_sansCtxs (ownedCtxs s f) s)
  rw [functionReset_eq]
  cases f <;> exact host

theorem getFn_functionReset_self (f : Bool) (s : State) : getFn (functionReset f s) f = clearFn (getFn s f) := by
  have same : getFn (sansCtxs (functionReset f s)) f = _ := congrArg (getFn · f) (functionReset_sansCtxs f s)
  exact same.trans (getFn_modFn_self f clearFn s)

theorem getFn_functionReset_not (f : Bool) (s : State) : getFn (functionReset f s) (!f) = getFn s (!f) := by
  have same : getFn (sansCtxs (functionReset f s)) (!f) = _ := congrArg (getFn · (!f)) (functionReset_sansCtxs f s)
  exact same.trans (getFn_modFn_not f clearFn s)

theorem functionReset_bt (f : Bool) (s : State) : (functionReset f s).bt = s.bt :=
  (congrArg State.bt (functionReset_sansCtxs f s)).trans (modFn_keep (·.bt) (fun _ _ => rfl) f clearFn s)

theorem functionReset_cells (f : Bool) (s : State) : (functionReset f s).mem.cells = s.mem.cells :=
  (congrArg (·.mem.cells) (functionReset_sansCtxs f s)).trans (modFn_keep (·.mem.cells) (fun _ _ => rfl) f clearFn s)

theorem getCtx_functionReset (f : Bool) (s : State) (c : Nat) :
    getCtx (functionReset f s) c = if c ∈ ownedCtxs s f then toReset (getCtx s c) else getCtx s c := by
  rw [functionReset_eq, modFn_keep (getCtx · c) (fun _ _ => rfl), getCtx_foldl_fnCtxReset]

/-- A function's reset puts each of its contexts into reset. -/
theorem functionReset_own {f : Bool} {s : State} {c : Nat} (busy : (getCtx s c).state ≠ ctxFree) (own : (getCtx s c).owner = f) :
    (getCtx (functionReset f s) c).state = ctxResetting := by
  rw [getCtx_functionReset, if_pos (mem_ownedCtxs.mpr ⟨busy, own⟩)]
  unfold toReset
  split
  · rename_i h; exact h.resolve_left busy
  · rfl

/-- A function's reset leaves the other function's contexts. -/
theorem functionReset_other {f : Bool} {s : State} {c : Nat} (other : (getCtx s c).owner = !f) : getCtx (functionReset f s) c = getCtx s c := by
  rw [getCtx_functionReset, if_neg]
  intro h
  have own := (mem_ownedCtxs.mp h).2
  rw [own] at other
  cases f <;> cases other

/-- Behind a function's reset of a state whose contexts are those of `s`, its function is cleared. -/
theorem functionCleared_functionReset {s u : State} {f : Bool} (hc : u.fe.ctxs = s.fe.ctxs) :
    functionCleared s (keepRegs s (functionReset f u)) f := by
  have ctxs : ∀ c, getCtx u c = getCtx s c := fun c => by unfold getCtx; rw [hc]
  unfold functionCleared
  rw [getFn_keepRegs, getFn_functionReset_self]
  refine ⟨rfl, rfl, rfl, rfl, rfl, rfl, fun c busy own => ?_⟩
  exact functionReset_own (by rwa [ctxs]) (by rwa [ctxs])

theorem functionLevelReset_effect {s : State} (f : Bool) (hp : s.pw.powered = true) (runs : s.ob.stopState = 0) :
    ∃ t, exec (.functionLevelReset f) s = .next t ∧ functionCleared s t f ∧ (getFn t f).linkUp = (getFn s f).linkUp
      ∧ getFn t (!f) = getFn s (!f) ∧ t.mem.cells = s.mem.cells
      ∧ (∀ c, (getCtx s c).owner = !f → (getCtx s c).state ≠ ctxFree → getCtx t c = getCtx s c) := by
  have run : execFunctionLevelReset f s = .next (keepRegs s (functionReset f s)) := by
    unfold execFunctionLevelReset unlessStopped
    rw [if_pos hp, if_pos runs]
  refine ⟨_, run, functionCleared_functionReset rfl, ?_, ?_, functionReset_cells f s, fun c other _ => functionReset_other other⟩
  · rw [getFn_keepRegs, getFn_functionReset_self]; rfl
  · rw [getFn_keepRegs, getFn_functionReset_not, keepFn_self]

/-- PERST_N of a link: asserted, with its link down. -/
def perstState (l : Bool) (s : State) : State := linkDown l (modFn l (fun f => { f with perst := true }) s)

theorem perstState_keep {β : Type} (p : State → β) (h : ∀ (t : State) (x : Hs), p { t with hs := x } = p t) (l : Bool) (s : State) :
    p (perstState l s) = p s := (linkDown_keep p h ..).trans (modFn_keep p h ..)

theorem perstAssert_effect {s : State} (l : Bool) (hp : s.pw.powered = true) (runs : s.ob.stopState = 0) :
    ∃ t, exec (.perstAssert l) s = .next t ∧ (getFn t l).perst = true ∧ (getFn t l).linkUp = false ∧ functionCleared s t l
      ∧ getFn t (!l) = getFn s (!l) ∧ t.bt = s.bt
      ∧ (∀ c, (getCtx s c).owner = !l → (getCtx s c).state ≠ ctxFree → getCtx t c = getCtx s c) := by
  have held : (perstState l s).ob.stopState = 0 := (perstState_keep (·.ob.stopState) (fun _ _ => rfl) l s).trans runs
  have run : execPerstAssert l s = .next (keepRegs s (functionReset l (perstState l s))) := by
    unfold execPerstAssert
    rw [if_pos hp]
    unfold unlessStopped
    exact congrArg _ (congrArg _ (if_pos held))
  have ctxs : (perstState l s).fe.ctxs = s.fe.ctxs := perstState_keep (·.fe.ctxs) (fun _ _ => rfl) l s
  have same : ∀ c, getCtx (perstState l s) c = getCtx s c := fun c => by unfold getCtx; rw [ctxs]
  have pins : getFn (keepRegs s (functionReset l (perstState l s))) l = keepFn (getFn s l) (clearFn (getFn (perstState l s) l)) := by
    rw [getFn_keepRegs, getFn_functionReset_self]
  have down : getFn (perstState l s) l = { getFn s l with perst := true, linkUp := false, sris := false, rate := 0, width := 0 } := by
    unfold perstState; rw [getFn_linkDown_self, getFn_modFn_self]
  refine ⟨_, run, ?_, ?_, functionCleared_functionReset ctxs, ?_, ?_, fun c other _ => ?_⟩
  · rw [pins, down]; rfl
  · rw [pins, down]; rfl
  · rw [getFn_keepRegs, getFn_functionReset_not, perstState, getFn_linkDown_not, getFn_modFn_not, keepFn_self]
  · exact (functionReset_bt l _).trans (perstState_keep (·.bt) (fun _ _ => rfl) l s)
  · exact (functionReset_other (by rw [same]; exact other)).trans (same c)

/-! ### Links -/

/-- The link of a released function may train where its grade and licence allow it. -/
theorem linkAllowed_of {s : State} {l : Bool} (hp : s.pw.powered = true) (hg : s.pw.pwrGood = true) (released : (getFn s l).perst = false)
    (second : l = true → s.bt.stage ≠ 10 ∧ fld (gradeHostLinks s.bt.grade) 1 1 = 1 ∧ s.bt.grade ≠ 0) : linkAllowed s l = true := by
  unfold linkAllowed licenceValid
  cases l with
  | false => simp [hp, hg, released]
  | true => simp [hp, hg, released, second rfl]

theorem hostLinkTrained_up {s : State} (l cache : Bool) (allowed : linkAllowed s l = true) :
    ∃ t, exec (.hostLinkTrained l cache) s = .next t ∧ (getFn t l).linkUp = true ∧ linkWork s t := by
  refine ⟨_, rfl, ?_, linkWork_keepRegs (linkParts_linkTrains l cache false s)⟩
  rw [getFn_keepRegs]
  exact (linkUp_linkTrains l cache false s).trans (by simp [allowed])

theorem perstRelease_up {s : State} (l cache : Bool) (hp : s.pw.powered = true) (hg : s.pw.pwrGood = true)
    (second : l = true → s.bt.stage ≠ 10 ∧ fld (gradeHostLinks s.bt.grade) 1 1 = 1 ∧ s.bt.grade ≠ 0) :
    ∃ t, exec (.perstRelease l cache) s = .next t ∧ (getFn t l).perst = false ∧ (getFn t l).linkUp = true ∧ linkWork s t := by
  have kept : ∀ {β : Type} (p : State → β), (∀ (t : State) (x : Hs), p { t with hs := x } = p t) →
      p (modFn l (fun f => { f with perst := false }) s) = p s := fun p h => modFn_keep p h ..
  have allowed : linkAllowed (modFn l (fun f => { f with perst := false }) s) l = true := by
    refine linkAllowed_of ((kept (·.pw.powered) (fun _ _ => rfl)).trans hp) ((kept (·.pw.pwrGood) (fun _ _ => rfl)).trans hg)
      (by rw [getFn_modFn_self]) ?_
    rw [kept (·.bt) (fun _ _ => rfl)]
    exact second
  refine ⟨_, rfl, ?_, ?_, linkWork_keepRegs ((linkParts_linkTrains l cache false _).trans (kept linkParts (fun _ _ => rfl)))⟩
  · rw [getFn_keepRegs]
    exact (perst_linkTrains ..).trans (by rw [getFn_modFn_self])
  · rw [getFn_keepRegs]
    exact (linkUp_linkTrains ..).trans (by simp [allowed])

theorem hostLink0Down_effect {s : State} (up : s.hs.f0.linkUp = true) :
    ∃ t, exec .hostLink0Down s = .next t ∧ t.hs.f0.linkUp = false ∧ t.hs.hdmHolds = [] ∧ t.hs.hdmLocked = false ∧ t.hs.f1 = s.hs.f1
      ∧ workKept s t := by
  have run : execHostLink0Down s = .next (onlyMgmt s (linkDown false s)) := by unfold execHostLink0Down; rw [if_pos up]
  exact ⟨_, run, rfl, rfl, rfl, rfl, rfl, rfl, rfl, rfl, rfl, rfl⟩

/-! ### A lost reference clock -/

/-- The link of a lost reference clock: the event latched, the link down. -/
def refclkState (l : Bool) (s : State) : State := linkDown l (latchEvent (6 + b01 l) s)

theorem refclkState_keep {β : Type} (p : State → β) (h : ∀ (t : State) (x : Hs), p { t with hs := x } = p t) (l : Bool) (s : State) :
    p (refclkState l s) = p (latchEvent (6 + b01 l) s) := linkDown_keep p h ..

/-- With SRIS the link trains again, without it stays down. -/
def refclkTrained (l sris : Bool) (s : State) : State := if sris then linkTrains l (getFn s l).cache true (refclkState l s) else refclkState l s

theorem refclkTrained_keep {β : Type} (p : State → β) (h1 : ∀ q v t, p (setQ q v t) = p t)
    (h2 : ∀ (t : State) (x : Hs), p { t with hs := x } = p t) (h3 : ∀ (t : State) (n : Nat), p { t with free := n } = p t) (l sris : Bool) (s : State) :
    p (refclkTrained l sris s) = p (latchEvent (6 + b01 l) s) := by
  unfold refclkTrained
  split
  · rw [linkTrains_keep p h1 l (modFn_keep p h2 l) h3, refclkState_keep p h2]
  · exact refclkState_keep p h2 ..

theorem linkAllowed_refclkState (l : Bool) (s : State) : linkAllowed (refclkState l s) l = linkAllowed s l := by
  unfold linkAllowed licenceValid
  rw [refclkState_keep (·.pw) (fun _ _ => rfl), refclkState_keep (·.bt) (fun _ _ => rfl)]
  unfold refclkState
  rw [getFn_linkDown_self]
  rfl

theorem refclkLost_effect {s : State} (l : Bool) (us : Nat) (sris : Bool) (up : (getFn s l).linkUp = true) (long : 10 ≤ us) :
    ∃ t, exec (.refclkLost l us sris) s = .next t ∧ latched (6 + b01 l) s t ∧ (getFn t l).linkUp = (sris && linkAllowed s l)
      ∧ (l = false → t.hs.hdmHolds = [] ∧ t.hs.hdmLocked = false) ∧ getFn t (!l) = getFn s (!l) ∧ linkWork s t := by
  have run : execRefclkLost l us sris s = .next (keepRegs s (refclkTrained l sris s)) := by
    unfold execRefclkLost
    rw [if_pos (by simp [up, long])]
    rfl
  refine ⟨_, run, ?_, ?_, ?_, ?_, ?_⟩
  · have flash : (refclkTrained l sris s).fl = _ := refclkTrained_keep (·.fl) (fun _ _ _ => rfl) (fun _ _ => rfl) (fun _ _ => rfl) l sris s
    show (keepQueue s (refclkTrained l sris s)).fl = _
    simp [keepQueue, flash, latchEvent]
  · rw [getFn_keepRegs]
    show (getFn (refclkTrained l sris s) l).linkUp = _
    unfold refclkTrained
    cases sris with
    | true => rw [if_pos rfl, linkUp_linkTrains, linkAllowed_refclkState, refclkState, getFn_linkDown_self]; simp
    | false => rw [if_neg (by decide), refclkState, getFn_linkDown_self]; rfl
  · rintro rfl
    unfold refclkTrained
    have holds : (refclkState false s).hs.hdmHolds = [] ∧ (refclkState false s).hs.hdmLocked = false := ⟨rfl, rfl⟩
    cases sris with
    | true =>
      have trained := linkTrains_keep (fun t => (t.hs.hdmHolds, t.hs.hdmLocked)) (fun _ _ _ => rfl) false (fun _ _ => rfl) (fun _ _ => rfl)
        (getFn s false).cache true (refclkState false s)
      exact ⟨(Prod.mk.inj trained).1, (Prod.mk.inj trained).2⟩
    | false => exact holds
  · rw [getFn_keepRegs]
    have other : getFn (refclkTrained l sris s) (!l) = getFn s (!l) := by
      unfold refclkTrained
      split
      · rw [getFn_linkTrains_not, refclkState, getFn_linkDown_not]; rfl
      · rw [refclkState, getFn_linkDown_not]; rfl
    rw [other, keepFn_self]
  · exact linkWork_keepRegs (refclkTrained_keep linkParts (fun _ _ _ => rfl) (fun _ _ => rfl) (fun _ _ => rfl) l sris s)

/-! ### Promotion of function 1 -/

/-- A context that is not free becomes function 1's. -/
def promoteCtx (x : Ctx) : Ctx := if x.state ≠ ctxFree then { x with owner := true } else x

/-- The front end with every context and queue function 1's. -/
def promoteFe (fe : Fe) : Fe :=
  { fe with
    ctxs := fe.ctxs.map (fun e => if e.2.state ≠ ctxFree then (e.1, { e.2 with owner := true }) else e)
    queues := fe.queues.map (fun e => if e.2.live then (e.1, { e.2 with owner := true }) else e) }

theorem promoteFe_ctxs (fe : Fe) (c : Nat) : mget {} (promoteFe fe).ctxs c = promoteCtx (mget {} fe.ctxs c) := by
  have each : (promoteFe fe).ctxs = fe.ctxs.map (fun e => (e.1, promoteCtx e.2)) := by
    refine List.map_congr_left fun e _ => ?_
    unfold promoteCtx
    split <;> rfl
  rw [each]
  exact mget_map {} promoteCtx rfl fe.ctxs c

theorem promote_keep {β : Type} (p : State → β) (h1 : ∀ q v t, p (setQ q v t) = p t) (h2 : ∀ g t, p (modFn true g t) = p t) (s : State) :
    p (promote s) = p (dropHostXlat { s with fe := promoteFe s.fe, hs := { s.hs with failover := true } }) :=
  (rewatch_keep p h1 true (fun _ => h2 _) _).trans (h2 ..)

theorem promotion_effect {s : State} (takeover : Bool) (ready : standbyReady s = true) (down : s.hs.f0.linkUp = false) :
    ∃ t, exec (.function1Promotion takeover) s = .next t ∧ t.hs.failover = true ∧ t.hs.f1.attach = 0 ∧ t.hs.f1.quiescing = false
      ∧ (∀ c, (getCtx s c).state ≠ ctxFree → (getCtx t c).owner = true ∧ (getCtx t c).state = (getCtx s c).state)
      ∧ (∀ e ∈ t.mem.xcache, fld e.2.pte.toNat 5 1 = 0) := by
  have run : execFunction1Promotion takeover s = .next (keepRegs s (promote s)) := by
    unfold execFunction1Promotion
    rw [if_pos (by simp [ready, down])]
  have fn : ∀ {β : Type} (p : Fn → β), (∀ (v : Fn) (b : Bool), p { v with adminPolled := b } = p v) →
      p (getFn (promote s) true) = p { getFn s true with attach := 0, quiescing := false } := by
    intro β p h
    unfold promote
    exact (getFn_rewatch p h true true _).trans (congrArg p (getFn_modFn_self ..))
  refine ⟨_, run, ?_, fn (·.attach) (fun _ _ => rfl), fn (·.quiescing) (fun _ _ => rfl), ?_, ?_⟩
  · exact promote_keep (·.hs.failover) (fun _ _ _ => rfl) (fun _ _ => rfl) s
  · intro c busy
    have ctx : getCtx (keepRegs s (promote s)) c = promoteCtx (getCtx s c) :=
      (promote_keep (getCtx · c) (fun _ _ _ => rfl) (fun _ _ => rfl) s).trans (promoteFe_ctxs s.fe c)
    rw [ctx, promoteCtx, if_pos busy]
    exact ⟨rfl, rfl⟩
  · have cache : (keepRegs s (promote s)).mem.xcache = s.mem.xcache.filter (fun e => fld e.2.pte.toNat 5 1 == 0) :=
      promote_keep (·.mem.xcache) (fun _ _ _ => rfl) (fun _ _ => rfl) s
    intro e he
    rw [cache] at he
    simpa using (List.mem_filter.mp he).2

/-! ### A die's fallback clock -/

/-- Everything but what a record of bring-up, of Ready or of a port touches: cycle counts and accounts, logs and notices, bring-up, flash,
output and free values. -/
def sansRecords (s : State) : State := { s with fl := {}, bt := {}, fr := {}, en := {}, out := [], free := 0 }

theorem addLog_sansRecords (isl sev event a0 a1 : Nat) (s : State) : sansRecords (addLog isl sev event a0 a1 s) = sansRecords s :=
  addLog_keep sansRecords (fun _ _ _ => rfl) (fun _ _ => rfl) (fun _ _ => rfl) (fun _ _ => rfl) ..

theorem enterStage_sansRecords (st : Nat) (s : State) : sansRecords (enterStage st s) = sansRecords s :=
  (addLog_sansRecords ..).trans rfl

theorem checkReady_sansRecords (cause : Nat) (s : State) : sansRecords (checkReady cause s) = sansRecords s := by
  unfold checkReady
  split
  · dsimp only
    rw [sensorEvent_keep sansRecords (fun _ _ => rfl), notice_keep sansRecords (fun _ _ => rfl) (fun _ _ => rfl), droneLog, addLog_sansRecords,
      enterStage_sansRecords]
    rfl
  · rfl

theorem leftUp_sansRecords (n : Nat) (was : Port) (s : State) : sansRecords (leftUp n was s) = sansRecords s := by
  unfold leftUp portLog
  split
  · exact addLog_sansRecords ..
  · rfl

theorem endLinks_sansRecords (s : State) : sansRecords (endLinks s) = sansRecords s := by
  unfold endLinks
  split
  · exact enterStage_sansRecords ..
  · rfl

theorem getPort_sansRecords (s : State) (n : Nat) : getPort (sansRecords s) n = getPort s n := rfl

/-- The check of a port sets its FWD alone. -/
theorem getPort_judgePort {β : Type} (p : Port → β) (h : ∀ (v : Port) (b : Bool), p { v with fwd := b } = p v) (n k : Nat) (s : State) :
    p (getPort (judgePort n s) k) = p (getPort s k) := by
  unfold judgePort
  split
  · rfl
  · dsimp only
    rw [getPort_modPort]
    split
    · subst_vars; exact h ..
    · rfl

/-- What follows a change of a port's state changes no part of a port but FWD. -/
theorem getPort_portChanged {β : Type} (p : Port → β) (h : ∀ (v : Port) (b : Bool), p { v with fwd := b } = p v) (n k : Nat) (s : State) :
    p (getPort (portChanged n s) k) = p (getPort s k) := by
  unfold portChanged recheck
  rw [← getPort_sansRecords, checkReady_sansRecords, getPort_sansRecords, getPort_judgePort p h, ← getPort_sansRecords, endLinks_sansRecords,
    getPort_sansRecords]

theorem judgePort_pw (n : Nat) (s : State) : (judgePort n s).pw = s.pw := by
  unfold judgePort
  split <;> rfl

theorem sansRecords_pw (s : State) : (sansRecords s).pw = s.pw := rfl

theorem enterRetrain_pw (n : Nat) (s : State) : (enterRetrain n s).pw = s.pw := by
  unfold enterRetrain portChanged recheck
  dsimp only
  rw [← sansRecords_pw, checkReady_sansRecords, sansRecords_pw, judgePort_pw, ← sansRecords_pw, endLinks_sansRecords, leftUp_sansRecords]
  rfl

/-- A part of a port that enters RETRAIN, by what it then reads. -/
theorem getPort_enterRetrain {β : Type} (p : Port → β) (h : ∀ (v : Port) (b : Bool), p { v with fwd := b } = p v) (n : Nat) (s : State) :
    p (getPort (enterRetrain n s) n) = p { getPort s n with
      state := 8, sub := 3, swap := none, swapWaits := [], txCopy := none, swapActive := false, dead := [] } := by
  unfold enterRetrain
  dsimp only
  rw [getPort_portChanged p h, ← getPort_sansRecords, leftUp_sansRecords, getPort_sansRecords, getPort_setPort, if_pos rfl]

/-- A die's fallback, logged at its clock root. -/
def fallbackState (die : Nat) (s : State) : State :=
  addLog (dieRoot die) 3 0x0201 (dieRoot die) 0 { s with pw := { s.pw with fallback := mset false s.pw.fallback die true } }

theorem fallbackState_fallback (die : Nat) (s : State) : mget false (fallbackState die s).pw.fallback die = true := by
  rw [fallbackState, addLog_pw]
  exact mget_mset_self false s.pw.fallback die true

/-- The port of a port die takes the fallback clock. -/
def fallbackPort (n : Nat) (s : State) : State := modPort n (fun p => { p with fallbackClk := true }) s

theorem portRuns_fallback (n die : Nat) (s : State) : portRuns (fallbackPort n (fallbackState die s)) n = portRuns s n := by
  unfold portRuns portHere portEnabled linkFrozen ctlFrozen frozenIsl fallbackPort fallbackState
  simp only [modPort_pw, modPort_bt, modPort_ob, addLog_pw, addLog_bt, addLog_ob]

theorem getPort_fallback (n die : Nat) (s : State) :
    getPort (fallbackPort n (fallbackState die s)) n = { getPort s n with fallbackClk := true } := by
  unfold fallbackPort
  rw [getPort_modPort, if_pos rfl]
  unfold getPort fallbackState
  rw [addLog_et]

/-- A port die's fallback: its port enters RETRAIN where it is UP. -/
def fallbackTrained (die : Nat) (s : State) : State :=
  let u := fallbackPort (die - 48) (fallbackState die s)
  if portRuns u (die - 48) && (getPort u (die - 48)).state == 7 then enterRetrain (die - 48) u else u

theorem exec_clkFallback {s : State} {die : Nat} (hp : s.pw.powered = true) (hd : die < 64) (runs : mget false s.pw.fallback die = false) :
    exec (.clkFallback die) s = .next (onlyMgmt s (if 48 ≤ die ∧ die < 60 then fallbackTrained die s else fallbackState die s)) := by
  show execClkFallback die s = _
  unfold execClkFallback
  rw [if_pos (by simp [hp, hd, runs])]
  rfl

theorem fallbackTrained_fallback (die : Nat) (s : State) : mget false (fallbackTrained die s).pw.fallback die = true := by
  unfold fallbackTrained
  dsimp only
  split
  · rw [enterRetrain_pw]; exact fallbackState_fallback ..
  · exact fallbackState_fallback ..

theorem fallbackTrained_port (die : Nat) (s : State) :
    (getPort (fallbackTrained die s) (die - 48)).fallbackClk = true
    ∧ (portRuns s (die - 48) = true → (getPort s (die - 48)).state = 7 → (getPort (fallbackTrained die s) (die - 48)).state = 8) := by
  unfold fallbackTrained
  dsimp only
  rw [portRuns_fallback, getPort_fallback]
  split
  · rw [getPort_enterRetrain (·.fallbackClk) (fun _ _ => rfl), getPort_enterRetrain (·.state) (fun _ _ => rfl), getPort_fallback]
    exact ⟨rfl, fun _ _ => rfl⟩
  · rename_i stays
    refine ⟨by rw [getPort_fallback], fun runs up => absurd ?_ stays⟩
    simp [runs, up]

theorem clkFallback_effect {s : State} (die : Nat) (hp : s.pw.powered = true) (hd : die < 64) (runs : mget false s.pw.fallback die = false) :
    ∃ t, exec (.clkFallback die) s = .next t ∧ mget false t.pw.fallback die = true ∧ t.mem = s.mem ∧ t.ax = s.ax ∧ t.rx = s.rx
      ∧ (die < 48 ∨ 60 ≤ die → logged s t (dieRoot die) 3 0x0201 (dieRoot die) 0 ∧ t.fe = s.fe ∧ t.et = s.et)
      ∧ (48 ≤ die → die < 60 → (getPort t (die - 48)).fallbackClk = true
          ∧ (portRuns s (die - 48) = true → (getPort s (die - 48)).state = 7 → (getPort t (die - 48)).state = 8)) := by
  refine ⟨_, exec_clkFallback hp hd runs, ?_⟩
  by_cases port : 48 ≤ die ∧ die < 60
  · rw [if_pos port]
    exact ⟨fallbackTrained_fallback die s, rfl, rfl, rfl, fun other => by omega, fun _ _ => fallbackTrained_port die s⟩
  · rw [if_neg port]
    refine ⟨fallbackState_fallback die s, rfl, rfl, rfl, fun _ => ⟨?_, addLog_fe .., addLog_et ..⟩, fun lo hi => absurd ⟨lo, hi⟩ port⟩
    exact logged_of_addLog (s1 := { s with pw := { s.pw with fallback := mset false s.pw.fallback die true } }) rfl
      (droneUp_congr rfl rfl rfl rfl) rfl

/-- Settles O34: each event of links, functions, clocks and promotion by its own lemma above. -/
theorem hostLinksAndFunctionResets : Obligations.HostLinksAndFunctionResets := by
  intro s
  refine ⟨clkFallback_effect, refclkLost_effect, perstAssert_effect, ?_, hostLink0Down_effect, functionLevelReset_effect, promotion_effect⟩
  exact fun l cache hp hg second => ⟨perstRelease_up l cache hp hg second,
    fun released => hostLinkTrained_up l cache (linkAllowed_of hp hg released second)⟩

end Sys2Proof.Machine
end

section
/-! SUPPORT. What the accesses of a tensor or array command leave unchanged, and what its writes leave in memory. -/

namespace Sys2Proof.Machine

/-! ### The accesses of a command -/

/-- A command's accesses lead from this state to this job: of the state only cached translations, what reads meet of memory errors and
the count of free values have changed, and the writes gathered are in canonical form. -/
structure JobFrom (s : State) (j : Job) : Prop where
  state : sansCache j.s = sansCache s
  writes : mwf 0 j.writes = true

theorem JobFrom.refl (s : State) (reads : List Nat) : JobFrom s { s, reads } := ⟨rfl, rfl⟩

/-- A further access that writes nothing. -/
theorem JobFrom.step {s : State} {j k : Job} (h : JobFrom s j) (state : sansCache k.s = sansCache j.s) (writes : k.writes = j.writes) :
    JobFrom s k := ⟨state.trans h.state, writes ▸ h.writes⟩

theorem JobFrom.foldl {s : State} {α : Type} {f : Job → α → Job} (hf : ∀ x j, JobFrom s j → JobFrom s (f j x)) (l : List α) (j : Job)
    (h : JobFrom s j) : JobFrom s (l.foldl f j) :=
  List.foldlRecOn (motive := JobFrom s) l f h (fun j hj x _ => hf x j hj)

/-- A fold that gathers values beside its accesses. -/
theorem JobFrom.foldl_snd {s : State} {α β : Type} {f : β × Job → α → β × Job} (hf : ∀ x st, JobFrom s st.2 → JobFrom s (f st x).2)
    (l : List α) (st : β × Job) (h : JobFrom s st.2) : JobFrom s (l.foldl f st).2 :=
  List.foldlRecOn (motive := fun st => JobFrom s st.2) l f h (fun st hst x _ => hf x st hst)

theorem JobFrom.mapJob {s : State} {α β : Type} {f : α → Job → β × Job} (hf : ∀ x j, JobFrom s j → JobFrom s (f x j).2) (l : List α) :
    ∀ j, JobFrom s j → JobFrom s (mapJob f l j).2 := by
  induction l with
  | nil => exact fun _ h => h
  | cons x l ih => exact fun j h => ih _ (hf x j h)

section Accesses
variable {s : State} {j : Job}

theorem JobFrom.rdByte (a : Acc) (va : Nat) (h : JobFrom s j) : JobFrom s (rdByte a va j).2 := by
  unfold Machine.rdByte
  have sans := translate_sans j.s a.ctx (va % 2 ^ 64) accRead a.who
  generalize translate j.s a.ctx (va % 2 ^ 64) accRead a.who = r at sans ⊢
  obtain ⟨o, s1⟩ := r
  cases o with
  | ok loc =>
    dsimp only
    split
    · exact h.step sans rfl
    · split
      · exact h.step sans rfl
      · exact h.step sans rfl
  | bad r l x => exact h.step sans rfl
  | poisonAt pa => exact h.step sans rfl

theorem JobFrom.rdNat (a : Acc) (n : Nat) : ∀ (va : Nat) (j : Job), JobFrom s j → JobFrom s (rdNat a va n j).2 := by
  induction n with
  | zero => exact fun _ _ h => h
  | succ n ih => exact fun va j h => ih (va + 1) _ (h.rdByte a va)

theorem JobFrom.rdCode (a : Acc) (tc d : Nat) (x : Ix) (h : JobFrom s j) : JobFrom s (rdCode a tc d x j).2 := JobFrom.rdNat a _ _ j h

theorem JobFrom.rdExp (a : Acc) (tc d : Nat) (x : Ix) (h : JobFrom s j) : JobFrom s (rdExp a tc d x j).2 := by
  unfold Machine.rdExp
  split
  · exact JobFrom.rdNat a _ _ j h
  · exact h

theorem JobFrom.rdVal (a : Acc) (tc d : Nat) (x : Ix) (h : JobFrom s j) : JobFrom s (rdVal a tc d x j).2 :=
  (h.rdCode a tc d x).rdExp a tc d x

theorem JobFrom.wrByte (a : Acc) (va : Nat) (b : Byte) (p : Bool) (h : JobFrom s j) : JobFrom s (wrByte a va b p j) := by
  unfold Machine.wrByte
  have sans := translate_sans j.s a.ctx (va % 2 ^ 64) accWrite a.who
  generalize translate j.s a.ctx (va % 2 ^ 64) accWrite a.who = r at sans ⊢
  obtain ⟨o, s1⟩ := r
  cases o with
  | ok loc => exact ⟨sans.trans h.state, by dsimp only; exact mwf_mset 0 _ _ _ h.writes⟩
  | bad r l x => exact h.step sans rfl
  | poisonAt pa => exact h.step sans rfl

theorem JobFrom.wrBytes (a : Acc) (bs : List (Byte × Bool)) : ∀ (va : Nat) (j : Job), JobFrom s j → JobFrom s (wrBytes a va bs j) := by
  induction bs with
  | nil => exact fun _ _ h => h
  | cons b bs ih => exact fun va j h => ih (va + 1) _ (h.wrByte a va b.1 b.2)

theorem JobFrom.wrRun (a : Acc) (tc d : Nat) (x : Ix) (cs : List (Nat × Bool)) (e : Nat × Bool) (h : JobFrom s j) :
    JobFrom s (wrRun a tc d x cs e j) := by
  unfold Machine.wrRun
  dsimp only
  split
  · exact (JobFrom.wrBytes a _ _ j h).wrByte ..
  · exact JobFrom.wrBytes a _ _ j h

theorem JobFrom.wrVals (a : Acc) (tc d : Nat) (r : Rnd) (x : Ix) (vs : List (Option FV)) (ovf : List Bool) (h : JobFrom s j) :
    JobFrom s (wrVals a tc d r x vs ovf j) := by
  unfold Machine.wrVals
  dsimp only
  split
  · exact JobFrom.wrRun _ _ _ _ _ _ (h.step rfl rfl)
  · exact JobFrom.wrRun _ _ _ _ _ _ (h.step rfl rfl)

end Accesses

/-! ### Maps after many writes -/

/-- A map in canonical form lists, at a key, the value that a read gives. -/
theorem mget_of_mem {α : Type} [DecidableEq α] {d : α} {m : NMap α} (h : mwf d m = true) {e : Nat × α} (he : e ∈ m) :
    mget d m e.1 = e.2 := by
  induction m with
  | nil => cases he
  | cons x m ih =>
    obtain ⟨i, w⟩ := x
    obtain ⟨-, above, tail⟩ := (mwf_cons d i w m).1 h
    rw [mget_cons]
    rcases List.mem_cons.1 he with rfl | he
    · rw [if_pos rfl]
    · rw [if_neg (Nat.ne_of_lt (above e he)), ih tail he]

/-- No entry of a map in canonical form gives what an unlisted key reads as. -/
theorem ne_of_mem {α : Type} [DecidableEq α] {d : α} {m : NMap α} (h : mwf d m = true) {e : Nat × α} (he : e ∈ m) : e.2 ≠ d := by
  induction m with
  | nil => cases he
  | cons x m ih =>
    obtain ⟨i, w⟩ := x
    obtain ⟨head, -, tail⟩ := (mwf_cons d i w m).1 h
    rcases List.mem_cons.1 he with rfl | he
    · exact head
    · exact ih tail he

/-- A key that reads as a value of its own is listed with it. -/
theorem mem_of_mget {α : Type} {d : α} {m : NMap α} {k : Nat} (h : mget d m k ≠ d) : (k, mget d m k) ∈ m := by
  induction m with
  | nil => exact absurd rfl h
  | cons x m ih =>
    obtain ⟨i, w⟩ := x
    rw [mget_cons] at h ⊢
    split
    · rename_i hi; subst hi; exact List.mem_cons_self ..
    · rename_i hi; rw [if_neg hi] at h; exact List.mem_cons_of_mem _ (ih h)

/-- Writes at other keys leave a key as it was. -/
theorem mget_foldl_mset_ne {α β : Type} [DecidableEq α] {d : α} {key : β → Nat} {val : β → α} {k : Nat} {l : List β}
    (other : ∀ x ∈ l, key x ≠ k) (m : NMap α) : mget d (l.foldl (fun m x => mset d m (key x) (val x)) m) k = mget d m k := by
  induction l generalizing m with
  | nil => rfl
  | cons x l ih =>
    rw [List.foldl_cons, ih (fun y hy => other y (List.mem_cons_of_mem _ hy)), mget_mset_ne d m _ (other x (List.mem_cons_self ..)).symm]

/-- After writes of which those at one key all give one value, the key reads as that value. -/
theorem mget_foldl_mset {α β : Type} [DecidableEq α] {d v : α} {key : β → Nat} {val : β → α} {k : Nat} {l : List β}
    (written : ∃ x ∈ l, key x = k) (same : ∀ x ∈ l, key x = k → val x = v) (m : NMap α) :
    mget d (l.foldl (fun m x => mset d m (key x) (val x)) m) k = v := by
  induction l generalizing m with
  | nil => simp at written
  | cons x l ih =>
    rw [List.foldl_cons]
    by_cases later : ∃ y ∈ l, key y = k
    · exact ih later (fun y hy => same y (List.mem_cons_of_mem _ hy)) _
    · have here : key x = k := by
        obtain ⟨y, hy, hk⟩ := written
        rcases List.mem_cons.1 hy with rfl | hy
        · exact hk
        · exact absurd ⟨y, hy, hk⟩ later
      rw [mget_foldl_mset_ne (fun y hy hk => later ⟨y, hy, hk⟩), ← here, mget_mset_self, same x (List.mem_cons_self ..) here]

/-- The bytes of a map of writes, each kept plus 1, put into a map of bytes: the byte written where the writes list one. -/
theorem mget_foldl_writes {ws : NMap Nat} (h : mwf 0 ws = true) (sel : Nat → Bool) (shift : Nat → Nat)
    (inj : ∀ a b, sel a = true → sel b = true → shift a = shift b → a = b) (m : NMap Byte) {l : Nat} (hl : sel l = true) :
    mget 0 ((ws.filter (fun w => sel w.1)).foldl (fun m w => mset 0 m (shift w.1) (BitVec.ofNat 8 (w.2 - 1))) m) (shift l) =
      if mget 0 ws l = 0 then mget 0 m (shift l) else BitVec.ofNat 8 (mget 0 ws l - 1) := by
  have at_ : ∀ w ∈ ws.filter (fun w => sel w.1), shift w.1 = shift l → w ∈ ws ∧ w.1 = l := fun w hw e =>
    ⟨(List.mem_filter.1 hw).1, inj _ _ (List.mem_filter.1 hw).2 hl e⟩
  split
  · rename_i unlisted
    refine mget_foldl_mset_ne (fun w hw e => ?_) m
    obtain ⟨hw, rfl⟩ := at_ w hw e
    exact ne_of_mem h hw ((mget_of_mem h hw).symm.trans unlisted)
  · rename_i listed
    refine mget_foldl_mset ⟨_, List.mem_filter.2 ⟨mem_of_mget listed, hl⟩, rfl⟩ (fun w hw e => ?_) m
    obtain ⟨hw, rfl⟩ := at_ w hw e
    rw [mget_of_mem h hw]

/-! ### The writes of a command that met no fault -/

/-- A map of writes that no fault and no overlap cuts is performed whole. -/
theorem jobWrites_whole {j : Job} (ok : j.errs = []) (apart : j.writes.any (fun w => j.reads.contains w.1) = false) : jobWrites j = j.writes := by
  have listed : ∀ (n last : Nat) (ws : NMap Nat), (inWords n last ws).map Prod.snd = ws := by
    intro n last ws
    induction ws generalizing n last with
    | nil => rfl
    | cons w ws ih => rw [inWords, List.map_cons, ih]
  unfold jobWrites
  simp only [ok, apart, List.isEmpty_nil, Bool.true_or, Bool.false_and, Bool.not_false, Bool.and_true, List.filter_true]
  exact listed ..

theorem foldl_poisonLoc_bytes (ls : List Nat) (t : State) :
    (ls.foldl (fun t l => poisonLoc l t) t).mem.cells = t.mem.cells ∧ (ls.foldl (fun t l => poisonLoc l t) t).hs.hostMem = t.hs.hostMem := by
  induction ls generalizing t with
  | nil => exact ⟨rfl, rfl⟩
  | cons l ls ih =>
    obtain ⟨dev, host⟩ := ih (poisonLoc l t)
    rw [List.foldl_cons, dev, host]
    unfold poisonLoc
    split <;> exact ⟨rfl, rfl⟩

theorem memStoreAll_cells (ws : NMap Nat) (m : Mem) :
    (memStoreAll ws m).cells = ws.foldl (fun m w => mset 0 m w.1 (BitVec.ofNat 8 (w.2 - 1))) m.cells := by
  unfold memStoreAll
  suffices key : ∀ (l : NMap Nat) (m : Mem),
      (l.foldl (fun t w => memStoreOne ws w t) m).cells = l.foldl (fun m w => mset 0 m w.1 (BitVec.ofNat 8 (w.2 - 1))) m.cells from key ws m
  intro l
  induction l with
  | nil => exact fun _ => rfl
  | cons w l ih => intro m; rw [List.foldl_cons, List.foldl_cons, ih, memStoreOne_cells]

/-- What a command's writes leave in memory: in device memory those outside core memories in quarantine, in host memory the others. -/
theorem jobCommit_cells (cause : Nat) (j : Job) : (jobCommit cause j).mem.cells =
    ((jobWrites j).filter (fun w => !isHost w.1 && !coreClosed j.s w.1)).foldl (fun m w => mset 0 m w.1 (BitVec.ofNat 8 (w.2 - 1))) j.s.mem.cells := by
  unfold jobCommit
  dsimp only
  rw [changed_mem]
  exact (foldl_poisonLoc_bytes ..).1.trans (memStoreAll_cells ..)

theorem jobCommit_hostMem (cause : Nat) (j : Job) : (jobCommit cause j).hs.hostMem =
    ((jobWrites j).filter (fun w => isHost w.1)).foldl (fun m w => mset 0 m (w.1 - hostBit) (BitVec.ofNat 8 (w.2 - 1))) j.s.hs.hostMem := by
  unfold jobCommit
  dsimp only
  rw [changed_hs]
  exact (foldl_poisonLoc_bytes ..).2

theorem sans_ax {s t : State} (h : sansCache s = sansCache t) : s.ax = t.ax := congrArg (fun x => x.ax) h

/-- Which core memories are in quarantine is no matter of a command's accesses. -/
theorem coreClosed_sans {s t : State} (h : sansCache s = sansCache t) (l : Nat) : coreClosed s l = coreClosed t l := by
  unfold coreClosed inQuar
  rw [sans_bt h, sans_fr h]

/-- The writes of a command that met no fault stand in memory, and every other byte is as before it. -/
theorem jobStored_jobCommit {s : State} {j : Job} (job : JobFrom s j) (ok : j.errs = []) (cause : Nat) : jobStored s (jobCommit cause j) j := by
  intro apart loc reach
  unfold locByte
  by_cases host : isHost loc = true
  · rw [if_pos host, if_pos host, jobCommit_hostMem, jobWrites_whole ok apart, ← sans_hs job.state]
    refine mget_foldl_writes job.writes isHost (· - hostBit) (fun a b ha hb e => ?_) _ host
    simp only [isHost, decide_eq_true_eq] at ha hb
    omega
  · rw [if_neg host, if_neg host, memByte, memByte, jobCommit_cells, jobWrites_whole ok apart, ← sans_cells job.state]
    exact mget_foldl_writes job.writes (fun l => !isHost l && !coreClosed j.s l) id (fun _ _ _ _ e => e) _
      (by simp [host, coreClosed_sans job.state, reach])

end Sys2Proof.Machine
end

section
/-! SUPPORT. What an array command reads at its acceptance and writes at its retirement: each is a job from the state before it (R44, R63,
R76, R151). -/

namespace Sys2Proof.Machine

section Reads
variable {s : State} {j : Job}

/-! ### At acceptance -/

theorem JobFrom.rdSel (a : Acc) (tc : Nat) (c : AxCmd) (sizes : List Nat) (h : JobFrom s j) : JobFrom s (rdSel a tc c sizes j).2 := by
  unfold Machine.rdSel
  split
  · exact h
  · refine JobFrom.mapJob (fun i u hu => ?_) _ j h
    dsimp only
    split
    · exact (hu.rdCode ..).step rfl rfl
    · exact hu.rdCode ..

theorem JobFrom.rdStationary (a : Acc) (tc : Nat) (c : AxCmd) (col b : Nat) (h : JobFrom s j) : JobFrom s (rdStationary a tc c col b j).2 := by
  unfold Machine.rdStationary
  dsimp only
  split
  · refine JobFrom.step (JobFrom.mapJob (fun k u hu => ?_) _ j h) rfl rfl
    exact hu.rdVal ..
  · refine JobFrom.mapJob (fun k u hu => ?_) _ _ (h.rdExp ..)
    exact hu.rdCode ..

theorem JobFrom.rdWeights (a : Acc) (tc : Nat) (c : AxCmd) (h : JobFrom s j) : JobFrom s (rdWeights a tc c j).2 := by
  refine JobFrom.foldl_snd (fun col st hst => JobFrom.foldl_snd (fun b st2 h2 => ?_) _ st hst) _ (_, j) h
  exact h2.rdStationary ..

theorem JobFrom.rdStream (a : Acc) (tc d row : Nat) (h : JobFrom s j) : JobFrom s (rdStream a tc d row j).2 := by
  refine JobFrom.mapJob (fun b u hu => ?_) _ j h
  refine JobFrom.mapJob (fun k w hw => ?_) _ _ (hu.rdExp ..)
  exact hw.rdCode ..

theorem JobFrom.passSums (a : Acc) (tc : Nat) (c : AxCmd) (w : Wts) (sel : List (Option Nat)) (h : JobFrom s j) :
    JobFrom s (passSums a tc c w sel j).2 := by
  refine JobFrom.foldl_snd (fun i st hst => ?_) _ (_, j) h
  dsimp only
  split
  · exact hst
  · exact hst.rdStream ..

theorem passReads_from (s : State) (c : AxCmd) (race : List Nat) (w : Option Wts) : JobFrom s (passReads s c race w).2 :=
  ((JobFrom.refl s []).rdSel ..).passSums ..

/-! ### At retirement -/

theorem JobFrom.epiOne (a : Acc) (tc : Nat) (c : AxCmd) (i col : Nat) (p : Pair) (h : JobFrom s j) : JobFrom s (epiOne a tc c i col p j).2 := by
  unfold Machine.epiOne
  dsimp only
  split
  · exact h
  · exact h.rdVal ..

theorem mwf_mergeRow (k : Nat) {old : NMap Nat} (new : NMap Nat) (h : mwf 0 old = true) : mwf 0 (mergeRow k old new) = true := by
  refine List.foldlRecOn (motive := fun m => mwf 0 m = true) _ _ h (fun m hm w _ => ?_)
  split
  · exact hm
  · exact mwf_mset 0 _ _ _ hm

/-- Each row's runs are written from a job whose writes are its own, which are then merged into those of the rows before. -/
theorem JobFrom.emitAll (a : Acc) (tc : Nat) (c : AxCmd) (pairs : Nat → Nat → Pair) (h : JobFrom s j) : JobFrom s (emitAll a tc c pairs j) := by
  refine JobFrom.foldl (fun i u hu => ?_) _ j h
  dsimp only
  split
  · exact hu
  · refine ⟨Eq.trans (b := sansCache (List.foldl _ { u with writes := [] } (tdRuns c.d1.toNat)).s) rfl ?_, mwf_mergeRow _ _ hu.writes⟩
    refine (JobFrom.foldl (fun run u1 h1 => ?_) _ { u with writes := [] } ⟨hu.state, rfl⟩).state
    split
    · exact h1
    · refine JobFrom.wrVals _ _ _ _ _ _ _ (JobFrom.mapJob (fun k w hw => ?_) _ _ h1)
      exact hw.epiOne ..

end Reads

end Sys2Proof.Machine
end

section
/-! SUPPORT. The acceptance and the end of an array command, and the record of one that failed (R42, R145, R148, R303). -/

namespace Sys2Proof.Machine

/-! ### What a change of memory wakes -/

theorem rxFill_keep {β : Type} (f : State → β) (h1 : ∀ (t : State) (x : Rx), f { t with rx := x } = f t)
    (h2 : ∀ (t : State) (n : Nat), f { t with free := n } = f t) (s : State) : f (rxFill s) = f s := by
  unfold rxFill
  dsimp only
  rw [h1]
  refine List.foldlRecOn (motive := fun t => f t = f s) _ _ rfl (fun t ht e _ => ?_)
  split
  · exact (h1 ..).trans ((h1 ..).trans ((h2 ..).trans ht))
  · exact ht

/-- The writes of a command change memory, host memory, waits, collectives, counts of absorbed writes and of free values alone. -/
theorem jobCommit_keep {β : Type} (f : State → β) (h1 : ∀ (t : State) (x : Rx), f { t with rx := x } = f t)
    (h2 : ∀ (t : State) (x : Hs) (m : Mem) (n : Nat), f { t with hs := x, mem := m, free := n } = f t)
    (h3 : ∀ (t : State) (x : Fr), f { t with fr := x } = f t)
    (h4 : ∀ (t : State) (ws : List Waiter), f { t with fe := { t.fe with waiters := ws } } = f t) (cause : Nat) (j : Job) :
    f (jobCommit cause j) = f j.s := by
  unfold jobCommit
  dsimp only
  unfold changed absorbReq
  rw [rxFill_keep f h1 (fun t n => h2 t t.hs t.mem n), h4, h3]
  refine List.foldlRecOn (motive := fun t => f t = f j.s) _ _ (h2 ..) (fun t ht l _ => ?_)
  unfold poisonLoc
  split
  · exact (h2 t _ t.mem t.free).trans ht
  · exact (h2 t t.hs _ t.free).trans ht

@[simp] theorem jobCommit_ax (cause : Nat) (j : Job) : (jobCommit cause j).ax = j.s.ax :=
  jobCommit_keep (·.ax) (fun _ _ => rfl) (fun _ _ _ _ => rfl) (fun _ _ => rfl) (fun _ _ => rfl) ..
@[simp] theorem getQ_jobCommit (cause : Nat) (j : Job) (q : Nat) : getQ (jobCommit cause j) q = getQ j.s q :=
  jobCommit_keep (getQ · q) (fun _ _ => rfl) (fun _ _ _ _ => rfl) (fun _ _ => rfl) (fun _ _ => rfl) ..

/-! ### A fault record -/

/-- A fault record touches cycle counts, cycle accounts, the fault registers and what leaves the module alone. -/
theorem addFault_keep {β : Type} (f : State → β) (h1 : ∀ k e t, f (setEng k e t) = f t) (h2 : ∀ isl t, f (tickIsland isl t) = f t)
    (h3 : ∀ isl t, f (bumpIseq isl t) = f t) (h4 : ∀ (t : State) (x : Fr), f { t with fr := x } = f t) (h5 : ∀ o t, f (emit o t) = f t)
    (r : FaultRec) (ctl : Bool) (s : State) : f (addFault r ctl s) = f s := by
  have counted : f (bumpIseq r.island (tick r.island s)) = f s := (h3 ..).trans (tick_keep f h1 h2 ..)
  unfold addFault
  dsimp only
  split
  · exact (notice_keep f (fun _ _ => h4 ..) h5 ..).trans ((h4 ..).trans counted)
  · exact (h4 ..).trans counted

@[simp] theorem addFault_mem (r : FaultRec) (ctl : Bool) (s : State) : (addFault r ctl s).mem = s.mem :=
  addFault_keep (·.mem) (fun _ _ _ => rfl) (fun _ _ => rfl) (fun _ _ => rfl) (fun _ _ => rfl) (fun _ _ => rfl) ..
@[simp] theorem addFault_hs (r : FaultRec) (ctl : Bool) (s : State) : (addFault r ctl s).hs = s.hs :=
  addFault_keep (·.hs) (fun _ _ _ => rfl) (fun _ _ => rfl) (fun _ _ => rfl) (fun _ _ => rfl) (fun _ _ => rfl) ..
@[simp] theorem addFault_ax (r : FaultRec) (ctl : Bool) (s : State) : (addFault r ctl s).ax = s.ax :=
  addFault_keep (·.ax) (fun _ _ _ => rfl) (fun _ _ => rfl) (fun _ _ => rfl) (fun _ _ => rfl) (fun _ _ => rfl) ..
@[simp] theorem addFault_fe (r : FaultRec) (ctl : Bool) (s : State) : (addFault r ctl s).fe = s.fe :=
  addFault_keep (·.fe) (fun _ _ _ => rfl) (fun _ _ => rfl) (fun _ _ => rfl) (fun _ _ => rfl) (fun _ _ => rfl) ..

/-- The record stands last in the fault ring. -/
theorem faultAdded_addFault {s t : State} (same : t.fr = s.fr) (r : FaultRec) (ctl : Bool) :
    faultAdded s (addFault r ctl t) r.cls r.status r.reason := by
  have count : (addFault r ctl t).fr.faultCount = s.fr.faultCount + 1 := by
    unfold addFault faultNotice; dsimp only
    split
    · rw [notice_keep (·.fr.faultCount) (fun _ _ => rfl) (fun _ _ => rfl)]; simp [same]
    · simp [same]
  have ring : ∃ x, (addFault r ctl t).fr.faults = mset {} s.fr.faults (s.fr.faultCount % 4096) x
      ∧ x.cls = r.cls ∧ x.status = r.status ∧ x.reason = r.reason := by
    unfold addFault faultNotice; dsimp only
    refine ⟨{ r with cycle := cycOf (tick r.island t) r.island, iseq := iseqOf (tick r.island t) r.island }, ?_, rfl, rfl, rfl⟩
    split
    · rw [notice_keep (·.fr.faults) (fun _ _ => rfl) (fun _ _ => rfl)]; simp only [bumpIseq_fr, tick_fr, same]
    · simp only [bumpIseq_fr, tick_fr, same]
  obtain ⟨x, put, cls, status, reason⟩ := ring
  refine ⟨count, ?_, ?_, ?_⟩ <;> rw [put, mget_mset_self] <;> assumption

/-! ### A bank's counters -/

@[simp] theorem setBank_active (v : AxPart) (b : Nat) (k : Bank) : (setBank b k v).active = v.active := by unfold setBank; split <;> rfl
@[simp] theorem setBank_shadow (v : AxPart) (b : Nat) (k : Bank) : (setBank b k v).shadow = v.shadow := by unfold setBank; split <;> rfl
@[simp] theorem setBank_last (v : AxPart) (b : Nat) (k : Bank) : (setBank b k v).last = v.last := by unfold setBank; split <;> rfl
@[simp] theorem setBank_loadAt (v : AxPart) (b : Nat) (k : Bank) : (setBank b k v).loadAt = v.loadAt := by unfold setBank; split <;> rfl
@[simp] theorem setBank_frontAt (v : AxPart) (b : Nat) (k : Bank) : (setBank b k v).frontAt = v.frontAt := by unfold setBank; split <;> rfl
@[simp] theorem setBank_next (v : AxPart) (b : Nat) (k : Bank) : (setBank b k v).next = v.next := by unfold setBank; split <;> rfl
@[simp] theorem setBank_cmds (v : AxPart) (b : Nat) (k : Bank) : (setBank b k v).cmds = v.cmds := by unfold setBank; split <;> rfl
@[simp] theorem setBank_rows (v : AxPart) (b : Nat) (k : Bank) : (setBank b k v).rows = v.rows := by unfold setBank; split <;> rfl

/-! ### The end of an accepted command -/

section End
variable (p : Nat) (c : AxCmd) (st : Nat) (n : Nums) (t : State)

/-- What the end of a command leaves alone: all but its partition, queues, cycle counts and the trace. -/
theorem axEnd_keep {β : Type} (f : State → β) (h1 : ∀ (t : State) (o : Ob), f { t with ob := o } = f t)
    (h2 : ∀ isl t, f (bumpIseq isl t) = f t) (h3 : ∀ k e t, f (setEng k e t) = f t) (h4 : ∀ isl t, f (tickIsland isl t) = f t)
    (h5 : ∀ q v t, f (setPart q v t) = f t) (h6 : ∀ q v t, f (setQ q v t) = f t) : f (axEnd p c st n t) = f t := by
  have shadow : ∀ t, f (axShadow p c st n t) = f t := fun t => (traceEng_keep f h1 h2 h3 h4 ..).trans (h5 ..)
  unfold axEnd
  dsimp only
  split
  · exact h5 ..
  · split
    · exact (shadow _).trans (h5 ..)
    · exact (h6 ..).trans ((shadow _).trans (h5 ..))

@[simp] theorem axEnd_mem : (axEnd p c st n t).mem = t.mem :=
  axEnd_keep p c st n t (·.mem) (fun _ _ => rfl) (fun _ _ => rfl) (fun _ _ _ => rfl) (fun _ _ => rfl) (fun _ _ _ => rfl) (fun _ _ _ => rfl)
@[simp] theorem axEnd_hs : (axEnd p c st n t).hs = t.hs :=
  axEnd_keep p c st n t (·.hs) (fun _ _ => rfl) (fun _ _ => rfl) (fun _ _ _ => rfl) (fun _ _ => rfl) (fun _ _ _ => rfl) (fun _ _ _ => rfl)
@[simp] theorem axEnd_fr : (axEnd p c st n t).fr = t.fr :=
  axEnd_keep p c st n t (·.fr) (fun _ _ => rfl) (fun _ _ => rfl) (fun _ _ _ => rfl) (fun _ _ => rfl) (fun _ _ _ => rfl) (fun _ _ _ => rfl)

/-- The partition after the end of a command: the command is gone, and its bank's shadow has its counters unless a reset ended it. -/
theorem getPart_axEnd : getPart (axEnd p c st n t) p =
    let v := { getPart t p with cmds := (getPart t p).cmds.filter (fun x => !(x.q == c.q && x.seq == c.seq)) }
    if c.ended then v else setBank c.bank (shadowed n c.seq (qCtxNo c.q) (getBank v c.bank)) v := by
  have shadow : ∀ t, getPart (axShadow p c st n t) p =
      setBank c.bank (shadowed n c.seq (qCtxNo c.q) (getBank (getPart t p) c.bank)) (getPart t p) := fun t => by
    unfold axShadow
    rw [traceEng_keep (getPart · p) (fun _ _ => rfl) (fun _ _ => rfl) (fun _ _ _ => rfl) (fun _ _ => rfl), getPart_modPart, if_pos rfl]
  have result : ∀ t, getPart (setResult c.queue c.id st t) p = getPart t p := fun _ => rfl
  unfold axEnd
  dsimp only
  split
  · simp
  · split
    · rw [shadow, getPart_modPart, if_pos rfl]
    · rw [result, shadow, getPart_modPart, if_pos rfl]

/-- What neither counters nor the list of commands belong to is as before the end of a command. -/
theorem axEnd_part {β : Type} (f : AxPart → β) (h1 : ∀ v b k, f (setBank b k v) = f v) (h2 : ∀ (v : AxPart) l, f { v with cmds := l } = f v) :
    f (getPart (axEnd p c st n t) p) = f (getPart t p) := by
  rw [getPart_axEnd]
  dsimp only
  split
  · exact h2 ..
  · exact (h1 ..).trans (h2 ..)

@[simp] theorem axEnd_rows : (getPart (axEnd p c st n t) p).rows = (getPart t p).rows :=
  axEnd_part p c st n t (·.rows) setBank_rows (fun _ _ => rfl)
@[simp] theorem axEnd_active : (getPart (axEnd p c st n t) p).active = (getPart t p).active :=
  axEnd_part p c st n t (·.active) setBank_active (fun _ _ => rfl)
@[simp] theorem axEnd_shadow : (getPart (axEnd p c st n t) p).shadow = (getPart t p).shadow :=
  axEnd_part p c st n t (·.shadow) setBank_shadow (fun _ _ => rfl)

theorem axEnd_cmds : (getPart (axEnd p c st n t) p).cmds = (getPart t p).cmds.filter (fun x => !(x.q == c.q && x.seq == c.seq)) := by
  rw [getPart_axEnd]
  dsimp only
  split
  · rfl
  · exact setBank_cmds ..

variable {p c st n t}

/-- A load that no reset ended leaves its counters in the shadow of the loads' bank. -/
theorem axEnd_bankL (load : c.bank = 0) (runs : c.ended = false) : (getPart (axEnd p c st n t) p).bankL.shadow = n := by
  rw [getPart_axEnd, load, runs]
  rfl

/-- A command without a program whose end no reset gave has its status. -/
theorem statusGiven_axEnd {s : State} (same : ∀ q, getQ t q = getQ s q) (runs : c.ended = false) (alone : c.byProg = false) :
    statusGiven s (axEnd p c st n t) c.queue c.id st := by
  have given : (getQ (axEnd p c st n t) c.queue).inflight =
      (getQ s c.queue).inflight.map (fun f => if f.id = c.id ∧ f.result = none then { f with result := some st } else f) := by
    have before : ∀ t, getQ (axShadow p c st n t) c.queue = getQ t c.queue := fun t => getQ_traceEng ..
    unfold axEnd setResult
    rw [runs, alone]
    dsimp only
    rw [if_neg (by simp), if_neg (by simp), getQ_modQ, if_pos rfl, before]
    exact congrArg (fun v : Queue => v.inflight.map _) (same c.queue)
  intro f hf id waits
  refine ⟨{ f with result := some st }, ?_, id, rfl⟩
  rw [given]
  exact List.mem_map.2 ⟨f, hf, if_pos ⟨id, waits⟩⟩

end End

end Sys2Proof.Machine
end

section
/-! SUPPORT. The accumulator rows after a pass: the pairs of its region, and every other row and tile as before (R64 to R66, R68). -/

namespace Sys2Proof.Machine

/-- Columns of the draining tiles that a command's output columns take up, at most those of eight tiles (R64). -/
def fitsTiles (c : AxCmd) : Prop := (if c.paired then 2 * c.n else c.n) ≤ 8192

theorem tile_lt {c : AxCmd} (fits : fitsTiles c) {t : Nat} (ht : t ∈ tilesOf c) : t < 16 := by
  unfold fitsTiles at fits
  simp only [tilesOf, upto, List.mem_range] at ht
  omega

/-- The tile of an output column is one of the command's. -/
theorem colTile_mem {c : AxCmd} {j : Nat} (hj : j < c.n) : colTile c.paired j ∈ tilesOf c := by
  simp only [tilesOf, upto, List.mem_range, colTile]
  split <;> omega

/-- Columns of one tile have slots of their own. -/
theorem colSlot_inj {paired : Bool} {i j : Nat} (tile : colTile paired i = colTile paired j) (slot : colSlot paired i = colSlot paired j) :
    i = j := by
  cases paired
  · simp only [colTile, colSlot, Bool.false_eq_true, if_false] at tile slot
    omega
  · simp only [colTile, colSlot, if_true] at tile slot
    omega

theorem mem_tileCols {c : AxCmd} {j t : Nat} : j ∈ tileCols_ c t ↔ j < c.n ∧ colTile c.paired j = t := by
  simp [tileCols_, upto]

/-- The slot of an output column after a pass holds the pass's pair. -/
theorem passRow_slot (v : AxPart) {c : AxCmd} (i : Nat) {j : Nat} (hj : j < c.n) :
    mget (0, 0) (passRow v c i (colTile c.paired j)).slots (colSlot c.paired j) = passPair v c i j := by
  refine mget_foldl_mset ⟨j, mem_tileCols.2 ⟨hj, rfl⟩, rfl⟩ (fun x hx slot => ?_) _
  rw [colSlot_inj (mem_tileCols.1 hx).2 slot]

/-- The rows of a pass's region, by row of the pass and tile. -/
def regionOf (c : AxCmd) : List (Nat × Nat) := (upto c.m).flatMap (fun i => (tilesOf c).map (fun t => (i, t)))

theorem mem_regionOf {c : AxCmd} {x : Nat × Nat} : x ∈ regionOf c ↔ x.1 < c.m ∧ x.2 ∈ tilesOf c := by
  obtain ⟨i, t⟩ := x
  simp only [regionOf, upto, List.mem_flatMap, List.mem_range, List.mem_map, Prod.mk.injEq]
  constructor
  · rintro ⟨a, ha, b, hb, rfl, rfl⟩
    exact ⟨ha, hb⟩
  · exact fun h => ⟨i, h.1, t, h.2, rfl, rfl⟩

theorem passRows_eq (v : AxPart) {c : AxCmd} (touches : c.touches = true) :
    passRows v c = (regionOf c).foldl (fun m x => mset {} m (16 * (c.rbase + x.1) + x.2) (passRow v c x.1 x.2)) v.rows := by
  unfold passRows regionOf
  rw [touches, List.foldl_flatMap]
  simp only [Bool.not_true, Bool.false_eq_true, if_false, List.foldl_map]

/-- Each row of the region is as the pass writes it. -/
theorem passRows_in (v : AxPart) {c : AxCmd} (touches : c.touches = true) (fits : fitsTiles c) {i t : Nat} (hi : i < c.m) (ht : t ∈ tilesOf c) :
    mget {} (passRows v c) (16 * (c.rbase + i) + t) = passRow v c i t := by
  rw [passRows_eq v touches]
  refine mget_foldl_mset ⟨(i, t), mem_regionOf.2 ⟨hi, ht⟩, rfl⟩ (fun x hx key => ?_) _
  have here := tile_lt fits ht
  have there := tile_lt fits (mem_regionOf.1 hx).2
  rw [show x.1 = i by omega, show x.2 = t by omega]

/-- Every other row and tile is as before the pass. -/
theorem passRows_out (v : AxPart) {c : AxCmd} (touches : c.touches = true) (fits : fitsTiles c) {row t : Nat} (ht : t < 16)
    (out : row < c.rbase ∨ c.rbase + c.m ≤ row ∨ t ∉ tilesOf c) : mget {} (passRows v c) (16 * row + t) = mget {} v.rows (16 * row + t) := by
  rw [passRows_eq v touches]
  refine mget_foldl_mset_ne (fun x hx key => ?_) _
  obtain ⟨hi, hx⟩ := mem_regionOf.1 hx
  have tile := tile_lt fits hx
  have same : x.2 = t := by omega
  rcases out with low | high | other
  · omega
  · omega
  · exact other (same ▸ hx)

/-- A partition whose rows a pass has written: its region, the pairs in it, and the rest. -/
theorem region_passRows {v u : AxPart} {c : AxCmd} (rows : u.rows = passRows v c) (touches : c.touches = true) (fits : fitsTiles c) :
    (∀ i t, i < c.m → t ∈ tilesOf c →
      (tileRow u (c.rbase + i) t).valid = true ∧ (tileRow u (c.rbase + i) t).ctx = c.ctx ∧ (tileRow u (c.rbase + i) t).paired = c.paired)
    ∧ (∀ i j, i < c.m → j < c.n → rowPair u c.ctx (c.rbase + i) c.paired j = passPair v c i j)
    ∧ (∀ row t, t < 16 → row < c.rbase ∨ c.rbase + c.m ≤ row ∨ t ∉ tilesOf c → tileRow u row t = tileRow v row t) := by
  have inside : ∀ {i t}, i < c.m → t ∈ tilesOf c → tileRow u (c.rbase + i) t = passRow v c i t := fun hi ht => by
    rw [tileRow, rows, passRows_in v touches fits hi ht]
  refine ⟨fun i t hi ht => ?_, fun i j hi hj => ?_, fun row t ht out => ?_⟩
  · rw [inside hi ht]
    exact ⟨rfl, rfl, rfl⟩
  · rw [rowPair, inside hi (colTile_mem hj), ← passRow_slot v i hj]
    exact if_pos (by simp [passRow])
  · rw [tileRow, rows, passRows_out v touches fits ht out, tileRow]

theorem touches_of_keep {c : AxCmd} (pass : c.bank = 1) (dt : c.dt = false) : c.touches = true := by simp [AxCmd.touches, pass, dt]

/-- A pass that leaves its sums in no row leaves the rows. -/
theorem passRows_of_not_acc (v : AxPart) {c : AxCmd} (dt : c.dt = true) (acc : c.acc = false) : passRows v c = v.rows := by
  simp [passRows, AxCmd.touches, dt, acc]

end Sys2Proof.Machine
end

section
/-! SUPPORT. Loads, fronts, passes and drains of the array (R44, R45, R54, R63 to R68, R78, R145, R151, R371). -/

namespace Sys2Proof.Machine

/-! ### Acceptance -/

section Accept
variable {p : Nat} {c d : AxCmd} {s t : State}

/-- The partition after an acceptance: the command stands behind the others, and none waits for its turn. -/
theorem getPart_axAccept : getPart (axAccept p d t) p = setBank d.bank { getBank (getPart t p) d.bank with started := true }
    { getPart t p with next := none, cmds := (getPart t p).cmds ++ [{ d with draw := t.free }] } := by
  have part : ∀ u v : State, u.ax = v.ax → getPart u p = getPart v p := fun u v h => by rw [getPart, getPart, h]
  unfold axAccept
  dsimp only
  split
  · rw [part _ _ (doneInsn_ax ..), getPart_modPart, if_pos rfl]
    rfl
  · rw [part _ _ (modQc_ax ..), part _ _ (leaveEng_ax ..), getPart_modPart, if_pos rfl]
    rfl

@[simp] theorem axAccept_mem : (axAccept p d t).mem = t.mem := by unfold axAccept; dsimp only; split <;> simp
@[simp] theorem axAccept_hs : (axAccept p d t).hs = t.hs := by unfold axAccept; dsimp only; split <;> simp

theorem getQc_axAccept : getQc (axAccept p d t) d.q =
    if d.byProg then getQc (doneInsn d.q 16 t) d.q else { getQc t d.q with cmd := none, started := false } := by
  unfold axAccept
  extract_lets t1
  have same : getQc t1 d.q = getQc t d.q := rfl
  split
  · rw [getQc_doneInsn, getQc_doneInsn, same]
  · rw [getQc_modQc, if_pos rfl, getQc_leaveEng, same]

/-- The program of an accepted command goes on behind it; an instruction command has left its queue context. -/
theorem ended_axAccept (prog : d.byProg = isProg (getQc t d.q)) : ended t (axAccept p d t) d.q ((getQc t d.q).pc + 16) := by
  unfold ended
  rw [getQc_axAccept, prog]
  by_cases running : isProg (getQc t d.q) = true
  · rw [if_pos running, if_pos running, getQc_doneInsn, if_neg (by simp), if_pos running]
    exact ⟨rfl, rfl⟩
  · rw [if_neg running, if_neg running]

/-- What an acceptance takes of a partition leaves the rows and the accepted commands. -/
structure Takes (took : AxPart → AxPart) : Prop where
  rows : ∀ v, (took v).rows = v.rows
  cmds : ∀ v, (took v).cmds = v.cmds

/-- A command whose operands a job has read is accepted. -/
theorem axAccepted_axAccept {took : AxPart → AxPart} (takes : Takes took) (hq : d.q = c.q) (prog : d.byProg = c.byProg) :
    axAccepted t (onlyWork s (axAccept p d (modPart p took t))) p c d := by
  have part : getPart (onlyWork s (axAccept p d (modPart p took t))) p = setBank d.bank { getBank (took (getPart t p)) d.bank with started := true }
      { took (getPart t p) with next := none, cmds := (getPart t p).cmds ++ [{ d with draw := t.free }] } := by
    have at_ := getPart_axAccept (p := p) (d := d) (t := modPart p took t)
    rw [getPart_modPart, if_pos rfl, takes.cmds] at at_
    exact at_
  refine ⟨?_, ?_, ?_, fun same => ?_, ?_, ?_⟩
  · rw [part]; exact setBank_cmds ..
  · rw [part]; exact setBank_next ..
  · rw [part]; exact (setBank_rows ..).trans (takes.rows _)
  · rw [← hq] at same ⊢
    exact ended_axAccept (t := modPart p took t) (prog.trans same)
  · simp
  · simp

/-- What neither the banks nor the commands belong to is, after an acceptance, as it was taken. -/
theorem axAccept_part {β : Type} (f : AxPart → β) (h1 : ∀ v b k, f (setBank b k v) = f v)
    (h2 : ∀ (v : AxPart) (x : Option AxCmd) (l : List AxCmd), f { v with next := x, cmds := l } = f v) (took : AxPart → AxPart) :
    f (getPart (onlyWork s (axAccept p d (modPart p took t))) p) = f (took (getPart t p)) := by
  have at_ := getPart_axAccept (p := p) (d := d) (t := modPart p took t)
  rw [getPart_modPart, if_pos rfl] at at_
  exact (congrArg f at_).trans ((h1 ..).trans (h2 ..))

end Accept

theorem JobFrom.getPart {s : State} {j : Job} (h : JobFrom s j) (p : Nat) : getPart j.s p = getPart s p := by
  rw [Machine.getPart, Machine.getPart, sans_ax h.state]

/-- The acceptance of a command whose operands a job has read changes no byte. -/
theorem bytesSame_axAccept {s : State} {j : Job} (h : JobFrom s j) (p : Nat) (d : AxCmd) (took : AxPart → AxPart) :
    bytesSame s (onlyWork s (axAccept p d (modPart p took j.s))) := by
  refine ⟨?_, ?_⟩
  · rw [onlyWork_cells, axAccept_mem, modPart_mem, sans_cells h.state]
  · rw [onlyWork_hostMem, axAccept_hs, modPart_hs, sans_hs h.state]

/-! ### Loads -/

/-- What a load that starts takes of its partition: its weights wait where its operand could be read. -/
def loadTakes (cycle : Nat) (c : AxCmd) (r : Wts × Job) (v : AxPart) : AxPart :=
  { v with loadAt := some (cycle, c.rho), takenAt := none, last := some (c.ctx, c.m, c.n, tdFmt c.d2.toNat)
           shadow := if r.2.errs.isEmpty then some r.1 else v.shadow }

theorem takes_load (cycle : Nat) (c : AxCmd) (r : Wts × Job) : Takes (loadTakes cycle c r) := ⟨fun _ => rfl, fun _ => rfl⟩

theorem exec_loadwStart {p cycle : Nat} {s : State} {c : AxCmd} (up : engUp s kAX p = true) (next : (getPart s p).next = some c) (load : c.bank = 0)
    (may : loadMay (getPart s p) cycle = true) :
    let r := rdWeights (axAcc c (raceOf s p)) (tcOf s) c { s }
    exec (.loadwStart p cycle) s = .next (onlyWork s (axAccept p (readAt s c (raceOf s p) [] r.2) (modPart p (loadTakes cycle c r) r.2.s))) := by
  have turn : waiting (getPart s p) 0 = some c := by simp [waiting, next, load]
  show execLoadwStart p cycle s = _
  unfold execLoadwStart
  dsimp only
  rw [turn]
  dsimp only
  rw [if_neg (by simp [up, may])]
  rfl

theorem loadwStart_effect {p cycle : Nat} {s : State} {c : AxCmd} (up : engUp s kAX p = true) (next : (getPart s p).next = some c) (load : c.bank = 0)
    (may : loadMay (getPart s p) cycle = true) :
    let race := raceOf s p
    let r := rdWeights (axAcc c race) (tcOf s) c { s }
    ∃ t d, exec (.loadwStart p cycle) s = .next t ∧ axAccepted r.2.s t p c d ∧ d = readAt s c race [] r.2
      ∧ (getPart t p).shadow = (if r.2.errs = [] then some r.1 else (getPart s p).shadow) ∧ (getPart t p).active = (getPart s p).active
      ∧ (getPart t p).loadAt = some (cycle, c.rho) ∧ (getPart t p).last = some (c.ctx, c.m, c.n, tdFmt c.d2.toNat) ∧ bytesSame s t := by
  intro race r
  have job : JobFrom s r.2 := (JobFrom.refl s []).rdWeights ..
  refine ⟨_, _, exec_loadwStart up next load may, axAccepted_axAccept (takes_load cycle c r) rfl rfl, rfl, ?_, ?_, ?_, ?_, bytesSame_axAccept job ..⟩
  · refine (axAccept_part (·.shadow) setBank_shadow (fun _ _ _ => rfl) (loadTakes cycle c r)).trans ?_
    rw [job.getPart, loadTakes]
    simp only [List.isEmpty_iff]
  · refine (axAccept_part (·.active) setBank_active (fun _ _ _ => rfl) (loadTakes cycle c r)).trans ?_
    rw [job.getPart, loadTakes]
  · exact axAccept_part (·.loadAt) setBank_loadAt (fun _ _ _ => rfl) (loadTakes cycle c r)
  · exact axAccept_part (·.last) setBank_last (fun _ _ _ => rfl) (loadTakes cycle c r)

/-! ### Fronts -/

/-- Loaded weights that wait, or those the cells multiply by where none do. -/
def frontWeights (v : AxPart) : Option Wts := if v.shadow.isSome then v.shadow else v.active

/-- What a front takes of its partition: the weights that wait go into the cells. -/
def frontTakes (cycle : Nat) (c : AxCmd) (v u : AxPart) : AxPart :=
  { u with active := frontWeights v, shadow := none, takenAt := if v.shadow.isSome then some cycle else u.takenAt
           frontAt := some (cycle, c.m * c.swidth) }

theorem takes_front (cycle : Nat) (c : AxCmd) (v : AxPart) : Takes (frontTakes cycle c v) := ⟨fun _ => rfl, fun _ => rfl⟩

theorem exec_passFront {p cycle : Nat} {s : State} {c : AxCmd} (up : engUp s kAX p = true) (next : (getPart s p).next = some c) (pass : c.bank = 1)
    (may : frontMay (getPart s p) cycle = true) :
    let r := passReads s c (raceOf s p) (frontWeights (getPart s p))
    exec (.passFront p cycle) s = .next (onlyWork s
      (axAccept p { readAt s c (raceOf s p) r.1.1 r.2 with sums := r.1.2 } (modPart p (frontTakes cycle c (getPart s p)) r.2.s))) := by
  have turn : waiting (getPart s p) 1 = some c := by simp [waiting, next, pass]
  show execPassFront p cycle s = _
  unfold execPassFront
  dsimp only
  rw [turn]
  dsimp only
  rw [if_neg (by simp [up, may])]
  rfl

theorem passFront_effect {p cycle : Nat} {s : State} {c : AxCmd} (up : engUp s kAX p = true) (next : (getPart s p).next = some c) (pass : c.bank = 1)
    (may : frontMay (getPart s p) cycle = true) :
    let race := raceOf s p
    let w := if (getPart s p).shadow.isSome then (getPart s p).shadow else (getPart s p).active
    let r := passReads s c race w
    ∃ t d, exec (.passFront p cycle) s = .next t ∧ axAccepted r.2.s t p c d ∧ d = { readAt s c race r.1.1 r.2 with sums := r.1.2 }
      ∧ (getPart t p).active = w ∧ (getPart t p).shadow = none ∧ (getPart t p).frontAt = some (cycle, c.m * c.swidth) ∧ bytesSame s t := by
  intro race w r
  have job : JobFrom s r.2 := passReads_from ..
  refine ⟨_, _, exec_passFront up next pass may, axAccepted_axAccept (takes_front cycle c (getPart s p)) rfl rfl, rfl, ?_, ?_, ?_, bytesSame_axAccept job ..⟩
  · exact axAccept_part (·.active) setBank_active (fun _ _ _ => rfl) (frontTakes cycle c _)
  · exact axAccept_part (·.shadow) setBank_shadow (fun _ _ _ => rfl) (frontTakes cycle c _)
  · exact axAccept_part (·.frontAt) setBank_frontAt (fun _ _ _ => rfl) (frontTakes cycle c _)

end Sys2Proof.Machine
end

section
/-! SUPPORT. The retirement of loads, passes and drains (R45, R65, R66, R68, R78, R145, R148, R151). -/

namespace Sys2Proof.Machine

/-! ### A command that ends, and one that failed -/

/-- The end of a command changes no byte that its accesses have left. -/
theorem jobStored_axEnd {s t : State} {j : Job} {p st : Nat} {c : AxCmd} {n : Nums} (h : jobStored s t j) :
    jobStored s (axEnd p c st n t) j := by
  have same : ∀ loc, locByte (axEnd p c st n t) loc = locByte t loc := fun loc => by simp only [locByte, axEnd_mem, axEnd_hs]
  exact fun apart loc reach => (same loc).trans (h apart loc reach)

section Ends
variable {s : State} {a : NMap AxPart} {p : Nat} {c : AxCmd}

/-- The writes of an array command without a failing access stand in memory once it has ended, its partition's rows are as before its
accesses, and its own command has its status. -/
theorem axJobEnd_done {j : Job} (job : JobFrom { s with ax := a } j) (ok : j.errs = []) (runs : c.ended = false) :
    ∃ u, axJobEnd p c j (jobCommit causeArray j) = axAfter p u ∧ jobStored s u j ∧ (getPart u p).rows = (mget {} a p).rows
      ∧ (c.byProg = false → statusGiven s u c.queue c.id 0) := by
  have stored : jobStored s (jobCommit causeArray j) j := fun apart loc reach => jobStored_jobCommit job ok causeArray apart loc reach
  refine ⟨axEnd p c stDone (addNums c.nums j.nums) (jobCommit causeArray j), ?_, jobStored_axEnd stored, ?_, statusGiven_axEnd (fun q => ?_) runs⟩
  · unfold axJobEnd failOf
    rw [ok]
  · rw [axEnd_rows, getPart, jobCommit_ax, sans_ax job.state]
  · rw [getQ_jobCommit, getQ, getQ, sans_fe job.state]

/-- A command that failed in an access leaves its record and its status, and the rows as they were. -/
theorem axFault_failed (f : AxFail) (n : Nums) (runs : c.ended = false) :
    ∃ u, axFault p c f n { s with ax := a } = axAfter p (ctxReset c.ctx 0x30 false u) ∧ axFailed s u c f
      ∧ (getPart u p).rows = (mget {} a p).rows := by
  refine ⟨axEnd p c f.status n (addFault _ false { s with ax := a }), rfl, ⟨?_, ⟨⟨?_, ?_⟩, ?_, ?_, ?_⟩, statusGiven_axEnd (fun q => ?_) runs⟩, ?_⟩
  · unfold faultAdded
    rw [axEnd_fr]
    exact faultAdded_addFault rfl _ _
  · rw [axEnd_mem, addFault_mem]
  · rw [axEnd_hs, addFault_hs]
  · rw [axEnd_mem, addFault_mem]
  · rw [axEnd_mem, addFault_mem]
  · rw [axEnd_hs, addFault_hs]
  · rw [getQ, addFault_fe, getQ]
  · rw [axEnd_rows, getPart, addFault_ax]

/-- The end of a command without accesses changes no byte. -/
theorem bytesKept_axEnd (st : Nat) (n : Nums) : bytesKept s (axEnd p c st n { s with ax := a }) := by
  unfold bytesKept bytesSame
  rw [axEnd_mem, axEnd_hs]
  exact ⟨⟨rfl, rfl⟩, rfl, rfl, rfl⟩

end Ends

/-! ### Loads -/

theorem exec_loadwRetire {p : Nat} {s : State} {c : AxCmd} (up : engUp s kAX p = true)
    (oldest : (getPart s p).cmds.find? (fun c => c.bank == 0) = some c) :
    exec (.loadwRetire p) s = .next (onlyWork s (c.fail.elim (axAfter p (axEnd p c stDone c.nums s))
      (fun f => if c.ended then axAfter p (axEnd p c stDone c.nums s) else axFault p c f c.nums s))) := by
  show execLoadwRetire p s = _
  unfold execLoadwRetire
  rw [oldest]
  dsimp only
  rw [if_neg (by simp [up])]
  cases c.fail with
  | none => rfl
  | some f => rfl

theorem loadwRetire_effect {p : Nat} {s : State} {c : AxCmd} (up : engUp s kAX p = true)
    (oldest : (getPart s p).cmds.find? (fun c => c.bank == 0) = some c) (ends : c.ended = true ∨ c.fail = none) :
    ∃ u, exec (.loadwRetire p) s = .next (onlyWork s (axAfter p u))
      ∧ (getPart u p).cmds = (getPart s p).cmds.filter (fun x => !(x.q == c.q && x.seq == c.seq))
      ∧ (getPart u p).shadow = (getPart s p).shadow ∧ (getPart u p).active = (getPart s p).active ∧ (getPart u p).rows = (getPart s p).rows
      ∧ bytesKept s u ∧ (c.ended = false → (getPart u p).bankL.shadow = c.nums ∧ (c.byProg = false → statusGiven s u c.queue c.id 0)) := by
  have load : c.bank = 0 := by simpa using List.find?_some oldest
  refine ⟨axEnd p c stDone c.nums s, ?_, axEnd_cmds .., axEnd_shadow .., axEnd_active .., axEnd_rows .., bytesKept_axEnd (a := s.ax) .., fun runs =>
    ⟨axEnd_bankL load runs, statusGiven_axEnd (fun _ => rfl) runs⟩⟩
  rw [exec_loadwRetire up oldest]
  rcases ends with ended | sound
  · cases c.fail with
    | none => rfl
    | some f => rw [Option.elim_some, if_pos ended]
  · rw [sound, Option.elim_none]

theorem loadwRetire_failed {p : Nat} {s : State} {c : AxCmd} {f : AxFail} (up : engUp s kAX p = true)
    (oldest : (getPart s p).cmds.find? (fun c => c.bank == 0) = some c) (runs : c.ended = false) (fails : c.fail = some f) :
    ∃ u, exec (.loadwRetire p) s = .next (onlyWork s (axAfter p (ctxReset c.ctx 0x30 false u))) ∧ axFailed s u c f := by
  obtain ⟨u, fault, failed, -⟩ := axFault_failed (s := s) (a := s.ax) (p := p) f c.nums runs
  refine ⟨u, ?_, failed⟩
  rw [exec_loadwRetire up oldest, fails, ← fault, Option.elim_some, if_neg (by simp [runs])]

/-! ### Passes -/

section Passes
variable {p : Nat} {s : State} {c : AxCmd}

/-- Drains that read their rows before a pass writes them leave the rows, so that the pass finds them as they were. -/
theorem snapBefore_regionFail (c : AxCmd) (v : AxPart) : regionFail (snapBefore c v) c = regionFail v c := rfl
theorem snapBefore_passRows (c : AxCmd) (v : AxPart) : passRows (snapBefore c v) c = passRows v c := rfl
theorem snapBefore_passPair (c : AxCmd) (v : AxPart) : passPair (snapBefore c v) c = passPair v c := rfl

/-- The state in which a pass ends: drains accepted before it have read their rows, and it has written its own. -/
def afterPass (p : Nat) (c : AxCmd) (s : State) : State :=
  modPart p (fun u => { u with rows := passRows (getPart s p) c }) (modPart p (snapBefore c) s)

theorem afterPass_rows : (getPart (afterPass p c s) p).rows = passRows (getPart s p) c := by
  rw [afterPass, getPart_modPart, if_pos rfl]

theorem exec_passRetire (up : engUp s kAX p = true) (oldest : (getPart s p).cmds.find? (fun c => c.bank == 1) = some c) (runs : c.ended = false) :
    exec (.passRetire p) s = .next (onlyWork s ((c.fail.or (regionFail (getPart s p) c)).elim
      (if c.dt then
        let j := emitAll (axAcc c c.race) (tcOf (afterPass p c s)) c (passPair (getPart s p) c) { s := afterPass p c s, reads := c.own }
        axJobEnd p c j (jobCommit causeArray j)
      else axAfter p (axEnd p c stDone c.nums (afterPass p c s)))
      (fun f => axFault p c f c.nums (modPart p (snapBefore c) s)))) := by
  show execPassRetire p s = _
  unfold execPassRetire
  rw [oldest]
  dsimp only
  rw [if_neg (by simp [up]), if_neg (by simp [runs]), getPart_modPart, if_pos rfl, snapBefore_regionFail, snapBefore_passRows, snapBefore_passPair]
  cases c.fail.or (regionFail (getPart s p) c) with
  | none => rfl
  | some f => rfl

theorem passRetire_rows (up : engUp s kAX p = true) (oldest : (getPart s p).cmds.find? (fun c => c.bank == 1) = some c) (runs : c.ended = false)
    (sound : c.fail = none) (keeps : c.dt = false) (clean : regionFail (getPart s p) c = none) (fits : fitsTiles c) :
    ∃ u, exec (.passRetire p) s = .next (onlyWork s (axAfter p u)) ∧ bytesKept s u
      ∧ (∀ i t, i < c.m → t ∈ tilesOf c →
          let r := tileRow (getPart u p) (c.rbase + i) t
          r.valid = true ∧ r.ctx = c.ctx ∧ r.paired = c.paired)
      ∧ (∀ i j, i < c.m → j < c.n → rowPair (getPart u p) c.ctx (c.rbase + i) c.paired j = passPair (getPart s p) c i j)
      ∧ (∀ row t, t < 16 → row < c.rbase ∨ c.rbase + c.m ≤ row ∨ t ∉ tilesOf c → tileRow (getPart u p) row t = tileRow (getPart s p) row t)
      ∧ (c.byProg = false → statusGiven s u c.queue c.id 0) := by
  have pass : c.bank = 1 := by simpa using List.find?_some oldest
  have rows : (getPart (axEnd p c stDone c.nums (afterPass p c s)) p).rows = passRows (getPart s p) c := by rw [axEnd_rows, afterPass_rows]
  obtain ⟨region, pairs, rest⟩ := region_passRows rows (touches_of_keep pass keeps) fits
  refine ⟨_, ?_, bytesKept_axEnd (a := (afterPass p c s).ax) .., region, pairs, rest, statusGiven_axEnd (fun _ => rfl) runs⟩
  rw [exec_passRetire up oldest runs, sound, clean, keeps]
  rfl

theorem passRetire_outputs (up : engUp s kAX p = true) (oldest : (getPart s p).cmds.find? (fun c => c.bank == 1) = some c) (runs : c.ended = false)
    (sound : c.fail = none) (writes : c.dt = true) (clean : regionFail (getPart s p) c = none) :
    let j := emitAll (axAcc c c.race) (tcOf (afterPass p c s)) c (passPair (getPart s p) c) { s := afterPass p c s, reads := c.own }
    j.errs = [] → ∃ u, exec (.passRetire p) s = .next (onlyWork s (axAfter p u)) ∧ jobStored s u j
      ∧ (c.acc = false → (getPart u p).rows = (getPart s p).rows) ∧ (c.byProg = false → statusGiven s u c.queue c.id 0) := by
  intro j ok
  have job : JobFrom { s with ax := (afterPass p c s).ax } j := (JobFrom.refl (afterPass p c s) c.own).emitAll ..
  obtain ⟨u, done, stored, rows, status⟩ := axJobEnd_done (p := p) job ok runs
  refine ⟨u, ?_, stored, fun apart => ?_, status⟩
  · rw [exec_passRetire up oldest runs, sound, clean, writes, ← done]
    rfl
  · rw [rows, ← passRows_of_not_acc (getPart s p) writes apart, ← afterPass_rows]
    rfl

theorem passRetire_failed {f : AxFail} (up : engUp s kAX p = true) (oldest : (getPart s p).cmds.find? (fun c => c.bank == 1) = some c)
    (runs : c.ended = false) (fails : c.fail.or (regionFail (getPart s p) c) = some f) :
    ∃ u, exec (.passRetire p) s = .next (onlyWork s (axAfter p (ctxReset c.ctx 0x30 false u))) ∧ axFailed s u c f
      ∧ (getPart u p).rows = (getPart s p).rows := by
  obtain ⟨u, fault, failed, rows⟩ := axFault_failed (s := s) (a := (modPart p (snapBefore c) s).ax) (p := p) f c.nums runs
  refine ⟨u, ?_, failed, rows.trans ?_⟩
  · rw [exec_passRetire up oldest runs, fails, ← fault]
    rfl
  · show (getPart (modPart p (snapBefore c) s) p).rows = _
    rw [getPart_modPart, if_pos rfl]
    rfl

end Passes

/-! ### Drains -/

section Drains
variable {p : Nat} {s : State} {c : AxCmd}

/-- A drain that retires, with its rows as the passes accepted before it leave them. -/
def drained (s : State) (p : Nat) (c : AxCmd) : AxCmd := snapDrain (rowsFor (getPart s p) ((getPart s p).cmds.takeWhile (fun c => c.bank != 2))) c

theorem exec_drainRetire (up : engUp s kAX p = true) (oldest : (getPart s p).cmds.find? (fun c => c.bank == 2) = some c) (runs : c.ended = false) :
    exec (.drainRetire p) s = .next (onlyWork s ((drained s p c).fail.elim
      (let j := emitAll (axAcc c c.race) (tcOf s) (drained s p c) (fun r col => mget (0, 0) (drained s p c).sums (8192 * r + col)) { s, reads := c.own }
       axJobEnd p c j (jobCommit causeArray j))
      (fun f => axFault p c f c.nums s))) := by
  show execDrainRetire p s = _
  unfold execDrainRetire
  dsimp only
  rw [oldest]
  dsimp only
  rw [if_neg (by simp [up]), if_neg (by simp [runs]), drained]
  cases (snapDrain (rowsFor (getPart s p) ((getPart s p).cmds.takeWhile (fun c => c.bank != 2))) c).fail with
  | none => rfl
  | some f => rfl

theorem drainRetire_outputs (up : engUp s kAX p = true) (oldest : (getPart s p).cmds.find? (fun c => c.bank == 2) = some c) (runs : c.ended = false) :
    let j := emitAll (axAcc c c.race) (tcOf s) (drained s p c) (fun r col => mget (0, 0) (drained s p c).sums (8192 * r + col)) { s, reads := c.own }
    (drained s p c).fail = none → j.errs = [] →
      ∃ u, exec (.drainRetire p) s = .next (onlyWork s (axAfter p u)) ∧ jobStored s u j ∧ (getPart u p).rows = (getPart s p).rows
        ∧ (c.byProg = false → statusGiven s u c.queue c.id 0) := by
  intro j sound ok
  have job : JobFrom { s with ax := s.ax } j := (JobFrom.refl s c.own).emitAll ..
  obtain ⟨u, done, stored, rows, status⟩ := axJobEnd_done (p := p) job ok runs
  refine ⟨u, ?_, stored, rows, status⟩
  rw [exec_drainRetire up oldest runs, sound, ← done, Option.elim_none]

theorem drainRetire_failed {f : AxFail} (up : engUp s kAX p = true) (oldest : (getPart s p).cmds.find? (fun c => c.bank == 2) = some c)
    (runs : c.ended = false) (fails : (drained s p c).fail = some f) :
    ∃ u, exec (.drainRetire p) s = .next (onlyWork s (axAfter p (ctxReset c.ctx 0x30 false u))) ∧ axFailed s u c f
      ∧ (getPart u p).rows = (getPart s p).rows := by
  obtain ⟨u, fault, failed, rows⟩ := axFault_failed (s := s) (a := s.ax) (p := p) f c.nums runs
  refine ⟨u, ?_, failed, rows⟩
  rw [exec_drainRetire up oldest runs, fails, ← fault, Option.elim_some]

end Drains

/-- Settles O52: acceptances by the job that reads their operands, retirements by what their end and their committed writes leave; each
form has its own lemma above. -/
theorem arrayLoadsPassesAndDrains : Obligations.ArrayLoadsPassesAndDrains := by
  intro p cycle s up
  refine ⟨fun c => loadwStart_effect up, fun c => loadwRetire_effect up, fun c f => loadwRetire_failed up, fun c => passFront_effect up,
    fun c => passRetire_rows up, fun c => passRetire_outputs up, fun c f => passRetire_failed up, fun c oldest runs => ⟨?_, ?_⟩⟩
  · exact drainRetire_outputs up oldest runs
  · exact fun f => drainRetire_failed up oldest runs

end Sys2Proof.Machine
end

section
/-! SUPPORT. What a store leaves in memory: its bytes at its location, every other byte as before (R91, R95). -/

namespace Sys2Proof.Machine

/-! ### Locations of a translation -/

/-- Device memory lies below the host addresses. -/
theorem homeOf_lt {cnt pa h : Nat} (e : homeOf cnt pa = some h) : h < 2 ^ 48 := by
  unfold homeOf at e
  dsimp only at e
  split at e
  · split at e
    · cases e; omega
    · cases e
  · split at e
    · split at e
      · rename_i _ _ g
        have wc := partWcs_getD_lt g.1 (pa % 2 ^ 40 / 4096 % (partWcs cnt (pa / 2 ^ 40 - 1)).length)
        have page := Nat.div_le_self (pa % 2 ^ 40 / 4096) (partWcs cnt (pa / 2 ^ 40 - 1)).length
        cases e
        omega
      · cases e
    · split at e
      · split at e
        · unfold chestBase at *; cases e; omega
        · cases e
      · split at e
        · split at e
          · unfold coreBase at *; cases e; omega
          · cases e
        · cases e

/-- A page is a home address of device memory, or a host address. -/
theorem pageOut_lt {s : State} {ctx pte lvl va loc : Nat} {who : Who} (e : pageOut s ctx who pte lvl va = .ok loc)
    (dev : isHost loc = false) : loc < 2 ^ 48 := by
  unfold pageOut at e
  dsimp only at e
  generalize fld pte 12 45 * 4096 + va % (if lvl = 0 then 2 ^ 21 else 2 ^ 30) = pa at e
  by_cases host : fld pte 5 1 = 1
  · rw [if_pos host] at e
    split at e
    · cases e
    · split at e
      · cases e
      · cases e
        simp [isHost] at dev
  · rw [if_neg host] at e
    split at e
    · cases e
    · split at e
      · rename_i home
        cases e
        exact homeOf_lt home
      · cases e

theorem translate_lt {s s1 : State} {ctx va acc loc : Nat} {who : Who} (e : translate s ctx va acc who = (.ok loc, s1))
    (dev : isHost loc = false) : loc < 2 ^ 48 := by
  unfold translate at e
  dsimp only at e
  split at e
  · simp at e
  · split at e
    · simp at e
    · simp at e
    · split at e
      · simp at e
      · exact pageOut_lt (Prod.ext_iff.mp e).1 dev

/-! ### Bytes at a location -/

@[simp] theorem length_leBytes (n v : Nat) : (leBytes n v).length = n := by
  induction n generalizing v with
  | zero => rfl
  | succ n ih => rw [leBytes, List.length_cons, ih]

/-- The bytes at a location are a list's when each of them is. -/
theorem locBytes_eq {t : State} {loc : Nat} {bs : List Byte} (h : ∀ (i : Nat) (hi : i < bs.length), locByte t (loc + i) = bs[i]) :
    locBytes t loc bs.length = bs := by
  induction bs generalizing loc with
  | nil => rfl
  | cons b bs ih =>
    have first : locByte t loc = b := h 0 (by simp)
    rw [List.length_cons, locBytes, first, ih fun i hi => ?_]
    rw [Nat.add_right_comm, Nat.add_assoc, h (i + 1) (by simpa using hi)]
    rfl

/-! ### A store at a location -/

/-- A store that no reset domain absorbs, within device memory or within host memory, leaves its bytes there alone. -/
theorem stored_locStore {s : State} {loc : Nat} {bs : List Byte} (opened : coreClosed s loc = false)
    (whole : isHost loc = false → loc + bs.length ≤ hostBit) : stored s (locStore loc bs s) loc bs := by
  by_cases host : isHost loc = true
  · have above : hostBit ≤ loc := by simpa [isHost] using host
    have byte : ∀ a, locByte (locStore loc bs s) a =
        if isHost a then mget 0 (putBytes (loc - hostBit) bs s.hs.hostMem) (a - hostBit) else locByte s a := fun a => by
      by_cases ha : isHost a = true <;> simp [locByte, locStore, host, ha]
    refine ⟨locBytes_eq fun i hi => ?_, fun a ha => ?_⟩
    · rw [byte, if_pos (by simp only [isHost, decide_eq_true_eq]; omega), Nat.sub_add_comm above, mget_putBytes_in _ _ _ _ hi]
    · rw [byte]
      split
      · rename_i h
        have : hostBit ≤ a := by simpa [isHost] using h
        rw [mget_putBytes_out _ _ _ _ (by omega), locByte, if_pos h]
      · rfl
  · have below := whole (by simpa using host)
    have byte : ∀ a, locByte (locStore loc bs s) a =
        if isHost a then locByte s a else mget 0 (putBytes loc bs s.mem.cells) a := fun a => by
      by_cases ha : isHost a = true <;> simp [locByte, locStore, host, opened, ha, memByte]
    refine ⟨locBytes_eq fun i hi => ?_, fun a ha => ?_⟩
    · rw [byte, if_neg (by simp only [isHost, decide_eq_true_eq]; omega), mget_putBytes_in _ _ _ _ hi]
    · rw [byte]
      split
      · rfl
      · rename_i h
        rw [mget_putBytes_out _ _ _ _ ha, locByte, if_neg h]
        rfl

theorem locByte_of_same {s t : State} (same : bytesSame s t) (a : Nat) : locByte t a = locByte s a := by
  obtain ⟨dev, host⟩ := same
  simp only [locByte, memByte, dev, host]

theorem locBytes_of_same {s t : State} (same : bytesSame s t) (loc n : Nat) : locBytes t loc n = locBytes s loc n := by
  induction n generalizing loc with
  | zero => rfl
  | succ n ih => rw [locBytes, locBytes, ih, locByte_of_same same]

/-- What is stored depends on the bytes of device and host memory alone. -/
theorem stored_of_same {s s1 t t1 : State} {loc : Nat} {bs : List Byte} (h : stored s1 t1 loc bs) (before : bytesSame s s1)
    (after : bytesSame t1 t) : stored s t loc bs := by
  obtain ⟨inside, outside⟩ := h
  refine ⟨(locBytes_of_same after ..).trans inside, fun a ha => ?_⟩
  rw [locByte_of_same after, outside a ha, locByte_of_same before]

/-- What a change of memory wakes leaves alone. -/
theorem changed_keep {β : Type} (f : State → β) (h1 : ∀ (t : State) (x : Rx), f { t with rx := x } = f t)
    (h2 : ∀ (t : State) (n : Nat), f { t with free := n } = f t)
    (h3 : ∀ (t : State) (ws : List Waiter), f { t with fe := { t.fe with waiters := ws } } = f t) (cause : Nat) (s : State) :
    f (changed cause s) = f s := (rxFill_keep f h1 h2 _).trans (h3 ..)

@[simp] theorem changed_en (cause : Nat) (s : State) : (changed cause s).en = s.en :=
  changed_keep (·.en) (fun _ _ => rfl) (fun _ _ => rfl) (fun _ _ => rfl) ..

@[simp] theorem getQc_storeAt (cause loc : Nat) (bs : List Byte) (s : State) (q : Nat) : getQc (storeAt cause loc bs s) q = getQc s q := by
  unfold getQc storeAt locStore
  rw [changed_en]
  split
  · rfl
  · split <;> rfl

@[simp] theorem getQc_markDirty (k l : Nat) (s : State) (q : Nat) : getQc (markDirty k l s) q = getQc s q := by unfold markDirty; split <;> rfl

theorem bytesSame_markDirty (k l : Nat) (s : State) : bytesSame s (markDirty k l s) := by unfold markDirty; split <;> exact ⟨rfl, rfl⟩

/-- The effect of a command that has none is none. -/
theorem onlyWork_self (s : State) : onlyWork s s = s := by simp [onlyWork, keepRegs, keepQueue, keepFn]

/-! ### Scalar stores -/

section Stores
variable {q : BitVec 20} {rd ra : BitVec 5} {off : W32} {n loc : Nat} {s s1 : State}

/-- A store that is done: its bytes at its location, its line marked modified, its instruction ended. -/
def storeDone (q : BitVec 20) (rd : BitVec 5) (n loc : Nat) (s : State) : State :=
  doneInsn q.toNat 8 (markDirty (engKey (qKind q.toNat) (qIndex q.toNat)) loc
    (storeAt (causeOf (qKind q.toNat)) loc (leBytes n (rdG (getQc s q.toNat) rd).toNat) s))

theorem storeInsn_eq (run : canRun s q.toNat anyKind = true)
    (reach : translate s (getQc s q.toNat).ctx (memAddr (getQc s q.toNat) ra off) accWrite (whoOf q.toNat) = (.ok loc, s1))
    (aligned : memAddr (getQc s q.toNat) ra off % n = 0) :
    storeInsn q rd ra off n s = .next (onlyWork s (if axRaces s q.toNat loc n true then s else storeDone q rd n loc s1)) := by
  have ctx : getQc s1 q.toNat = getQc s q.toNat := by rw [getQc, getQc, sans_en (translate_ok_sans reach)]
  unfold storeInsn storeDone
  dsimp only
  rw [if_pos run, if_neg (by simp [aligned]), reach, ctx]

theorem storeInsn_waits (run : canRun s q.toNat anyKind = true)
    (reach : translate s (getQc s q.toNat).ctx (memAddr (getQc s q.toNat) ra off) accWrite (whoOf q.toNat) = (.ok loc, s1))
    (aligned : memAddr (getQc s q.toNat) ra off % n = 0) (race : axRaces s q.toNat loc n true = true) :
    storeInsn q rd ra off n s = .next s := by
  rw [storeInsn_eq run reach aligned, if_pos race, onlyWork_self]

theorem storeInsn_stores (run : canRun s q.toNat anyKind = true)
    (reach : translate s (getQc s q.toNat).ctx (memAddr (getQc s q.toNat) ra off) accWrite (whoOf q.toNat) = (.ok loc, s1))
    (aligned : memAddr (getQc s q.toNat) ra off % n = 0) (size : n ≤ 8) (free : axRaces s q.toNat loc n true = false) :
    let c := getQc s q.toNat
    ∃ t, storeInsn q rd ra off n s = .next t ∧ ended s t q.toNat (c.pc + 8) ∧ stored s t loc (leBytes n (rdG c rd).toNat)
      ∧ (∀ r, rdG (getQc t q.toNat) r = rdG c r) ∧ othersKept c (getQc t q.toNat) 0
      ∧ (∀ k, k ≠ q.toNat → getQc t k = getQc s k) ∧ boardKept s t := by
  intro c
  have sans := translate_ok_sans reach
  have ctx : ∀ k, getQc s1 k = getQc s k := fun k => by rw [getQc, getQc, sans_en sans]
  have own : getQc (storeDone q rd n loc s1) q.toNat = endCtx 8 c := by
    unfold storeDone
    rw [getQc_doneInsn_self _ _ _ (by simpa [ctx] using (canRun_has run).2), getQc_markDirty, getQc_storeAt, ctx]
  refine ⟨_, by rw [storeInsn_eq run reach aligned, if_neg (by simp [free])], ?_, ?_, ?_, ⟨?_, ?_, ?_, ?_⟩, ?others, ⟨?_, ?_, ?_, ?_, ?_⟩⟩
  · unfold ended
    rw [getQc_onlyWork, own, endCtx]
    by_cases prog : isProg (getQc s q.toNat) = true <;> simp [c, prog]
  · have bytes : stored s1 (locStore loc (leBytes n (rdG c rd).toNat) s1) loc (leBytes n (rdG c rd).toNat) :=
      stored_locStore (closed_of_run run reach) fun dev => by
        have := translate_lt reach dev
        simp only [length_leBytes, hostBit]
        omega
    refine stored_of_same bytes ⟨sans_cells sans, by rw [sans_hs sans]⟩ ?_
    obtain ⟨dev, host⟩ := bytesSame_markDirty (engKey (qKind q.toNat) (qIndex q.toNat)) loc
      (storeAt (causeOf (qKind q.toNat)) loc (leBytes n (rdG c rd).toNat) s1)
    constructor
    · simp only [onlyWork_cells, storeDone, doneInsn_mem, ctx]
      rw [dev, storeAt, changed_mem]
    · simp only [onlyWork_hostMem, storeDone, doneInsn_hs, ctx]
      rw [host, storeAt, changed_hs]
  case others => exact fun k other => by rw [getQc_onlyWork, storeDone, getQc_doneInsn_ne _ _ _ _ other, getQc_markDirty, getQc_storeAt, ctx]
  all_goals simp [own]

end Stores

/-- Settles O14: a store's location is open to a running program and lies within one memory; each size is a case of the same lemmas. -/
theorem scalarStoresWriteTheirBytes : Obligations.ScalarStoresWriteTheirBytes := by
  intro q rd ra off s s1 loc run c va reach e he aligned
  simp only [List.mem_cons, List.not_mem_nil, or_false] at he
  rcases he with rfl | rfl | rfl | rfl
  all_goals exact ⟨storeInsn_waits run reach aligned, storeInsn_stores run reach aligned (by omega)⟩

end Sys2Proof.Machine
end

section
/-! SUPPORT. What a context, engine, core or partition reset leaves alone beside what `sansWork` says: the dump and stop registers, the
counts of engine resets, output, faults, the resets that run (R305, R308 to R310). -/

namespace Sys2Proof.Machine

/-! ### Trace and cycle accounts -/

/-- The observation unit without the trace buffers, and the counts of engine resets. -/
def restView (s : State) : Ob × (Nat → Nat) :=
  ({ s.ob with buffers := [], lostPending := [], traceDropped := 0, traceLost := [] }, fun k => (getEng s k).resets)

theorem setEng_rest {k : Nat} {e : Eng} {s : State} (h : e.resets = (getEng s k).resets) : restView (setEng k e s) = restView s := by
  unfold restView
  refine Prod.ext rfl (funext fun j => ?_)
  show (getEng (setEng k e s) j).resets = (getEng s j).resets
  rw [getEng_setEng]
  split
  · subst_vars; exact h
  · rfl

theorem setEng_bank_rest (k : Nat) (b : Bank) (s : State) : restView (setEng k { getEng s k with bank := b } s) = restView s := setEng_rest rfl

theorem foldl_rest {α : Type} (f : State → α → State) (h : ∀ t x, restView (f t x) = restView t) (l : List α) (s : State) :
    restView (l.foldl f s) = restView s := by
  induction l generalizing s with
  | nil => rfl
  | cons x l ih => rw [List.foldl_cons, ih, h]

theorem chargeEng_resets (s : State) (d k : Nat) (e : Eng) : (chargeEng s d k e).resets = e.resets := by
  unfold chargeEng; split <;> rfl

theorem tickEng_rest (kind index : Nat) (s : State) : restView (tickEng kind index s) = restView s :=
  foldl_rest _ (fun _ _ => setEng_rest (chargeEng_resets ..)) ..

theorem tick_rest (isl : Nat) (s : State) : restView (tick isl s) = restView s := by
  unfold tick; split
  · exact tickEng_rest ..
  · rfl

theorem putTrace_rest (unit isl kind ty wc d0 d1 : Nat) (s : State) : restView (putTrace unit isl kind ty wc d0 d1 s) = restView s := by
  unfold putTrace
  dsimp only
  by_cases none_lost : mget 0 s.ob.lostPending unit = 0
  · simp only [none_lost, if_true]
    split <;> rfl
  · simp only [none_lost, if_false]
    split <;> rfl

theorem traceEng_rest (kind index ty d0 d1 : Nat) (s : State) : restView (traceEng kind index ty d0 d1 s) = restView s := by
  unfold traceEng pushTrace; split
  · rw [putTrace_rest, tick_rest]
  · rfl

/-! ### The end of a command -/

theorem stallEnds_rest (kind index : Nat) (e : Eng) (s : State) : restView (stallEnds kind index e s) = restView s := by
  unfold stallEnds; dsimp only; split
  · split
    · exact traceEng_rest ..
    · rfl
  · rfl

theorem cmdEnds_rest (q st : Nat) (s : State) : restView (cmdEnds q st s) = restView s := by
  unfold cmdEnds; dsimp only
  rw [traceEng_rest]
  split
  · rw [stallEnds_rest, tickEng_rest]
  · rw [setEng_bank_rest, stallEnds_rest, tickEng_rest]

theorem endChunk_rest (st q : Nat) (s : State) : restView (endChunk st q s) = restView s := by
  unfold endChunk; dsimp only; split
  · rw [traceEng_rest, setEng_bank_rest]
  · rfl
  · rfl

theorem leaveEng_rest (q : Nat) (s : State) : restView (leaveEng q s) = restView s := by
  unfold leaveEng; dsimp only; split
  · exact setEng_rest rfl
  · rfl

theorem endIdle_resets (cause : Nat) (e : Eng) : (endIdle cause e).resets = e.resets := by unfold endIdle; split <;> rfl

theorem setQc_rest (q : Nat) (v : QCtx) (s : State) : restView (setQc q v s) = restView s := rfl
theorem dropWaits_rest (w : Waiter → Bool) (s : State) : restView (dropWaits w s) = restView s := rfl

theorem endQc_rest (st q : Nat) (s : State) : restView (endQc st q s) = restView s := by
  unfold endQc; dsimp only
  rw [setQc_rest, leaveEng_rest]
  split <;> split
  all_goals simp only [setEng_rest (endIdle_resets ..), dropWaits_rest, cmdEnds_rest, endChunk_rest]

theorem axShadows_rest (p st : Nat) (sel : AxCmd → Bool) (s : State) : restView (axShadows p st sel s) = restView s :=
  foldl_rest (fun t c => axShadow p c st c.nums t) (fun _ _ => traceEng_rest ..) _ s

/-! ### A context's reset -/

theorem endCtxWork_rest (c st : Nat) (fabric : Bool) (s : State) : restView (endCtxWork c st fabric s) = restView s := by
  unfold endCtxWork
  extract_lets cx s0 s1 fe1 s2 qs s3 s4 fe4 s5 s6 s7
  have state : restView s0 = restView s := by
    show restView (if _ then _ else _) = _
    split <;> rfl
  have fabricEnds : restView s1 = restView s0 := by
    show restView (if _ then _ else _) = _
    split <;> rfl
  have arrays : restView s6 = restView s5 := foldl_rest (fun t p => axShadows p st (fun x => x.ctx == c) t) (fun _ _ => axShadows_rest ..) ..
  have ends : restView s3 = restView s2 := foldl_rest (fun t q => endQc st q t) (fun _ _ => endQc_rest ..) ..
  calc restView (dropXlat c s7) = restView s6 := rfl
    _ = restView s3 := arrays
    _ = restView s1 := ends
    _ = restView s := fabricEnds.trans state

theorem ctxReset_rest (c st : Nat) (fabric : Bool) (s : State) : restView (ctxReset c st fabric s) = restView s := by
  unfold ctxReset
  split
  · rfl
  · extract_lets merged s1
    have work : restView s1 = restView s := by
      show restView (if _ then _ else _) = _
      split
      · rfl
      · exact endCtxWork_rest ..
    split <;> exact work

/-! ### What engine resets leave alone -/

/-- Everything but what an engine's, a core's or a partition's reset changes: work, memory and host memory, the count of poisoned
lines, quarantine and epochs. -/
def sansEngine (s : State) : State :=
  { sansWork s with mem := {}, hs := {}, fr := { s.fr with edgePoisoned := 0, quar := [], partEpoch := [] } }

theorem sansEngine_of_sansWork {s t : State} (h : sansWork t = sansWork s) : sansEngine t = sansEngine s :=
  congrArg (fun x => { x with mem := {}, hs := {}, fr := { x.fr with edgePoisoned := 0, quar := [], partEpoch := [] } }) h

theorem getCtx_sansEngine (s : State) (k : Nat) : getCtx (sansEngine s) k = getCtx s k := rfl

theorem foldl_sansEngine {α : Type} (f : State → α → State) (h : ∀ t x, sansEngine (f t x) = sansEngine t) (l : List α) (s : State) :
    sansEngine (l.foldl f s) = sansEngine s := by
  induction l generalizing s with
  | nil => rfl
  | cons x l ih => rw [List.foldl_cons, ih, h]

theorem edgeWriteback_sansEngine (sel : Nat → Bool) (s : State) : sansEngine (edgeWriteback sel s) = sansEngine s := by
  refine foldl_sansEngine _ (fun t e => ?_) ..
  dsimp only
  split <;> rfl

theorem edgeWriteback_rest (sel : Nat → Bool) (s : State) : restView (edgeWriteback sel s) = restView s := by
  refine foldl_rest _ (fun t e => ?_) ..
  dsimp only
  split <;> rfl

/-- A torn chunk writes memory and wakes what waits for it; nothing else. -/
theorem tearChunk_keep {β : Type} (f : State → β) (h1 : ∀ (t : State) (x : Rx), f { t with rx := x } = f t)
    (h2 : ∀ (t : State) (x : Hs) (m : Mem) (n : Nat), f { t with hs := x, mem := m, free := n } = f t)
    (h3 : ∀ (t : State) (ws : List Waiter), f { t with fe := { t.fe with waiters := ws } } = f t) (q : Nat) (s : State) :
    f (tearChunk q s) = f s := by
  unfold tearChunk
  split
  · rfl
  · extract_lets k s1 ws host
    have started : f s1 = f s := h2 s s.hs s.mem _
    split
    · exact started
    · rw [changed_keep f h1 (fun t n => h2 t t.hs t.mem n) h3]
      exact (h2 s1 _ _ s1.free).trans started

theorem rxShadow_sansEngine (index : Nat) (v : Slot) (st : Nat) (s : State) : sansEngine (rxShadow index v st s) = sansEngine s :=
  sansEngine_of_sansWork ((traceEng_sansWork ..).trans (setEng_sansWork ..))

theorem rxShadow_rest (index : Nat) (v : Slot) (st : Nat) (s : State) : restView (rxShadow index v st s) = restView s :=
  (traceEng_rest ..).trans (setEng_bank_rest ..)

/-- A queue whose commands run on an engine that is reset: those commands end, and the queue stops. -/
def stopOn (kind index st q : Nat) (v : Queue) : Queue :=
  let on := fun (t : Nat) => qKind t == kind && qIndex t == index
  if v.live ∧ (on q ∨ v.inflight.any (fun f => f.result.isNone && on f.target)) then stopByReset st (endInflight on st v) else v

/-- Every queue with work on an engine stops. -/
def stopQueues (kind index st : Nat) (s : State) : State :=
  { s with fe := { s.fe with queues := s.fe.queues.map (fun e => (e.1, stopOn kind index st e.1 e.2)) } }

/-- What the further parts of an engine's reset keep of the state with the engine's queues stopped, the reset keeps. -/
theorem endEngine_keep {β : Type} (f : State → β)
    (ends : ∀ st q t, f (endQc st q t) = f t) (tears : ∀ q t, f (tearChunk q t) = f t) (part : ∀ p g t, f (modPart p g t) = f t)
    (array : ∀ p st sel t, f (axShadows p st sel t) = f t) (shadow : ∀ i v st t, f (rxShadow i v st t) = f t)
    (rx : ∀ (t : State) (x : Rx), f { t with rx := x } = f t) (kind index st : Nat) (s : State) :
    f (endEngine kind index st s) = f (stopQueues kind index st s) := by
  unfold endEngine
  extract_lets on fe1 s1 s2 gone s3
  have each : (fun e : Nat × Queue => if e.2.live ∧ (on e.1 ∨ e.2.inflight.any (fun f => f.result.isNone && on f.target)) then
      (e.1, stopByReset st (endInflight on st e.2)) else e) = fun e => (e.1, stopOn kind index st e.1 e.2) := by
    funext e
    exact (apply_ite (Prod.mk e.1) _ _ e.2).symm
  have queues : s1 = stopQueues kind index st s := congrArg (fun g => { s with fe := { s.fe with queues := s.fe.queues.map g } }) each
  have stopped : f s2 = f (stopQueues kind index st s) :=
    queues ▸ List.foldlRecOn (motive := fun t => f t = f s1) _ _ rfl (fun t ht q _ => (ends ..).trans ((tears ..).trans ht))
  split
  · exact (part ..).trans ((array ..).trans stopped)
  · split
    · exact (rx ..).trans ((List.foldlRecOn (motive := fun t => f t = f s2) _ _ rfl (fun t ht e _ => (shadow ..).trans ht)).trans stopped)
    · exact stopped

theorem endEngine_sansEngine (kind index st : Nat) (s : State) : sansEngine (endEngine kind index st s) = sansEngine s :=
  endEngine_keep sansEngine (fun _ _ _ => sansEngine_of_sansWork (endQc_sansWork ..))
    (tearChunk_keep sansEngine (fun _ _ => rfl) (fun _ _ _ _ => rfl) (fun _ _ => rfl)) (fun _ _ _ => rfl)
    (fun _ _ _ _ => sansEngine_of_sansWork (axShadows_sansWork ..)) rxShadow_sansEngine (fun _ _ => rfl) kind index st s

theorem endEngine_rest (kind index st : Nat) (s : State) : restView (endEngine kind index st s) = restView s :=
  endEngine_keep restView endQc_rest (tearChunk_keep restView (fun _ _ => rfl) (fun _ _ _ _ => rfl) (fun _ _ => rfl))
    (fun _ _ _ => rfl) axShadows_rest rxShadow_rest (fun _ _ => rfl) kind index st s

theorem clearIsland_sansWork (kind index : Nat) (s : State) : sansWork (clearIsland kind index s) = sansWork s :=
  foldl_sansWork (fun t k => setEng k (clearEngCounters (getEng t k)) t) (fun _ _ => setEng_sansWork ..) _ _

/-- A core's memory reads as poison and its site is in quarantine. -/
theorem poisonQuar_sansEngine (c : Nat) (s : State) :
    sansEngine { s with mem := poisonCore c s.mem, fr := { s.fr with quar := mset false s.fr.quar c true } } = sansEngine s := rfl

theorem coreReset_sansEngine (c : Nat) (s : State) : sansEngine (coreReset c s) = sansEngine s := by
  unfold coreReset
  extract_lets s0 s1 s2
  calc sansEngine _ = sansEngine s2 := poisonQuar_sansEngine ..
    _ = sansEngine s1 := sansEngine_of_sansWork (clearIsland_sansWork ..)
    _ = sansEngine s0 := (endEngine_sansEngine ..).trans (endEngine_sansEngine ..)
    _ = sansEngine s := edgeWriteback_sansEngine ..

theorem clusterReset_sansEngine (cd : Nat) (s : State) : sansEngine (clusterReset cd s) = sansEngine s := by
  unfold clusterReset
  generalize upto 64 = cores, upto 8 = groups
  extract_lets s1 s2
  have core : ∀ t k, sansEngine (clearIsland kVX k t) = sansEngine t := fun t k => sansEngine_of_sansWork (clearIsland_sansWork ..)
  have sites : sansEngine s1 = sansEngine s := foldl_sansEngine _ (fun t k => (poisonQuar_sansEngine (64 * cd + k) _).trans (core t _)) ..
  have islands : sansEngine s2 = sansEngine s1 := by
    refine foldl_sansEngine _ (fun t g => ?_) ..
    rfl
  exact (rfl : _ = sansEngine s2).trans (islands.trans sites)

/-! ### The work of a partition's reset -/

/-- As sansEngine, without the contexts. -/
def sansDomain (s : State) : State := { sansEngine s with fe := { (sansEngine s).fe with ctxs := [] } }

theorem sansDomain_of_sansEngine {s t : State} (h : sansEngine t = sansEngine s) : sansDomain t = sansDomain s :=
  congrArg (fun x => { x with fe := { x.fe with ctxs := [] } }) h

theorem foldl_sansDomain {α : Type} (f : State → α → State) (h : ∀ t x, sansDomain (f t x) = sansDomain t) (l : List α) (s : State) :
    sansDomain (l.foldl f s) = sansDomain s := by
  induction l generalizing s with
  | nil => rfl
  | cons x l ih => rw [List.foldl_cons, ih, h]

theorem endCtxWork_sansDomain (c st : Nat) (fabric : Bool) (s : State) : sansDomain (endCtxWork c st fabric s) = sansDomain s := by
  rw [sansDomain_of_sansEngine (sansEngine_of_sansWork (endCtxWork_sansWork ..))]
  split <;> rfl

/-- The contexts that a partition's reset finds, each put into reset. -/
def partitionCtxs (p : Nat) (s : State) : State :=
  (upto 256).foldl (fun t c => if (getCtx t c).state ≠ ctxFree ∧ (getCtx t c).part = p then endCtxWork c stPartReset false t else t) s

theorem partEpoch_sansEngine (e : NMap Nat) (s : State) : sansEngine { s with fr := { s.fr with partEpoch := e } } = sansEngine s := rfl
theorem modPart_sansWork (p : Nat) (f : AxPart → AxPart) (s : State) : sansWork (modPart p f s) = sansWork s := rfl

theorem partitionEnd_sansEngine (p : Nat) (s : State) : sansEngine (partitionEnd p s) = sansEngine (partitionCtxs p s) := by
  unfold partitionEnd
  extract_lets cnt s1 inside s2 s3
  have contexts : s1 = partitionCtxs p s := rfl
  clear_value s1
  rw [← contexts]
  have islands : sansWork s3 = sansWork s2 := (clearIsland_sansWork ..).trans ((modPart_sansWork ..).trans (axShadows_sansWork ..))
  have clusters : sansEngine s2 = sansEngine s1 :=
    (foldl_sansEngine _ (fun _ _ => clusterReset_sansEngine ..) ..).trans (edgeWriteback_sansEngine ..)
  exact (partEpoch_sansEngine ..).trans ((sansEngine_of_sansWork islands).trans clusters)

theorem partitionEnd_sansDomain (p : Nat) (s : State) : sansDomain (partitionEnd p s) = sansDomain s := by
  rw [sansDomain_of_sansEngine (partitionEnd_sansEngine p s)]
  refine foldl_sansDomain _ (fun t c => ?_) ..
  split
  · exact endCtxWork_sansDomain ..
  · rfl

theorem toReset_resetting {x : Ctx} (h : x.state = ctxResetting) : toReset x = x := by rw [toReset, if_pos (.inr h)]

/-- A context in reset stays in reset while others are reset. -/
theorem resetting_endCtxWork {c : Nat} {s : State} (h : (getCtx s c).state = ctxResetting) {k : Nat} (st : Nat) (fabric : Bool)
    (busy : (getCtx s k).state ≠ ctxFree) : (getCtx (endCtxWork k st fabric s) c).state = ctxResetting := by
  rw [getCtx_endCtxWork st fabric busy]
  split
  · rwa [toReset_resetting h]
  · exact h

theorem resetting_partitionEnd {c : Nat} {s : State} (h : (getCtx s c).state = ctxResetting) (p : Nat) :
    (getCtx (partitionEnd p s) c).state = ctxResetting := by
  have same : getCtx (partitionEnd p s) c = getCtx (partitionCtxs p s) c := by
    rw [← getCtx_sansEngine, partitionEnd_sansEngine, getCtx_sansEngine]
  rw [same]
  refine List.foldlRecOn (motive := fun t => (getCtx t c).state = ctxResetting) _ _ h (fun t ht k _ => ?_)
  split
  · rename_i inside
    exact resetting_endCtxWork ht _ _ inside.1
  · exact ht

end Sys2Proof.Machine
end

section
/-! SUPPORT. Memory health: what the patrol finds, errors that a read meets, soft repair and the swap of a pseudo-channel
(R81 to R85, R99). -/

namespace Sys2Proof.Machine

/-! ### Poison and counts -/

theorem poisoned_setPoison (line : Nat) (m : Mem) (l : Nat) : poisoned (setPoison line true m) l = (poisoned m l || l == line) := by
  have same : poisonDefault (setPoison line true m) l = poisonDefault m l := rfl
  unfold poisoned
  rw [same, setPoison, mget_mset]
  by_cases here : l = line
  · subst here; cases poisonDefault m l <;> simp
  · simp [here]

theorem poisoned_poisonIf (b : Bool) (line : Nat) (m : Mem) (l : Nat) :
    poisoned (poisonIf b line m) l = (poisoned m l || (l == line && b)) := by
  cases b
  · simp [poisonIf]
  · simp [poisonIf, poisoned_setPoison]

/-- Counts by code word go to their own stack or windchest. -/
theorem mget_counted (c : NMap Nat) (w x k : Nat) : mget 0 (mset 0 c w (satAdd max32 (mget 0 c w) x)) k =
    if k = w then satAdd max32 (mget 0 c k) x else mget 0 c k := by
  rw [mget_mset]
  split
  · subst_vars; rfl
  · rfl

theorem countFinds_poisoned (chest : Bool) (w line : Nat) (f : PatrolFind) (m : Mem) (l : Nat) :
    poisoned (countFinds chest w line f m) l = poisoned m l := by cases chest <;> rfl

theorem countFinds_cells (chest : Bool) (w line : Nat) (f : PatrolFind) (m : Mem) : (countFinds chest w line f m).cells = m.cells := by
  cases chest <;> rfl

/-- The counters of memory errors that the patrol moves: of stacks, of chest memories. -/
def errorCounts (m : Mem) : NMap Nat × NMap Nat × NMap Nat × NMap Nat := (m.hbmCe, m.hbmUe, m.chestCe, m.chestUe)

theorem poisonIf_counts (b : Bool) (line : Nat) (m : Mem) : errorCounts (poisonIf b line m) = errorCounts m := by cases b <;> rfl
theorem poisonIf_cells (b : Bool) (line : Nat) (m : Mem) : (poisonIf b line m).cells = m.cells := by cases b <;> rfl

/-! ### The patrol -/

section Patrol
variable {s : State} {chest : Bool} {w line h : Nat} {f : PatrolFind}

/-- Memory as the patrol leaves it at the line `h`. -/
def patrolled (chest : Bool) (w h : Nat) (f : PatrolFind) (m : Mem) : Mem :=
  let n := if chest then 8 else 2
  let found := { f with corrected := min n f.corrected, uncorrectable := min n f.uncorrectable }
  poisonIf (found.uncorrectable != 0 && !f.writtenSince) h (countFinds chest w h found m)

theorem exec_patrolScrub (ctl : chestCtl s w = true) (stack : w < 16) (backed : scrubLine chest w line = some h) :
    exec (.patrolScrub chest w line f) s = .next (onlyMemory s (fwPoint (36 + w) 5 line
      { s with mem := patrolled chest w h f (if f.writtenSince then s.mem else readLine h s.mem) })) := by
  show execPatrolScrub chest w line f s = _
  unfold execPatrolScrub
  rw [if_neg (by simp [ctl, stack]), backed]
  rfl

theorem patrolled_poisoned (m : Mem) (l : Nat) :
    poisoned (patrolled chest w h f m) l = (poisoned m l || (l == h && f.uncorrectable != 0 && !f.writtenSince)) := by
  unfold patrolled
  rw [poisoned_poisonIf, countFinds_poisoned]
  have found : (min (if chest then 8 else 2) f.uncorrectable != 0) = (f.uncorrectable != 0) := by
    rw [Bool.eq_iff_iff]
    cases chest <;> simp
  rw [found, Bool.and_assoc]

theorem patrolled_counts (m : Mem) :
    let n := if chest then 8 else 2
    let up := fun (here : Bool) (c : NMap Nat) (x k : Nat) => if here = true ∧ k = w then satAdd max32 (mget 0 c k) (min n x) else mget 0 c k
    let t := patrolled chest w h f m
    (∀ k, mget 0 t.hbmCe k = up (!chest) m.hbmCe f.corrected k) ∧ (∀ k, mget 0 t.hbmUe k = up (!chest) m.hbmUe f.uncorrectable k)
      ∧ (∀ k, mget 0 t.chestCe k = up chest m.chestCe f.corrected k) ∧ (∀ k, mget 0 t.chestUe k = up chest m.chestUe f.uncorrectable k) := by
  intro n up t
  have counts : errorCounts t = errorCounts (countFinds chest w h _ m) := poisonIf_counts ..
  simp only [errorCounts, Prod.mk.injEq] at counts
  obtain ⟨hbmCe, hbmUe, chestCe, chestUe⟩ := counts
  rw [hbmCe, hbmUe, chestCe, chestUe]
  cases chest <;> simp [countFinds, mget_counted, up, n]

/-- What an event of memory health leaves in memory: all it set, but for the patrol interval, which the host alone writes. -/
theorem fwPoint_mem (i code arg : Nat) (s : State) : (fwPoint i code arg s).mem = s.mem :=
  fwPoint_keep (·.mem) (fun _ _ => rfl) (fun _ _ => rfl) (fun _ _ _ => rfl) (fun _ _ => rfl) ..

theorem onlyMemory_mem (s t : State) : (onlyMemory s t).mem = { t.mem with scrub := s.mem.scrub } := rfl

theorem poisoned_scrub (m : Mem) (x : NMap Nat) (l : Nat) : poisoned { m with scrub := x } l = poisoned m l := rfl

theorem patrolScrub_effect (ctl : chestCtl s w = true) (stack : w < 16) (backed : scrubLine chest w line = some h) :
    let m := if f.writtenSince then s.mem else readLine h s.mem
    let n := if chest then 8 else 2
    let up := fun (here : Bool) (c : NMap Nat) (x k : Nat) => if here = true ∧ k = w then satAdd max32 (mget 0 c k) (min n x) else mget 0 c k
    ∃ t, exec (.patrolScrub chest w line f) s = .next t ∧ t.mem.cells = s.mem.cells
      ∧ (∀ l, poisoned t.mem l = (poisoned m l || (l == h && f.uncorrectable != 0 && !f.writtenSince)))
      ∧ (∀ k, mget 0 t.mem.hbmCe k = up (!chest) m.hbmCe f.corrected k) ∧ (∀ k, mget 0 t.mem.hbmUe k = up (!chest) m.hbmUe f.uncorrectable k)
      ∧ (∀ k, mget 0 t.mem.chestCe k = up chest m.chestCe f.corrected k) ∧ (∀ k, mget 0 t.mem.chestUe k = up chest m.chestUe f.uncorrectable k) := by
  intro m n up
  refine ⟨_, exec_patrolScrub ctl stack backed, ?_⟩
  rw [onlyMemory_mem, fwPoint_mem]
  refine ⟨?_, fun l => (poisoned_scrub ..).trans (patrolled_poisoned m l), patrolled_counts m⟩
  show (patrolled chest w h f m).cells = _
  rw [patrolled, poisonIf_cells, countFinds_cells]
  show (if f.writtenSince then s.mem else readLine h s.mem).cells = _
  split
  · rfl
  · exact readLine_cells ..

end Patrol

/-- An error of one code word that is not corrected poisons its line and is counted for its stack. -/
theorem readLine_uncorrectable {line u : Nat} {m : Mem} (one : m.latent.filter (fun e => e.1 / 8 == line) = [(u, 2)]) (here : u / 8 = line) :
    (readLine line m).cells = m.cells ∧ (∀ l, poisoned (readLine line m) l = (poisoned m l || l == line))
      ∧ ((homeWc (8 * u)).2 = 0 → mget 0 (readLine line m).hbmUe (homeWc (8 * u)).1 = satAdd max32 (mget 0 m.hbmUe (homeWc (8 * u)).1) 1) := by
  have met : readLine line m = metError u 2 m := by
    unfold readLine
    rw [one]
    rfl
  refine ⟨readLine_cells .., fun l => ?_, fun hbm => ?_⟩
  · rw [met, metError]
    dsimp only
    rw [if_neg (by decide), poisoned_setPoison, here]
    congr 1
    split
    · rfl
    · split <;> rfl
  · rw [met, metError]
    dsimp only
    rw [if_neg (by decide), if_pos hbm]
    exact mget_mset_self ..

/-! ### Soft repair and the swap of a pseudo-channel -/

section Repair
variable {s : State} {w : Nat}

/-- A log record of an event of memory health, where the event has changed memory and the repair records alone. -/
theorem logged_onlyMemory {u : State} (fr : u.fr = s.fr) (up : droneUp u = droneUp s) (stack kind pch : Nat) :
    logged s (onlyMemory s (repairLog stack kind pch u)) (procIsland (36 + stack)) 2 0x0404 stack (kind + 2 * pch) :=
  logged_of_addLog fr up rfl

theorem repairLog_mem (stack kind pch : Nat) (s : State) : (repairLog stack kind pch s).mem = s.mem :=
  addLog_keep (·.mem) (fun _ _ _ => rfl) (fun _ _ => rfl) (fun _ _ => rfl) (fun _ _ => rfl) ..

/-- Bytes and marks are those of the memory that an event of memory health sets. -/
theorem bytesKept_onlyMemory {u : State} (cells : u.mem.cells = s.mem.cells) (marks : u.mem.marks = s.mem.marks)
    (chest : u.mem.chestPoison = s.mem.chestPoison) : bytesKept s (onlyMemory s u) := ⟨⟨cells, rfl⟩, marks, chest, rfl⟩

theorem softRepair_effect (ctl : chestCtl s w = true) (stack : w < 16) {pch row : Nat} (new : (w, pch, row) ∉ s.fl.rowsToRepair) :
    ∃ t, exec (.softRepair w pch row) s = .next t ∧ bytesKept s t ∧ t.fl.rowsToRepair = s.fl.rowsToRepair ++ [(w, pch, row)]
      ∧ mget 0 t.mem.pprSoft w = mget 0 s.mem.pprSoft w + 1 ∧ logged s t (procIsland (36 + w)) 2 0x0404 w (2 * pch) := by
  let u : State := { s with mem := { s.mem with pprSoft := mset 0 s.mem.pprSoft w (mget 0 s.mem.pprSoft w + 1) }
                            fl := { s.fl with rowsToRepair := s.fl.rowsToRepair ++ [(w, pch, row)] } }
  have run : exec (.softRepair w pch row) s = .next (onlyMemory s (repairLog w 0 pch u)) := by
    show execSoftRepair w pch row s = _
    unfold execSoftRepair
    rw [if_neg (by simp [ctl, stack, new])]
  have mem : (repairLog w 0 pch u).mem = u.mem := repairLog_mem ..
  refine ⟨_, run, bytesKept_onlyMemory (by rw [mem]) (by rw [mem]) (by rw [mem]), ?_, ?_, ?_⟩
  · show (repairLog w 0 pch u).fl.rowsToRepair = _
    rw [repairLog, addLog_fl]
  · rw [onlyMemory_mem, mem]
    exact mget_mset_self 0 s.mem.pprSoft w (mget 0 s.mem.pprSoft w + 1)
  · have := logged_onlyMemory (s := s) (u := u) rfl rfl w 0 pch
    rwa [Nat.zero_add] at this

theorem pchSwapStart_effect (ctl : chestCtl s w = true) (stack : w < 16) (pch : Nat) (idle : mget false s.mem.swapActive w = false) :
    ∃ t, exec (.pchSwapStart w pch) s = .next t ∧ bytesKept s t
      ∧ (if mget false s.mem.spareUsed w = true then mget false t.mem.degraded w = true ∧ mget false t.mem.swapActive w = false
         else mget false t.mem.swapActive w = true ∧ mget 0 t.mem.spareFor w = pch) := by
  by_cases used : mget false s.mem.spareUsed w = true
  · have run : exec (.pchSwapStart w pch) s = .next (onlyMemory s { s with mem := { s.mem with degraded := mset false s.mem.degraded w true } }) := by
      show execPchSwapStart w pch s = _
      unfold execPchSwapStart
      dsimp only
      rw [if_neg (by simp [ctl, stack]), if_neg (by simp [idle]), if_pos used]
    refine ⟨_, run, bytesKept_onlyMemory rfl rfl rfl, ?_⟩
    rw [if_pos used]
    exact ⟨mget_mset_self false s.mem.degraded w true, idle⟩
  · let u : State := { s with mem := { s.mem with swapActive := mset false s.mem.swapActive w true, spareFor := mset 0 s.mem.spareFor w pch
                                                  swapNext := mset 0 s.mem.swapNext w 0 } }
    have run : exec (.pchSwapStart w pch) s = .next (onlyMemory s (fwPoint (36 + w) 6 pch u)) := by
      show execPchSwapStart w pch s = _
      unfold execPchSwapStart
      dsimp only
      rw [if_neg (by simp [ctl, stack]), if_neg (by simp [idle]), if_neg used]
    have mem : (fwPoint (36 + w) 6 pch u).mem = u.mem := fwPoint_mem ..
    refine ⟨_, run, bytesKept_onlyMemory (by rw [mem]) (by rw [mem]) (by rw [mem]), ?_⟩
    rw [if_neg used, onlyMemory_mem, mem]
    exact ⟨mget_mset_self false s.mem.swapActive w true, mget_mset_self 0 s.mem.spareFor w pch⟩

theorem pchSwapStart_degrades (ctl : chestCtl s w = true) (stack : w < 16) {pch : Nat} (runs : mget false s.mem.swapActive w = true)
    (other : mget 0 s.mem.spareFor w ≠ pch) :
    ∃ t, exec (.pchSwapStart w pch) s = .next t ∧ t.mem = { s.mem with degraded := mset false s.mem.degraded w true } := by
  have run : exec (.pchSwapStart w pch) s = .next (onlyMemory s { s with mem := { s.mem with degraded := mset false s.mem.degraded w true } }) := by
    show execPchSwapStart w pch s = _
    unfold execPchSwapStart
    dsimp only
    rw [if_neg (by simp [ctl, stack]), if_pos runs, if_neg other]
  exact ⟨_, run, rfl⟩

theorem pchSwapCopyStep_effect (ctl : chestCtl s w = true) (stack : w < 16) {line h : Nat} (good : Bool)
    (runs : mget false s.mem.swapActive w = true) (ahead : mget 0 s.mem.swapNext w ≤ line) (backed : scrubLine false w line = some h) :
    let m := readLine h s.mem
    ∃ t, exec (.pchSwapCopyStep w line good) s = .next t ∧ t.mem.cells = s.mem.cells ∧ mget 0 t.mem.swapNext w = line + 1
      ∧ (∀ l, poisoned t.mem l = (poisoned m l || (l == h && !good)))
      ∧ mget 0 t.mem.hbmUe w = if good = true then mget 0 m.hbmUe w else satAdd max32 (mget 0 m.hbmUe w) 1 := by
  intro m
  let m1 : Mem := { m with swapNext := mset 0 s.mem.swapNext w (line + 1) }
  have run : exec (.pchSwapCopyStep w line good) s = .next (onlyMemory s
      { s with mem := if good then m1 else setPoison h true (countFinds false w h ⟨0, 1, false⟩ m1) }) := by
    show execPchSwapCopyStep w line good s = _
    unfold execPchSwapCopyStep
    dsimp only
    rw [if_neg (by simp [ctl, stack, runs, ahead]), backed]
  have next : mget 0 m1.swapNext w = line + 1 := mget_mset_self 0 s.mem.swapNext w (line + 1)
  refine ⟨_, run, ?_⟩
  cases good with
  | true =>
    refine ⟨readLine_cells .., next, fun l => ?_, rfl⟩
    simp only [Bool.not_true, Bool.and_false, Bool.or_false]
    rfl
  | false =>
    refine ⟨readLine_cells .., next, fun l => ?_, mget_mset_self 0 m1.hbmUe w _⟩
    have poison : poisoned (setPoison h true (countFinds false w h ⟨0, 1, false⟩ m1)) l = (poisoned m l || l == h) := by
      rw [poisoned_setPoison, countFinds_poisoned]
      rfl
    rw [Bool.not_false, Bool.and_true]
    exact poison

theorem pchSwapEnd_effect (ctl : chestCtl s w = true) (runs : mget false s.mem.swapActive w = true) :
    ∃ t, exec (.pchSwapEnd w) s = .next t ∧ bytesKept s t ∧ mget false t.mem.spareUsed w = true ∧ mget false t.mem.swapActive w = false
      ∧ logged s t (procIsland (36 + w)) 2 0x0404 w (1 + 2 * mget 0 s.mem.spareFor w) := by
  let u : State := { s with mem := { s.mem with swapActive := mset false s.mem.swapActive w false, spareUsed := mset false s.mem.spareUsed w true
                                                swapNext := mset 0 s.mem.swapNext w 0 } }
  have run : exec (.pchSwapEnd w) s = .next (onlyMemory s (repairLog w 1 (mget 0 s.mem.spareFor w) u)) := by
    show execPchSwapEnd w s = _
    unfold execPchSwapEnd
    dsimp only
    rw [if_neg (by simp [ctl, runs])]
  have mem : (repairLog w 1 (mget 0 s.mem.spareFor w) u).mem = u.mem := repairLog_mem ..
  refine ⟨_, run, bytesKept_onlyMemory (by rw [mem]) (by rw [mem]) (by rw [mem]), ?_, ?_,
    logged_onlyMemory (u := u) rfl rfl w 1 (mget 0 s.mem.spareFor w)⟩
  · rw [onlyMemory_mem, mem]
    exact mget_mset_self false s.mem.spareUsed w true
  · rw [onlyMemory_mem, mem]
    exact mget_mset_self false s.mem.swapActive w false

end Repair

end Sys2Proof.Machine
end

section
/-! SUPPORT. Queues under a reset: which of their commands end with its status, and that they stop (R255, R307 to R309). -/

namespace Sys2Proof.Machine

/-! ### Maps changed by key -/

theorem mget_map_key {α : Type} (d : α) (f : Nat → α → α) (hd : ∀ k, f k d = d) (m : NMap α) (k : Nat) :
    mget d (m.map (fun e => (e.1, f e.1 e.2))) k = f k (mget d m k) := by
  induction m with
  | nil => exact (hd k).symm
  | cons e m ih =>
    obtain ⟨i, v⟩ := e
    rw [List.map_cons, mget_cons, mget_cons]
    split
    · subst_vars; rfl
    · exact ih

/-! ### What the end of a queue context's work leaves of queues -/

theorem endChunk_queues (st q : Nat) (s : State) : (endChunk st q s).fe.queues = s.fe.queues := by
  unfold endChunk
  dsimp only
  split <;> simp

theorem endQc_queues (st q : Nat) (s : State) : (endQc st q s).fe.queues = s.fe.queues := by
  have ends : ∀ t, (cmdEnds q st t).fe.queues = t.fe.queues :=
    cmdEnds_keep (·.fe.queues) (fun _ _ => rfl) (fun _ _ => rfl) (fun _ _ _ => rfl) (fun _ _ => rfl) (fun _ => rfl) q st
  have setEng_queues : ∀ k e (t : State), (setEng k e t).fe.queues = t.fe.queues := fun _ _ _ => rfl
  have dropWaits_queues : ∀ w (t : State), (dropWaits w t).fe.queues = t.fe.queues := fun _ _ => rfl
  unfold endQc
  dsimp only
  rw [setQc_fe, leaveEng_fe]
  split <;> split
  all_goals simp only [setEng_queues, dropWaits_queues, ends, endChunk_queues]

theorem foldl_queues {α : Type} (f : State → α → State) (h : ∀ t x, (f t x).fe.queues = t.fe.queues) (l : List α) (s : State) :
    (l.foldl f s).fe.queues = s.fe.queues := by
  induction l generalizing s with
  | nil => rfl
  | cons x l ih => rw [List.foldl_cons, ih, h]

theorem axShadows_queues (p st : Nat) (sel : AxCmd → Bool) (s : State) : (axShadows p st sel s).fe.queues = s.fe.queues :=
  foldl_queues (fun t c => axShadow p c st c.nums t) (fun t c => by unfold axShadow; rw [traceEng_fe, modPart_fe]) _ s

theorem rxShadow_queues (index : Nat) (v : Slot) (st : Nat) (s : State) : (rxShadow index v st s).fe.queues = s.fe.queues := by
  unfold rxShadow
  dsimp only
  rw [traceEng_fe]
  rfl

theorem edgeWriteback_queues (sel : Nat → Bool) (s : State) : (edgeWriteback sel s).fe.queues = s.fe.queues := by
  refine foldl_queues _ (fun t e => ?_) ..
  dsimp only
  split <;> rfl

/-! ### Queues after a reset of an engine -/

theorem getQ_endEngine (kind index st : Nat) (s : State) (q : Nat) :
    getQ (endEngine kind index st s) q = stopOn kind index st q (getQ s q) := by
  have queues : (endEngine kind index st s).fe.queues = (stopQueues kind index st s).fe.queues :=
    endEngine_keep (·.fe.queues) endQc_queues (tearChunk_keep (·.fe.queues) (fun _ _ => rfl) (fun _ _ _ _ => rfl) (fun _ _ => rfl))
      (fun _ _ _ => rfl) axShadows_queues rxShadow_queues (fun _ _ => rfl) kind index st s
  rw [getQ, queues]
  exact mget_map_key {} (stopOn kind index st) (fun _ => rfl) s.fe.queues q

theorem stopByReset_state (st : Nat) (v : Queue) : (stopByReset st v).state = qStopped := by
  unfold stopByReset
  split
  · rfl
  · split <;> rfl

theorem stopByReset_inflight (st : Nat) (v : Queue) : (stopByReset st v).inflight = v.inflight := by
  unfold stopByReset
  split
  · rfl
  · split <;> rfl

/-- A queue with a command that runs on the engine stops, and the command has the reset's status. -/
theorem stopOn_ends {kind index q : Nat} {v : Queue} {f : InFlight} (st : Nat) (live : v.live = true) (inside : f ∈ v.inflight)
    (runs : f.result = none) (on : qKind f.target = kind) (at_ : qIndex f.target = index) :
    (stopOn kind index st q v).state = qStopped ∧ ∃ g ∈ (stopOn kind index st q v).inflight, g.id = f.id ∧ g.result = some st := by
  have stops : stopOn kind index st q v =
      stopByReset st (endInflight (fun t => qKind t == kind && qIndex t == index) st v) :=
    if_pos ⟨live, .inr (List.any_eq_true.mpr ⟨f, inside, by simp [runs, on, at_]⟩)⟩
  rw [stops, stopByReset_state, stopByReset_inflight]
  exact ⟨rfl, { f with result := some st }, List.mem_map.mpr ⟨f, inside, if_pos ⟨runs, by simp [on, at_]⟩⟩, rfl, rfl⟩

/-! ### Queues after a context's reset -/

theorem getQ_endCtxWork (c st : Nat) (fabric : Bool) (s : State) (q : Nat) : getQ (endCtxWork c st fabric s) q =
    if (getQ s q).live ∧ (getQ s q).ctx = c then resetQueue fabric st q (getQ s q) else getQ s q := by
  unfold endCtxWork
  extract_lets cx s0 s1 fe1 s2 qs s3 s4 fe4 s5 s6 s7
  have state : s0.fe.queues = s.fe.queues := by
    show (if _ then _ else _ : State).fe.queues = _
    split <;> rfl
  have fabricEnds : s1.fe.queues = s0.fe.queues := by
    show (if _ then _ else _ : State).fe.queues = _
    split <;> rfl
  have arrays : s6.fe.queues = s5.fe.queues := foldl_queues (fun t p => axShadows p st (fun x => x.ctx == c) t) (fun _ _ => axShadows_queues ..) ..
  have ends : s3.fe.queues = s2.fe.queues := foldl_queues (fun t q => endQc st q t) (fun _ _ => endQc_queues ..) ..
  have queues : (dropXlat c s7).fe.queues = s2.fe.queues := arrays.trans ends
  have each : (fun e : Nat × Queue => if e.2.live ∧ e.2.ctx = c then (e.1, resetQueue fabric st e.1 e.2) else e) =
      fun e => (e.1, if e.2.live ∧ e.2.ctx = c then resetQueue fabric st e.1 e.2 else e.2) := by
    funext e
    exact (apply_ite (Prod.mk e.1) _ _ e.2).symm
  have reset : s2.fe.queues = s.fe.queues.map (fun e => (e.1, if e.2.live ∧ e.2.ctx = c then resetQueue fabric st e.1 e.2 else e.2)) := by
    show s1.fe.queues.map _ = _
    rw [fabricEnds, state, each]
  rw [getQ, queues, reset]
  exact mget_map_key {} (fun k v => if v.live ∧ v.ctx = c then resetQueue fabric st k v else v) (fun _ => rfl) s.fe.queues q

theorem mem_endHeld {st : Nat} {v : Queue} {g : InFlight} (inside : g ∈ v.inflight) : g ∈ (endHeld st v).inflight := by
  unfold endHeld
  split
  · split
    · exact List.mem_append_left _ inside
    · exact inside
  · exact inside

theorem mem_endLaunch {st : Nat} {v : Queue} {g : InFlight} (inside : g ∈ v.inflight) : g ∈ (endLaunch st v).inflight := by
  unfold endLaunch
  split
  · exact List.mem_append_left _ inside
  · exact inside

/-- A command that has a status keeps it through a context's reset. -/
theorem mem_resetQueue {fabric : Bool} {st q : Nat} {v : Queue} {g : InFlight} (inside : g ∈ v.inflight) (ended : g.result ≠ none) :
    g ∈ (resetQueue fabric st q v).inflight := by
  unfold resetQueue
  split
  · exact inside
  · rw [stopByReset_inflight]
    exact mem_endLaunch (mem_endHeld (List.mem_map.mpr ⟨g, inside, if_neg fun h => ended h.1⟩))

theorem mem_endCtxWork {c st q : Nat} {fabric : Bool} {s : State} {g : InFlight} (inside : g ∈ (getQ s q).inflight) (ended : g.result ≠ none) :
    g ∈ (getQ (endCtxWork c st fabric s) q).inflight := by
  rw [getQ_endCtxWork]
  split
  · exact mem_resetQueue inside ended
  · exact inside

end Sys2Proof.Machine
end

section
/-! SUPPORT. What a fault record changes and tells, and how a reset begins (R303 to R307). -/

namespace Sys2Proof.Machine

/-! ### Notices -/

/-- These notices went out, or wait for the Drone, and nothing else did. -/
def told (s t : State) (l : List Output) : Prop :=
  if droneUp s = false then t.fr.noticeHeld = s.fr.noticeHeld ++ l
  else if (s.pw.i3cDead && s.pw.smbDead) = true then t.out = s.out else t.out = s.out ++ l

theorem told_nil {s u : State} (held : u.fr.noticeHeld = s.fr.noticeHeld) (out : u.out = s.out) : told s u [] := by
  unfold told
  split
  · simp [held]
  · split <;> simp [out]

theorem told_notice {s u : State} {l : List Output} (before : told s u l) (up : droneUp u = droneUp s) (pw : u.pw = s.pw) (o : Output) :
    told s (notice o u) (l ++ [o]) := by
  unfold told notice at *
  rw [up, pw]
  by_cases drone : droneUp s = true
  · by_cases dead : (s.pw.i3cDead && s.pw.smbDead) = true
    · simpa [drone, dead] using before
    · have out : u.out = s.out ++ l := by simpa [drone, dead] using before
      simp [drone, dead, emit, out]
  · have held : u.fr.noticeHeld = s.fr.noticeHeld ++ l := by simpa [drone] using before
    simp [drone, held]

theorem told_of_same {s u t : State} {l : List Output} (h : told s u l) (held : t.fr.noticeHeld = u.fr.noticeHeld) (out : t.out = u.out) :
    told s t l := by
  unfold told at *
  rwa [held, out]

theorem noticed_of_told {s t : State} {o : Output} (h : told s t [o]) : noticed s t o := by
  unfold told at h
  unfold noticed
  split
  · rwa [if_pos ‹_›] at h
  · rw [if_neg ‹_›] at h
    split
    · rw [if_pos ‹_›] at h
      exact fun x hx => .inl (h ▸ hx)
    · rw [if_neg ‹_›] at h
      exact ⟨[], h⟩

/-! ### Fault records -/

/-- Everything but what a fault record changes: cycle counts and accounts, the fault registers, notices. -/
def sansFault (s : State) : State :=
  { s with en := { s.en with engs := [], cyc := [], iseq := [] }, out := [], free := 0
           fr := { s.fr with faults := [], faultCount := 0, ctxFault := [], ctxFaultHeld := [], noticeHeld := [] } }

/-- The state in which a record has been taken and not yet been told of. -/
theorem addFault_sansFault (r : FaultRec) (ctl : Bool) (s : State) : sansFault (addFault r ctl s) = sansFault s := by
  have counted : sansFault (bumpIseq r.island (tick r.island s)) = sansFault s := tick_keep sansFault (fun _ _ _ => rfl) (fun _ _ => rfl) ..
  unfold addFault
  extract_lets s1 r' s2 first fr0 fr s3
  have recorded : sansFault s3 = sansFault s := counted
  split
  · exact (notice_keep sansFault (fun _ _ => rfl) (fun _ _ => rfl) ..).trans recorded
  · exact recorded

theorem addFault_rest (r : FaultRec) (ctl : Bool) (s : State) : restView (addFault r ctl s) = restView s := by
  have counted : restView (bumpIseq r.island (tick r.island s)) = restView s := tick_rest ..
  unfold addFault
  extract_lets s1 r' s2 first fr0 fr s3
  split
  · exact (notice_keep restView (fun _ _ => rfl) (fun _ _ => rfl) ..).trans counted
  · exact counted

/-- Records of these classes are told to the tray controller (R304). -/
theorem told_addFault {r : FaultRec} (cls : r.cls = cEngine ∨ r.cls = cArray ∨ r.cls = cFabric ∨ r.cls = cMgmt) (ctl : Bool) (s : State) :
    told s (addFault r ctl s) [.faultNotice (if r.ctxv then some r.ctx else none) r.island r.status r.level] := by
  have drone : droneUp (bumpIseq r.island (tick r.island s)) = droneUp s := tick_keep droneUp (fun _ _ _ => rfl) (fun _ _ => rfl) ..
  unfold addFault faultNotice
  extract_lets s1 r' s2 first fr0 fr s3
  rw [if_pos cls]
  refine told_notice (u := s3) (l := []) (told_nil ?_ ?_) drone ?_ _
  · show s2.fr.noticeHeld = _
    rw [bumpIseq_fr, tick_fr]
  · show s2.out = _
    rw [bumpIseq_out, tick_out]
  · show s2.pw = _
    rw [bumpIseq_pw, tick_pw]

/-- The ring after a record, where nothing else has written to it. -/
theorem faultAdded_of_same {s u t : State} {cls status reason : Nat} (h : faultAdded s u cls status reason)
    (ring : t.fr.faults = u.fr.faults) (count : t.fr.faultCount = u.fr.faultCount) : faultAdded s t cls status reason := by
  unfold faultAdded at *
  rwa [ring, count]

/-- A record is added to the ring of any state with the same count. -/
theorem faultAdded_since {s u t : State} {cls status reason : Nat} (count : u.fr.faultCount = s.fr.faultCount)
    (h : faultAdded u t cls status reason) : faultAdded s t cls status reason := by
  unfold faultAdded at *
  rwa [count] at h

theorem faultCount_addFault (r : FaultRec) (ctl : Bool) (s : State) : (addFault r ctl s).fr.faultCount = s.fr.faultCount + 1 :=
  (faultAdded_addFault rfl r ctl).1

/-! ### How a reset begins -/

theorem resetRuns_addReset (r : RunReset) (s : State) (d : Domain) : resetRuns (addReset r s) d = (resetRuns s d || r.dom == d) := by
  simp [resetRuns, addReset, List.any_append]

theorem beginReset_new {d : Domain} {st : Nat} {byReq : Bool} {work : State → State} {s : State} (fresh : resetRuns s d = false)
    (alone : containing s d = none) : beginReset d st byReq work s = addReset { dom := d, status := st, byReq } (work s) := by
  unfold beginReset
  rw [if_neg (by simp [fresh]), alone]

theorem ctxReset_new {c st : Nat} {fabric : Bool} {s : State} (busy : (getCtx s c).state ≠ ctxFree) (fresh : ctxResetRuns s c = false)
    (alone : largerRuns s c = false) :
    ctxReset c st fabric s = addReset { dom := .context c, status := st, fabric } (endCtxWork c st fabric s) := by
  unfold ctxReset
  rw [if_neg busy]
  dsimp only
  rw [fresh, alone, if_neg (by simp), if_neg (by simp)]
  rfl

/-- Which domain holds an engine, core, partition or island depends on the number of partitions alone. -/
theorem inDomain_congr {s t : State} (count : t.fe.countAct = s.fe.countAct) {d : Domain} (site : ∀ c, d ≠ .context c) (big : Domain) :
    inDomain t d big = inDomain s d big := by
  have parts : partCount t = partCount s := by rw [partCount, partCount, count]
  cases d with
  | context c => exact absurd rfl (site c)
  | _ => cases big <;> simp [inDomain, engPart, parts]

/-- Further context resets contain no engine, core, partition or island. -/
theorem containing_none {s t : State} {d : Domain} (alone : containing s d = none) (count : t.fe.countAct = s.fe.countAct)
    (site : ∀ c, d ≠ .context c) (runs : ∀ r ∈ t.fr.resets, r ∈ s.fr.resets ∨ ∃ c, r.dom = .context c) : containing t d = none := by
  unfold containing at *
  rw [List.find?_eq_none] at *
  intro r hr
  rw [inDomain_congr count site]
  obtain before | ⟨c, dom⟩ := runs r hr
  · exact alone r before
  · rw [dom]
    cases d <;> simp [inDomain]

/-! ### The reset that follows an engine's fault -/

/-- The domain that an engine's error resets: the core of a vector or data-mover engine, else the engine (R305, R326). -/
def faultDomain (kind index : Nat) : Domain := if kind ≤ kDM then .core index else .engine kind index

theorem faultDomain_site (kind index c : Nat) : faultDomain kind index ≠ .context c := by
  unfold faultDomain
  split <;> simp

theorem engUp_fresh {s : State} {kind index : Nat} (up : engUp s kind index = true) :
    resetRuns s (.engine kind index) = false ∧ resetRuns s (faultDomain kind index) = false := by
  unfold engUp at up
  simp only [Bool.and_eq_true, Bool.not_eq_true'] at up
  obtain ⟨⟨-, engine⟩, rest⟩ := up
  refine ⟨engine, ?_⟩
  unfold faultDomain
  split
  · rename_i core
    have core : kind ≤ 1 := core
    rw [if_pos core] at rest
    simp only [Bool.and_eq_true, Bool.not_eq_true'] at rest
    exact rest.2
  · exact engine

/-- An engine's reset begins: its work ends and it is counted toward a substitution. -/
theorem beginEngine_new {kind index : Nat} {s : State} (fresh : resetRuns s (.engine kind index) = false)
    (alone : containing s (.engine kind index) = none) :
    ∃ u, beginEngine kind index false s = addReset { dom := .engine kind index, status := stEngReset } u ∧ sansEngine u = sansEngine s
      ∧ (∀ q, getQ u q = stopOn kind index stEngReset q (getQ s q))
      ∧ (getEng u (engKey kind index)).resets = (getEng s (engKey kind index)).resets + 1 := by
  refine ⟨_, beginReset_new fresh alone, ?_, fun q => ?_, ?_⟩
  · exact (sansEngine_of_sansWork (setEng_sansWork ..)).trans ((endEngine_sansEngine ..).trans (edgeWriteback_sansEngine ..))
  · rw [getQ_setEng, getQ_endEngine, getQ, edgeWriteback_queues, ← getQ]
  · rw [getEng_setEng, if_pos rfl]
    have rest := (endEngine_rest kind index stEngReset _).trans (edgeWriteback_rest (fun x => x == engKey kind index) s)
    exact congrArg (· + 1) (congrFun (Prod.ext_iff.mp rest).2 (engKey kind index))

/-- The escalation of an engine's error begins a reset of its domain. -/
theorem engineEscalation_new {kind index : Nat} {s : State} (fresh : resetRuns s (faultDomain kind index) = false)
    (alone : containing s (faultDomain kind index) = none) :
    ∃ u, engineEscalation kind index s = addReset { dom := faultDomain kind index, status := stEngReset } u ∧ sansEngine u = sansEngine s := by
  unfold faultDomain engineEscalation at *
  split at fresh
  · rename_i core
    rw [if_pos core] at alone
    rw [if_pos core, if_pos core]
    exact ⟨_, beginReset_new fresh alone, coreReset_sansEngine ..⟩
  · rename_i other
    rw [if_neg other] at alone
    rw [if_neg other, if_neg other]
    obtain ⟨u, begun, same, -, -⟩ := beginEngine_new fresh alone
    exact ⟨u, begun, same⟩

end Sys2Proof.Machine
end

section
/-! SUPPORT. Faults of engines, of the array and of the fabric: their records, and the resets they begin (R302, R303, R305, R306, R309,
R311). -/

namespace Sys2Proof.Machine

/-! ### A record, and a context reset after it -/

@[simp] theorem addFault_pw (r : FaultRec) (ctl : Bool) (s : State) : (addFault r ctl s).pw = s.pw :=
  addFault_keep (·.pw) (fun _ _ _ => rfl) (fun _ _ => rfl) (fun _ _ => rfl) (fun _ _ => rfl) (fun _ _ => rfl) ..
@[simp] theorem addFault_bt (r : FaultRec) (ctl : Bool) (s : State) : (addFault r ctl s).bt = s.bt :=
  addFault_keep (·.bt) (fun _ _ _ => rfl) (fun _ _ => rfl) (fun _ _ => rfl) (fun _ _ => rfl) (fun _ _ => rfl) ..
@[simp] theorem addFault_et (r : FaultRec) (ctl : Bool) (s : State) : (addFault r ctl s).et = s.et :=
  addFault_keep (·.et) (fun _ _ _ => rfl) (fun _ _ => rfl) (fun _ _ => rfl) (fun _ _ => rfl) (fun _ _ => rfl) ..
@[simp] theorem addFault_fw (r : FaultRec) (ctl : Bool) (s : State) : (addFault r ctl s).fw = s.fw :=
  addFault_keep (·.fw) (fun _ _ _ => rfl) (fun _ _ => rfl) (fun _ _ => rfl) (fun _ _ => rfl) (fun _ _ => rfl) ..
@[simp] theorem addFault_ob (r : FaultRec) (ctl : Bool) (s : State) : (addFault r ctl s).ob = s.ob :=
  addFault_keep (·.ob) (fun _ _ _ => rfl) (fun _ _ => rfl) (fun _ _ => rfl) (fun _ _ => rfl) (fun _ _ => rfl) ..
@[simp] theorem addFault_resets (r : FaultRec) (ctl : Bool) (s : State) : (addFault r ctl s).fr.resets = s.fr.resets :=
  congrArg (·.fr.resets) (addFault_sansFault r ctl s)
@[simp] theorem addFault_heldParts (r : FaultRec) (ctl : Bool) (s : State) : (addFault r ctl s).fr.heldParts = s.fr.heldParts :=
  congrArg (·.fr.heldParts) (addFault_sansFault r ctl s)
@[simp] theorem addFault_escCfg (r : FaultRec) (ctl : Bool) (s : State) : (addFault r ctl s).fr.escCfg = s.fr.escCfg :=
  congrArg (·.fr.escCfg) (addFault_sansFault r ctl s)
@[simp] theorem addFault_notices (r : FaultRec) (ctl : Bool) (s : State) : (addFault r ctl s).fr.notices = s.fr.notices :=
  congrArg (·.fr.notices) (addFault_sansFault r ctl s)

@[simp] theorem getCtx_addFault (r : FaultRec) (ctl : Bool) (s : State) (c : Nat) : getCtx (addFault r ctl s) c = getCtx s c := by
  rw [getCtx, getCtx, addFault_fe]

@[simp] theorem getQ_addFault (r : FaultRec) (ctl : Bool) (s : State) (q : Nat) : getQ (addFault r ctl s) q = getQ s q := by
  rw [getQ, getQ, addFault_fe]

@[simp] theorem resetRuns_addFault (r : FaultRec) (ctl : Bool) (s : State) (d : Domain) : resetRuns (addFault r ctl s) d = resetRuns s d := by
  rw [resetRuns, addFault_resets, ← resetRuns]

@[simp] theorem ctxResetRuns_addFault (r : FaultRec) (ctl : Bool) (s : State) (c : Nat) :
    ctxResetRuns (addFault r ctl s) c = ctxResetRuns s c := resetRuns_addFault r ctl s (.context c)

@[simp] theorem largerRuns_addFault (r : FaultRec) (ctl : Bool) (s : State) (c : Nat) : largerRuns (addFault r ctl s) c = largerRuns s c := by
  simp only [largerRuns, getCtx_addFault, addFault_resets, addFault_heldParts]

theorem endCtxWork_fr (c st : Nat) (fabric : Bool) (s : State) : (endCtxWork c st fabric s).fr = s.fr := by
  show (sansWork (endCtxWork c st fabric s)).fr = s.fr
  rw [endCtxWork_sansWork]
  split <;> rfl

/-- What a new context reset leaves and sets: the reset that runs, the context's state; of the fault registers, what was sent, bring-up,
the count of partitions, the dump registers nothing else. -/
theorem ctxReset_begun {c st : Nat} {fabric : Bool} {s : State} (busy : (getCtx s c).state ≠ ctxFree) (fresh : ctxResetRuns s c = false)
    (alone : largerRuns s c = false) :
    let u := ctxReset c st fabric s
    u.fr = { s.fr with resets := s.fr.resets ++ [{ dom := .context c, status := st, fabric }] } ∧ u.out = s.out ∧ u.bt = s.bt
      ∧ u.fe.countAct = s.fe.countAct ∧ restView u = restView s ∧ (getCtx u c).state = ctxResetting := by
  intro u
  have begun : u = addReset { dom := .context c, status := st, fabric } (endCtxWork c st fabric s) := ctxReset_new busy fresh alone
  have sans := endCtxWork_sansCtxs c st fabric s
  refine ⟨?_, ?_, ?_, ?_, ctxReset_rest .., ?_⟩
  · rw [begun, addReset, endCtxWork_fr]
  · exact begun ▸ congrArg (·.out) sans
  · exact begun ▸ congrArg (·.bt) sans
  · exact begun ▸ congrArg (·.fe.countAct) sans
  · have state : getCtx u c = toReset (getCtx s c) := by
      rw [begun]
      exact (getCtx_endCtxWork st fabric busy c).trans (if_pos rfl)
    rw [state, toReset]
    split
    · rename_i h
      exact h.resolve_left busy
    · rfl

/-! ### Engines that hang, and errors of engines -/

/-- Whatever a site's reset adds to the state after a fault, the record and its notice stay, and so do running resets and contexts. -/
theorem addReset_faulted {s u v : State} {r : RunReset} (work : sansEngine v = sansEngine u) {cls status reason : Nat}
    (record : faultAdded s u cls status reason) :
    faultAdded s (addReset r v) cls status reason ∧ resetRuns (addReset r v) r.dom = true
      ∧ (∀ l, told s u l → told s (addReset r v) l) ∧ (∀ d, resetRuns u d = true → resetRuns (addReset r v) d = true)
      ∧ (∀ c, getCtx (addReset r v) c = getCtx u c) := by
  have fr := congrArg (·.fr) work
  refine ⟨?_, ?_, fun l h => ?_, fun d h => ?_, fun c => ?_⟩
  · exact faultAdded_of_same record (congrArg (·.faults) fr) (congrArg (·.faultCount) fr)
  · rw [resetRuns_addReset]
    simp
  · exact told_of_same h (congrArg (·.noticeHeld) fr) (congrArg (·.out) work)
  · have runs : resetRuns v d = resetRuns u d := by
      show resetRuns (sansEngine v) d = resetRuns (sansEngine u) d
      rw [work]
    rw [resetRuns_addReset, runs, h, Bool.true_or]
  · show getCtx (sansEngine v) c = getCtx (sansEngine u) c
    rw [work]

theorem engineHang_effect {s : State} {kind index q : Nat} (up : engUp s kind index = true)
    (charged : faultQc s kind index (fun _ => true) = some q) (alone : containing s (.engine kind index) = none) :
    ∃ t, exec (.engineHang kind index) s = .next t ∧ faultAdded s t 7 0x31 0 ∧ resetRuns t (.engine kind index) = true
      ∧ (getEng t (engKey kind index)).resets = (getEng s (engKey kind index)).resets + 1
      ∧ (∀ qu, (getQ s qu).live = true → ∀ f ∈ (getQ s qu).inflight, f.result = none → qKind f.target = kind → qIndex f.target = index →
          (getQ t qu).state = qStopped ∧ ∃ g ∈ (getQ t qu).inflight, g.id = f.id ∧ g.result = some 0x31) := by
  let s0 : State := { s with free := s.free + 1 }
  let r := engRec s q cHang stEngReset 0 2 (Config.openWord (2 ^ 45 + s.free)).toNat (siteArg s kind index) 0
  have run : exec (.engineHang kind index) s = .next (keepRegs s (beginEngine kind index false (addFault r false s0))) := by
    show execEngineHang kind index s = _
    unfold execEngineHang
    dsimp only
    rw [charged, if_neg (by simp [up])]
    rfl
  have fresh : resetRuns (addFault r false s0) (.engine kind index) = false := (resetRuns_addFault ..).trans (engUp_fresh up).1
  have apart : containing (addFault r false s0) (.engine kind index) = none :=
    containing_none alone (by rw [addFault_fe]) (by simp) (fun x hx => .inl (by rwa [addFault_resets] at hx))
  obtain ⟨u, begun, work, queues, count⟩ := beginEngine_new fresh apart
  obtain ⟨record, runs, -⟩ := addReset_faulted (r := { dom := .engine kind index, status := stEngReset }) work
    (faultAdded_addFault (s := s) (t := s0) rfl r false)
  refine ⟨_, run, ?_⟩
  rw [begun]
  refine ⟨record, runs, ?_, fun qu live f inside waits on at_ => ?_⟩
  · have before := congrFun (Prod.ext_iff.mp (addFault_rest r false s0)).2 (engKey kind index)
    exact count.trans (congrArg (· + 1) before)
  · have stopped : getQ u qu = stopOn kind index stEngReset qu (getQ s qu) := (queues qu).trans (by rw [getQ_addFault]; rfl)
    have ends := stopOn_ends (q := qu) stEngReset live inside waits on at_
    rw [← stopped] at ends
    exact ends

theorem engineError_effect {s : State} {kind index : Nat} (syn : W64) (up : engUp s kind index = true)
    (alone : containing s (faultDomain kind index) = none) :
    ∃ t, exec (.engineError kind index none syn) s = .next t ∧ faultAdded s t 8 0 0 ∧ resetRuns t (faultDomain kind index) = true
      ∧ noticed s t (.faultNotice none (engIsland s kind index) 0 (if kind ≤ kDM then 3 else 2)) := by
  let r : FaultRec := { island := engIsland s kind index, cls := cEngine, kind, part := engPart s kind index, level := if kind ≤ kDM then 3 else 2
                        arg0 := syn, arg1 := BitVec.ofNat 64 (siteArg s kind index) }
  have run : exec (.engineError kind index none syn) s = .next (keepRegs s (engineEscalation kind index (addFault r false s))) := by
    show execEngineError kind index none syn s = _
    unfold execEngineError
    rw [if_neg (by simp [up])]
  have fresh : resetRuns (addFault r false s) (faultDomain kind index) = false := (resetRuns_addFault ..).trans (engUp_fresh up).2
  have apart : containing (addFault r false s) (faultDomain kind index) = none :=
    containing_none alone (by rw [addFault_fe]) (faultDomain_site kind index) (fun x hx => .inl (by rwa [addFault_resets] at hx))
  obtain ⟨u, begun, work⟩ := engineEscalation_new fresh apart
  obtain ⟨record, runs, tells, -⟩ := addReset_faulted (r := { dom := faultDomain kind index, status := stEngReset }) work
    (faultAdded_addFault (s := s) rfl r false)
  refine ⟨_, run, ?_⟩
  rw [begun]
  exact ⟨record, runs, noticed_of_told (tells _ (told_addFault (.inl rfl) false s))⟩

theorem engineRec_fields (s : State) (kind index : Nat) (t : Nat → Bool) (who : Option Nat) (cls status level a0 : Nat) :
    let r := engineRec s kind index t who cls status level a0
    r.cls = cls ∧ r.status = status ∧ r.reason = 0 ∧ r.level = level := by
  unfold engineRec
  dsimp only
  cases who with
  | some q => exact ⟨rfl, rfl, rfl, rfl⟩
  | none => cases deviceWork s kind index t <;> exact ⟨rfl, rfl, rfl, rfl⟩

theorem engineError_context {s : State} {kind index : Nat} (syn : W64) (up : engUp s kind index = true)
    (alone : containing s (faultDomain kind index) = none) (c : Byte) (busy : (getCtx s c.toNat).state ≠ ctxFree)
    (fresh : ctxResetRuns s c.toNat = false) (none_larger : largerRuns s c.toNat = false) :
    ∃ t, exec (.engineError kind index (some c) syn) s = .next t ∧ faultAdded s t 8 0x30 0 ∧ resetRuns t (faultDomain kind index) = true
      ∧ resetRuns t (.context c.toNat) = true ∧ (getCtx t c.toNat).state = ctxResetting
      ∧ ∃ isl, noticed s t (.faultNotice (some c.toNat) isl 0x30 (if kind ≤ kDM then 3 else 2)) := by
  let level := if kind ≤ kDM then 3 else 2
  let of := engineRec s kind index (· == c.toNat) (faultQc s kind index (fun qc => qc.ctx == c.toNat)) cEngine stCtxReset level syn.toNat
  let r : FaultRec := { of with ctx := c.toNat, ctxv := true }
  let v := ctxReset c.toNat stCtxReset (kind == kRX || kind == kUX) (addFault r false s)
  have run : exec (.engineError kind index (some c) syn) s = .next (keepRegs s (engineEscalation kind index v)) := by
    show execEngineError kind index (some c) syn s = _
    unfold execEngineError
    rw [if_neg (by simp [up])]
  obtain ⟨cls, status, reason, lev⟩ := engineRec_fields s kind index (· == c.toNat)
    (faultQc s kind index (fun qc => qc.ctx == c.toNat)) cEngine stCtxReset level syn.toNat
  obtain ⟨fr, out, -, count, -, state⟩ := ctxReset_begun (c := c.toNat) (st := stCtxReset) (fabric := kind == kRX || kind == kUX)
    (s := addFault r false s) (by simpa using busy) (by simpa using fresh) (by simpa using none_larger)
  have runs : v.fr.resets = s.fr.resets ++ [{ dom := .context c.toNat, status := stCtxReset, fabric := kind == kRX || kind == kUX }] := by
    rw [fr]
    simp
  have record : faultAdded s v 8 0x30 0 := by
    have added := faultAdded_addFault (s := s) rfl r false
    rw [cls, status, reason] at added
    exact faultAdded_of_same added (by rw [fr]) (by rw [fr])
  have tells : told s v [.faultNotice (some c.toNat) of.island 0x30 level] := by
    have sent := told_addFault (r := r) (.inl cls) false s
    rw [status, lev] at sent
    exact told_of_same sent (by rw [fr]) out
  have fresh' : resetRuns v (faultDomain kind index) = false := by
    have before := (engUp_fresh up).2
    unfold resetRuns at *
    rw [runs, List.any_append, before]
    have := faultDomain_site kind index c.toNat
    simp [this.symm]
  have apart : containing v (faultDomain kind index) = none :=
    containing_none alone (count.trans (by rw [addFault_fe])) (faultDomain_site kind index) (fun x hx => by
      rw [runs, List.mem_append, List.mem_singleton] at hx
      exact hx.imp id fun h => ⟨c.toNat, by rw [h]⟩)
  obtain ⟨u, begun, work⟩ := engineEscalation_new fresh' apart
  obtain ⟨record', began, tells', keeps, ctxs⟩ := addReset_faulted (r := { dom := faultDomain kind index, status := stEngReset }) work record
  refine ⟨_, run, ?_⟩
  rw [begun]
  refine ⟨record', began, keeps _ (by simp [resetRuns, runs]), ?_, of.island, noticed_of_told (tells' _ tells)⟩
  exact (congrArg Ctx.state (ctxs c.toNat)).trans state

end Sys2Proof.Machine
end

section
/-! SUPPORT. A chip reset as an array error begins it, and errors of the fabric (R302, R306, R311, R329). -/

namespace Sys2Proof.Machine

/-! ### READY clears -/

/-- The fault ring, its count and the resets that run. -/
def faultRing (s : State) : NMap FaultRec × Nat × List RunReset := (s.fr.faults, s.fr.faultCount, s.fr.resets)

theorem addLog_faultRing (isl sev event a0 a1 : Nat) (s : State) : faultRing (addLog isl sev event a0 a1 s) = faultRing s := by
  have counted : faultRing (bumpIseq isl (tick isl s)) = faultRing s := tick_keep faultRing (fun _ _ _ => rfl) (fun _ _ => rfl) ..
  unfold addLog
  extract_lets s1 r s2 held
  split
  · unfold appendLog
    split <;> exact counted
  · split <;> exact counted

theorem clearReady_keep {β : Type} (f : State → β) (bt : ∀ (t : State) (b : Bt), f { t with bt := b } = f t)
    (log : ∀ isl sev event a0 a1 t, f (addLog isl sev event a0 a1 t) = f t)
    (held : ∀ (t : State) (x : List Output), f { t with fr := { t.fr with noticeHeld := x } } = f t)
    (sent : ∀ o t, f (emit o t) = f t) (cause : Nat) (s : State) : f (clearReady cause s) = f s := by
  unfold clearReady
  split
  · exact (sensorEvent_keep f sent ..).trans ((notice_keep f held sent ..).trans ((log ..).trans (bt ..)))
  · rfl

theorem clearReady_bt (cause : Nat) (s : State) :
    (clearReady cause s).bt = if s.bt.ready then { s.bt with ready := false, stage := 7 } else s.bt := by
  unfold clearReady
  split
  · exact (sensorEvent_keep (·.bt) (fun _ _ => rfl) ..).trans ((notice_keep (·.bt) (fun _ _ => rfl) (fun _ _ => rfl) ..).trans (addLog_bt ..))
  · rfl

/-- Bring-up that has reached COMPUTE still has once READY is cleared. -/
theorem computeReached_clearReady {s : State} (reached : computeReached s = true) (cause : Nat) :
    computeReached (clearReady cause s) = true ∧ (clearReady cause s).bt.ready = false := by
  unfold computeReached at *
  rw [clearReady_bt]
  split
  · exact ⟨rfl, rfl⟩
  · rename_i clear
    exact ⟨reached, by simpa using clear⟩

/-- The end of a stop changes the observation unit and, where a dump begins, cycle counts. -/
theorem endStop_keep {β : Type} (f : State → β) (ob : ∀ (t : State) (o : Ob), f { t with ob := o } = f t)
    (eng : ∀ k e t, f (setEng k e t) = f t) (isl : ∀ i t, f (tickIsland i t) = f t) (timedOut : Bool) (s : State) :
    f (endStop timedOut s) = f s := by
  unfold endStop
  split
  · rfl
  · extract_lets ob0 s1
    split
    · exact (ob ..).trans ((tick_keep f eng isl ..).trans (ob ..))
    · exact ob ..

/-! ### A chip reset -/

/-- Bring-up and the fault ring: what the compute work of partitions and contexts leaves alone. -/
def chipView (s : State) : Bt × NMap FaultRec × Nat × List RunReset := (s.bt, faultRing s)

theorem chipView_of_sansDomain {s t : State} (h : sansDomain t = sansDomain s) : chipView t = chipView s := by
  show chipView (sansDomain t) = chipView (sansDomain s)
  rw [h]

/-- A context in reset stays in reset while further work is ended step by step. -/
theorem resetting_foldl {α : Type} {f : State → α → State} {c : Nat}
    (step : ∀ t x, (getCtx t c).state = ctxResetting → (getCtx (f t x) c).state = ctxResetting) (l : List α) {s : State}
    (h : (getCtx s c).state = ctxResetting) : (getCtx (l.foldl f s) c).state = ctxResetting :=
  List.foldlRecOn (motive := fun t => (getCtx t c).state = ctxResetting) l f h (fun t ht x _ => step t x ht)

/-- Steps of a chip reset that keep bring-up, the fault ring and every context in reset. -/
def ChipKeeps (s t : State) : Prop :=
  chipView t = chipView s ∧ ∀ c, (getCtx s c).state = ctxResetting → (getCtx t c).state = ctxResetting

theorem ChipKeeps.trans {s t u : State} (h : ChipKeeps s t) (k : ChipKeeps t u) : ChipKeeps s u :=
  ⟨k.1.trans h.1, fun c hc => k.2 c (h.2 c hc)⟩

theorem chipKeeps_partitions (ps : List Nat) (s : State) : ChipKeeps s (ps.foldl (fun t p => partitionEnd p t) s) :=
  ⟨chipView_of_sansDomain (foldl_sansDomain (fun t p => partitionEnd p t) (fun _ _ => partitionEnd_sansDomain ..) ps s),
    fun _ h => resetting_foldl (fun _ p ht => resetting_partitionEnd ht p) ps h⟩

theorem chipKeeps_contexts (change : Bool) (cs : List Nat) (s : State) : ChipKeeps s (if change then
    cs.foldl (fun t c => if (getCtx t c).state = ctxFree then t else endCtxWork c stPartReset true t) s else s) := by
  cases change with
  | false => exact ⟨rfl, fun _ h => h⟩
  | true =>
    refine ⟨chipView_of_sansDomain (foldl_sansDomain _ (fun t c => ?_) cs s), fun _ h => resetting_foldl (fun t k ht => ?_) cs h⟩
    · split
      · rfl
      · exact endCtxWork_sansDomain ..
    · split
      · exact ht
      · rename_i busy
        exact resetting_endCtxWork ht _ _ busy

theorem chipKeeps_partRefused (b : Bool) (s : State) : ChipKeeps s { s with fe := { s.fe with partRefused := b } } := ⟨rfl, fun _ h => h⟩

theorem chipKeeps_refused (refused : Bool) (a b : Nat) (s : State) : ChipKeeps s (if refused then droneLog 2 0x0003 a b s else s) := by
  cases refused with
  | false => exact ⟨rfl, fun _ h => h⟩
  | true =>
    refine ⟨congrArg₂ Prod.mk (addLog_bt ..) (addLog_faultRing ..), fun c h => ?_⟩
    show (getCtx (addLog _ _ _ _ _ s) c).state = _
    rwa [getCtx, addLog_fe, ← getCtx]

/-- A chip reset that bring-up has got far enough for: READY and the COMPUTE stage start over, the reset runs beside those that run,
contexts in reset stay so, and the fault ring is as it was. -/
theorem chipStart_begun {s : State} (reached : computeReached s = true) (byReq : Bool) :
    let t := chipStart byReq s
    t.bt.ready = false ∧ t.bt.computeDone = false ∧ t.bt.stage = 6 ∧ t.fr.faults = s.fr.faults ∧ t.fr.faultCount = s.fr.faultCount
      ∧ resetRuns t .chip = true ∧ (∀ d, resetRuns s d = true → resetRuns t d = true)
      ∧ (∀ c, (getCtx s c).state = ctxResetting → (getCtx t c).state = ctxResetting) := by
  intro t
  have stopBt : (endStop false s).bt = s.bt := endStop_keep (·.bt) (fun _ _ => rfl) (fun _ _ _ => rfl) (fun _ _ => rfl) ..
  have reached1 := computeReached_clearReady (s := endStop false s) (by unfold computeReached at *; rwa [stopBt]) 0
  have ring1 : faultRing (clearReady 0 (endStop false s)) = faultRing s :=
    (clearReady_keep faultRing (fun _ _ => rfl) addLog_faultRing (fun _ _ => rfl) (fun _ _ => rfl) ..).trans
      (endStop_keep faultRing (fun _ _ => rfl) (fun _ _ _ => rfl) (fun _ _ => rfl) ..)
  have ctx1 : ∀ c, getCtx (clearReady 0 (endStop false s)) c = getCtx s c := fun c =>
    (clearReady_keep (getCtx · c) (fun _ _ => rfl) (fun _ _ _ _ _ t => by rw [getCtx, addLog_fe, ← getCtx]) (fun _ _ => rfl) (fun _ _ => rfl) ..).trans
      (endStop_keep (getCtx · c) (fun _ _ => rfl) (fun _ _ _ => rfl) (fun _ _ => rfl) ..)
  revert t
  unfold chipStart
  generalize upto 256 = contexts
  extract_lets s1 bt1 s2 s3 cnt change s4 refused fe4 s5 s6 fr6
  have state2 : s2 = startClocks { s1 with bt := { s1.bt with stage := 6, failStage := 0, failReason := 0, personalityOk := false, computeDone := false } } :=
    congrArg startClocks (if_pos reached1.1)
  have view2 : chipView s2 = ({ s1.bt with stage := 6, failStage := 0, failReason := 0, personalityOk := false, computeDone := false }, faultRing s) := by
    rw [state2, ← ring1]
    rfl
  have steps3 : ChipKeeps s2 s3 := chipKeeps_partitions ..
  have steps4 : ChipKeeps s3 s4 := chipKeeps_contexts ..
  have steps5 : ChipKeeps s4 s5 := chipKeeps_partRefused refused s4
  have steps6 : ChipKeeps s5 s6 := chipKeeps_refused ..
  have steps : ChipKeeps s2 s6 := steps3.trans (steps4.trans (steps5.trans steps6))
  have view : chipView s6 = _ := steps.1.trans view2
  have ctxs : ∀ c, (getCtx s c).state = ctxResetting → (getCtx s6 c).state = ctxResetting := fun c h => steps.2 c (by
    rw [state2]
    exact (congrArg Ctx.state (ctx1 c)).trans h)
  clear_value s6
  simp only [chipView, faultRing, Prod.mk.injEq] at view
  obtain ⟨bt, faults, count, resets⟩ := view
  refine ⟨?_, ?_, ?_, faults, count, ?_, fun d h => ?_, ctxs⟩
  · exact (congrArg Bt.ready bt).trans reached1.2
  · exact congrArg Bt.computeDone bt
  · exact congrArg Bt.stage bt
  · rw [resetRuns_addReset]
    simp
  · rw [resetRuns_addReset]
    have runs : s6.fr.resets.any (fun r => r.dom == d) = true := by rw [resets]; exact h
    exact Bool.or_eq_true_iff.mpr (.inl runs)

/-- A fault's chip reset begins at once where no dump comes before it. -/
theorem beginChip_starts {s : State} (fresh : resetRuns s .chip = false) (free : s.ob.dumpFor ≠ 2) (idle : s.ob.dumpState ≠ 1)
    (none_wanted : dumpWanted s 1 = false) : beginChip false true s = chipStart false { s with fr := { s.fr with heldParts := [] } } := by
  unfold beginChip
  rw [if_neg (by simp [fresh]), if_neg free]
  extract_lets fr s0 s1
  have none' : dumpWanted s0 1 = false := none_wanted
  have kept : s1 = s0 := if_neg (by simp [none'])
  have idle' : s1.ob.dumpState ≠ 1 := by rwa [kept]
  rw [if_neg idle', kept]
  exact congrArg (chipStart false) (if_pos rfl)

/-- A chip reset after a fault leaves the record and the resets that run, and starts bring-up over. -/
theorem beginChip_faulted {s u : State} {cls status reason : Nat} (record : faultAdded s u cls status reason)
    (reached : computeReached u = true) (fresh : resetRuns u .chip = false) (free : u.ob.dumpFor ≠ 2) (idle : u.ob.dumpState ≠ 1)
    (none_wanted : dumpWanted u 1 = false) :
    let t := beginChip false true u
    faultAdded s t cls status reason ∧ resetRuns t .chip = true ∧ t.bt.ready = false ∧ t.bt.computeDone = false ∧ t.bt.stage = 6
      ∧ (∀ d, resetRuns u d = true → resetRuns t d = true) ∧ (∀ c, (getCtx u c).state = ctxResetting → (getCtx t c).state = ctxResetting) := by
  intro t
  have starts : t = chipStart false { u with fr := { u.fr with heldParts := [] } } := beginChip_starts fresh free idle none_wanted
  obtain ⟨ready, compute, stage, faults, count, chip, runs, ctxs⟩ :=
    chipStart_begun (s := { u with fr := { u.fr with heldParts := [] } }) reached false
  rw [starts]
  exact ⟨faultAdded_of_same record faults count, chip, ready, compute, stage, runs, ctxs⟩

/-! ### Errors of the array -/

/-- The record that an array error of a context makes, and what follows it. -/
theorem exec_arrayError_context {s : State} {cd row : Nat} (col : Nat) (on : s.pw.powered = true) (done : s.bt.computeDone = true)
    (clocked : frozenIsl s (0x900 + 8 * cd + min 7 (row / 256)) = false) (c : Byte) :
    ∃ r : FaultRec, r.cls = cArray ∧ r.status = stCtxReset ∧ r.reason = 0 ∧ exec (.arrayError cd row col (some c)) s
      = .next (keepRegs s (beginChip false true (ctxReset c.toNat stCtxReset false (addFault r false s)))) := by
  let p := cdPart (partCount s) cd
  let of := engineRec s kAX p (· == c.toNat) (faultQc s kAX p (fun qc => qc.ctx == c.toNat)) cArray stCtxReset 5 0
  refine ⟨{ island := 0x900 + 8 * cd + min 7 (row / 256), cls := cArray, kind := kAX, part := p, level := 5
            arg0 := BitVec.ofNat 64 cd, arg1 := BitVec.ofNat 64 row, arg2 := BitVec.ofNat 64 col
            ctx := c.toNat, ctxv := true, status := stCtxReset, qctx := of.qctx, seq := of.seq, pc := of.pc }, rfl, rfl, rfl, ?_⟩
  show execArrayError cd row col (some c) s = _
  unfold execArrayError
  rw [if_neg (by simp [on, done, clocked])]

/-- A fault of a context, its context reset and the chip reset after it. -/
theorem contextThenChip {s : State} (r : FaultRec) {c : Nat} (fresh : resetRuns s .chip = false) (free : s.ob.dumpFor ≠ 2)
    (idle : s.ob.dumpState ≠ 1) (none_wanted : dumpWanted s 1 = false) (reached : computeReached s = true)
    (busy : (getCtx s c).state ≠ ctxFree) (alone : ctxResetRuns s c = false) (none_larger : largerRuns s c = false) :
    let t := beginChip false true (ctxReset c stCtxReset false (addFault r false s))
    faultAdded s t r.cls r.status r.reason ∧ resetRuns t .chip = true ∧ resetRuns t (.context c) = true ∧ (getCtx t c).state = ctxResetting
      ∧ t.bt.ready = false ∧ t.bt.computeDone = false := by
  obtain ⟨fr, -, bt, -, rest, state⟩ := ctxReset_begun (c := c) (st := stCtxReset) (fabric := false) (s := addFault r false s)
    (by simpa using busy) (by simpa using alone) (by simpa using none_larger)
  have ob := (Prod.ext_iff.mp (rest.trans (addFault_rest r false s))).1
  generalize ctxReset c stCtxReset false (addFault r false s) = u at *
  have runs : u.fr.resets = s.fr.resets ++ [{ dom := .context c, status := stCtxReset, fabric := false }] := by rw [fr, addFault_resets]
  have record : faultAdded s u r.cls r.status r.reason :=
    faultAdded_of_same (faultAdded_addFault (s := s) (t := s) rfl r false) (by rw [fr]) (by rw [fr])
  have dumpFor : u.ob.dumpFor = s.ob.dumpFor := by
    show (restView u).1.dumpFor = (restView s).1.dumpFor
    rw [ob]
  have dumpState : u.ob.dumpState = s.ob.dumpState := by
    show (restView u).1.dumpState = (restView s).1.dumpState
    rw [ob]
  have dumpSize : u.ob.dumpSize = s.ob.dumpSize := by
    show (restView u).1.dumpSize = (restView s).1.dumpSize
    rw [ob]
  have fresh' : resetRuns u .chip = false := by
    unfold resetRuns at *
    simp [runs, fresh]
  obtain ⟨record', chip, ready, compute, -, keeps, ctxs⟩ := beginChip_faulted record
    (by unfold computeReached at *; rwa [bt, addFault_bt]) fresh' (by rwa [dumpFor]) (by rwa [dumpState])
    (by unfold dumpWanted at *; rwa [dumpState, dumpSize, fr, addFault_escCfg])
  exact ⟨record', chip, keeps _ (by simp [resetRuns, runs]), ctxs _ state, ready, compute⟩

section ArrayErrors
variable {s : State} {cd row : Nat} (col : Nat) (on : s.pw.powered = true) (done : s.bt.computeDone = true)
  (clocked : frozenIsl s (0x900 + 8 * cd + min 7 (row / 256)) = false) (fresh : resetRuns s .chip = false) (free : s.ob.dumpFor ≠ 2)
  (idle : s.ob.dumpState ≠ 1) (none_wanted : dumpWanted s 1 = false) (reached : computeReached s = true)
include on done clocked fresh free idle none_wanted reached

theorem arrayError_effect :
    ∃ t, exec (.arrayError cd row col none) s = .next t ∧ faultAdded s t 9 0 0 ∧ resetRuns t .chip = true
      ∧ t.bt.ready = false ∧ t.bt.computeDone = false ∧ t.bt.stage = 6 := by
  let r : FaultRec := { island := 0x900 + 8 * cd + min 7 (row / 256), cls := cArray, kind := kAX, part := cdPart (partCount s) cd, level := 5
                        arg0 := BitVec.ofNat 64 cd, arg1 := BitVec.ofNat 64 row, arg2 := BitVec.ofNat 64 col }
  have run : exec (.arrayError cd row col none) s = .next (keepRegs s (beginChip false true (addFault r false s))) := by
    show execArrayError cd row col none s = _
    unfold execArrayError
    rw [if_neg (by simp [on, done, clocked])]
  obtain ⟨record, chip, ready, compute, stage, -, -⟩ := beginChip_faulted (faultAdded_addFault (s := s) (t := s) rfl r false)
    (by unfold computeReached at *; rwa [addFault_bt]) (by rwa [resetRuns_addFault]) (by rwa [addFault_ob]) (by rwa [addFault_ob])
    (by unfold dumpWanted at *; rwa [addFault_ob, addFault_escCfg])
  exact ⟨_, run, record, chip, ready, compute, stage⟩

theorem arrayError_context (c : Byte) (busy : (getCtx s c.toNat).state ≠ ctxFree) (alone : ctxResetRuns s c.toNat = false)
    (none_larger : largerRuns s c.toNat = false) :
    ∃ t, exec (.arrayError cd row col (some c)) s = .next t ∧ faultAdded s t 9 0x30 0 ∧ resetRuns t .chip = true
      ∧ resetRuns t (.context c.toNat) = true ∧ (getCtx t c.toNat).state = ctxResetting ∧ t.bt.ready = false ∧ t.bt.computeDone = false := by
  obtain ⟨r, cls, status, reason, run⟩ := exec_arrayError_context col on done clocked c
  obtain ⟨record, chip, ctx, state, ready, compute⟩ := contextThenChip r fresh free idle none_wanted reached busy alone none_larger
  rw [cls, status, reason] at record
  exact ⟨_, run, record, chip, ctx, state, ready, compute⟩

end ArrayErrors

/-! ### Errors of the fabric -/

section FabricErrors
variable {s : State} (link cls kind isl : Nat)

/-- The record of a fabric error. -/
def fabricRec (link cls kind isl : Nat) (auto : Bool) : FaultRec :=
  { island := isl, cls := cFabric, kind := 7, level := if auto then 6 else 0
    arg0 := BitVec.ofNat 64 link, arg1 := BitVec.ofNat 64 cls, arg2 := BitVec.ofNat 64 kind }

/-- Without AUTO_POWER a fabric error is its record. -/
theorem fabricError_alone (off : s.fr.escCfg.getLsbD 0 = false) :
    fabricError link cls kind isl s = addFault (fabricRec link cls kind isl false) false s := by
  unfold fabricError
  dsimp only
  rw [off, if_neg (by simp)]
  rfl

/-- With AUTO_POWER the request for a power cycle follows, where neither a stop nor a dump comes first. -/
theorem fabricError_auto (auto : s.fr.escCfg.getLsbD 0 = true) (runs : s.ob.stopState = 0) (none_wanted : dumpWanted s 2 = false) :
    fabricError link cls kind isl s = powerNotice (addFault (fabricRec link cls kind isl true) false s) := by
  have none' : dumpWanted (addFault (fabricRec link cls kind isl true) false s) 2 = false := by
    unfold dumpWanted at *
    rwa [addFault_ob, addFault_escCfg]
  have runs' : (addFault (fabricRec link cls kind isl true) false s).ob.stopState = 0 := by rwa [addFault_ob]
  unfold fabricError
  dsimp only
  rw [auto, if_pos rfl, ← fabricRec, unlessStopped, if_pos runs', beginPowerCycle, if_neg (by simp [none'])]
  rfl

theorem exec_fabricError (on : s.pw.powered = true) :
    exec (.fabricError link cls kind isl) s = .next (keepRegs s (fabricError link cls kind isl s)) := by
  show execFabricError link cls kind isl s = _
  unfold execFabricError
  rw [if_pos on]

theorem fabricError_effect (on : s.pw.powered = true) (off : s.fr.escCfg.getLsbD 0 = false) :
    ∃ t, exec (.fabricError link cls kind isl) s = .next t ∧ faultAdded s t 0xA 0 0 ∧ t.fr.resets = s.fr.resets
      ∧ told s t [.faultNotice none isl 0 0] ∧ bytesKept s t ∧ t.fe = s.fe := by
  refine ⟨_, exec_fabricError link cls kind isl on, ?_⟩
  rw [fabricError_alone link cls kind isl off]
  let r := fabricRec link cls kind isl false
  have mem : (addFault r false s).mem = s.mem := addFault_mem ..
  have hs : (addFault r false s).hs = s.hs := addFault_hs ..
  refine ⟨faultAdded_addFault (s := s) (t := s) rfl r false, addFault_resets .., told_addFault (r := r) (.inr (.inr (.inl rfl))) false s,
    ⟨⟨?_, ?_⟩, ?_, ?_, ?_⟩, addFault_fe ..⟩
  · show (addFault r false s).mem.cells = _
    rw [mem]
  · show (addFault r false s).hs.hostMem = _
    rw [hs]
  · show (addFault r false s).mem.marks = _
    rw [mem]
  · show (addFault r false s).mem.chestPoison = _
    rw [mem]
  · show (addFault r false s).hs.hostPoison = _
    rw [hs]

theorem fabricError_powerCycle (on : s.pw.powered = true) (auto : s.fr.escCfg.getLsbD 0 = true) (runs : s.ob.stopState = 0)
    (none_wanted : dumpWanted s 2 = false) :
    ∃ t, exec (.fabricError link cls kind isl) s = .next t ∧ faultAdded s t 0xA 0 0 ∧ t.fr.resets = s.fr.resets
      ∧ told s t [.faultNotice none isl 0 6, .faultNotice none (droneIsland s) 0 6] := by
  refine ⟨_, exec_fabricError link cls kind isl on, ?_⟩
  rw [fabricError_auto link cls kind isl auto runs none_wanted]
  let r := fabricRec link cls kind isl true
  have record := faultAdded_addFault (s := s) (t := s) rfl r false
  have drone : droneUp (addFault r false s) = droneUp s := droneUp_congr (by rw [addFault_pw]) (by rw [addFault_pw]) (addFault_bt ..) (addFault_fw ..)
  have island : droneIsland (addFault r false s) = droneIsland s := by rw [droneIsland, droneIsland, addFault_fw]
  have sent := told_notice (told_addFault (r := r) (.inr (.inr (.inl rfl))) false s) drone (addFault_pw ..)
    (.faultNotice none (droneIsland (addFault r false s)) 0 6)
  refine ⟨faultAdded_of_same record (notice_keep (·.fr.faults) (fun _ _ => rfl) (fun _ _ => rfl) ..)
      (notice_keep (·.fr.faultCount) (fun _ _ => rfl) (fun _ _ => rfl) ..),
    (notice_keep (·.fr.resets) (fun _ _ => rfl) (fun _ _ => rfl) ..).trans (addFault_resets ..), ?_⟩
  rw [island] at sent
  rw [powerNotice, faultNotice, island]
  exact sent

end FabricErrors

end Sys2Proof.Machine
end

section
/-! SUPPORT. Wait deadlock: the blocked commands of a context end with WAIT_DEADLOCK, with one record for each blocked queue, before the
context's reset (R321, R322). -/

namespace Sys2Proof.Machine

/-! ### The end of one wait -/

/-- What the end of a wait leaves: everything but queues and what a fault record changes. -/
def sansWaitEnd (s : State) : State := { sansFault s with fe := { (sansFault s).fe with queues := [] } }

/-- The record of a blocked queue changes what a fault record does. -/
theorem recordedIf_sansFault (b : Bool) (r : FaultRec) (s : State) : sansFault (if b then addFault r false s else s) = sansFault s := by
  split
  · exact addFault_sansFault ..
  · rfl

theorem recordedIf_faultCount (b : Bool) (r : FaultRec) (s : State) :
    (if b then addFault r false s else s).fr.faultCount = s.fr.faultCount + if b then 1 else 0 := by
  split
  · exact faultCount_addFault ..
  · rfl

theorem recordedIf_getQ (b : Bool) (r : FaultRec) (s : State) (q : Nat) : getQ (if b then addFault r false s else s) q = getQ s q := by
  split
  · exact getQ_addFault ..
  · rfl

/-- The end of a wait is its record, where one is made, and the end of its command. -/
theorem endWait_eq (record : Bool) (w : Waiter) (s : State) : ∃ r, endWait record w s =
    let u := if record then addFault r false s else s
    if w.isQueue then modQ w.key (endHeld stWaitDl) u
    else match (getQc s w.key).cmd with
      | some (qu, id, _) => setResult qu id stWaitDl u
      | none => u := by
  unfold endWait waiterQueue
  cases w.isQueue with
  | true => exact ⟨_, rfl⟩
  | false => cases (getQc s w.key).cmd <;> exact ⟨_, rfl⟩

theorem endWait_sansWaitEnd (record : Bool) (w : Waiter) (s : State) : sansWaitEnd (endWait record w s) = sansWaitEnd s := by
  obtain ⟨r, ends⟩ := endWait_eq record w s
  have told := congrArg (fun x : State => { x with fe := { x.fe with queues := [] } }) (recordedIf_sansFault record r s)
  rw [ends]
  dsimp only
  split
  · exact told
  · split <;> exact told

theorem endWait_faultCount (record : Bool) (w : Waiter) (s : State) :
    (endWait record w s).fr.faultCount = s.fr.faultCount + if record then 1 else 0 := by
  obtain ⟨r, ends⟩ := endWait_eq record w s
  have counted := recordedIf_faultCount record r s
  rw [ends]
  dsimp only
  split
  · exact counted
  · split <;> exact counted

theorem getQ_endWait_queue {w : Waiter} (queue : w.isQueue = true) (record : Bool) (s : State) (q : Nat) :
    getQ (endWait record w s) q = if q = w.key then endHeld stWaitDl (getQ s q) else getQ s q := by
  obtain ⟨r, ends⟩ := endWait_eq record w s
  rw [ends]
  dsimp only
  rw [if_pos queue, getQ_modQ]
  simp only [recordedIf_getQ]
  split
  · subst_vars; rfl
  · rfl

/-- A command without status gets one. -/
def withResult (id st : Nat) (v : Queue) : Queue :=
  { v with inflight := v.inflight.map (fun f => if f.id = id ∧ f.result = none then { f with result := some st } else f) }

theorem getQ_endWait_command {w : Waiter} {s : State} {qu id : Nat} {prog : Bool} (command : w.isQueue = false)
    (cmd : (getQc s w.key).cmd = some (qu, id, prog)) (record : Bool) (q : Nat) :
    getQ (endWait record w s) q = if q = qu then withResult id stWaitDl (getQ s q) else getQ s q := by
  obtain ⟨r, ends⟩ := endWait_eq record w s
  rw [ends]
  dsimp only
  rw [if_neg (by simp [command]), cmd]
  dsimp only
  rw [setResult, getQ_modQ]
  simp only [recordedIf_getQ]
  split
  · subst_vars; rfl
  · rfl

theorem getQ_endWait_idle {w : Waiter} {s : State} (command : w.isQueue = false) (idle : (getQc s w.key).cmd = none) (record : Bool) (q : Nat) :
    getQ (endWait record w s) q = getQ s q := by
  obtain ⟨r, ends⟩ := endWait_eq record w s
  rw [ends]
  dsimp only
  rw [if_neg (by simp [command]), idle]
  exact recordedIf_getQ ..

/-- To any queue the end of a wait does one of three things. -/
theorem getQ_endWait_cases (record : Bool) (w : Waiter) (s : State) (q : Nat) :
    getQ (endWait record w s) q = getQ s q ∨ getQ (endWait record w s) q = endHeld stWaitDl (getQ s q)
      ∨ ∃ id, getQ (endWait record w s) q = withResult id stWaitDl (getQ s q) := by
  cases queue : w.isQueue with
  | true =>
    rw [getQ_endWait_queue queue]
    split
    · exact .inr (.inl rfl)
    · exact .inl rfl
  | false =>
    cases cmd : (getQc s w.key).cmd with
    | none => exact .inl (getQ_endWait_idle queue cmd ..)
    | some x =>
      rw [getQ_endWait_command queue cmd]
      split
      · exact .inr (.inr ⟨_, rfl⟩)
      · exact .inl rfl

theorem getQc_endWait (record : Bool) (w : Waiter) (s : State) (q : Nat) : getQc (endWait record w s) q = getQc s q := by
  show getQc (sansWaitEnd (endWait record w s)) q = getQc (sansWaitEnd s) q
  rw [endWait_sansWaitEnd]

/-! ### What waits leave of a command and of a waiting queue -/

/-- The command of a queue has no status yet, or that of a wait deadlock. -/
def OpenOrDeadlocked (qu id : Nat) (s : State) : Prop :=
  ∃ g ∈ (getQ s qu).inflight, g.id = id ∧ (g.result = none ∨ g.result = some stWaitDl)

/-- Some command of the queue, one that P speaks of, ended with a wait deadlock. -/
def DeadlockGiven (qu : Nat) (P : InFlight → Prop) (s : State) : Prop := ∃ g ∈ (getQ s qu).inflight, P g ∧ g.result = some stWaitDl

theorem mem_withResult {id st : Nat} {v : Queue} {g : InFlight} (inside : g ∈ v.inflight) :
    (if g.id = id ∧ g.result = none then { g with result := some st } else g) ∈ (withResult id st v).inflight := List.mem_map.mpr ⟨g, inside, rfl⟩

theorem openOrDeadlocked_endWait {qu id : Nat} (record : Bool) (w : Waiter) {s : State} (h : OpenOrDeadlocked qu id s) :
    OpenOrDeadlocked qu id (endWait record w s) := by
  obtain ⟨g, inside, named, status⟩ := h
  unfold OpenOrDeadlocked
  obtain same | held | ⟨k, given⟩ := getQ_endWait_cases record w s qu
  · exact ⟨g, same ▸ inside, named, status⟩
  · exact ⟨g, held ▸ mem_endHeld inside, named, status⟩
  · rw [given]
    refine ⟨_, mem_withResult inside, ?_⟩
    split
    · exact ⟨named, .inr rfl⟩
    · exact ⟨named, status⟩

theorem deadlockGiven_endWait {qu : Nat} {P : InFlight → Prop} (record : Bool) (w : Waiter) {s : State} (h : DeadlockGiven qu P s) :
    DeadlockGiven qu P (endWait record w s) := by
  obtain ⟨g, inside, named, status⟩ := h
  unfold DeadlockGiven
  obtain same | held | ⟨k, given⟩ := getQ_endWait_cases record w s qu
  · exact ⟨g, same ▸ inside, named, status⟩
  · exact ⟨g, held ▸ mem_endHeld inside, named, status⟩
  · rw [given]
    refine ⟨_, mem_withResult inside, ?_⟩
    rw [if_neg (by simp [status])]
    exact ⟨named, status⟩

/-- The end of its own wait gives a command the status. -/
theorem deadlockGiven_of_wait {w : Waiter} {s : State} {qu id : Nat} {prog : Bool} (command : w.isQueue = false)
    (cmd : (getQc s w.key).cmd = some (qu, id, prog)) (h : OpenOrDeadlocked qu id s) (record : Bool) :
    DeadlockGiven qu (·.id = id) (endWait record w s) := by
  obtain ⟨g, inside, named, status⟩ := h
  unfold DeadlockGiven
  rw [getQ_endWait_command command cmd, if_pos rfl]
  refine ⟨_, mem_withResult inside, ?_⟩
  obtain none' | some' := status
  · rw [if_pos ⟨named, none'⟩]
    exact ⟨named, rfl⟩
  · rw [if_neg (by simp [some'])]
    exact ⟨named, some'⟩

/-- A queue waits with this command, or the command ended with a wait deadlock. -/
def WaitsOrDeadlocked (qu : Nat) (e : Entry) (s : State) : Prop :=
  ((getQ s qu).state = qWaiting ∧ (getQ s qu).cur = some e) ∨ DeadlockGiven qu (·.entry = e) s

/-- A waiting queue's command ends. -/
theorem endHeld_waiting {st : Nat} {v : Queue} {e : Entry} (waits : v.state = qWaiting) (cur : v.cur = some e) :
    ∃ g ∈ (endHeld st v).inflight, g.entry = e ∧ g.result = some st := by
  unfold endHeld
  rw [if_pos (.inl waits), cur]
  exact ⟨_, List.mem_append_right _ (List.mem_singleton.mpr rfl), rfl, rfl⟩

theorem waitsOrDeadlocked_endWait {qu : Nat} {e : Entry} (record : Bool) (w : Waiter) {s : State} (h : WaitsOrDeadlocked qu e s) :
    WaitsOrDeadlocked qu e (endWait record w s) := by
  obtain ⟨waits, cur⟩ | given := h
  · unfold WaitsOrDeadlocked DeadlockGiven
    obtain same | held | ⟨k, given⟩ := getQ_endWait_cases record w s qu
    · rw [same]
      exact .inl ⟨waits, cur⟩
    · rw [held]
      exact .inr (endHeld_waiting waits cur)
    · rw [given]
      exact .inl ⟨waits, cur⟩
  · exact .inr (deadlockGiven_endWait record w given)

theorem deadlockGiven_of_queue {w : Waiter} {s : State} {e : Entry} (queue : w.isQueue = true) (h : WaitsOrDeadlocked w.key e s) (record : Bool) :
    DeadlockGiven w.key (·.entry = e) (endWait record w s) := by
  obtain ⟨waits, cur⟩ | given := h
  · unfold DeadlockGiven
    rw [getQ_endWait_queue queue, if_pos rfl]
    exact endHeld_waiting waits cur
  · exact deadlockGiven_endWait record w given

/-! ### All waits of a context -/

/-- One step of the end of a context's waits, with the queues that have their record. -/
def endWaitStep (queue : Waiter → Nat) (a : List Nat × State) (w : Waiter) : List Nat × State :=
  (queue w :: a.1, endWait (!a.1.contains (queue w)) w a.2)

theorem endWaits_eq (c : Nat) (s : State) : endWaits c s = ((ctxWaits s c).foldl (endWaitStep fun w => (waiterQueue s w).1) ([], s)).2 := rfl

/-- What one step reaches, and the others keep, all steps together reach. -/
theorem foldl_reaches {α σ : Type} {f : σ → α → σ} {P R : σ → Prop} {x : α} (keeps : ∀ t y, P t → P (f t y))
    (reaches : ∀ t, P t → R (f t x)) (kept : ∀ t y, R t → R (f t y)) {l : List α} (inside : x ∈ l) {s : σ} (h : P s) : R (l.foldl f s) := by
  induction l generalizing s with
  | nil => cases inside
  | cons y l ih =>
    rw [List.foldl_cons]
    obtain rfl | later := List.mem_cons.mp inside
    · exact List.foldlRecOn (motive := R) l _ (reaches _ h) (fun t ht y _ => kept t y ht)
    · exact ih later (keeps _ _ h)

section Folds
variable {queue : Waiter → Nat}

theorem foldl_endWait_keep {P : State → Prop} (keeps : ∀ r w t, P t → P (endWait r w t)) (ws : List Waiter) {a : List Nat × State} (h : P a.2) :
    P (ws.foldl (endWaitStep queue) a).2 :=
  List.foldlRecOn (motive := fun (a : List Nat × State) => P a.2) ws _ h (fun _ ha _ _ => keeps _ _ _ ha)

/-- One record for each queue that has none yet. -/
theorem foldl_endWait_faultCount (ws : List Waiter) (seen : List Nat) (s : State) :
    (ws.foldl (endWaitStep queue) (seen, s)).2.fr.faultCount
      = s.fr.faultCount + ((ws.map queue).filter (fun q => !seen.contains q)).eraseDups.length := by
  induction ws generalizing seen s with
  | nil => rfl
  | cons w ws ih =>
    rw [List.foldl_cons, endWaitStep, ih, endWait_faultCount, List.map_cons, List.filter_cons]
    by_cases old : seen.contains (queue w) = true
    · have same : ∀ q, (!(queue w :: seen).contains q) = !seen.contains q := fun q => by
        by_cases own : q = queue w
        · subst own
          rw [old, List.contains_cons, beq_self_eq_true, Bool.true_or]
        · simp [own]
      simp only [old, same, Bool.not_true, Bool.false_eq_true, if_false]
      rfl
    · have fresh : ∀ q, (!(queue w :: seen).contains q) = (!q == queue w && !seen.contains q) := fun q => by
        rw [List.contains_cons, Bool.not_or]
      simp only [Bool.not_eq_true] at old
      simp only [old, fresh, Bool.not_false, if_true, List.eraseDups_cons, List.length_cons, List.filter_filter]
      omega

end Folds

theorem endWaits_sansWaitEnd (c : Nat) (s : State) : sansWaitEnd (endWaits c s) = sansWaitEnd s :=
  foldl_endWait_keep (P := fun t => sansWaitEnd t = sansWaitEnd s) (fun _ _ _ h => (endWait_sansWaitEnd ..).trans h) (ctxWaits s c) (a := ([], s)) rfl

theorem endWaits_faultCount (c : Nat) (s : State) :
    (endWaits c s).fr.faultCount = s.fr.faultCount + ((ctxWaits s c).map (fun w => (waiterQueue s w).1)).eraseDups.length := by
  rw [endWaits_eq, foldl_endWait_faultCount]
  simp

/-- A command that waits has WAIT_DEADLOCK after the end of its context's waits. -/
theorem endWaits_command {c : Nat} {s : State} {w : Waiter} (inside : w ∈ ctxWaits s c) (command : w.isQueue = false) {qu id : Nat} {prog : Bool}
    (cmd : (getQc s w.key).cmd = some (qu, id, prog)) (waits : OpenOrDeadlocked qu id s) : DeadlockGiven qu (·.id = id) (endWaits c s) :=
  foldl_reaches (f := endWaitStep fun w => (waiterQueue s w).1) (P := fun a => (getQc a.2 w.key).cmd = some (qu, id, prog) ∧ OpenOrDeadlocked qu id a.2)
    (R := fun a => DeadlockGiven qu (·.id = id) a.2)
    (fun _ _ ⟨runs, open'⟩ => ⟨(congrArg QCtx.cmd (getQc_endWait ..)).trans runs, openOrDeadlocked_endWait _ _ open'⟩)
    (fun _ ⟨runs, open'⟩ => deadlockGiven_of_wait command runs open' _)
    (fun _ _ given => deadlockGiven_endWait _ _ given) inside (s := ([], s)) ⟨cmd, waits⟩

/-- And so has the command of a queue that waits. -/
theorem endWaits_queue {c : Nat} {s : State} {w : Waiter} (inside : w ∈ ctxWaits s c) (queue : w.isQueue = true) {e : Entry}
    (waits : (getQ s w.key).state = qWaiting) (cur : (getQ s w.key).cur = some e) : DeadlockGiven w.key (·.entry = e) (endWaits c s) :=
  foldl_reaches (f := endWaitStep fun w => (waiterQueue s w).1) (P := fun a => WaitsOrDeadlocked w.key e a.2) (R := fun a => DeadlockGiven w.key (·.entry = e) a.2)
    (fun _ _ h => waitsOrDeadlocked_endWait _ _ h) (fun _ h => deadlockGiven_of_queue queue h _)
    (fun _ _ given => deadlockGiven_endWait _ _ given) inside (s := ([], s)) (.inl ⟨waits, cur⟩)

/-! ### WAIT_DEADLOCK -/

theorem resets_of_sansWaitEnd {s t : State} (same : sansWaitEnd t = sansWaitEnd s) (c : Nat) :
    getCtx t c = getCtx s c ∧ ctxResetRuns t c = ctxResetRuns s c ∧ largerRuns t c = largerRuns s c := by
  refine ⟨?_, ?_, ?_⟩
  · show getCtx (sansWaitEnd t) c = getCtx (sansWaitEnd s) c
    rw [same]
  · show ctxResetRuns (sansWaitEnd t) c = ctxResetRuns (sansWaitEnd s) c
    rw [same]
  · show largerRuns (sansWaitEnd t) c = largerRuns (sansWaitEnd s) c
    rw [same]

theorem getQ_addReset (r : RunReset) (s : State) (q : Nat) : getQ (addReset r s) q = getQ s q := rfl

/-- A new context reset keeps the status that a wait deadlock gave. -/
theorem deadlockGiven_ctxReset {c st qu : Nat} {fabric : Bool} {P : InFlight → Prop} {s : State} (busy : (getCtx s c).state ≠ ctxFree)
    (fresh : ctxResetRuns s c = false) (alone : largerRuns s c = false) (given : DeadlockGiven qu P s) :
    DeadlockGiven qu P (ctxReset c st fabric s) := by
  obtain ⟨g, inside, named, status⟩ := given
  unfold DeadlockGiven
  rw [ctxReset_new busy fresh alone, getQ_addReset]
  exact ⟨g, mem_endCtxWork inside (by simp [status]), named, status⟩

theorem waitDeadlock_effect {s : State} (c : Byte) (on : s.pw.powered = true) (watcher : chanterUp s = true) (runs : s.ob.stopState ≠ 2)
    (watched : allWatched s c.toNat = true) (dead : deadlocked s c.toNat = true) (busy : (getCtx s c.toNat).state ≠ ctxFree)
    (fresh : ctxResetRuns s c.toNat = false) (alone : largerRuns s c.toNat = false) :
    ∃ t, exec (.waitDeadlock c) s = .next t
      ∧ t.fr.faultCount = s.fr.faultCount + ((ctxWaits s c.toNat).map (fun w => (waiterQueue s w).1)).eraseDups.length
      ∧ resetRuns t (.context c.toNat) = true ∧ (getCtx t c.toNat).state = ctxResetting
      ∧ (∀ w ∈ ctxWaits s c.toNat, w.isQueue = false → ∀ qu id prog, (getQc s w.key).cmd = some (qu, id, prog) → statusGiven s t qu id 0x40)
      ∧ (∀ w ∈ ctxWaits s c.toNat, w.isQueue = true → (getQ s w.key).state = qWaiting → ∀ e, (getQ s w.key).cur = some e →
          ∃ g ∈ (getQ t w.key).inflight, g.entry = e ∧ g.result = some 0x40) := by
  have run : exec (.waitDeadlock c) s = .next (keepRegs s (ctxReset c.toNat stCtxReset true (endWaits c.toNat s))) := by
    show execWaitDeadlock c s = _
    unfold execWaitDeadlock
    rw [if_pos (by simp [on, watcher, runs, watched, dead])]
  obtain ⟨ctx, ctxRuns, larger⟩ := resets_of_sansWaitEnd (endWaits_sansWaitEnd c.toNat s) c.toNat
  have counted := endWaits_faultCount c.toNat s
  have command := fun w => endWaits_command (s := s) (c := c.toNat) (w := w)
  have queue := fun w => endWaits_queue (s := s) (c := c.toNat) (w := w)
  generalize endWaits c.toNat s = u at *
  rw [← ctx] at busy
  rw [← ctxRuns] at fresh
  rw [← larger] at alone
  obtain ⟨fr, -, -, -, -, state⟩ := ctxReset_begun (st := stCtxReset) (fabric := true) busy fresh alone
  have ends := fun qu P => deadlockGiven_ctxReset (st := stCtxReset) (fabric := true) (qu := qu) (P := P) busy fresh alone
  generalize ctxReset c.toNat stCtxReset true u = t at *
  refine ⟨_, run, ?_, ?_, state, fun w inside noQueue qu id prog cmd f here named open' => ?_, fun w inside isQueue waits e cur => ?_⟩
  · exact (congrArg Fr.faultCount fr).trans counted
  · show resetRuns t _ = true
    simp [resetRuns, fr]
  · exact ends _ _ (command w inside noQueue cmd ⟨f, here, named, .inl open'⟩)
  · exact ends _ _ (queue w inside isQueue waits cur)

end Sys2Proof.Machine
end

section
/-! SUPPORT. Credit audits and what they find (R319). -/

namespace Sys2Proof.Machine

/-! ### An audit begins -/

theorem keepRegs_startAudit (s : State) : keepRegs s (startAudit s) = startAudit s := by
  simp [startAudit, keepRegs, keepQueue]

theorem ledgerAuditPeriod_effect {s : State} (up : droneUp s = true) :
    exec .ledgerAuditPeriod s = .next { s with fr := { s.fr with ledState := 1 } } := by
  show execLedgerAuditPeriod s = .next (startAudit s)
  rw [execLedgerAuditPeriod, if_pos up, keepRegs_startAudit]

theorem audit_effect {s : State} {f : Bool} (open' : writable s f 0x81000 = true) :
    exec (.audit f) s = .next { s with fr := { s.fr with ledState := 1 } } := by
  show execAudit f s = .next (startAudit s)
  rw [execAudit, if_pos open', keepRegs_startAudit]

/-! ### The figures of an audit -/

/-- What the sender of a ledger says, and what the holder says; they differ at the mismatch alone. -/
def auditSent (n k : Nat) : Nat := Config.openCount (n + k) % 2 ^ 32

def auditHeld (bad : Option Nat) (n k : Nat) : Nat :=
  if bad = some k then (auditSent n k + 1 + Config.openCount (n + 304) % (2 ^ 32 - 1)) % 2 ^ 32 else auditSent n k

theorem auditSent_eq_held (bad : Option Nat) (n k : Nat) : auditSent n k = auditHeld bad n k ↔ bad ≠ some k := by
  have small : auditSent n k < 2 ^ 32 := Nat.mod_lt _ (by decide)
  have off : Config.openCount (n + 304) % (2 ^ 32 - 1) < 2 ^ 32 - 1 := Nat.mod_lt _ (by decide)
  unfold auditHeld
  split
  · rename_i here
    simp only [here, ne_eq, not_true_eq_false, iff_false]
    omega
  · simpa

/-- Every key of the list gets its figure. -/
def figures (f : Nat → Nat) (l : List Nat) (m : NMap Nat) : NMap Nat := l.foldl (fun m k => mset 0 m k (f k)) m

theorem mget_figures {f : Nat → Nat} {l : List Nat} {k : Nat} (inside : k ∈ l) (m : NMap Nat) : mget 0 (figures f l m) k = f k :=
  mget_foldl_mset (key := id) ⟨k, inside, rfl⟩ (fun _ _ h => congrArg f h) m

theorem auditFigures_eq (bad : Option Nat) (n : Nat) (fr : Fr) : auditFigures bad n fr =
    { fr with ledSent := figures (auditSent n) (upto 304) fr.ledSent, ledHeld := figures (auditHeld bad n) (upto 304) fr.ledHeld } := by
  unfold auditFigures figures
  generalize upto 304 = l
  induction l generalizing fr with
  | nil => rfl
  | cons k l ih => rw [List.foldl_cons, ih]; rfl

theorem figures_agree {bad : Option Nat} {n k : Nat} (inside : k < 304) (a b : NMap Nat) :
    mget 0 (figures (auditSent n) (upto 304) a) k = mget 0 (figures (auditHeld bad n) (upto 304) b) k ↔ bad ≠ some k := by
  have listed : k ∈ upto 304 := List.mem_range.mpr inside
  rw [mget_figures listed, mget_figures listed, auditSent_eq_held]

/-! ### An audit ends -/

/-- The state in which an audit has found no mismatch. -/
def auditAgrees (s : State) : State :=
  { s with fr := { auditFigures none s.free s.fr with
                     ledState := 2, ledLink := 0, ledClass := 0, ledDir := false, ledKind := 0
                     audits := satAdd max32 (auditFigures none s.free s.fr).audits 1 }
           free := s.free + 305 }

/-- What an audit that finds no mismatch leaves. -/
def AuditPassed (s t : State) : Prop :=
  t.fr.ledState = 2 ∧ t.fr.audits = satAdd max32 s.fr.audits 1 ∧ t.fr.faultCount = s.fr.faultCount
    ∧ ∀ k, k < 304 → mget 0 t.fr.ledSent k = mget 0 t.fr.ledHeld k

theorem auditPassed_auditAgrees (s : State) : AuditPassed s (auditAgrees s) := by
  unfold auditAgrees
  rw [auditFigures_eq]
  have agree := fun j (hj : j < 304) => figures_agree (bad := none) (n := s.free) hj s.fr.ledSent s.fr.ledHeld
  generalize figures (auditSent s.free) (upto 304) s.fr.ledSent = sent at *
  generalize figures (auditHeld none s.free) (upto 304) s.fr.ledHeld = held at *
  exact ⟨rfl, rfl, rfl, fun j hj => (agree j hj).mpr (by simp)⟩

theorem auditPassed_keepRegs {s t : State} (h : AuditPassed s t) : AuditPassed s (keepRegs s t) := h

theorem exec_auditComplete_agrees {s : State} (runs : s.fr.ledState = 1) : exec (.auditComplete none) s = .next (keepRegs s (auditAgrees s)) := by
  show execAuditComplete none s = _
  unfold execAuditComplete
  rw [if_neg (by simp [runs])]
  rfl

theorem auditComplete_agrees {s : State} (runs : s.fr.ledState = 1) :
    ∃ t, exec (.auditComplete none) s = .next t ∧ t.fr.ledState = 2 ∧ t.fr.audits = satAdd max32 s.fr.audits 1
      ∧ t.fr.faultCount = s.fr.faultCount ∧ ∀ k, k < 304 → mget 0 t.fr.ledSent k = mget 0 t.fr.ledHeld k := by
  exact ⟨_, exec_auditComplete_agrees runs, auditPassed_keepRegs (auditPassed_auditAgrees s)⟩

/-- The state in which a mismatch has been found and its error not yet recorded. -/
def audited (l c : Nat) (d k : Bool) (s : State) : State :=
  { s with fr := { auditFigures (some (ledKey l c (b01 d))) s.free s.fr with
                     ledState := 3, ledLink := l, ledClass := c, ledDir := d, ledKind := b01 k
                     audits := satAdd max32 (auditFigures (some (ledKey l c (b01 d))) s.free s.fr).audits 1 }
           free := s.free + 305 }

theorem exec_auditComplete_mismatch {s : State} (runs : s.fr.ledState = 1) {l c : Nat} (d k : Bool) (link : l < 38) (cls : c < 4) :
    exec (.auditComplete (some (l, c, d, k))) s = .next (keepRegs s (fabricError l c (b01 k) (droneIsland s) (audited l c d k s))) := by
  show execAuditComplete (some (l, c, d, k)) s = _
  unfold execAuditComplete
  rw [if_neg (by simp [runs])]
  dsimp only
  rw [Nat.mod_eq_of_lt link, Nat.mod_eq_of_lt cls]
  rfl

theorem audited_registers (l c : Nat) (d k : Bool) (s : State) :
    let u := audited l c d k s
    u.fr.ledState = 3 ∧ u.fr.ledLink = l ∧ u.fr.ledClass = c ∧ u.fr.ledDir = d ∧ u.fr.ledKind = b01 k
      ∧ u.fr.escCfg = s.fr.escCfg ∧ u.fr.faultCount = s.fr.faultCount
      ∧ ∀ j, j < 304 → (mget 0 u.fr.ledSent j = mget 0 u.fr.ledHeld j ↔ j ≠ ledKey l c (b01 d)) := by
  unfold audited
  rw [auditFigures_eq]
  have agree := fun j (hj : j < 304) => figures_agree (bad := some (ledKey l c (b01 d))) (n := s.free) hj s.fr.ledSent s.fr.ledHeld
  generalize figures (auditSent s.free) (upto 304) s.fr.ledSent = sent at *
  generalize figures (auditHeld (some (ledKey l c (b01 d))) s.free) (upto 304) s.fr.ledHeld = held at *
  exact ⟨rfl, rfl, rfl, rfl, rfl, rfl, rfl, fun j hj => (agree j hj).trans (by simp [eq_comm])⟩

/-- A fault record leaves the ledger registers. -/
theorem addFault_ledger (r : FaultRec) (ctl : Bool) (s : State) :
    let t := addFault r ctl s
    t.fr.ledState = s.fr.ledState ∧ t.fr.ledLink = s.fr.ledLink ∧ t.fr.ledClass = s.fr.ledClass ∧ t.fr.ledDir = s.fr.ledDir
      ∧ t.fr.ledKind = s.fr.ledKind ∧ t.fr.ledSent = s.fr.ledSent ∧ t.fr.ledHeld = s.fr.ledHeld := by
  have same := addFault_sansFault r ctl s
  exact ⟨congrArg (·.fr.ledState) same, congrArg (·.fr.ledLink) same, congrArg (·.fr.ledClass) same, congrArg (·.fr.ledDir) same,
    congrArg (·.fr.ledKind) same, congrArg (·.fr.ledSent) same, congrArg (·.fr.ledHeld) same⟩

theorem auditComplete_mismatch {s : State} (runs : s.fr.ledState = 1) {l c : Nat} (d k : Bool) (link : l < 38) (cls : c < 4)
    (off : s.fr.escCfg.getLsbD 0 = false) :
    ∃ t, exec (.auditComplete (some (l, c, d, k))) s = .next t ∧ t.fr.ledState = 3 ∧ t.fr.ledLink = l ∧ t.fr.ledClass = c ∧ t.fr.ledDir = d
      ∧ t.fr.ledKind = b01 k ∧ faultAdded s t 0xA 0 0
      ∧ (∀ j, j < 304 → (mget 0 t.fr.ledSent j = mget 0 t.fr.ledHeld j ↔ j ≠ ledKey l c (b01 d))) := by
  refine ⟨_, exec_auditComplete_mismatch runs d k link cls, ?_⟩
  obtain ⟨state, link', class', dir, kind, esc, count, agree⟩ := audited_registers l c d k s
  generalize audited l c d k s = u at *
  rw [fabricError_alone l c (b01 k) (droneIsland s) (by rwa [esc])]
  have record := faultAdded_addFault (s := u) rfl (fabricRec l c (b01 k) (droneIsland s) false) false
  obtain ⟨kState, kLink, kClass, kDir, kKind, kSent, kHeld⟩ := addFault_ledger (fabricRec l c (b01 k) (droneIsland s) false) false u
  generalize addFault (fabricRec l c (b01 k) (droneIsland s) false) false u = t at *
  refine ⟨kState.trans state, kLink.trans link', kClass.trans class', kDir.trans dir, kKind.trans kind,
    faultAdded_since count record, fun j hj => ?_⟩
  show mget 0 t.fr.ledSent j = mget 0 t.fr.ledHeld j ↔ _
  rw [kSent, kHeld]
  exact agree j hj

end Sys2Proof.Machine
end

section
/-! SUPPORT. Peer-down notices: their records and the context resets that they begin (R328). -/

namespace Sys2Proof.Machine

/-! ### Any context reset -/

/-- A context reset does nothing, does the context's work, or adds a reset that runs, or both. -/
theorem ctxReset_cases (c st : Nat) (fabric : Bool) (s : State) :
    ctxReset c st fabric s = s ∨ ((getCtx s c).state ≠ ctxFree ∧ ∃ u, (u = s ∨ u = endCtxWork c st fabric s)
      ∧ (ctxReset c st fabric s = u ∨ ctxReset c st fabric s = addReset { dom := .context c, status := st, fabric } u)) := by
  unfold ctxReset
  by_cases free : (getCtx s c).state = ctxFree
  · exact .inl (if_pos free)
  · rw [if_neg free]
    extract_lets merged s1
    refine .inr ⟨free, s1, (ite_eq_or_eq ..), ?_⟩
    split
    · exact .inl rfl
    · exact .inr rfl

theorem addReset_sansCtxs (r : RunReset) (s : State) : sansCtxs (addReset r s) = sansCtxs s := rfl

theorem ctxReset_sansCtxs_any (c st : Nat) (fabric : Bool) (s : State) : sansCtxs (ctxReset c st fabric s) = sansCtxs s := by
  obtain same | ⟨-, u, (rfl | rfl), (same | same)⟩ := ctxReset_cases c st fabric s
  · rw [same]
  · rw [same]
  · rw [same, addReset_sansCtxs]
  · rw [same, endCtxWork_sansCtxs]
  · rw [same, addReset_sansCtxs, endCtxWork_sansCtxs]

theorem ctxReset_et (c st : Nat) (fabric : Bool) (s : State) : (ctxReset c st fabric s).et = s.et :=
  congrArg (·.et) (ctxReset_sansCtxs_any c st fabric s)
theorem ctxReset_notices (c st : Nat) (fabric : Bool) (s : State) : (ctxReset c st fabric s).fr.notices = s.fr.notices :=
  congrArg (·.fr.notices) (ctxReset_sansCtxs_any c st fabric s)
theorem ctxReset_faultCount (c st : Nat) (fabric : Bool) (s : State) : (ctxReset c st fabric s).fr.faultCount = s.fr.faultCount :=
  congrArg (·.fr.faultCount) (ctxReset_sansCtxs_any c st fabric s)

/-- It adds no reset but one of its context. -/
theorem ctxReset_resets (c st : Nat) (fabric : Bool) (s : State) :
    ∃ rs, (ctxReset c st fabric s).fr.resets = s.fr.resets ++ rs ∧ ∀ r ∈ rs, r.dom = .context c := by
  obtain same | ⟨-, u, work, run⟩ := ctxReset_cases c st fabric s
  · exact ⟨[], by rw [same, List.append_nil], by simp⟩
  · have kept : u.fr = s.fr := by
      obtain rfl | rfl := work
      · rfl
      · exact endCtxWork_fr ..
    obtain run | run := run
    · exact ⟨[], by rw [run, kept, List.append_nil], by simp⟩
    · exact ⟨[{ dom := .context c, status := st, fabric }], by rw [run, addReset, kept], by simp⟩

/-- A context that is not its own it leaves; its own it leaves or puts into reset. -/
theorem getCtx_ctxReset_any (c st : Nat) (fabric : Bool) (s : State) (k : Nat) :
    getCtx (ctxReset c st fabric s) k = getCtx s k ∨ k = c ∧ getCtx (ctxReset c st fabric s) k = toReset (getCtx s k) := by
  obtain same | ⟨busy, u, work, run⟩ := ctxReset_cases c st fabric s
  · exact .inl (by rw [same])
  · have same : getCtx (ctxReset c st fabric s) k = getCtx u k := by
      obtain run | run := run <;> rw [run]
      rfl
    rw [same]
    obtain rfl | rfl := work
    · exact .inl rfl
    · rw [getCtx_endCtxWork st fabric busy]
      split
      · exact .inr ⟨‹_›, rfl⟩
      · exact .inl rfl

theorem toReset_part (x : Ctx) : (toReset x).part = x.part := by
  unfold toReset
  split <;> rfl

theorem getCtx_ctxReset_part (c st : Nat) (fabric : Bool) (s : State) (k : Nat) : (getCtx (ctxReset c st fabric s) k).part = (getCtx s k).part := by
  obtain same | ⟨-, same⟩ := getCtx_ctxReset_any c st fabric s k
  · rw [same]
  · rw [same, toReset_part]

theorem largerRuns_ctxReset (c st : Nat) (fabric : Bool) (s : State) (k : Nat) : largerRuns (ctxReset c st fabric s) k = largerRuns s k := by
  obtain ⟨rs, resets, own⟩ := ctxReset_resets c st fabric s
  have held : (ctxReset c st fabric s).fr.heldParts = s.fr.heldParts := congrArg (·.fr.heldParts) (ctxReset_sansCtxs_any c st fabric s)
  have small : rs.any (fun r => r.dom == .chip || r.dom == .partition (getCtx s k).part) = false := by
    rw [List.any_eq_false]
    intro r hr
    simp [own r hr]
  rw [largerRuns, getCtx_ctxReset_part, held, resets, List.any_append, small, Bool.or_false, ← largerRuns]

/-! ### The contexts that a notice names -/

/-- The context's reset has begun with this status. -/
def ResetBegun (c st : Nat) (s : State) : Prop := (getCtx s c).state = ctxResetting ∧ ∃ r ∈ s.fr.resets, r.dom = .context c ∧ r.status = st

/-- The context can begin a reset of its own. -/
def Resettable (c : Nat) (s : State) : Prop := (getCtx s c).state ≠ ctxFree ∧ ctxResetRuns s c = false ∧ largerRuns s c = false

theorem resetBegun_addFault {c st : Nat} {s : State} (h : ResetBegun c st s) (r : FaultRec) (ctl : Bool) :
    ResetBegun c st (addFault r ctl s) := by
  unfold ResetBegun at *
  rwa [getCtx_addFault, addFault_resets]

theorem resettable_addFault {c : Nat} {s : State} (h : Resettable c s) (r : FaultRec) (ctl : Bool) : Resettable c (addFault r ctl s) := by
  unfold Resettable at *
  rwa [getCtx_addFault, ctxResetRuns_addFault, largerRuns_addFault]

theorem resetBegun_of_resettable {c : Nat} {s : State} (h : Resettable c s) (st : Nat) (fabric : Bool) :
    ResetBegun c st (ctxReset c st fabric s) := by
  obtain ⟨busy, fresh, alone⟩ := h
  obtain ⟨fr, -, -, -, -, state⟩ := ctxReset_begun (st := st) (fabric := fabric) busy fresh alone
  exact ⟨state, _, by rw [fr]; exact List.mem_append_right _ (List.mem_singleton.mpr rfl), rfl, rfl⟩

theorem resetBegun_ctxReset {c st : Nat} {s : State} (h : ResetBegun c st s) (k st' : Nat) (fabric : Bool) :
    ResetBegun c st (ctxReset k st' fabric s) := by
  obtain ⟨state, r, inside, dom, status⟩ := h
  obtain ⟨rs, resets, -⟩ := ctxReset_resets k st' fabric s
  refine ⟨?_, r, by rw [resets]; exact List.mem_append_left _ inside, dom, status⟩
  obtain same | ⟨-, same⟩ := getCtx_ctxReset_any k st' fabric s c
  · rwa [same]
  · rwa [same, toReset_resetting state]

theorem resettable_ctxReset {c k : Nat} {s : State} (h : Resettable c s) (other : c ≠ k) (st : Nat) (fabric : Bool) :
    Resettable c (ctxReset k st fabric s) := by
  obtain ⟨busy, fresh, alone⟩ := h
  obtain ⟨rs, resets, own⟩ := ctxReset_resets k st fabric s
  have none_own : rs.any (fun r => r.dom == .context c) = false := by
    rw [List.any_eq_false]
    intro r hr
    simp [own r hr, other.symm]
  refine ⟨?_, ?_, by rwa [largerRuns_ctxReset]⟩
  · obtain same | ⟨here, -⟩ := getCtx_ctxReset_any k st fabric s c
    · rwa [same]
    · exact absurd here other
  · unfold ctxResetRuns at *
    rw [resets, List.any_append, fresh, none_own, Bool.or_false]

theorem resettable_congr {c : Nat} {s t : State} (h : Resettable c s) (fe : t.fe = s.fe) (resets : t.fr.resets = s.fr.resets)
    (held : t.fr.heldParts = s.fr.heldParts) : Resettable c t := by
  unfold Resettable ctxResetRuns largerRuns getCtx at *
  rwa [fe, resets, held]

/-- What a notice does to one context that it names: its record and its reset. -/
def peerReset (down n : Nat) (id : W64) (t : State) (c : Nat) : State :=
  ctxReset c stPeerDown false (addFault (peerRec t (some c) down n id) false t)

section PeerReset
variable (down n : Nat) (id : W64)

theorem peerReset_et (t : State) (c : Nat) : (peerReset down n id t c).et = t.et := by
  rw [peerReset, ctxReset_et, addFault_et]

theorem peerReset_notices (t : State) (c : Nat) : (peerReset down n id t c).fr.notices = t.fr.notices := by
  rw [peerReset, ctxReset_notices, addFault_notices]

theorem peerReset_faultCount (t : State) (c : Nat) : (peerReset down n id t c).fr.faultCount = t.fr.faultCount + 1 := by
  rw [peerReset, ctxReset_faultCount, faultCount_addFault]

theorem foldl_peerReset_faultCount (cs : List Nat) (t : State) :
    (cs.foldl (peerReset down n id) t).fr.faultCount = t.fr.faultCount + cs.length := by
  induction cs generalizing t with
  | nil => rfl
  | cons c cs ih => rw [List.foldl_cons, ih, peerReset_faultCount, List.length_cons]; omega

theorem foldl_peerReset_kept (cs : List Nat) (t : State) :
    (cs.foldl (peerReset down n id) t).et = t.et ∧ (cs.foldl (peerReset down n id) t).fr.notices = t.fr.notices :=
  List.foldlRecOn (motive := fun u => u.et = t.et ∧ u.fr.notices = t.fr.notices) cs _ ⟨rfl, rfl⟩
    (fun u ⟨et, notices⟩ c _ => ⟨(peerReset_et down n id u c).trans et, (peerReset_notices down n id u c).trans notices⟩)

/-- Every context that a notice names and that can begins its reset. -/
theorem foldl_peerReset_begun {cs : List Nat} {c : Nat} (inside : c ∈ cs) {t : State} (h : Resettable c t) :
    ResetBegun c stPeerDown (cs.foldl (peerReset down n id) t) := by
  have kept : ∀ t k, ResetBegun c stPeerDown t → ResetBegun c stPeerDown (peerReset down n id t k) := fun t k begun =>
    resetBegun_ctxReset (resetBegun_addFault begun ..) ..
  have begins : ∀ t, Resettable c t → ResetBegun c stPeerDown (peerReset down n id t c) := fun t free =>
    resetBegun_of_resettable (resettable_addFault free ..) ..
  refine foldl_reaches (P := fun t => Resettable c t ∨ ResetBegun c stPeerDown t) (fun t k => ?_) (fun t => ?_) kept inside (.inl h)
  · rintro (free | begun)
    · by_cases own : c = k
      · subst own
        exact .inr (begins t free)
      · exact .inl (resettable_ctxReset (resettable_addFault free ..) own ..)
    · exact .inr (kept t k begun)
  · rintro (free | begun)
    · exact begins t free
    · exact kept t c begun

end PeerReset

/-! ### PEER_DOWN -/

/-- NOTICE_ID of a notice, and the package it says is down. -/
def noticeId (h : BitVec 256) : W64 := BitVec.ofNat 64 (bfld h 128 64)

def noticeDown (h : BitVec 256) : Nat := bfld h 72 17

/-- The notice is addressed here and is no repetition. -/
def peerHere (s : State) (n : Nat) (h : BitVec 256) (since : Nat) : Prop :=
  (getPort s n).fwd = true ∧ s.et.coordValid = true ∧ pktDest h = s.et.coord.toNat ∧ ¬ (noticeId h ∈ s.fr.notices ∧ since ≤ 10000)

theorem peerDropped_iff {s : State} {n since : Nat} {h : BitVec 256} :
    (!(getPort s n).fwd || !s.et.coordValid || pktDest h != s.et.coord.toNat || (s.fr.notices.contains (noticeId h) && decide (since ≤ 10000))) = true
      ↔ ¬ peerHere s n h since := by
  simp only [peerHere, Bool.or_eq_true, Bool.not_eq_true', ← Bool.not_eq_true, bne_iff_ne, Bool.and_eq_true, List.contains_iff_mem, decide_eq_true_eq]
  tauto

/-- The state in which a notice has been accepted and its records not yet made. -/
def peerAccepted (n : Nat) (p : Packet) (s : State) : State :=
  let s1 := takePacket n p s
  { s1 with fr := { s1.fr with notices := if s1.fr.notices.contains (noticeId p.header) then s1.fr.notices
                                          else s1.fr.notices ++ [noticeId p.header] } }

theorem peerAccepted_facts (n : Nat) (p : Packet) (s : State) :
    let a := peerAccepted n p s
    a.et.inbox = dropOne (n, p) s.et.inbox ∧ noticeId p.header ∈ a.fr.notices ∧ a.fr.faultCount = s.fr.faultCount
      ∧ a.fr.resets = s.fr.resets ∧ a.fr.heldParts = s.fr.heldParts ∧ a.fe = s.fe := by
  refine ⟨rfl, ?_, rfl, rfl, rfl, rfl⟩
  show _ ∈ if _ then _ else _
  split
  · rename_i known
    exact List.contains_iff_mem.mp known
  · simp

/-- A notice names no free context. -/
theorem noticeCtxs_busy {s : State} {h : BitVec 256} {c : Nat} (named : c ∈ noticeCtxs s h) : (getCtx s c).state ≠ ctxFree := by
  unfold noticeCtxs at named
  split at named
  · simpa using (List.mem_filter.mp named).2
  · split at named
    · cases named
    · rename_i busy
      rwa [List.mem_singleton.mp named]

section PeerDown
variable {s : State} {n since : Nat} {p : Packet} (first : firstPacket n isPeerDown s = some p)
include first

theorem exec_peerDown_dropped (elsewhere : ¬ peerHere s n p.header since) : exec (.peerDown n since) s = .next (keepRegs s (takePacket n p s)) := by
  show execPeerDown n since s = _
  unfold execPeerDown
  rw [first]
  dsimp only
  rw [← noticeId, if_pos (peerDropped_iff.mpr elsewhere)]

theorem exec_peerDown_accepted (here : peerHere s n p.header since) :
    exec (.peerDown n since) s = .next (keepRegs s (
      if (noticeCtxs s p.header).isEmpty then
        addFault (peerRec (peerAccepted n p s) none (noticeDown p.header) n (noticeId p.header)) false (peerAccepted n p s)
      else (noticeCtxs s p.header).foldl (peerReset (noticeDown p.header) n (noticeId p.header)) (peerAccepted n p s))) := by
  show execPeerDown n since s = _
  unfold execPeerDown
  rw [first]
  dsimp only
  rw [← noticeId, if_neg (fun dropped => peerDropped_iff.mp dropped here)]
  rfl

theorem peerDown_elsewhere (elsewhere : ¬ peerHere s n p.header since) :
    ∃ t, exec (.peerDown n since) s = .next t ∧ t.et.inbox = dropOne (n, p) s.et.inbox ∧ t.fr = s.fr ∧ t.fe = s.fe :=
  ⟨_, exec_peerDown_dropped first elsewhere, rfl, rfl, rfl⟩

theorem peerDown_none (here : peerHere s n p.header since) (unnamed : noticeCtxs s p.header = []) :
    ∃ t, exec (.peerDown n since) s = .next t ∧ t.et.inbox = dropOne (n, p) s.et.inbox ∧ faultAdded s t 0xB 0x33 0
      ∧ noticeId p.header ∈ t.fr.notices ∧ t.fr.resets = s.fr.resets := by
  have run := exec_peerDown_accepted first here
  rw [if_pos (by simp [unnamed])] at run
  obtain ⟨inbox, listed, count, resets, -⟩ := peerAccepted_facts n p s
  generalize peerAccepted n p s = a at *
  have record := faultAdded_addFault (s := a) rfl (peerRec a none (noticeDown p.header) n (noticeId p.header)) false
  refine ⟨_, run, ?_, faultAdded_since count record, ?_, ?_⟩
  · show (addFault _ false a).et.inbox = _
    rw [addFault_et, inbox]
  · show _ ∈ (addFault _ false a).fr.notices
    rwa [addFault_notices]
  · show (addFault _ false a).fr.resets = _
    rw [addFault_resets, resets]

theorem peerDown_named (here : peerHere s n p.header since) (named : noticeCtxs s p.header ≠ []) :
    ∃ t, exec (.peerDown n since) s = .next t ∧ t.et.inbox = dropOne (n, p) s.et.inbox ∧ noticeId p.header ∈ t.fr.notices
      ∧ t.fr.faultCount = s.fr.faultCount + (noticeCtxs s p.header).length
      ∧ ∀ c ∈ noticeCtxs s p.header, ctxResetRuns s c = false → largerRuns s c = false →
          (getCtx t c).state = ctxResetting ∧ ∃ r ∈ t.fr.resets, r.dom = .context c ∧ r.status = 0x33 := by
  have run := exec_peerDown_accepted first here
  rw [if_neg (by simp [named])] at run
  obtain ⟨inbox, listed, count, resets, held, fe⟩ := peerAccepted_facts n p s
  have able : ∀ c ∈ noticeCtxs s p.header, ctxResetRuns s c = false → largerRuns s c = false → Resettable c (peerAccepted n p s) :=
    fun c inside fresh alone => resettable_congr ⟨noticeCtxs_busy inside, fresh, alone⟩ fe resets held
  generalize peerAccepted n p s = a at *
  have counted := foldl_peerReset_faultCount (noticeDown p.header) n (noticeId p.header) (noticeCtxs s p.header) a
  obtain ⟨et, notices⟩ := foldl_peerReset_kept (noticeDown p.header) n (noticeId p.header) (noticeCtxs s p.header) a
  have begun := fun c (inside : c ∈ noticeCtxs s p.header) fresh alone =>
    foldl_peerReset_begun (noticeDown p.header) n (noticeId p.header) inside (able c inside fresh alone)
  generalize (noticeCtxs s p.header).foldl _ a = t at *
  exact ⟨_, run, (congrArg Et.inbox et).trans inbox, notices.symm ▸ listed, counted.trans (by rw [count]), begun⟩

theorem peerDown_one {c : Nat} (here : peerHere s n p.header since) (named : noticeCtxs s p.header = [c]) (fresh : ctxResetRuns s c = false)
    (alone : largerRuns s c = false) :
    ∃ t, exec (.peerDown n since) s = .next t ∧ t.et.inbox = dropOne (n, p) s.et.inbox ∧ faultAdded s t 0xB 0x33 0
      ∧ noticeId p.header ∈ t.fr.notices
      ∧ t.fr.resets = s.fr.resets ++ [{ dom := .context c, status := 0x33, fabric := false }] ∧ (getCtx t c).state = ctxResetting := by
  have run := exec_peerDown_accepted first here
  rw [if_neg (by simp [named]), named, List.foldl_cons, List.foldl_nil] at run
  obtain ⟨inbox, listed, count, resets, held, fe⟩ := peerAccepted_facts n p s
  have able : Resettable c (peerAccepted n p s) := resettable_congr ⟨noticeCtxs_busy (h := p.header) (by simp [named]), fresh, alone⟩ fe resets held
  generalize peerAccepted n p s = a at *
  have record := faultAdded_addFault (s := a) rfl (peerRec a (some c) (noticeDown p.header) n (noticeId p.header)) false
  have et := peerReset_et (noticeDown p.header) n (noticeId p.header) a c
  have notices := peerReset_notices (noticeDown p.header) n (noticeId p.header) a c
  obtain ⟨busy, fresh', alone'⟩ := resettable_addFault able (peerRec a (some c) (noticeDown p.header) n (noticeId p.header)) false
  obtain ⟨fr, -, -, -, -, state⟩ := ctxReset_begun (st := stPeerDown) (fabric := false) busy fresh' alone'
  rw [← peerReset] at fr state
  generalize peerReset (noticeDown p.header) n (noticeId p.header) a c = t at *
  refine ⟨_, run, (congrArg Et.inbox et).trans inbox, ?_, notices.symm ▸ listed, ?_, state⟩
  · exact faultAdded_since count (faultAdded_of_same (t := t) record (by rw [fr]) (by rw [fr]))
  · refine (congrArg Fr.resets fr).trans ?_
    rw [addFault_resets, resets]
    rfl

end PeerDown

end Sys2Proof.Machine
end

section
/-! SUPPORT. The obligation of memory health and faults, assembled. -/

namespace Sys2Proof.Machine

/-- Settles O58: one lemma for each event, in the order of the statement; each rests on what a fault record leaves alone and on how a reset
begins. -/
theorem memoryHealthAndFaults : Obligations.MemoryHealthAndFaults := by
  intro s told'
  refine ⟨fun _ _ _ _ _ ctl stack backed => patrolScrub_effect ctl stack backed, fun _ _ _ one here => readLine_uncorrectable one here,
    fun _ _ _ ctl stack new => softRepair_effect ctl stack new, fun _ pch ctl stack idle => pchSwapStart_effect ctl stack pch idle,
    fun _ _ ctl stack runs other => pchSwapStart_degrades ctl stack runs other,
    fun _ _ _ good ctl stack runs ahead backed => pchSwapCopyStep_effect ctl stack good runs ahead backed,
    fun _ ctl runs => pchSwapEnd_effect ctl runs, fun _ _ _ up charged alone => engineHang_effect up charged alone,
    ?engineError, ?arrayError, ?fabricError, ?waitDeadlock, fun up => ledgerAuditPeriod_effect up, fun _ open' => audit_effect open',
    ?auditComplete, ?peerDown⟩
  case engineError =>
    exact fun _ _ syn up alone => ⟨engineError_effect syn up alone, fun c busy fresh larger => engineError_context syn up alone c busy fresh larger⟩
  case arrayError =>
    exact fun _ _ col on done clocked fresh free idle undumped reached =>
      ⟨arrayError_effect col on done clocked fresh free idle undumped reached,
        fun c busy alone larger => arrayError_context col on done clocked fresh free idle undumped reached c busy alone larger⟩
  case fabricError =>
    exact fun link cls kind isl on => ⟨fun off => fabricError_effect link cls kind isl on off,
      fun auto runs undumped => fabricError_powerCycle link cls kind isl on auto runs undumped⟩
  case waitDeadlock =>
    exact fun c on watcher runs watched dead busy fresh alone => waitDeadlock_effect c on watcher runs watched dead busy fresh alone
  case auditComplete =>
    exact fun runs => ⟨auditComplete_agrees runs, fun _ _ d k link cls off => auditComplete_mismatch runs d k link cls off⟩
  case peerDown =>
    exact fun _ _ _ first => ⟨fun elsewhere => peerDown_elsewhere first elsewhere, fun here unnamed => peerDown_none first here unnamed,
      fun here named => peerDown_named first here named, fun _ here named fresh alone => peerDown_one first here named fresh alone⟩

end Sys2Proof.Machine
end

section
/-! SUPPORT. Integer and immediate instructions: the values that the base operations give, and their register results (R110, R111). -/

namespace Sys2Proof.Machine

section Results
variable {q : BitVec 20} {s : State}

/-- INT gives RD its operation on RA and RB. -/
theorem intInsn_result (rd ra rb : BitVec 5) (f : W64 → W64 → W64) (run : canRun s q.toNat anyKind = true) {v : W64}
    (value : f (rdG (getQc s q.toNat) ra) (rdG (getQc s q.toNat) rb) = v) :
    ∃ t, intInsn q rd ra rb f s = .next t ∧ regResult s t q.toNat rd 8 v :=
  value ▸ regInsn_result q.toNat rd 8 _ s run

/-- INTI gives RD its operation on RA and the immediate. -/
theorem immInsn_result (rd ra : BitVec 5) (imm : W64) (x : Bool) (f : W64 → W64 → W64) (run : canRun s q.toNat anyKind = true) {v : W64}
    (value : f (rdG (getQc s q.toNat) ra) imm = v) :
    ∃ t, immInsn q rd ra imm x f s = .next t ∧ regResult s t q.toNat rd (if x then 16 else 8) v :=
  value ▸ regInsn_result q.toNat rd _ _ s run

end Results

/-! ### Comparisons -/

theorem bit_slt (a b : W64) : bit (a.slt b) = if a.toInt < b.toInt then 1 else 0 := by simp [bit, BitVec.slt]

theorem bit_ult (a b : W64) : bit (a.ult b) = if a.toNat < b.toNat then 1 else 0 := by simp [bit, BitVec.ult]

/-! ### Division (R111) -/

section Division
variable {a b : W64}

theorem div_by_zero (h : b = 0) : divS a b = BitVec.allOnes 64 ∧ divU a b = BitVec.allOnes 64 ∧ remS a b = a ∧ remU a b = a := by
  simp [divS, divU, remS, remU, h]

theorem divU_remU_toNat (h : b ≠ 0) : (divU a b).toNat = a.toNat / b.toNat ∧ (remU a b).toNat = a.toNat % b.toNat := by
  rw [divU, remU, if_neg h, if_neg h]
  exact ⟨BitVec.toNat_udiv, BitVec.toNat_umod⟩

theorem divS_remS_toInt (h : b ≠ 0) (fits : ¬ (a = BitVec.intMin 64 ∧ b = BitVec.allOnes 64)) :
    (divS a b).toInt = a.toInt.tdiv b.toInt ∧ (remS a b).toInt = a.toInt.tmod b.toInt := by
  rw [divS, remS, if_neg h, if_neg h]
  refine ⟨BitVec.toInt_sdiv_of_ne_or_ne _ _ ?_, BitVec.toInt_srem ..⟩
  rw [BitVec.neg_one_eq_allOnes]
  tauto

theorem divS_remS_overflow (ha : a = BitVec.intMin 64) (hb : b = BitVec.allOnes 64) : divS a b = BitVec.intMin 64 ∧ remS a b = 0 := by
  subst ha hb
  decide

end Division

/-- Settles O7: each instruction by the register result of INT, the values by the laws of words and of division. -/
theorem integerArithmeticWrapsAndNeverFaults : Obligations.IntegerArithmeticWrapsAndNeverFaults := by
  intro q rd ra rb s run a b
  refine ⟨divS a b, divU a b, remS a b, remU a b, fun e he => ?_, div_by_zero, divU_remU_toNat, divS_remS_toInt, divS_remS_overflow⟩
  have wrap : ∀ x y : Nat, x = y % 2 ^ 64 → x = (BitVec.ofNat 64 (y % 2 ^ 64)).toNat := fun x y h => by simp [h]
  simp only [List.mem_cons, List.not_mem_nil, or_false] at he
  rcases he with rfl | rfl | rfl | rfl | rfl | rfl | rfl | rfl | rfl
  · exact intInsn_result rd ra rb (· + ·) run (BitVec.eq_of_toNat_eq (wrap _ _ (BitVec.toNat_add ..)))
  · exact intInsn_result rd ra rb (· - ·) run (BitVec.eq_of_toNat_eq (wrap _ _ ((BitVec.toNat_sub ..).trans (by rw [Nat.add_comm]))))
  · exact intInsn_result rd ra rb (· * ·) run (BitVec.eq_of_toNat_eq (wrap _ _ (BitVec.toNat_mul ..)))
  · exact intInsn_result rd ra rb mulHS run rfl
  · exact intInsn_result rd ra rb mulHU run rfl
  · exact intInsn_result rd ra rb divS run rfl
  · exact intInsn_result rd ra rb divU run rfl
  · exact intInsn_result rd ra rb remS run rfl
  · exact intInsn_result rd ra rb remU run rfl

/-- Settles O9: each instruction by the register result of INTI; the comparisons as truth values. -/
theorem immediateInstructionResults : Obligations.ImmediateInstructionResults := by
  intro q rd ra imm x s run a e he
  simp only [List.mem_cons, List.not_mem_nil, or_false] at he
  rcases he with rfl | rfl | rfl | rfl | rfl | rfl | rfl | rfl | rfl | rfl
  · exact immInsn_result rd ra imm x (· + ·) run rfl
  · exact immInsn_result rd ra imm x (· &&& ·) run rfl
  · exact immInsn_result rd ra imm x (· ||| ·) run rfl
  · exact immInsn_result rd ra imm x (· ^^^ ·) run rfl
  · exact immInsn_result rd ra imm x (fun a b => a <<< shAmt b) run rfl
  · exact immInsn_result rd ra imm x (fun a b => a >>> shAmt b) run rfl
  · exact immInsn_result rd ra imm x (fun a b => a.sshiftRight (shAmt b)) run rfl
  · exact immInsn_result rd ra imm x (fun a b => bit (a.slt b)) run (bit_slt a imm)
  · exact immInsn_result rd ra imm x (fun a b => bit (a.ult b)) run (bit_ult a imm)
  · exact immInsn_result rd 0 imm x (fun _ b => b) run rfl

end Sys2Proof.Machine
end

section
/-! SUPPORT. System instructions: what the end of an instruction leaves of registers and engines (R97, R103, R109, R113, R120, R247). -/

namespace Sys2Proof.Machine

/-! ### The queue context after an instruction -/

section EndCtx
variable {s t : State} {q len : Nat} {c d : QCtx}

/-- A queue context that reads as one with the same command and program counter after its instruction has ended it. -/
theorem ended_of_endCtx (own : getQc t q = endCtx len d) (cmd : d.cmd = (getQc s q).cmd) (pc : d.pc = (getQc s q).pc) :
    ended s t q ((getQc s q).pc + BitVec.ofNat 64 len) := by
  have prog : isProg d = isProg (getQc s q) := by rw [isProg, isProg, cmd]
  unfold ended
  rw [own, endCtx, prog]
  by_cases running : isProg (getQc s q) = true
  · simp [running, cmd, pc]
  · simp [running]

theorem othersKept_endCtx (len : Nat) (c : QCtx) (rd : BitVec 5) : othersKept c (endCtx len c) rd := by
  refine ⟨?_, ?_, ?_, ?_⟩ <;> simp

theorem othersKept_endCtx_wrG (len : Nat) (c : QCtx) (rd : BitVec 5) (v : W64) : othersKept c (endCtx len (wrG rd v c)) rd := by
  refine ⟨fun r other => ?_, ?_, ?_, ?_⟩ <;> simp [*]

/-- Where an instruction that gives RD a value ends, from any state with the same queue contexts. -/
theorem getQc_doneInsn_wrG {u : State} (same : ∀ k, getQc u k = getQc s k) (has : (getQc s q).cmd.isSome = true) (rd : BitVec 5) (v : W64) :
    getQc (doneInsn q len (modQc q (fun c => wrG rd v c) u)) q = endCtx len (wrG rd v (getQc s q))
    ∧ ∀ k, k ≠ q → getQc (doneInsn q len (modQc q (fun c => wrG rd v c) u)) k = getQc s k := by
  refine ⟨?_, fun k other => by simp [other, same]⟩
  rw [getQc_doneInsn_self _ _ _ (by simpa [same] using has)]
  simp [same]

end EndCtx

/-! ### Engines under their clocks and the trace -/

section Engines
variable {β : Type} (g : Eng → β) (charge : ∀ s d k e, g (chargeEng s d k e) = g e)
include charge

theorem tickEng_eng (kind index : Nat) (s : State) (j : Nat) : g (getEng (tickEng kind index s) j) = g (getEng s j) := by
  refine List.foldlRecOn (motive := fun t => g (getEng t j) = g (getEng s j)) _ _ rfl (fun t same k _ => ?_)
  rw [getEng_setEng]
  split
  · subst_vars; rw [charge, same]
  · exact same

theorem tick_eng (isl : Nat) (s : State) (j : Nat) : g (getEng (tick isl s) j) = g (getEng s j) := by
  unfold tick; split
  · exact tickEng_eng g charge ..
  · rfl

theorem traceEng_eng (kind index ty d0 d1 : Nat) (s : State) (j : Nat) : g (getEng (traceEng kind index ty d0 d1 s) j) = g (getEng s j) := by
  unfold traceEng pushTrace; split
  · rw [putTrace_keep (getEng · j) (fun _ _ => rfl) (fun _ _ => rfl), tick_eng g charge]
  · rfl

theorem stallEnds_eng (kind index : Nat) (e : Eng) (s : State) (j : Nat) : g (getEng (stallEnds kind index e s) j) = g (getEng s j) := by
  unfold stallEnds; dsimp only; split
  · split
    · exact traceEng_eng g charge ..
    · rfl
  · rfl

end Engines

/-! ### Fetched words -/

theorem chargeEng_icache (s : State) (d k : Nat) (e : Eng) : (chargeEng s d k e).icache = e.icache := by
  unfold chargeEng; split <;> rfl

theorem setEng_icache {k : Nat} {e : Eng} {s : State} (h : e.icache = (getEng s k).icache) (j : Nat) :
    (getEng (setEng k e s) j).icache = (getEng s j).icache := by
  rw [getEng_setEng]; split
  · subst_vars; exact h
  · rfl

theorem cmdEnds_icache (q st : Nat) (s : State) (j : Nat) : (getEng (cmdEnds q st s) j).icache = (getEng s j).icache := by
  unfold cmdEnds; dsimp only
  rw [traceEng_eng _ chargeEng_icache]
  split
  · rw [stallEnds_eng _ chargeEng_icache, tickEng_eng _ chargeEng_icache]
  · refine (setEng_icache (by rfl) j).trans ?_
    rw [stallEnds_eng _ chargeEng_icache, tickEng_eng _ chargeEng_icache]

theorem endTurn_icache (q : Nat) (s : State) (j : Nat) : (getEng (endTurn q s) j).icache = (getEng s j).icache := by
  unfold endTurn; dsimp only; split
  · exact setEng_icache (by rfl) j
  · rfl

/-- The end of a command forgets no fetched word. -/
theorem finishCmd_icache (q st : Nat) (s : State) (j : Nat) : (getEng (finishCmd q st s) j).icache = (getEng s j).icache := by
  unfold finishCmd; dsimp only; split
  · rfl
  · split
    · rfl
    · exact (endTurn_icache q _ j).trans (cmdEnds_icache q st s j)

theorem doneInsn_icache (q len : Nat) (s : State) (j : Nat) : (getEng (doneInsn q len s) j).icache = (getEng s j).icache := by
  unfold doneInsn; split
  · rfl
  · exact finishCmd_icache ..

/-! ### The end of a command -/

section Finish
variable {s : State} {q st : Nat}

/-- The end of a command waits for nothing: it is no program's, or what the program had accepted has retired (R97). -/
def endsNow (s : State) (q : Nat) : Prop := isProg (getQc s q) = true → unretired s q = false

theorem finCtx_of_endsNow (now : endsNow s q) (has : (getQc s q).cmd.isSome = true) : finCtx s q st = idleCtx (getQc s q) := by
  obtain ⟨⟨qu, id, prog⟩, cmd⟩ := Option.isSome_iff_exists.mp has
  have free : prog = true → unretired s q = false := by simpa [endsNow, isProg, cmd] using now
  unfold finCtx
  rw [cmd]
  dsimp only
  rw [if_neg]
  intro held
  simp_all

/-- A program that ends before what it had accepted has retired holds its status. -/
theorem finCtx_of_held (prog : isProg (getQc s q) = true) (waits : unretired s q = true) (early : st < stXlat) :
    finCtx s q st = { getQc s q with heldEnd := some st } := by
  unfold finCtx
  cases cmd : (getQc s q).cmd with
  | none => simp [isProg, cmd] at prog
  | some v =>
    obtain ⟨qu, id, p⟩ := v
    have : p = true := by simpa [isProg, cmd] using prog
    simp [this, early, waits]

/-- A command that ends at once has its status. -/
theorem statusGiven_finishCmd (now : endsNow s q) {qu id : Nat} {prog : Bool} (cmd : (getQc s q).cmd = some (qu, id, prog)) :
    statusGiven s (finishCmd q st s) qu id st := by
  have free : prog = true → unretired s q = false := by simpa [endsNow, isProg, cmd] using now
  have given : (getQ (finishCmd q st s) qu).inflight =
      (getQ s qu).inflight.map (fun f => if f.id = id ∧ f.result = none then { f with result := some st } else f) := by
    unfold finishCmd
    dsimp only
    rw [cmd]
    dsimp only
    rw [if_neg (by intro held; simp_all), setResult, getQ_modQ, if_pos rfl, endTurn_keep (getQ · qu) (fun _ _ _ => rfl), getQ_modQc,
      cmdEnds_keep (getQ · qu) (fun _ _ => rfl) (fun _ _ => rfl) (fun _ _ _ => rfl) (fun _ _ => rfl) (fun _ => rfl)]
  intro f hf this waits
  refine ⟨{ f with result := some st }, ?_, this, rfl⟩
  rw [given]
  exact List.mem_map.2 ⟨f, hf, if_pos ⟨this, waits⟩⟩

end Finish

/-! ### The instructions -/

section System
variable {q : BitVec 20} {s : State}

theorem nop_effect (run : canRun s q.toNat anyKind = true) :
    let c := getQc s q.toNat
    ∃ t, exec (.nopInstruction q) s = .next t ∧ ended s t q.toNat (c.pc + 8) ∧ (∀ r, rdG (getQc t q.toNat) r = rdG c r)
      ∧ othersKept c (getQc t q.toNat) 0 ∧ (∀ k, k ≠ q.toNat → getQc t k = getQc s k) ∧ memKept s t := by
  have own := getQc_doneInsn_self q.toNat 8 s (canRun_has run).2
  refine ⟨onlyRun s (doneInsn q.toNat 8 s), ?_, ended_of_endCtx own rfl rfl, fun r => ?_, ?_, fun k other => getQc_doneInsn_ne _ _ _ _ other, memKept_onlyRun ..⟩
  · show execNopInstruction q s = _
    rw [execNopInstruction, if_pos run]
  · rw [getQc_onlyRun, own, rdG_endCtx]
  · rw [getQc_onlyRun, own]
    exact othersKept_endCtx ..

theorem rdcyc_effect (rd : BitVec 5) (run : canRun s q.toNat anyKind = true) :
    ∃ t, exec (.rdcyc q rd) s = .next t ∧ regResult s t q.toNat rd 8
      (BitVec.ofNat 64 (cycOf (tickEng (qKind q.toNat) (qIndex q.toNat) s) (engIsland s (qKind q.toNat) (qIndex q.toNat)))) := by
  have same := getQc_tickEng (qKind q.toNat) (qIndex q.toNat) s
  obtain ⟨own, others⟩ := getQc_doneInsn_wrG (len := 8) same (canRun_has run).2 rd
    (BitVec.ofNat 64 (cycOf (tickEng (qKind q.toNat) (qIndex q.toNat) s) (engIsland s (qKind q.toNat) (qIndex q.toNat))))
  refine ⟨onlyRun s (doneInsn q.toNat 8 (modQc q.toNat _ (tickEng (qKind q.toNat) (qIndex q.toNat) s))), ?_, ?_, ?_,
    ended_of_endCtx own (wrG_cmd ..) (wrG_pc ..), others, memKept_onlyRun ..⟩
  · show execRdcyc q rd s = _
    rw [execRdcyc, if_pos run]
  · rw [getQc_onlyRun, own]
    simp
  · rw [getQc_onlyRun, own]
    exact othersKept_endCtx_wrG ..

theorem ifence_effect (run : canRun s q.toNat anyKind = true) :
    let c := getQc s q.toNat
    ∃ t, exec (.ifence q) s = .next t ∧ (getEng t (engKey (qKind q.toNat) (qIndex q.toNat))).icache = [] ∧ ended s t q.toNat (c.pc + 8)
      ∧ (∀ r, rdG (getQc t q.toNat) r = rdG c r) ∧ memKept s t := by
  have own := getQc_doneInsn_self q.toNat 8
    (setEng (engKey (qKind q.toNat) (qIndex q.toNat)) { getEng s (engKey (qKind q.toNat) (qIndex q.toNat)) with icache := [] } s) (canRun_has run).2
  refine ⟨onlyRun s (doneInsn q.toNat 8 (setEng _ _ s)), ?_, ?_, ended_of_endCtx own rfl rfl, fun r => ?_, memKept_onlyRun ..⟩
  · show execIfence q s = _
    rw [execIfence, if_pos run]
  · refine (doneInsn_icache q.toNat 8 _ _).trans ?_
    rw [getEng_setEng, if_pos rfl]
  · rw [getQc_onlyRun, own, rdG_endCtx, getQc_setEng]

theorem exec_endInsn (run : canRun s q.toNat anyKind = true) : exec (.endInsn q) s = .next (onlyRun s (finishCmd q.toNat stDone s)) := by
  show execEndInsn q s = _
  rw [execEndInsn, if_pos run]

theorem endInsn_done (run : canRun s q.toNat anyKind = true) (now : endsNow s q.toNat) :
    let c := getQc s q.toNat
    ∃ t, exec (.endInsn q) s = .next t ∧ (getQc t q.toNat).cmd = none
      ∧ (∀ qu id prog, c.cmd = some (qu, id, prog) → statusGiven s t qu id 0)
      ∧ (∀ r, rdG (getQc t q.toNat) r = rdG c r) ∧ memKept s t := by
  have own : getQc (onlyRun s (finishCmd q.toNat stDone s)) q.toNat = idleCtx (getQc s q.toNat) := by
    rw [getQc_onlyRun, getQc_finishCmd, if_pos rfl, finCtx_of_endsNow now (canRun_has run).2]
  refine ⟨_, exec_endInsn run, ?_, fun qu id prog cmd => statusGiven_finishCmd (st := stDone) now cmd, fun r => ?_, memKept_onlyRun ..⟩
  · rw [own, idleCtx_cmd]
  · rw [own, rdG_idleCtx]

theorem endInsn_held (run : canRun s q.toNat anyKind = true) (prog : isProg (getQc s q.toNat) = true) (waits : unretired s q.toNat = true) :
    ∃ t, exec (.endInsn q) s = .next t ∧ getQc t q.toNat = { getQc s q.toNat with heldEnd := some 0 }
      ∧ (∀ k, k ≠ q.toNat → getQc t k = getQc s k) ∧ memKept s t := by
  refine ⟨_, exec_endInsn run, ?_, fun k other => getQc_finishCmd_ne _ _ _ _ other, memKept_onlyRun ..⟩
  rw [getQc_onlyRun, getQc_finishCmd, if_pos rfl, finCtx_of_held prog waits (by decide)]
  rfl

end System

/-- Settles O12: the readers by the register result of their value, the others by what the end of an instruction or a command leaves. -/
theorem systemInstructions : Obligations.SystemInstructions := by
  intro q rd n s run c kind index
  refine ⟨nop_effect run, regInsn_result q.toNat rd 8 _ s run, regInsn_result q.toNat rd 8 _ s run, regInsn_result q.toNat rd 8 _ s run,
    rdcyc_effect rd run, ifence_effect run, endInsn_done run, endInsn_held run⟩

end Sys2Proof.Machine
end

section
/-! SUPPORT. Scalar loads and misaligned accesses (R91, R95, R97, R112, R124). -/

namespace Sys2Proof.Machine

/-! ### What work of an engine leaves alone -/

theorem boardKept_onlyWork (s t : State) : boardKept s (onlyWork s t) := by
  refine ⟨?_, ?_, ?_, ?_, ?_⟩ <;> simp

theorem bytesKept_onlyWork (s : State) {u t : State} (mem : t.mem = u.mem) (hs : t.hs = u.hs) : bytesKept u (onlyWork s t) :=
  ⟨⟨(congrArg Mem.cells mem :), (congrArg Hs.hostMem hs :)⟩, (congrArg Mem.marks mem :), (congrArg Mem.chestPoison mem :),
    (congrArg Hs.hostPoison hs :)⟩

theorem bytesSame_trans {s t u : State} (h : bytesSame s t) (k : bytesSame t u) : bytesSame s u := ⟨k.1.trans h.1, k.2.trans h.2⟩

/-- An instruction that gives RD a value ends in a state `u` with the queue contexts of `s`. -/
theorem onlyWork_doneInsn_wrG {s u : State} {q : Nat} (same : ∀ k, getQc u k = getQc s k) (has : (getQc s q).cmd.isSome = true)
    (rd : BitVec 5) (v : W64) (len : Nat) :
    let t := onlyWork s (doneInsn q len (modQc q (fun c => wrG rd v c) u))
    ended s t q ((getQc s q).pc + BitVec.ofNat 64 len) ∧ rdG (getQc t q) rd = (if rd = 0 then 0 else v)
      ∧ othersKept (getQc s q) (getQc t q) rd ∧ (∀ k, k ≠ q → getQc t k = getQc s k) ∧ bytesKept u t ∧ boardKept s t := by
  intro t
  obtain ⟨own, others⟩ := getQc_doneInsn_wrG (len := len) same has rd v
  have own : getQc t q = endCtx len (wrG rd v (getQc s q)) := own
  refine ⟨ended_of_endCtx own (wrG_cmd ..) (wrG_pc ..), ?_, ?_, others, ?_, boardKept_onlyWork ..⟩
  · rw [own]; simp
  · rw [own]; exact othersKept_endCtx_wrG ..
  · exact bytesKept_onlyWork s (by simp) (by simp)

/-! ### What a translation leaves alone -/

section Translated
variable {s s1 : State} {ctx va acc loc : Nat} {who : Who}

theorem getQc_translate {o : XOut} (reach : translate s ctx va acc who = (o, s1)) (k : Nat) : getQc s1 k = getQc s k := by
  rw [getQc, getQc, sans_en (translate_ok_sans reach)]

theorem bytesSame_translate {o : XOut} (reach : translate s ctx va acc who = (o, s1)) : bytesSame s s1 := by
  have sans := translate_ok_sans reach
  exact ⟨sans_cells sans, by rw [sans_hs sans]⟩

theorem locNat_of_same {t : State} (same : bytesSame s t) (l n : Nat) : locNat t l n = locNat s l n := by
  rw [locNat, locNat, locBytes_of_same same]

end Translated

/-! ### Extension -/

theorem leNat_lt (bs : List Byte) : leNat bs < 2 ^ (8 * bs.length) := by
  induction bs with
  | nil => decide
  | cons b bs ih =>
    have byte := b.isLt
    rw [leNat, List.length_cons, Nat.mul_add, Nat.pow_add]
    omega

@[simp] theorem length_locBytes (s : State) (loc n : Nat) : (locBytes s loc n).length = n := by
  induction n generalizing loc with
  | zero => rfl
  | succ n ih => rw [locBytes, List.length_cons, ih]

theorem locNat_lt (s : State) (loc n : Nat) : locNat s loc n < 2 ^ (8 * n) := by
  simpa [locNat] using leNat_lt (locBytes s loc n)

/-- The signed extension of a value of `n` bytes is that of its bits. -/
theorem extend_signed {n v : Nat} (pos : 1 ≤ n) (size : n ≤ 8) (fits : v < 2 ^ (8 * n)) :
    extend true n v = (BitVec.ofNat (8 * n) v).signExtend 64 := by
  have wide : 2 ^ (8 * n) ≤ 2 ^ 64 := Nat.pow_le_pow_right (by decide) (by omega)
  have reads : (BitVec.ofNat (8 * n) v).toNat = v := by rw [BitVec.toNat_ofNat, Nat.mod_eq_of_lt fits]
  have small : v < 2 ^ 64 := by omega
  apply BitVec.eq_of_toNat_eq
  rw [BitVec.toNat_signExtend, BitVec.msb_eq_decide, reads, BitVec.toNat_setWidth, reads, Nat.mod_eq_of_lt small, extend]
  by_cases negative : 2 ^ (8 * n - 1) ≤ v
  · simp only [negative, decide_true, Bool.and_self, if_true, BitVec.toNat_ofNat]
    omega
  · simp only [negative, decide_false, Bool.and_false, Bool.false_eq_true, if_false, BitVec.toNat_ofNat]
    omega

theorem extend_unsigned (n v : Nat) : extend false n v = BitVec.ofNat 64 v := rfl

/-! ### Loads -/

section Loads
variable {q : BitVec 20} {rd ra : BitVec 5} {off : W32} {n loc : Nat} {s s1 : State}

theorem loadInsn_eq (signed : Bool) (run : canRun s q.toNat anyKind = true)
    (reach : translate s (getQc s q.toNat).ctx (memAddr (getQc s q.toNat) ra off) accRead (whoOf q.toNat) = (.ok loc, s1))
    (clean : locPoison s1 loc = false) (aligned : memAddr (getQc s q.toNat) ra off % n = 0) :
    loadInsn q rd ra off n signed s = .next (onlyWork s (if axRaces s q.toNat loc n false then s else
      doneInsn q.toNat 8 (modQc q.toNat (fun c => wrG rd (extend signed n (locNat s1 loc n)) c) s1))) := by
  unfold loadInsn
  dsimp only
  rw [if_pos run, if_neg (by simp [aligned]), reach]
  dsimp only
  rw [if_neg (by simp [clean] : ¬ locPoison s1 loc = true)]

/-- A load waits behind an array command that has yet to write its bytes; else it gives RD its bytes, extended to `v`. -/
theorem loadInsn_effect (signed : Bool) {v : W64} (run : canRun s q.toNat anyKind = true)
    (reach : translate s (getQc s q.toNat).ctx (memAddr (getQc s q.toNat) ra off) accRead (whoOf q.toNat) = (.ok loc, s1))
    (clean : locPoison s1 loc = false) (aligned : memAddr (getQc s q.toNat) ra off % n = 0) (value : extend signed n (locNat s loc n) = v) :
    let c := getQc s q.toNat
    (axRaces s q.toNat loc n false = true → loadInsn q rd ra off n signed s = .next s)
    ∧ (axRaces s q.toNat loc n false = false → ∃ t, loadInsn q rd ra off n signed s = .next t ∧ ended s t q.toNat (c.pc + 8)
      ∧ rdG (getQc t q.toNat) rd = (if rd = 0 then 0 else v)
      ∧ othersKept c (getQc t q.toNat) rd ∧ (∀ k, k ≠ q.toNat → getQc t k = getQc s k) ∧ bytesSame s t ∧ bytesKept s1 t ∧ boardKept s t) := by
  intro c
  have bytes := bytesSame_translate reach
  rw [← locNat_of_same bytes] at value
  rw [loadInsn_eq signed run reach clean aligned, value]
  refine ⟨fun race => by rw [if_pos race, onlyWork_self], fun free => ⟨_, by rw [if_neg (by simp [free])], ?_⟩⟩
  obtain ⟨end_, result, others, elsewhere, kept, board⟩ := onlyWork_doneInsn_wrG (getQc_translate reach) (canRun_has run).2 rd v 8
  exact ⟨end_, result, others, elsewhere, bytesSame_trans bytes kept.1, kept, board⟩

end Loads

/-- Settles O13: each size is a case of one lemma, with its bytes extended as the mnemonic says. -/
theorem scalarLoadsReadTheirBytes : Obligations.ScalarLoadsReadTheirBytes := by
  intro q rd ra off s s1 loc run c va reach clean e he aligned
  have signed : ∀ n, 1 ≤ n → n ≤ 8 → extend true n (locNat s loc n) = (BitVec.ofNat (8 * n) (locNat s loc n)).signExtend 64 :=
    fun n pos size => extend_signed pos size (locNat_lt s loc n)
  simp only [List.mem_cons, List.not_mem_nil, or_false] at he
  rcases he with rfl | rfl | rfl | rfl | rfl | rfl | rfl
  · exact loadInsn_effect true run reach clean aligned (signed 1 (by decide) (by decide))
  · exact loadInsn_effect true run reach clean aligned (signed 2 (by decide) (by decide))
  · exact loadInsn_effect true run reach clean aligned (signed 4 (by decide) (by decide))
  · exact loadInsn_effect true run reach clean aligned (signed 8 (by decide) (by decide))
  · exact loadInsn_effect false run reach clean aligned (extend_unsigned ..)
  · exact loadInsn_effect false run reach clean aligned (extend_unsigned ..)
  · exact loadInsn_effect false run reach clean aligned (extend_unsigned ..)

/-! ### Misaligned accesses -/

section Misaligned
variable {q : BitVec 20} {s : State}

theorem getQc_addFault (r : FaultRec) (ctl : Bool) (s : State) (q : Nat) : getQc (addFault r ctl s) q = getQc s q :=
  addFault_keep (getQc · q) (fun _ _ _ => rfl) (fun _ _ => rfl) (fun _ _ => rfl) (fun _ _ => rfl) (fun _ _ => rfl) ..

theorem addFault_rx (r : FaultRec) (ctl : Bool) (s : State) : (addFault r ctl s).rx = s.rx :=
  addFault_keep (·.rx) (fun _ _ _ => rfl) (fun _ _ => rfl) (fun _ _ => rfl) (fun _ _ => rfl) (fun _ _ => rfl) ..

theorem unretired_addFault (r : FaultRec) (ctl : Bool) (s : State) (q : Nat) : unretired (addFault r ctl s) q = unretired s q := by
  rw [unretired, unretired, getPart, getPart, addFault_ax, addFault_rx]

/-- What an illegal instruction leaves: its record, its registers and memory as they were, and its command ended or held (R97, R124). -/
def IllegalEnd (s t : State) (q reason : Nat) : Prop :=
  faultAdded s t 1 0x11 reason ∧ bytesKept s t ∧ (∀ r, rdG (getQc t q) r = rdG (getQc s q) r)
  ∧ (if isProg (getQc s q) && unretired s q then (getQc t q).heldEnd = some 0x11 else (getQc t q).cmd = none)

theorem illegalEnd_illegal {q : Nat} (has : (getQc s q).cmd.isSome = true) (reason w x : Nat) :
    IllegalEnd s (onlyWork s (illegal q reason w x s)) q reason := by
  unfold illegal
  generalize hr : engRec s q cIllegal stIllegal reason 0 w x 0 = rec
  have own : getQc (finishCmd q stIllegal (addFault rec false s)) q = finCtx (addFault rec false s) q stIllegal := by
    rw [getQc_finishCmd, if_pos rfl]
  refine ⟨?_, bytesKept_onlyWork s (by simp) (by simp), ?_⟩
  · have recorded : faultAdded s (addFault rec false s) 1 0x11 reason := hr ▸ faultAdded_addFault rfl _ false
    exact faultAdded_of_same recorded (by simp) (by simp)
  rw [getQc_onlyWork, own]
  by_cases held : isProg (getQc s q) = true ∧ unretired s q = true
  · rw [finCtx_of_held (by rw [getQc_addFault]; exact held.1) (by rw [unretired_addFault]; exact held.2) (by decide), getQc_addFault,
      if_pos (by simp [held])]
    exact ⟨fun _ => rfl, rfl⟩
  · have now : endsNow (addFault rec false s) q := by
      rw [endsNow, getQc_addFault, unretired_addFault]
      exact fun prog => by simpa [prog] using held
    rw [finCtx_of_endsNow now (by rw [getQc_addFault]; exact has), getQc_addFault, if_neg (by simpa using held)]
    exact ⟨fun _ => rfl, rfl⟩

theorem loadInsn_misaligned (rd ra : BitVec 5) (off : W32) (n : Nat) (signed : Bool) (run : canRun s q.toNat anyKind = true)
    (odd : memAddr (getQc s q.toNat) ra off % n ≠ 0) :
    ∃ t, loadInsn q rd ra off n signed s = .next t ∧ IllegalEnd s t q.toNat rAlign := by
  refine ⟨_, ?_, illegalEnd_illegal (canRun_has run).2 rAlign (curWords s q.toNat).1 (curWords s q.toNat).2⟩
  unfold loadInsn illegalNow
  dsimp only
  rw [if_pos run, if_pos odd]

theorem storeInsn_misaligned (rd ra : BitVec 5) (off : W32) (n : Nat) (run : canRun s q.toNat anyKind = true)
    (odd : memAddr (getQc s q.toNat) ra off % n ≠ 0) :
    ∃ t, storeInsn q rd ra off n s = .next t ∧ IllegalEnd s t q.toNat rAlign := by
  refine ⟨_, ?_, illegalEnd_illegal (canRun_has run).2 rAlign (curWords s q.toNat).1 (curWords s q.toNat).2⟩
  unfold storeInsn illegalNow
  dsimp only
  rw [if_pos run, if_pos odd]

theorem jalr_misaligned (rd ra : BitVec 5) (off : W32) (run : canRun s q.toNat anyKind = true)
    (odd : (rdG (getQc s q.toNat) ra + 8 * off.signExtend 64).toNat % 8 ≠ 0) :
    ∃ t, execJalr q rd ra off s = .next t ∧ IllegalEnd s t q.toNat rAlign := by
  rw [BitVec.mul_comm] at odd
  refine ⟨_, ?_, illegalEnd_illegal (canRun_has run).2 rAlign (curWords s q.toNat).1 (curWords s q.toNat).2⟩
  unfold execJalr illegalNow branchTo
  dsimp only
  rw [if_pos run, if_pos odd]

end Misaligned

/-- Settles O15: loads, stores and JALR check their alignment first, and an illegal instruction has one end. -/
theorem misalignedScalarAccessIsIllegal : Obligations.MisalignedScalarAccessIsIllegal := by
  intro q rd ra off s run c va e he odd
  simp only [List.mem_cons, List.not_mem_nil, or_false] at he
  rcases he with rfl | rfl | rfl | rfl | rfl | rfl | rfl | rfl | rfl
  · exact loadInsn_misaligned rd ra off 2 true run odd
  · exact loadInsn_misaligned rd ra off 4 true run odd
  · exact loadInsn_misaligned rd ra off 8 true run odd
  · exact loadInsn_misaligned rd ra off 2 false run odd
  · exact loadInsn_misaligned rd ra off 4 false run odd
  · exact storeInsn_misaligned rd ra off 2 run odd
  · exact storeInsn_misaligned rd ra off 4 run odd
  · exact storeInsn_misaligned rd ra off 8 run odd
  · exact jalr_misaligned rd ra off run odd

end Sys2Proof.Machine
end

section
/-! SUPPORT. Tallies: additions, settings, waits and their release (R96, R105, R114, R116, R118). -/

namespace Sys2Proof.Machine

/-! ### The location of a tally -/

section Location
variable {s s1 : State} {ctx va acc loc : Nat} {who : Who}

/-- A host page lies within the host addresses. -/
theorem pageOut_lt_host {pte lvl : Nat} (e : pageOut s ctx who pte lvl va = .ok loc) (host : isHost loc = true) : loc < 2 * hostBit := by
  have page : fld pte 12 45 < 2 ^ 45 := Nat.mod_lt _ (by decide)
  have inside : va % (if lvl = 0 then 2 ^ 21 else 2 ^ 30) < 2 ^ 30 := by
    split
    · exact (Nat.mod_lt va (by decide)).trans (by decide)
    · exact Nat.mod_lt va (by decide)
  unfold pageOut at e
  dsimp only at e
  generalize va % (if lvl = 0 then 2 ^ 21 else 2 ^ 30) = offset at e inside
  generalize fld pte 12 45 = frame at e page
  by_cases hostPage : fld pte 5 1 = 1
  · rw [if_pos hostPage] at e
    split at e
    · cases e
    · split at e
      · cases e
      · cases e
        simp only [hostBit]
        omega
  · rw [if_neg hostPage] at e
    split at e
    · cases e
    · split at e
      · rename_i home
        cases e
        have low := homeOf_lt home
        have above : hostBit ≤ loc := by simpa [isHost] using host
        simp only [hostBit] at above ⊢
        omega
      · cases e

theorem translate_lt_host (reach : translate s ctx va acc who = (.ok loc, s1)) (host : isHost loc = true) : loc < 2 * hostBit := by
  unfold translate at reach
  dsimp only at reach
  split at reach
  · simp at reach
  · split at reach
    · simp at reach
    · simp at reach
    · split at reach
      · simp at reach
      · exact pageOut_lt_host (Prod.ext_iff.mp reach).1 host

/-- Where a waiter looks for its tally is where the translation found it. -/
theorem waiter_location (reach : translate s ctx va acc who = (.ok loc, s1)) :
    (if isHost loc then hostBit + loc % hostBit else loc % hostBit) = loc := by
  by_cases host : isHost loc = true
  · have above : hostBit ≤ loc := by simpa [isHost] using host
    have below := translate_lt_host reach host
    rw [if_pos host, Nat.mod_eq_sub_mod above, Nat.mod_eq_of_lt (by omega)]
    omega
  · have below : loc < hostBit := by simpa [isHost] using host
    rw [if_neg host, Nat.mod_eq_of_lt below]

end Location

/-! ### Additions and settings -/

section Stores
variable {q : BitVec 20} {s s1 : State} {va acc loc : Nat} {bs : List Byte}

/-- What a running program stores within 8 bytes stands at its location in every state that memory does not change from there. -/
theorem stored_storeAt {t : State} (run : canRun s q.toNat anyKind = true)
    (reach : translate s (getQc s q.toNat).ctx va acc (whoOf q.toNat) = (.ok loc, s1)) (size : bs.length ≤ 8) (cause : Nat)
    (after : bytesSame (storeAt cause loc bs s1) t) : stored s t loc bs := by
  have bytes : stored s1 (locStore loc bs s1) loc bs := stored_locStore (closed_of_run run reach) fun dev => by
    have := translate_lt reach dev
    simp only [hostBit]
    omega
  obtain ⟨dev, host⟩ := after
  exact stored_of_same bytes (bytesSame_translate reach) ⟨dev.trans (by rw [storeAt, changed_mem]), host.trans (by rw [storeAt, changed_hs])⟩

theorem tallyAddAt_open (opened : coreClosed s loc = false) (cause d : Nat) :
    tallyAddAt cause loc d s = storeAt cause loc (leBytes 8 ((locNat s loc 8 + d) % 2 ^ 64)) s := by
  rw [tallyAddAt, if_neg (by simp [opened])]

end Stores

section Tallies
variable {q : BitVec 20} {ra : BitVec 5} {s s1 : State} {loc : Nat}

theorem tallyLoc_ok {q va : Nat} (reach : translate s (getQc s q).ctx va accTally (whoOf q) = (.ok loc, s1)) (clean : locPoison s1 loc = false) :
    tallyLoc q va s = .ok (loc, s1) := by
  unfold tallyLoc
  rw [reach]
  dsimp only
  rw [if_neg (by simp [clean])]

theorem tallyAdd_effect (rd rb : BitVec 5) (run : canRun s q.toNat anyKind = true) (aligned : (rdG (getQc s q.toNat) ra).toNat % 8 = 0)
    (reach : translate s (getQc s q.toNat).ctx (rdG (getQc s q.toNat) ra).toNat accTally (whoOf q.toNat) = (.ok loc, s1))
    (retired : unretired s q.toNat = false) (clean : locPoison s1 loc = false) :
    let c := getQc s q.toNat
    ∃ t, exec (.tallyAdd q rd ra rb) s = .next t ∧ ended s t q.toNat (c.pc + 8)
      ∧ rdG (getQc t q.toNat) rd = (if rd = 0 then 0 else BitVec.ofNat 64 (locNat s loc 8))
      ∧ othersKept c (getQc t q.toNat) rd
      ∧ stored s t loc (leBytes 8 ((locNat s loc 8 + (rdG c rb).toNat) % 2 ^ 64)) ∧ boardKept s t := by
  intro c
  have value : locNat s1 loc 8 = locNat s loc 8 := locNat_of_same (bytesSame_translate reach) ..
  obtain ⟨end_, result, others, -, kept, board⟩ := onlyWork_doneInsn_wrG
    (fun k => (getQc_storeAt (causeOf (qKind q.toNat)) loc (leBytes 8 ((locNat s loc 8 + (rdG c rb).toNat) % 2 ^ 64)) s1 k).trans (getQc_translate reach k))
    (canRun_has run).2 rd (BitVec.ofNat 64 (locNat s loc 8)) 8
  refine ⟨_, ?_, end_, result, others, stored_storeAt run reach (by simp) _ kept.1, board⟩
  show execTallyAdd q rd ra rb s = _
  unfold execTallyAdd performAdd
  dsimp only
  rw [if_pos run, if_neg (by simp [aligned]), if_neg (by simp [retired]), tallyLoc_ok reach clean]
  dsimp only
  rw [tallyAddAt_open (closed_of_run run reach), value]

theorem tallySet_effect (rb : BitVec 5) (run : canRun s q.toNat anyKind = true) (aligned : (rdG (getQc s q.toNat) ra).toNat % 8 = 0)
    (reach : translate s (getQc s q.toNat).ctx (rdG (getQc s q.toNat) ra).toNat accTally (whoOf q.toNat) = (.ok loc, s1)) :
    let c := getQc s q.toNat
    ∃ t, exec (.tallySet q ra rb) s = .next t ∧ ended s t q.toNat (c.pc + 8)
      ∧ (∀ r, rdG (getQc t q.toNat) r = rdG c r) ∧ othersKept c (getQc t q.toNat) 0
      ∧ stored s t loc (leBytes 8 (rdG c rb).toNat) ∧ boardKept s t := by
  intro c
  let u := storeAt (causeOf (qKind q.toNat)) loc (leBytes 8 (rdG c rb).toNat) s1
  have same : getQc u q.toNat = c := (getQc_storeAt ..).trans (getQc_translate reach _)
  have own : getQc (onlyWork s (doneInsn q.toNat 8 u)) q.toNat = endCtx 8 c := by
    rw [getQc_onlyWork, getQc_doneInsn_self _ _ _ (by rw [same]; exact (canRun_has run).2), same]
  refine ⟨onlyWork s (doneInsn q.toNat 8 u), ?_, ended_of_endCtx own rfl rfl, fun r => ?_, ?_, ?_, boardKept_onlyWork ..⟩
  · show execTallySet q ra rb s = _
    unfold execTallySet
    dsimp only
    rw [if_pos run, if_neg (by simp [aligned]), reach]
  · rw [own, rdG_endCtx]
  · rw [own]; exact othersKept_endCtx ..
  · exact stored_storeAt run reach (by simp) _ (bytesKept_onlyWork s (doneInsn_mem ..) (doneInsn_hs ..)).1

end Tallies

/-- Settles O16: an addition gives the old value and stores the sum, a setting stores its value; both by what a store of a running program
leaves. -/
theorem tallyAddAndSet : Obligations.TallyAddAndSet := by
  intro q rd ra rb s s1 loc run c va aligned reach
  exact ⟨tallyAdd_effect rd rb run aligned reach, tallySet_effect rb run aligned reach⟩

/-! ### Waits -/

section Waits
variable {s u : State} {q : Nat} {w : Waiter}

/-- What a waiter observes: whether its first threshold is met, whether its second is, and the first value. -/
def observed (s : State) (w : Waiter) : Bool × Bool × W64 :=
  let loc := fun (h : Bool) (a : Nat) => if h then hostBit + a else a
  let v := locNat s (loc w.host w.addr) 8
  (decide (w.thresh.toNat ≤ v), match w.second with | some (h, a, _, th) => decide (th.toNat ≤ locNat s (loc h a) 8) | none => false,
    BitVec.ofNat 64 v)

theorem decideWaiter_met (cause : Nat) (waits : w.released = none) (met : ((observed s w).1 || (observed s w).2.1) = true) :
    decideWaiter s cause w = { w with released := some (observed s w), cause } := by
  unfold decideWaiter
  rw [waits]
  exact if_pos met

theorem decideWaiter_unmet (cause : Nat) (waits : w.released = none) (unmet : ((observed s w).1 || (observed s w).2.1) = false) :
    decideWaiter s cause w = w := by
  unfold decideWaiter
  rw [waits]
  exact if_neg (ne_true_of_eq_false unmet)

theorem waitResult_one {m : Bool × Bool × W64} (one : w.second = none) (released : w.released = some m) : waitResult w = m.2.2 := by
  unfold waitResult
  rw [released]
  simp [one]

theorem waitResult_two {m : Bool × Bool × W64} (two : w.second.isSome = true) (released : w.released = some m) :
    waitResult w = BitVec.ofNat 64 (b01 m.1 + 2 * b01 m.2.1) := by
  obtain ⟨m1, m2, v⟩ := m
  unfold waitResult
  rw [released]
  dsimp only
  rw [if_pos two]
  cases m1 <;> cases m2 <;> decide

/-- A wait that is met goes on at once with its result, from any state with the queue contexts and the bytes of `s`. -/
theorem blockOn_met (same : ∀ k, getQc u k = getQc s k) (bytes : bytesSame s u) (has : (getQc s w.key).cmd.isSome = true) (waits : w.released = none)
    (met : ((observed u w).1 || (observed u w).2.1) = true) :
    let t := onlyWork s (blockOn w u)
    ended s t w.key ((getQc s w.key).pc + 8)
      ∧ rdG (getQc t w.key) w.rd = (if w.rd = 0 then 0 else waitResult { w with released := some (observed u w), cause := causeEngine })
      ∧ bytesSame s t ∧ bytesKept u t ∧ boardKept s t := by
  obtain ⟨end_, result, -, -, kept, board⟩ := onlyWork_doneInsn_wrG same has w.rd (waitResult { w with released := some (observed u w), cause := causeEngine }) 8
  have goes : blockOn w u = doneInsn w.key 8
      (modQc w.key (fun c => wrG w.rd (waitResult { w with released := some (observed u w), cause := causeEngine }) c) u) := by
    unfold blockOn
    dsimp only
    rw [decideWaiter_met _ waits met]
  rw [goes]
  exact ⟨end_, result, bytesSame_trans bytes kept.1, kept, board⟩

/-- A wait that is not met blocks its queue context, with a waiter at its tallies. -/
theorem blockOn_unmet (bytes : bytesSame s u) (waits : w.released = none) (unmet : ((observed u w).1 || (observed u w).2.1) = false) :
    let t := onlyWork s (blockOn w u)
    (getQc t w.key).blocked = true ∧ w ∈ t.fe.waiters ∧ bytesSame s t ∧ bytesKept u t ∧ boardKept s t := by
  have blocks : blockOn w u = leaveEng w.key (modQc w.key (fun c => { c with blocked := true }) (registerWait w u)) := by
    unfold blockOn
    dsimp only
    rw [decideWaiter_unmet _ waits unmet, waits]
  have kept : bytesKept u (onlyWork s (blockOn w u)) := by
    rw [blocks]
    exact bytesKept_onlyWork s (leaveEng_mem ..) (leaveEng_hs ..)
  refine ⟨?_, ?_, bytesSame_trans bytes kept.1, kept, boardKept_onlyWork ..⟩
  · rw [getQc_onlyWork, blocks, getQc_leaveEng, getQc_modQc, if_pos rfl]
  · rw [onlyWork_fe, blocks, leaveEng_fe, modQc_fe, registerWait, decideWaiter_unmet _ waits unmet]
    simp

end Waits

section Wait
variable {q : BitVec 20} {ra rb rc rt rd : BitVec 5} {s s1 s2 : State} {l1 l2 : Nat}

/-- The waiter of a TALLY.WAIT on the tally at `loc`. -/
def waitAt (s : State) (q : BitVec 20) (rd ra rb : BitVec 5) (loc : Nat) : Waiter :=
  let c := getQc s q.toNat
  { key := q.toNat, isQueue := false, ctx := c.ctx, host := isHost loc, addr := loc % hostBit, va := rdG c ra, thresh := rdG c rb, rd := rd }

/-- The waiter of a TALLY.WAIT2, on a second tally too. -/
def waitAt2 (s : State) (q : BitVec 20) (rd ra rb rc rt : BitVec 5) (l1 l2 : Nat) : Waiter :=
  let c := getQc s q.toNat
  { waitAt s q rd ra rb l1 with second := some (isHost l2, l2 % hostBit, rdG c rc, rdG c rt) }

theorem exec_tallyWait (run : canRun s q.toNat anyKind = true) (aligned : (rdG (getQc s q.toNat) ra).toNat % 8 = 0)
    (reach : translate s (getQc s q.toNat).ctx (rdG (getQc s q.toNat) ra).toNat accTally (whoOf q.toNat) = (.ok l1, s1))
    (clean : locPoison s1 l1 = false) :
    exec (.tallyWait q rd ra rb) s = .next (onlyWork s (blockOn (waitAt s q rd ra rb l1) s1)) := by
  show execTallyWait q rd ra rb s = _
  unfold execTallyWait
  dsimp only
  rw [if_pos run, if_neg (by simp [aligned]), tallyLoc_ok reach clean]
  rfl

theorem exec_tallyWait2 (run : canRun s q.toNat anyKind = true) (aligned : (rdG (getQc s q.toNat) ra).toNat % 8 = 0)
    (reach : translate s (getQc s q.toNat).ctx (rdG (getQc s q.toNat) ra).toNat accTally (whoOf q.toNat) = (.ok l1, s1))
    (clean : locPoison s1 l1 = false) (aligned2 : (rdG (getQc s q.toNat) rc).toNat % 8 = 0)
    (reach2 : translate s1 (getQc s q.toNat).ctx (rdG (getQc s q.toNat) rc).toNat accTally (whoOf q.toNat) = (.ok l2, s2))
    (clean2 : locPoison s2 l2 = false) :
    exec (.tallyWait2 q rd ra rb rc rt) s = .next (onlyWork s (blockOn (waitAt2 s q rd ra rb rc rt l1 l2) s2)) := by
  show execTallyWait2 q rd ra rb rc rt s = _
  unfold execTallyWait2
  dsimp only
  have reach2 : translate s1 (getQc s1 q.toNat).ctx (rdG (getQc s q.toNat) rc).toNat accTally (whoOf q.toNat) = (.ok l2, s2) := by
    rw [getQc_translate reach]; exact reach2
  rw [if_pos run, if_neg (by simp [aligned, aligned2]), tallyLoc_ok reach clean]
  dsimp only
  rw [tallyLoc_ok reach2 clean2]
  rfl

theorem observed_waitAt {u : State} (same : bytesSame s u)
    (reach : translate s (getQc s q.toNat).ctx (rdG (getQc s q.toNat) ra).toNat accTally (whoOf q.toNat) = (.ok l1, s1)) :
    observed u (waitAt s q rd ra rb l1) =
      (decide ((rdG (getQc s q.toNat) rb).toNat ≤ locNat s l1 8), false, BitVec.ofNat 64 (locNat s l1 8)) := by
  unfold observed waitAt
  dsimp only
  simp only [waiter_location reach, locNat_of_same same]

theorem observed_waitAt2 {u : State} (same : bytesSame s u)
    (reach : translate s (getQc s q.toNat).ctx (rdG (getQc s q.toNat) ra).toNat accTally (whoOf q.toNat) = (.ok l1, s1))
    (reach2 : translate s1 (getQc s q.toNat).ctx (rdG (getQc s q.toNat) rc).toNat accTally (whoOf q.toNat) = (.ok l2, s2)) :
    observed u (waitAt2 s q rd ra rb rc rt l1 l2) =
      (decide ((rdG (getQc s q.toNat) rb).toNat ≤ locNat s l1 8), decide ((rdG (getQc s q.toNat) rt).toNat ≤ locNat s l2 8),
        BitVec.ofNat 64 (locNat s l1 8)) := by
  unfold observed waitAt2 waitAt
  dsimp only
  simp only [waiter_location reach, waiter_location reach2, locNat_of_same same]

theorem tallyWait_effect (run : canRun s q.toNat anyKind = true) (aligned : (rdG (getQc s q.toNat) ra).toNat % 8 = 0)
    (reach : translate s (getQc s q.toNat).ctx (rdG (getQc s q.toNat) ra).toNat accTally (whoOf q.toNat) = (.ok l1, s1))
    (clean : locPoison s1 l1 = false) :
    let c := getQc s q.toNat
    ∃ t, exec (.tallyWait q rd ra rb) s = .next t ∧ bytesSame s t ∧ bytesKept s1 t ∧ boardKept s t
      ∧ ((rdG c rb).toNat ≤ locNat s l1 8 →
          ended s t q.toNat (c.pc + 8) ∧ rdG (getQc t q.toNat) rd = (if rd = 0 then 0 else BitVec.ofNat 64 (locNat s l1 8)))
      ∧ (locNat s l1 8 < (rdG c rb).toNat →
          (getQc t q.toNat).blocked = true ∧ ∃ w ∈ t.fe.waiters, w.key = q.toNat ∧ w.isQueue = false ∧ w.thresh = rdG c rb ∧ w.released = none) := by
  intro c
  have bytes := bytesSame_translate reach
  have seen := observed_waitAt (rd := rd) (rb := rb) bytes reach
  refine ⟨_, exec_tallyWait run aligned reach clean, ?_⟩
  by_cases met : (rdG c rb).toNat ≤ locNat s l1 8
  · obtain ⟨end_, result, same, kept, board⟩ := blockOn_met (w := waitAt s q rd ra rb l1) (getQc_translate reach) bytes (canRun_has run).2 rfl
      (by rw [seen]; simpa [c] using met)
    refine ⟨same, kept, board, fun _ => ⟨end_, ?_⟩, fun unmet => absurd met (by omega)⟩
    rw [waitResult_one rfl rfl, seen] at result
    exact result
  · obtain ⟨blocked, registered, same, kept, board⟩ := blockOn_unmet (w := waitAt s q rd ra rb l1) bytes rfl (by rw [seen]; simpa [c] using met)
    exact ⟨same, kept, board, fun h => absurd h met, fun _ => ⟨blocked, _, registered, rfl, rfl, rfl, rfl⟩⟩

theorem tallyWait2_effect (run : canRun s q.toNat anyKind = true) (aligned : (rdG (getQc s q.toNat) ra).toNat % 8 = 0)
    (reach : translate s (getQc s q.toNat).ctx (rdG (getQc s q.toNat) ra).toNat accTally (whoOf q.toNat) = (.ok l1, s1))
    (clean : locPoison s1 l1 = false) (aligned2 : (rdG (getQc s q.toNat) rc).toNat % 8 = 0)
    (reach2 : translate s1 (getQc s q.toNat).ctx (rdG (getQc s q.toNat) rc).toNat accTally (whoOf q.toNat) = (.ok l2, s2))
    (clean2 : locPoison s2 l2 = false) :
    let c := getQc s q.toNat
    let m1 := decide ((rdG c rb).toNat ≤ locNat s l1 8)
    let m2 := decide ((rdG c rt).toNat ≤ locNat s l2 8)
    ∃ t, exec (.tallyWait2 q rd ra rb rc rt) s = .next t ∧ bytesSame s t ∧ bytesKept s2 t ∧ boardKept s t
      ∧ ((m1 || m2) = true → ended s t q.toNat (c.pc + 8)
          ∧ rdG (getQc t q.toNat) rd = (if rd = 0 then 0 else BitVec.ofNat 64 (b01 m1 + 2 * b01 m2)))
      ∧ ((m1 || m2) = false → (getQc t q.toNat).blocked = true ∧ ∃ w ∈ t.fe.waiters, w.key = q.toNat ∧ w.isQueue = false ∧ w.released = none) := by
  intro c m1 m2
  have bytes := bytesSame_trans (bytesSame_translate reach) (bytesSame_translate reach2)
  have same : ∀ k, getQc s2 k = getQc s k := fun k => (getQc_translate reach2 k).trans (getQc_translate reach k)
  have seen := observed_waitAt2 (rd := rd) (rb := rb) (rt := rt) bytes reach reach2
  refine ⟨_, exec_tallyWait2 run aligned reach clean aligned2 reach2 clean2, ?_⟩
  cases met : m1 || m2 with
  | true =>
    obtain ⟨end_, result, bytes, kept, board⟩ := blockOn_met (w := waitAt2 s q rd ra rb rc rt l1 l2) same bytes (canRun_has run).2 rfl
      (by rw [seen]; exact met)
    refine ⟨bytes, kept, board, fun _ => ⟨end_, ?_⟩, nofun⟩
    rw [waitResult_two rfl rfl, seen] at result
    exact result
  | false =>
    obtain ⟨blocked, registered, bytes, kept, board⟩ := blockOn_unmet (w := waitAt2 s q rd ra rb rc rt l1 l2) bytes rfl (by rw [seen]; exact met)
    exact ⟨bytes, kept, board, nofun, fun _ => ⟨blocked, _, registered, rfl, rfl, rfl⟩⟩

end Wait

/-- Settles O17: a wait that is met goes on, another blocks; what it observes stands where its translations found the tallies. -/
theorem tallyWaitsObserveOrBlock : Obligations.TallyWaitsObserveOrBlock := by
  intro q rd ra rb rc rt s s1 l1 run c aligned reach clean
  exact ⟨tallyWait_effect run aligned reach clean, fun s2 l2 aligned2 reach2 clean2 =>
    tallyWait2_effect run aligned reach clean aligned2 reach2 clean2⟩

/-! ### The release of a wait -/

section Release
variable {q : BitVec 20} {s : State} {w : Waiter}

/-- The state in which a released queue context goes on: its waiters dropped, its engine taken where it is free. -/
def releasedState (q : BitVec 20) (w : Waiter) (s : State) : State :=
  let k := engKey (qKind q.toNat) (qIndex q.toNat)
  let s1 := tickEng (qKind q.toNat) (qIndex q.toNat) (dropWaits (fun x => !x.isQueue && x.key == q.toNat) s)
  if mayTake s q.toNat then setEng k { endIdle w.cause (getEng s1 k) with running := some q.toNat, kept := none } s1 else s1

theorem exec_tallyWaitRelease (first : s.fe.waiters.find? (fun x => !x.isQueue && x.key == q.toNat && x.released.isSome) = some w)
    (blocked : (getQc s q.toNat).blocked = true) (up : engUp s (qKind q.toNat) (qIndex q.toNat) = true) :
    exec (.tallyWaitRelease q) s = .next (onlyWork s (doneInsn q.toNat 8
      (modQc q.toNat (fun x => wrG w.rd (waitResult w) { x with blocked := false }) (releasedState q w s)))) := by
  show execTallyWaitRelease q s = _
  unfold execTallyWaitRelease
  rw [first]
  dsimp only
  rw [if_neg (by simp [blocked, up])]
  rfl

/-- What a release leaves alone: all but engines, cycle counts and the waiters. -/
theorem releasedState_keep {β : Type} (f : State → β) (h1 : ∀ k e t, f (setEng k e t) = f t) (h2 : ∀ isl t, f (tickIsland isl t) = f t)
    (q : BitVec 20) (w : Waiter) (s : State) :
    f (releasedState q w s) = f (dropWaits (fun x => !x.isQueue && x.key == q.toNat) s) := by
  have ticked := tickEng_keep f h1 h2 (qKind q.toNat) (qIndex q.toNat) (dropWaits (fun x => !x.isQueue && x.key == q.toNat) s)
  unfold releasedState
  dsimp only
  split
  · exact (h1 ..).trans ticked
  · exact ticked

theorem getQc_releasedState (q : BitVec 20) (w : Waiter) (s : State) (k : Nat) : getQc (releasedState q w s) k = getQc s k :=
  releasedState_keep (getQc · k) (fun _ _ _ => rfl) (fun _ _ => rfl) ..

/-- A waiter of the queue context gives what it observed, or the met bits. -/
theorem waitResult_released {m : Bool × Bool × W64} (released : w.released = some m) :
    waitResult w = if w.second.isSome then BitVec.ofNat 64 (b01 m.1 + 2 * b01 m.2.1) else m.2.2 := by
  split
  · rename_i two
    exact waitResult_two two released
  · rename_i one
    exact waitResult_one (by simpa using one) released

theorem tallyWaitRelease_effect {m : Bool × Bool × W64}
    (first : s.fe.waiters.find? (fun x => !x.isQueue && x.key == q.toNat && x.released.isSome) = some w) (released : w.released = some m)
    (blocked : (getQc s q.toNat).blocked = true) (has : (getQc s q.toNat).cmd.isSome = true)
    (up : engUp s (qKind q.toNat) (qIndex q.toNat) = true) :
    ∃ t, exec (.tallyWaitRelease q) s = .next t ∧ (getQc t q.toNat).blocked = false ∧ ended s t q.toNat ((getQc s q.toNat).pc + 8)
      ∧ rdG (getQc t q.toNat) w.rd = (if w.rd = 0 then 0
          else if w.second.isSome then BitVec.ofNat 64 (b01 m.1 + 2 * b01 m.2.1) else m.2.2)
      ∧ (∀ x ∈ t.fe.waiters, x.isQueue = false → x.key ≠ q.toNat) ∧ bytesKept s t ∧ boardKept s t := by
  let u := releasedState q w s
  let d : QCtx := wrG w.rd (waitResult w) { getQc s q.toNat with blocked := false }
  let t := onlyWork s (doneInsn q.toNat 8 (modQc q.toNat (fun x => wrG w.rd (waitResult w) { x with blocked := false }) u))
  have resumed : getQc (modQc q.toNat (fun x => wrG w.rd (waitResult w) { x with blocked := false }) u) q.toNat = d := by
    rw [getQc_modQc, if_pos rfl, getQc_releasedState]
  have cmd : d.cmd = (getQc s q.toNat).cmd := wrG_cmd ..
  have own : getQc t q.toNat = endCtx 8 d := by
    rw [getQc_onlyWork, getQc_doneInsn_self _ _ _ (by rw [resumed, cmd]; exact has), resumed]
  have free : d.blocked = false := by
    show (wrG _ _ _).blocked = false
    unfold wrG
    split <;> rfl
  refine ⟨t, exec_tallyWaitRelease first blocked up, ?_, ended_of_endCtx own cmd (wrG_pc ..), ?_, ?_, ?_, boardKept_onlyWork ..⟩
  · rw [own, endCtx]
    split
    · exact free
    · rfl
  · rw [own, rdG_endCtx, rdG_wrG, if_pos rfl, waitResult_released released]
  · have waiters : t.fe.waiters = s.fe.waiters.filter (fun x => !(!x.isQueue && x.key == q.toNat)) := by
      rw [onlyWork_fe, doneInsn_keep (·.fe.waiters) (fun _ _ => rfl) (fun _ _ => rfl) (fun _ _ _ => rfl) (fun _ _ => rfl) (fun _ => rfl)
        (fun _ _ _ => rfl) (fun _ _ _ => rfl), modQc_fe]
      exact releasedState_keep (·.fe.waiters) (fun _ _ _ => rfl) (fun _ _ => rfl) ..
    rw [waiters]
    intro x hx engine key
    simp [engine, key] at hx
  · refine bytesKept_onlyWork s ?_ ?_
    · rw [doneInsn_mem, modQc_mem]
      exact releasedState_keep (·.mem) (fun _ _ _ => rfl) (fun _ _ => rfl) ..
    · rw [doneInsn_hs, modQc_hs]
      exact releasedState_keep (·.hs) (fun _ _ _ => rfl) (fun _ _ => rfl) ..

end Release

/-- Settles O18: the released queue context takes its wait's result as an instruction does that gives RD a value. -/
theorem releasedWaitResumes : Obligations.ReleasedWaitResumes := by
  intro q s w m first released blocked has up
  exact tallyWaitRelease_effect first released blocked has up

end Sys2Proof.Machine
end

section
/-! SUPPORT. How an engine takes a command: what hands it over, when it starts at once, and what its start leaves alone (R103, R105, R246,
R247, R249). -/

namespace Sys2Proof.Machine

/-! ### What decides the service of engines and queues -/

/-- The state without what has no part in it: power, bring-up, firmware, host functions, resets, contexts, the partition count, and the
stop wave's state are left. -/
def service (s : State) : State :=
  { pw := s.pw, bt := s.bt, fw := s.fw, hs := s.hs, fr := s.fr, fe := { ctxs := s.fe.ctxs, countAct := s.fe.countAct }
    ob := { stopState := s.ob.stopState, frozen := s.ob.frozen } }

section Service
variable {s u : State} (same : service u = service s)
include same

theorem engUp_of_service (kind index : Nat) : engUp u kind index = engUp s kind index :=
  (congrArg (fun x => engUp x kind index) same :)

theorem runsOn_of_service (q : Nat) (c : QCtx) : runsOn u q c = runsOn s q c :=
  (congrArg (fun x => runsOn x q c) same :)

theorem readyCtx_of_service {x : Nat} (ctx : getQc u x = getQc s x) : readyCtx u x = readyCtx s x := by
  simp only [readyCtx, ctx, runsOn_of_service same]

theorem mayFetch_of_service {x : Nat} (queue : getQ u x = getQ s x) : mayFetch u x = mayFetch s x := by
  have chanter : chanterUp u = chanterUp s := (congrArg chanterUp same :)
  have fns : getFn u = getFn s := (congrArg getFn same :)
  have ctxs : getCtx u = getCtx s := (congrArg getCtx same :)
  have stop : u.ob.stopState = s.ob.stopState := congrArg (·.ob.stopState) same
  simp only [mayFetch, queue, chanter, fns, ctxs, stop]

theorem headCmd_of_service {x : Nat} (queue : getQ u x = getQ s x) (op : Nat) : headCmd u x op = headCmd s x op := by
  simp only [headCmd, queue, mayFetch_of_service same queue]

end Service

/-! ### An engine that is free for a queue context -/

section MayTake
variable {s u : State} {q t : Nat}

/-- A queue context that is ready is listed. -/
theorem mem_readyOthers {x : Nat} : x ∈ readyOthers s t ↔ (qKind x = qKind t ∧ qIndex x = qIndex t ∧ x ≠ t) ∧ readyCtx s x = true := by
  unfold readyOthers qcsWhere
  simp only [List.mem_filter, Bool.and_eq_true, beq_iff_eq, bne_iff_ne]
  constructor
  · rintro ⟨-, -, ⟨⟨kind, index⟩, other⟩, ready⟩
    exact ⟨⟨kind, index, other⟩, ready⟩
  · rintro ⟨⟨kind, index, other⟩, ready⟩
    have live : (getQc s x).live = true := by
      simp only [readyCtx, Bool.and_eq_true] at ready
      tauto
    refine ⟨?_, live, ⟨⟨kind, index⟩, other⟩, ready⟩
    by_contra absent
    rw [getQc, mget_of_not_listed absent] at live
    cases live

/-- An engine stays free for `t` where only `t` and the queue of its command change, and that queue has no next command. -/
theorem mayTake_of_service (same : service u = service s) (running : ∀ k, (getEng u k).running = (getEng s k).running)
    (kept : ∀ k, (getEng u k).kept = (getEng s k).kept) (ctxs : ∀ x, x ≠ t → getQc u x = getQc s x)
    (queues : ∀ x, x ≠ q → getQ u x = getQ s x) (taken : (getQ u q).cur = none) (free : mayTake s t = true) : mayTake u t = true := by
  unfold mayTake staysWith at free ⊢
  dsimp only at free ⊢
  rw [running, kept]
  generalize (getEng s (engKey (qKind t) (qIndex t))).kept = stays at free ⊢
  simp only [Bool.and_eq_true, Bool.or_eq_true, beq_iff_eq, Option.isNone_iff_eq_none, List.isEmpty_iff] at free ⊢
  obtain ⟨idle, own | ⟨leaves, alone⟩⟩ := free
  · exact ⟨idle, .inl own⟩
  by_cases own : stays = some t
  · exact ⟨idle, .inl own⟩
  refine ⟨idle, .inr ⟨?_, ?_⟩⟩
  · cases stays with
    | none => rfl
    | some x =>
      have other : x ≠ t := fun h => own (congrArg some h)
      have done : furtherReady s x = false := by simpa using leaves
      have ctx := ctxs x other
      suffices furtherReady u x = false by simp [this]
      unfold furtherReady at done ⊢
      rw [readyCtx_of_service same ctx, ctx, runsOn_of_service same]
      by_cases here : x = q
      · have head : ∀ op, headCmd u x op = none := fun op => by simp only [headCmd, here, taken]
        simp only [Bool.or_eq_false_iff] at done
        simp [done.1, head]
      · simpa only [headCmd_of_service same (queues x here)] using done
  · rw [List.eq_nil_iff_forall_not_mem] at alone ⊢
    intro x hx
    obtain ⟨⟨kind, index, other⟩, ready⟩ := mem_readyOthers.1 hx
    exact alone x (mem_readyOthers.2 ⟨⟨kind, index, other⟩, by rwa [readyCtx_of_service same (ctxs x other)] at ready⟩)

end MayTake

/-! ### The start of a command -/

section Start
variable (q cause word : Nat) (s : State)

theorem startCmd_keep {β : Type} (f : State → β) (h1 : ∀ (t : State) (o : Ob), f { t with ob := o } = f t) (h2 : ∀ isl t, f (bumpIseq isl t) = f t)
    (h3 : ∀ k e t, f (setEng k e t) = f t) (h4 : ∀ isl t, f (tickIsland isl t) = f t) (h5 : ∀ q v t, f (setQc q v t) = f t) :
    f (startCmd q cause word s) = f s := by
  unfold startCmd
  dsimp only
  rw [traceEng_keep f h1 h2 h3 h4, h3, h5, tickEng_keep f h3 h4]

/-- A queue context whose command starts: it takes the next sequence number and its counters begin at zero. -/
def startedCtx (c : QCtx) : QCtx := { c with seq := c.nextSeq, nextSeq := c.nextSeq + 1, started := true, nums := {} }

theorem getQc_startCmd (k : Nat) : getQc (startCmd q cause word s) k = if k = q then startedCtx (getQc s q) else getQc s k := by
  unfold startCmd
  simp [startedCtx]

theorem chargeEng_running (s : State) (d k : Nat) (e : Eng) : (chargeEng s d k e).running = e.running := by
  unfold chargeEng; split <;> rfl

theorem chargeEng_kept (s : State) (d k : Nat) (e : Eng) : (chargeEng s d k e).kept = e.kept := by
  unfold chargeEng; split <;> rfl

theorem running_startCmd : (getEng (startCmd q cause word s) (engKey (qKind q) (qIndex q))).running = some q := by
  unfold startCmd
  dsimp only
  rw [traceEng_eng (·.running) chargeEng_running, getEng_setEng, if_pos rfl]

end Start

/-! ### A dispatch is traced -/

section Trace
variable (q : Nat) (s : State)

theorem traceDispatch_keep {β : Type} (f : State → β) (h1 : ∀ (t : State) (o : Ob), f { t with ob := o } = f t)
    (h2 : ∀ isl t, f (bumpIseq isl t) = f t) (h3 : ∀ k e t, f (setEng k e t) = f t) (h4 : ∀ isl t, f (tickIsland isl t) = f t) :
    f (traceDispatch q s) = f s := by
  unfold traceDispatch; split
  · exact fwPoint_keep f h1 h2 h3 h4 ..
  · rfl

theorem fwPoint_rest (i code arg : Nat) (s : State) : restView (fwPoint i code arg s) = restView s := by
  unfold fwPoint pushTrace; split
  · rw [putTrace_rest, tick_rest]
  · rfl

theorem fwPoint_eng {β : Type} (g : Eng → β) (charge : ∀ s d k e, g (chargeEng s d k e) = g e) (i code arg : Nat) (s : State) (j : Nat) :
    g (getEng (fwPoint i code arg s) j) = g (getEng s j) := by
  unfold fwPoint pushTrace; split
  · rw [putTrace_keep (getEng · j) (fun _ _ => rfl) (fun _ _ => rfl), tick_eng g charge]
  · rfl

theorem traceDispatch_eng {β : Type} (g : Eng → β) (charge : ∀ s d k e, g (chargeEng s d k e) = g e) (j : Nat) :
    g (getEng (traceDispatch q s) j) = g (getEng s j) := by
  unfold traceDispatch; split
  · exact fwPoint_eng g charge ..
  · rfl

theorem service_traceDispatch : service (traceDispatch q s) = service s := by
  have rest : restView (traceDispatch q s) = restView s := by
    unfold traceDispatch; split
    · exact fwPoint_rest ..
    · rfl
  have stop : (traceDispatch q s).ob.stopState = s.ob.stopState := congrArg (fun x => x.1.stopState) rest
  have frozen : (traceDispatch q s).ob.frozen = s.ob.frozen := congrArg (fun x => x.1.frozen) rest
  have others := traceDispatch_keep q s (fun t => { service t with ob := {} }) (fun _ _ => rfl) (fun _ _ => rfl) (fun _ _ _ => rfl) (fun _ _ => rfl)
  show { ({ service (traceDispatch q s) with ob := {} } : State) with
    ob := { stopState := (traceDispatch q s).ob.stopState, frozen := (traceDispatch q s).ob.frozen } } = _
  rw [others, stop, frozen]
  rfl

theorem traceDispatch_fe : (traceDispatch q s).fe = s.fe :=
  traceDispatch_keep q s (·.fe) (fun _ _ => rfl) (fun _ _ => rfl) (fun _ _ _ => rfl) (fun _ _ => rfl)

theorem getQc_traceDispatch (k : Nat) : getQc (traceDispatch q s) k = getQc s k :=
  traceDispatch_keep q s (getQc · k) (fun _ _ => rfl) (fun _ _ => rfl) (fun _ _ _ => rfl) (fun _ _ => rfl)

end Trace

/-! ### A command is handed over -/

section Hand
variable {q t : Nat} {e : Entry} {prog : Bool} {s : State}

/-- The queue of a command that is dispatched: the command stands last in flight. -/
theorem getQ_pushFlight (q : Nat) (e : Entry) (t : Nat) (g : Bool) (s : State) :
    ∃ w : Queue, (∀ x, getQ (pushFlight q e t none g s) x = if x = q then w else getQ s x) ∧ w.cur = none ∧ w.ctx = (getQ s q).ctx
      ∧ w.dispatched = (getQ s q).dispatched + 1
      ∧ w.inflight = (getQ s q).inflight ++ [{ entry := e, result := none, inGraph := g, target := t, id := (getQ s q).dispatched }] :=
  ⟨_, fun _ => getQ_modQ .., rfl, rfl, rfl, rfl⟩

theorem getQc_bindTarget (q t : Nat) (s : State) (x : Nat) :
    getQc (bindTarget q t s) x =
      if x = t ∧ qKind q = 7 ∧ mget 0 s.fe.binds t = 0 then { live := true, ctx := (getQ s q).ctx } else getQc s x := by
  unfold bindTarget
  dsimp only
  by_cases bound : qKind q ≠ 7 ∨ mget 0 s.fe.binds t ≠ 0
  · rw [if_pos bound, if_neg (by tauto)]
  · rw [if_neg bound, getQc_setQc]
    by_cases here : x = t
    · rw [if_pos here, if_pos (by tauto)]
    · rw [if_neg here, if_neg (by tauto)]
      rfl

theorem bindTarget_keep {β : Type} (f : State → β) (h1 : ∀ q v t, f (setQc q v t) = f t)
    (h2 : ∀ (t : State) (b : NMap Nat), f { t with fe := { t.fe with binds := b } } = f t) (q t : Nat) (s : State) : f (bindTarget q t s) = f s := by
  unfold bindTarget
  dsimp only
  split
  · rfl
  · exact (h1 ..).trans (h2 ..)

theorem nextHeld_keep {β : Type} (f : State → β) (h : ∀ q v t, f (setQc q v t) = f t) (t : Nat) (s : State) : f (nextHeld t s) = f s := by
  unfold nextHeld modQc
  split
  · dsimp only
    split
    · exact (h ..).trans (h ..)
    · exact h ..
  · rfl

theorem getQc_nextHeld_ne {x : Nat} (other : x ≠ t) (s : State) : getQc (nextHeld t s) x = getQc s x := by
  unfold nextHeld
  split
  · dsimp only
    split
    · simp [other]
    · simp [other]
  · rfl

/-- A queue context that begins a command handed over: a program's counter, g1 and g2 are set. -/
def begunCtx (e : Entry) (h : Nat × Nat × Bool) (c : QCtx) : QCtx :=
  let d := { c with cmd := some h, held := [], started := false }
  if h.2.2 then
    wrG 2 (BitVec.ofNat 64 (cmdArg e.cmd 2)) (wrG 1 (BitVec.ofNat 64 (cmdArg e.cmd 1)) { d with pc := BitVec.ofNat 64 (cmdArg e.cmd 0) })
  else d

theorem wrG_keep {β : Type} (f : QCtx → β) (h : ∀ (c : QCtx) g, f { c with g := g } = f c) (r : BitVec 5) (v : W64) (c : QCtx) :
    f (wrG r v c) = f c := by
  unfold wrG; split
  · rfl
  · exact h ..

/-- What neither general registers nor the program counter belong to. -/
theorem begunCtx_keep {β : Type} (f : QCtx → β) (h1 : ∀ (c : QCtx) g, f { c with g := g } = f c) (h2 : ∀ (c : QCtx) pc, f { c with pc := pc } = f c)
    (e : Entry) (h : Nat × Nat × Bool) (c : QCtx) : f (begunCtx e h c) = f { c with cmd := some h, held := [], started := false } := by
  unfold begunCtx
  dsimp only
  split
  · rw [wrG_keep f h1, wrG_keep f h1]
    exact h2 { c with cmd := some h, held := [], started := false } _
  · rfl

/-- An idle queue context begins the only command handed over to it. -/
theorem getQc_nextHeld {h : Nat × Nat × Bool} {f : InFlight} (idle : (getQc s t).cmd = none) (only : (getQc s t).held = [h])
    (found : (getQ s h.1).inflight.reverse.find? (fun f => f.id == h.2.1) = some f) :
    getQc (nextHeld t s) t = begunCtx f.entry h (getQc s t) := by
  obtain ⟨qu, id, prog⟩ := h
  have flight : curFlight (modQc t (fun c => { c with cmd := some (qu, id, prog), held := [], started := false }) s) t = some f := by
    unfold curFlight
    rw [getQc_modQc, if_pos rfl]
    exact found
  unfold nextHeld
  rw [idle, only]
  dsimp only
  rw [flight]
  cases prog with
  | true => simp [begunCtx]
  | false => simp [begunCtx]

/-- A command handed over, before it starts. -/
def given (q t : Nat) (e : Entry) (prog : Bool) (s : State) : State :=
  nextHeld t (modQc t (fun c => { c with held := c.held ++ [(q, (getQ s q).dispatched, prog)] })
    (bindTarget q t (pushFlight q e t none (inGraphNow (getQ s q)) s)))

theorem given_keep {β : Type} (f : State → β) (h1 : ∀ q v t, f (setQc q v t) = f t) (h2 : ∀ q v t, f (setQ q v t) = f t)
    (h3 : ∀ (t : State) (b : NMap Nat), f { t with fe := { t.fe with binds := b } } = f t)
    (h4 : ∀ (t : State) (ws : List Waiter), f { t with fe := { t.fe with waiters := ws } } = f t) (q t : Nat) (e : Entry) (prog : Bool) (s : State) :
    f (given q t e prog s) = f s := by
  unfold given
  rw [nextHeld_keep f h1, modQc, h1, bindTarget_keep f h1 h3, pushFlight, modQ, h2]
  exact h4 ..

theorem service_given (q t : Nat) (e : Entry) (prog : Bool) (s : State) : service (given q t e prog s) = service s :=
  given_keep service (fun _ _ _ => rfl) (fun _ _ _ => rfl) (fun _ _ => rfl) (fun _ _ => rfl) ..

theorem getQ_given (q t : Nat) (e : Entry) (prog : Bool) (s : State) (x : Nat) :
    getQ (given q t e prog s) x = getQ (pushFlight q e t none (inGraphNow (getQ s q)) s) x := by
  unfold given
  rw [nextHeld_keep (getQ · x) (fun _ _ _ => rfl), getQ_modQc, bindTarget_keep (getQ · x) (fun _ _ _ => rfl) (fun _ _ => rfl)]

/-- The queue contexts behind a binding, of states with the same queue contexts, bindings and context of the queue. -/
theorem getQc_bindTarget_congr {u : State} (ctxs : ∀ x, getQc u x = getQc s x) (binds : u.fe.binds = s.fe.binds)
    (ctx : (getQ u q).ctx = (getQ s q).ctx) (x : Nat) : getQc (bindTarget q t u) x = getQc (bindTarget q t s) x := by
  rw [getQc_bindTarget, getQc_bindTarget, ctxs, binds, ctx]

theorem getQc_given_base (q t : Nat) (s : State) (x : Nat) (e : Entry) :
    getQc (bindTarget q t (pushFlight q e t none (inGraphNow (getQ s q)) s)) x = getQc (bindTarget q t s) x := by
  obtain ⟨w, queues, -, ctx, -⟩ := getQ_pushFlight q e t (inGraphNow (getQ s q)) s
  exact getQc_bindTarget_congr (u := pushFlight q e t none (inGraphNow (getQ s q)) s) (s := s) (fun _ => rfl) rfl
    ((congrArg Queue.ctx ((queues q).trans (if_pos rfl))).trans ctx) x

theorem getQc_given_ne {x : Nat} (other : x ≠ t) : getQc (given q t e prog s) x = getQc (bindTarget q t s) x := by
  unfold given
  rw [getQc_nextHeld_ne other, getQc_modQc, if_neg other, getQc_given_base]

/-- The target begins the command where it has none in progress and none waits. -/
theorem getQc_given (idle : (getQc (bindTarget q t s) t).cmd = none) (none_held : (getQc (bindTarget q t s) t).held = []) :
    getQc (given q t e prog s) t = begunCtx e (q, (getQ s q).dispatched, prog) (getQc (bindTarget q t s) t) := by
  obtain ⟨w, queues, -, -, -, inflight⟩ := getQ_pushFlight q e t (inGraphNow (getQ s q)) s
  unfold given
  have here : getQc (modQc t (fun c => { c with held := c.held ++ [(q, (getQ s q).dispatched, prog)] })
      (bindTarget q t (pushFlight q e t none (inGraphNow (getQ s q)) s))) t =
      { getQc (bindTarget q t s) t with held := [(q, (getQ s q).dispatched, prog)] } := by
    rw [getQc_modQc, if_pos rfl, getQc_given_base, none_held]
    rfl
  rw [getQc_nextHeld (h := (q, (getQ s q).dispatched, prog))
    (f := { entry := e, result := none, inGraph := inGraphNow (getQ s q), target := t, id := (getQ s q).dispatched })
    (by rw [here]; exact idle) (by rw [here]) ?_, here]
  · rfl
  · rw [getQ_modQc, bindTarget_keep (getQ · q) (fun _ _ _ => rfl) (fun _ _ => rfl), queues, if_pos rfl, inflight]
    simp

/-! ### A command that starts at once -/

theorem getQ_traceDispatch (q : Nat) (s : State) (x : Nat) : getQ (traceDispatch q s) x = getQ s x := by rw [getQ, getQ, traceDispatch_fe]

theorem getQc_bindTarget_traced (x : Nat) : getQc (bindTarget q t (traceDispatch q s)) x = getQc (bindTarget q t s) x :=
  getQc_bindTarget_congr (getQc_traceDispatch q s) (by rw [traceDispatch_fe]) (by rw [getQ_traceDispatch]) x

/-- The target of a traced dispatch begins the command. -/
theorem getQc_given_traced (e : Entry) (prog : Bool) (rest : atRest (bindTarget q t s) t) :
    getQc (given q t e prog (traceDispatch q s)) t = begunCtx e (q, (getQ s q).dispatched, prog) (getQc (bindTarget q t s) t) := by
  obtain ⟨-, idle, none_held, -⟩ := rest
  rw [getQc_given (by rw [getQc_bindTarget_traced]; exact idle) (by rw [getQc_bindTarget_traced]; exact none_held), getQc_bindTarget_traced,
    getQ_traceDispatch]

theorem service_given_traced (e : Entry) (prog : Bool) : service (given q t e prog (traceDispatch q s)) = service (bindTarget q t s) := by
  rw [service_given, service_traceDispatch, bindTarget_keep service (fun _ _ _ => rfl) (fun _ _ => rfl)]

/-- The engine stays free for the target of a dispatch. -/
theorem mayTake_given (e : Entry) (prog : Bool) (free : mayTake (bindTarget q t s) t = true) :
    mayTake (given q t e prog (traceDispatch q s)) t = true := by
  obtain ⟨w, queues, taken, -⟩ := getQ_pushFlight q e t (inGraphNow (getQ (traceDispatch q s) q)) (traceDispatch q s)
  have engs : ∀ {β : Type} (g : Eng → β), (∀ s d k e, g (chargeEng s d k e) = g e) → ∀ k,
      g (getEng (given q t e prog (traceDispatch q s)) k) = g (getEng (bindTarget q t s) k) := fun g charge k => by
    rw [given_keep (getEng · k) (fun _ _ _ => rfl) (fun _ _ _ => rfl) (fun _ _ => rfl) (fun _ _ => rfl), traceDispatch_eng q s g charge,
      bindTarget_keep (getEng · k) (fun _ _ _ => rfl) (fun _ _ => rfl)]
  refine mayTake_of_service (q := q) (service_given_traced e prog) (engs (·.running) chargeEng_running) (engs (·.kept) chargeEng_kept)
    (fun x other => ?_) (fun x other => ?_) ?_ free
  · rw [getQc_given_ne other, getQc_bindTarget_traced]
  · rw [getQ_given, queues, if_neg other, bindTarget_keep (getQ · x) (fun _ _ _ => rfl) (fun _ _ => rfl), getQ_traceDispatch]
  · rw [getQ_given, queues, if_pos rfl, taken]

/-- A command handed over to a queue context at rest starts at once. -/
theorem handOver_starts (e : Entry) (prog : Bool) (rest : atRest (bindTarget q t s) t) :
    handOver q t e prog (traceDispatch q s) =
      startCmd t (startCause (traceDispatch q s) q e) (startWord e) (given q t e prog (traceDispatch q s)) := by
  have own := getQc_given_traced e prog rest
  obtain ⟨live, -, -, awake, -, -, -, -, runs, up, -, free⟩ := rest
  have serves := service_given_traced (q := q) (t := t) (s := s) e prog
  have kept := begunCtx_keep (fun c => (c.live, c.cmd, c.blocked, c.ctx, c.started)) (fun _ _ => rfl) (fun _ _ => rfl) e
    (q, (getQ s q).dispatched, prog) (getQc (bindTarget q t s) t)
  rw [← own] at kept
  simp only [Prod.mk.injEq] at kept
  obtain ⟨live', cmd, awake', ctx, fresh⟩ := kept
  have ready : readyCtx (given q t e prog (traceDispatch q s)) t = true := by
    have goes : runsOn (given q t e prog (traceDispatch q s)) t (getQc (given q t e prog (traceDispatch q s)) t) = true := by
      rw [runsOn_of_service serves, runsOn, ctx]
      exact runs
    simp [readyCtx, goes, live', cmd, awake', live, awake]
  have starts : (mayTake (given q t e prog (traceDispatch q s)) t && readyCtx (given q t e prog (traceDispatch q s)) t
      && !(getQc (given q t e prog (traceDispatch q s)) t).started && engUp (given q t e prog (traceDispatch q s)) (qKind t) (qIndex t)) = true := by
    rw [mayTake_given e prog free, ready, fresh, engUp_of_service serves, up]
    rfl
  exact if_pos starts

/-- The queue context of a command that starts at once. -/
theorem getQc_handOver (e : Entry) (prog : Bool) (rest : atRest (bindTarget q t s) t) :
    getQc (handOver q t e prog (traceDispatch q s)) t =
      startedCtx (begunCtx e (q, (getQ s q).dispatched, prog) (getQc (bindTarget q t s) t)) := by
  rw [handOver_starts e prog rest, getQc_startCmd, if_pos rfl, getQc_given_traced e prog rest]

theorem startedAt_handOver (e : Entry) (prog : Bool) (rest : atRest (bindTarget q t s) t) :
    startedAt s (handOver q t e prog (traceDispatch q s)) q t prog := by
  have kept := begunCtx_keep (fun c => (c.cmd, c.nextSeq)) (fun _ _ => rfl) (fun _ _ => rfl) e (q, (getQ s q).dispatched, prog)
    (getQc (bindTarget q t s) t)
  simp only [Prod.mk.injEq] at kept
  obtain ⟨cmd, next⟩ := kept
  unfold startedAt
  rw [getQc_handOver e prog rest]
  refine ⟨cmd, rfl, ?_, next, congrArg (· + 1) next, rfl⟩
  rw [handOver_starts e prog rest]
  exact running_startCmd ..

theorem inFlightNow_handOver (e : Entry) (prog : Bool) (rest : atRest (bindTarget q t s) t) :
    inFlightNow s (handOver q t e prog (traceDispatch q s)) q e t none := by
  obtain ⟨w, queues, taken, -, dispatched, inflight⟩ := getQ_pushFlight q e t (inGraphNow (getQ (traceDispatch q s) q)) (traceDispatch q s)
  have queue : getQ (handOver q t e prog (traceDispatch q s)) q = w := by
    rw [handOver_starts e prog rest, startCmd_keep _ _ _ _ (getQ · q) (fun _ _ => rfl) (fun _ _ => rfl) (fun _ _ _ => rfl) (fun _ _ => rfl)
      (fun _ _ _ => rfl), getQ_given, queues, if_pos rfl]
  rw [getQ_traceDispatch] at dispatched inflight
  unfold inFlightNow
  rw [queue]
  exact ⟨taken, dispatched, _, inflight⟩

theorem bytesKept_handOver (e : Entry) (prog : Bool) (rest : atRest (bindTarget q t s) t) :
    bytesKept s (handOver q t e prog (traceDispatch q s)) := by
  have same : ∀ {β : Type} (f : State → β), (∀ (t : State) (o : Ob), f { t with ob := o } = f t) → (∀ isl t, f (bumpIseq isl t) = f t) →
      (∀ k e t, f (setEng k e t) = f t) → (∀ isl t, f (tickIsland isl t) = f t) → (∀ q v t, f (setQc q v t) = f t) →
      (∀ q v t, f (setQ q v t) = f t) → (∀ (t : State) (b : NMap Nat), f { t with fe := { t.fe with binds := b } } = f t) →
      (∀ (t : State) (ws : List Waiter), f { t with fe := { t.fe with waiters := ws } } = f t) →
      f (handOver q t e prog (traceDispatch q s)) = f s := fun f h1 h2 h3 h4 h5 h6 h7 h8 => by
    rw [handOver_starts e prog rest, startCmd_keep _ _ _ _ f h1 h2 h3 h4 h5, given_keep f h5 h6 h7 h8, traceDispatch_keep _ _ f h1 h2 h3 h4]
  have kept := same (fun t => (t.mem, t.hs)) (fun _ _ => rfl) (fun _ _ => rfl) (fun _ _ _ => rfl) (fun _ _ => rfl) (fun _ _ _ => rfl) (fun _ _ _ => rfl)
    (fun _ _ => rfl) (fun _ _ => rfl)
  simp only [Prod.mk.injEq] at kept
  obtain ⟨mem, hs⟩ := kept
  rw [bytesKept, bytesSame, mem, hs]
  exact ⟨⟨rfl, rfl⟩, rfl, rfl, rfl⟩

/-- An instruction command leaves the registers of its queue context. -/
theorem rdG_handOver_insn (e : Entry) (rest : atRest (bindTarget q t s) t) (r : BitVec 5) :
    rdG (getQc (handOver q t e false (traceDispatch q s)) t) r = rdG (getQc (bindTarget q t s) t) r := by
  rw [getQc_handOver e false rest]
  rfl

/-- A program's counter, g1 and g2 are its command's arguments. -/
theorem handOver_prog (e : Entry) (rest : atRest (bindTarget q t s) t) :
    let c := getQc (handOver q t e true (traceDispatch q s)) t
    c.pc = BitVec.ofNat 64 (cmdArg e.cmd 0) ∧ rdG c 1 = BitVec.ofNat 64 (cmdArg e.cmd 1) ∧ rdG c 2 = BitVec.ofNat 64 (cmdArg e.cmd 2) := by
  intro c
  have own : c = startedCtx (begunCtx e (q, (getQ s q).dispatched, true) (getQc (bindTarget q t s) t)) := getQc_handOver e true rest
  have reads : ∀ r, rdG c r = rdG (begunCtx e (q, (getQ s q).dispatched, true) (getQc (bindTarget q t s) t)) r := fun r => by rw [own]; rfl
  refine ⟨?_, ?_, ?_⟩
  · rw [own]
    simp [startedCtx, begunCtx]
  · rw [reads]
    simp [begunCtx]
  · rw [reads]
    simp [begunCtx]

theorem cmdArg_lt (c : W512) (k : Nat) : cmdArg c k < 2 ^ 64 := Nat.mod_lt _ (by decide)

theorem toNat_cmdArg (c : W512) (k : Nat) : (BitVec.ofNat 64 (cmdArg c k)).toNat = cmdArg c k := by
  rw [BitVec.toNat_ofNat, Nat.mod_eq_of_lt (cmdArg_lt c k)]

end Hand

end Sys2Proof.Machine
end

section
/-! SUPPORT. INSN and PROG, with their arguments in the command or in memory, and the switch of queue contexts (R42, R103 to R105, R245,
R247). -/

namespace Sys2Proof.Machine

/-! ### INSN and PROG -/

section Dispatch
variable {q t : Nat} {e f : Entry} {prog : Bool} {s u : State}

/-- A command that may be dispatched to a target in order, with its arguments as `f`, is handed over and runs. -/
theorem dispatchCmd_hands (n : Nat) (target : targetOf q e = t) (waits : dispatchWaits s q t = false)
    (args : ∀ k, withArgs q e s k = k f u) (legal : prog = false → cmdArg f.cmd 1 = 0 ∨ fld (cmdArg f.cmd 0) 51 1 = 1)
    (aligned : prog = true → cmdArg f.cmd 0 % 8 = 0) (absent : targetAbsent u q f = false) (bad : targetBad u q f = false)
    (fence : targetFenced u t = false) :
    dispatchCmd q prog n e s = settleQ q (runSteps t n (handOver q t f prog (traceDispatch q u))) := by
  have noExt : ¬ (!prog && cmdArg f.cmd 1 != 0 && fld (cmdArg f.cmd 0) 51 1 == 0) = true := by
    intro h
    simp only [Bool.and_eq_true, Bool.not_eq_true', bne_iff_ne, beq_iff_eq] at h
    rcases legal h.1.1 with a1 | x
    · exact h.1.2 a1
    · omega
  have inPlace : ¬ (prog && cmdArg f.cmd 0 % 8 != 0) = true := by
    intro h
    simp only [Bool.and_eq_true, bne_iff_ne] at h
    exact h.2 (aligned h.1)
  unfold dispatchCmd
  dsimp only
  rw [target, if_neg (by simp [waits]), args, if_neg noExt, if_neg inPlace, if_neg (by simp [absent]), if_neg (by simp [bad]), if_neg (by simp [fence])]

/-- A target at rest waits for nothing. -/
theorem dispatchWaits_of_rest (rest : atRest (bindTarget q t s) t) (sequencer : qKind q = 7 → sequencerDown s t = false) :
    dispatchWaits s q t = false := by
  obtain ⟨-, idle, -, -, -, -, -, -, -, up, -, -⟩ := rest
  unfold dispatchWaits
  by_cases tiered : qKind q = 7
  · rw [if_pos tiered]
    exact sequencer tiered
  · have direct : bindTarget q t s = s := if_pos (.inl tiered)
    rw [direct] at idle up
    simp [tiered, up, idle]

theorem targetFenced_of_rest (rest : atRest (bindTarget q t s) t) : targetFenced s t = false := by
  obtain ⟨-, -, -, -, -, -, -, -, -, -, fence, -⟩ := rest
  rwa [bindTarget_keep (targetFenced · t) (fun _ _ _ => rfl) (fun _ _ => rfl)] at fence

theorem withArgs_direct (ind : cmdInd e.cmd = false) (k : Entry → State → State) : withArgs q e s k = k e s := by
  unfold withArgs
  rw [if_pos (by simp [ind])]

/-- The command with the arguments read at its ARG2. -/
def indirect (bs : List Byte) (e : Entry) : Entry := { e with cmd := setArgs e.cmd (leNat (bs.take 8)) (leNat (bs.drop 8)) }

theorem withArgs_indirect {bs : List Byte} (ind : cmdInd e.cmd = true)
    (read : readVa s (getQ s q).ctx (cmdArg e.cmd 2) 16 accRead .other = (.ok bs, u)) (k : Entry → State → State) :
    withArgs q e s k = k (indirect bs e) u := by
  unfold withArgs
  rw [if_neg (by simp [ind]), read]
  rfl

/-- A field below bit `m` is one of the low `m` bits. -/
theorem fld_mod {lo w m : Nat} (n : Nat) (low : lo + w ≤ m) : fld (n % 2 ^ m) lo w = fld n lo w := by
  refine Nat.eq_of_testBit_eq fun i => ?_
  simp only [fld, Nat.testBit_mod_two_pow, Nat.testBit_div_two_pow]
  by_cases inside : i < w
  · have below : i + lo < m := by omega
    simp [inside, below]
  · simp [inside]

theorem toNat_setArgs (c : W512) (a0 a1 : Nat) :
    (setArgs c a0 a1).toNat = c.toNat % 2 ^ 256 + 2 ^ 256 * (a0 % 2 ^ 64) + 2 ^ 320 * (a1 % 2 ^ 64) + c.toNat / 2 ^ 384 * 2 ^ 384 := by
  have size := c.isLt
  unfold setArgs
  rw [BitVec.toNat_ofNat]
  omega

/-- Fields below the arguments are the command's own. -/
theorem bfld_setArgs (c : W512) (a0 a1 : Nat) {lo w : Nat} (low : lo + w ≤ 256) : bfld (setArgs c a0 a1) lo w = bfld c lo w := by
  have same : (setArgs c a0 a1).toNat % 2 ^ 256 = c.toNat % 2 ^ 256 := by
    rw [toNat_setArgs]
    omega
  unfold bfld
  rw [← fld_mod (setArgs c a0 a1).toNat low, same, fld_mod c.toNat low]

theorem cmdArg_setArgs (c : W512) (a0 a1 : Nat) :
    cmdArg (setArgs c a0 a1) 0 = a0 % 2 ^ 64 ∧ cmdArg (setArgs c a0 a1) 1 = a1 % 2 ^ 64 := by
  simp only [cmdArg, bfld, fld, toNat_setArgs]
  omega

/-- What names the target stands below the arguments. -/
theorem names_indirect (bs : List Byte) (e : Entry) : cmdKind (indirect bs e).cmd = cmdKind e.cmd
    ∧ cmdIndex (indirect bs e).cmd = cmdIndex e.cmd ∧ cmdQctx (indirect bs e).cmd = cmdQctx e.cmd :=
  ⟨bfld_setArgs _ _ _ (by decide), bfld_setArgs _ _ _ (by decide), bfld_setArgs _ _ _ (by decide)⟩

theorem targetOf_indirect (bs : List Byte) : targetOf q (indirect bs e) = targetOf q e := by
  obtain ⟨kind, index, ctx⟩ := names_indirect bs e
  simp only [targetOf, kind, index, ctx]

theorem targetAbsent_indirect (bs : List Byte) : targetAbsent s q (indirect bs e) = targetAbsent s q e := by
  obtain ⟨kind, -, -⟩ := names_indirect bs e
  simp only [targetAbsent, kind]

theorem targetBad_indirect (bs : List Byte) : targetBad s q (indirect bs e) = targetBad s q e := by
  obtain ⟨kind, index, -⟩ := names_indirect bs e
  simp only [targetBad, targetOf_indirect, kind, index]

/-- A command that starts at once may be dispatched in order, with its arguments in it. -/
theorem dispatchCmd_direct (n : Nat) (ind : cmdInd e.cmd = false) (starts : startsAt s q t e)
    (legal : prog = false → cmdArg e.cmd 1 = 0 ∨ fld (cmdArg e.cmd 0) 51 1 = 1) (aligned : prog = true → cmdArg e.cmd 0 % 8 = 0) :
    dispatchCmd q prog n e s = settleQ q (runSteps t n (handOver q t e prog (traceDispatch q s))) := by
  obtain ⟨target, absent, bad, sequencer, rest⟩ := starts
  exact dispatchCmd_hands n target (dispatchWaits_of_rest rest sequencer) (withArgs_direct ind) legal aligned absent bad (targetFenced_of_rest rest)

theorem exec_insn {qid : BitVec 20} (head : headCmd s qid.toNat 0x02 = some e) :
    exec (.insn qid) s = .next (onlyFabric s (dispatchCmd qid.toNat false 1 e s)) := by
  show execInsn qid s = _
  unfold execInsn
  rw [head]

theorem exec_prog {qid : BitVec 20} (steps : Nat) (head : headCmd s qid.toNat 0x03 = some e) :
    exec (.prog qid steps) s = .next (onlyFabric s (dispatchCmd qid.toNat true steps e s)) := by
  show execProg qid steps s = _
  unfold execProg
  rw [head]

/-- An instruction command starts at its target. -/
theorem exec_insn_starts {qid : BitVec 20} (ind : cmdInd e.cmd = false) (starts : startsAt s qid.toNat t e)
    (head : headCmd s qid.toNat 0x02 = some e) (legal : cmdArg e.cmd 1 = 0 ∨ fld (cmdArg e.cmd 0) 51 1 = 1) :
    ∃ u, exec (.insn qid) s = .next (onlyFabric s (settleQ qid.toNat (runSteps t 1 u))) ∧ inFlightNow s u qid.toNat e t none
      ∧ startedAt s u qid.toNat t false ∧ (∀ r, rdG (getQc u t) r = rdG (getQc (bindTarget qid.toNat t s) t) r) ∧ bytesKept s u := by
  have ⟨_, _, _, _, rest⟩ := starts
  refine ⟨handOver qid.toNat t e false (traceDispatch qid.toNat s), ?_, inFlightNow_handOver e false rest, startedAt_handOver e false rest,
    rdG_handOver_insn e rest, bytesKept_handOver e false rest⟩
  rw [exec_insn head, dispatchCmd_direct 1 ind starts (fun _ => legal) (fun h => by cases h)]

/-- A program starts at its target with its arguments in its command. -/
theorem exec_prog_starts {qid : BitVec 20} (steps : Nat) (ind : cmdInd e.cmd = false) (starts : startsAt s qid.toNat t e)
    (head : headCmd s qid.toNat 0x03 = some e) (aligned : cmdArg e.cmd 0 % 8 = 0) :
    ∃ u, exec (.prog qid steps) s = .next (onlyFabric s (settleQ qid.toNat (runSteps t steps u))) ∧ inFlightNow s u qid.toNat e t none
      ∧ startedAt s u qid.toNat t true ∧ (getQc u t).pc.toNat = cmdArg e.cmd 0 ∧ (rdG (getQc u t) 1).toNat = cmdArg e.cmd 1
      ∧ (rdG (getQc u t) 2).toNat = cmdArg e.cmd 2 ∧ bytesKept s u := by
  have ⟨_, _, _, _, rest⟩ := starts
  obtain ⟨pc, g1, g2⟩ := handOver_prog e rest
  refine ⟨handOver qid.toNat t e true (traceDispatch qid.toNat s), ?_, inFlightNow_handOver e true rest, startedAt_handOver e true rest,
    ?_, ?_, ?_, bytesKept_handOver e true rest⟩
  · rw [exec_prog steps head, dispatchCmd_direct steps ind starts (fun h => by cases h) (fun _ => aligned)]
  · rw [pc, toNat_cmdArg]
  · rw [g1, toNat_cmdArg]
  · rw [g2, toNat_cmdArg]

theorem leNat_take_mod (bs : List Byte) : leNat (bs.take 8) % 2 ^ 64 = leNat (bs.take 8) := by
  refine Nat.mod_eq_of_lt (lt_of_lt_of_le (leNat_lt _) (Nat.pow_le_pow_right (by decide) ?_))
  have := List.length_take_le 8 bs
  omega

/-- A program starts at its target with its arguments read from memory. -/
theorem exec_prog_indirect {qid : BitVec 20} {bs : List Byte} (steps : Nat) (ind : cmdInd e.cmd = true)
    (waits : dispatchWaits s qid.toNat t = false) (head : headCmd s qid.toNat 0x03 = some e)
    (read : readVa s (getQ s qid.toNat).ctx (cmdArg e.cmd 2) 16 accRead .other = (.ok bs, u)) (aligned : leNat (bs.take 8) % 8 = 0)
    (starts : startsAt u qid.toNat t e) :
    ∃ w, exec (.prog qid steps) s = .next (onlyFabric s (settleQ qid.toNat (runSteps t steps w))) ∧ startedAt u w qid.toNat t true
      ∧ (getQc w t).pc.toNat = leNat (bs.take 8) ∧ (rdG (getQc w t) 1).toNat = leNat (bs.drop 8) % 2 ^ 64 := by
  obtain ⟨target, absent, bad, -, rest⟩ := starts
  obtain ⟨arg0, arg1⟩ : cmdArg (indirect bs e).cmd 0 = leNat (bs.take 8) % 2 ^ 64 ∧ cmdArg (indirect bs e).cmd 1 = leNat (bs.drop 8) % 2 ^ 64 :=
    cmdArg_setArgs ..
  rw [leNat_take_mod] at arg0
  obtain ⟨pc, g1, -⟩ := handOver_prog (indirect bs e) rest
  refine ⟨handOver qid.toNat t (indirect bs e) true (traceDispatch qid.toNat u), ?_, startedAt_handOver _ true rest, ?_, ?_⟩
  · rw [exec_prog steps head, dispatchCmd_hands steps target waits (withArgs_indirect ind read) (fun h => by cases h)
      (fun _ => by rw [arg0]; exact aligned) (by rw [targetAbsent_indirect, absent]) (by rw [targetBad_indirect, bad]) (targetFenced_of_rest rest)]
  · rw [pc, toNat_cmdArg, arg0]
  · rw [g1, toNat_cmdArg, arg1]

end Dispatch

/-! ### Switches -/

section Switch
variable (n : Nat) (s : State)

/-- What neither engines, queue contexts, trace nor cycle counts belong to. -/
theorem takeCtx_keep {β : Type} (f : State → β) (h1 : ∀ (t : State) (o : Ob), f { t with ob := o } = f t) (h2 : ∀ isl t, f (bumpIseq isl t) = f t)
    (h3 : ∀ k e t, f (setEng k e t) = f t) (h4 : ∀ isl t, f (tickIsland isl t) = f t) (h5 : ∀ q v t, f (setQc q v t) = f t) :
    f (takeCtx n s) = f s := by
  unfold takeCtx
  split
  · exact (h3 ..).trans (tickEng_keep f h3 h4 ..)
  · exact (startCmd_keep _ _ _ _ f h1 h2 h3 h4 h5).trans (nextHeld_keep f h5 ..)

theorem running_takeCtx : (getEng (takeCtx n s) (engKey (qKind n) (qIndex n))).running = some n := by
  unfold takeCtx
  split
  · exact congrArg Eng.running ((getEng_setEng ..).trans (if_pos rfl))
  · exact running_startCmd ..

/-- The queue context taken runs a command: the one it began before, or one that it begins. -/
theorem getQc_takeCtx :
    getQc (takeCtx n s) n = if (getQc s n).started then getQc s n else startedCtx (getQc (nextHeld n s) n) := by
  unfold takeCtx
  split
  · simp
  · rw [getQc_startCmd, if_pos rfl]

theorem getQc_takeCtx_ne {x : Nat} (other : x ≠ n) : getQc (takeCtx n s) x = getQc s x := by
  unfold takeCtx
  split
  · simp
  · rw [getQc_startCmd, if_neg other, getQc_nextHeld_ne other]

theorem started_takeCtx : (getQc (takeCtx n s) n).started = true := by
  rw [getQc_takeCtx]
  split
  next began => exact began
  next => rfl

theorem nextHeld_busy {n : Nat} {s : State} (busy : (getQc s n).cmd ≠ none) : nextHeld n s = s := by
  unfold nextHeld
  split
  next none_there _ => exact absurd none_there busy
  next => rfl

/-- A command in progress keeps registers and program counter. -/
theorem takeCtx_busy {n : Nat} {s : State} (busy : (getQc s n).cmd ≠ none) :
    (∀ r, rdG (getQc (takeCtx n s) n) r = rdG (getQc s n) r) ∧ (getQc (takeCtx n s) n).pc = (getQc s n).pc := by
  rw [getQc_takeCtx, nextHeld_busy busy]
  split
  · exact ⟨fun _ => rfl, rfl⟩
  · exact ⟨fun _ => rfl, rfl⟩

/-- The engine after the context that it runs has left. -/
def runnerLeft (s : State) (k : Nat) : State := match (getEng s k).running with | some p => leaveEng p s | none => s

theorem runnerLeft_keep {β : Type} (f : State → β) (h : ∀ p t, f (leaveEng p t) = f t) (k : Nat) : f (runnerLeft s k) = f s := by
  unfold runnerLeft
  split
  · exact h ..
  · rfl

/-- An engine that stays with no context takes the next ready one after the one it runs or ran last. -/
theorem taken_next {kind index : Nat} {s : State} (leaves : (getEng s (engKey kind index)).running = none → staysWith s (engKey kind index) = none) :
    taken s kind index = nextReady (match (getEng s (engKey kind index)).running with | some p => qCtxNo p | none => (getEng s (engKey kind index)).last)
      (qcsWhere s (fun x _ => qKind x == kind && qIndex x == index && (getEng s (engKey kind index)).running != some x && readyCtx s x)) := by
  unfold taken
  dsimp only
  cases runs : (getEng s (engKey kind index)).running with
  | some p => rfl
  | none => rw [leaves runs]

theorem exec_contextSwitch {kind index next : Nat} (steps : Nat) {s : State} (up : engUp s kind index = true)
    (whole : ∀ p, (getEng s (engKey kind index)).running = some p → (getQc s p).chunk = none)
    (array : kind = 2 → (getPart s index).fence = none ∧ (getPart s index).next = none) (takes : taken s kind index = some next) :
    exec (.contextSwitch kind index steps) s = .next (onlyFabric s (runSteps next steps (takeCtx next (runnerLeft s (engKey kind index))))) := by
  have goes : ¬ (!engUp s kind index || (getEng s (engKey kind index)).running.any (fun q => (getQc s q).chunk.isSome)
      || (kind == kAX && ((getPart s index).fence.isSome || (getPart s index).next.isSome))) = true := by
    have noChunk : (getEng s (engKey kind index)).running.any (fun q => (getQc s q).chunk.isSome) = false := by
      cases runs : (getEng s (engKey kind index)).running with
      | some p => simp [whole p runs]
      | none => rfl
    have noArray : (kind == kAX && ((getPart s index).fence.isSome || (getPart s index).next.isSome)) = false := by
      by_cases ax : kind = 2
      · simp [array ax]
      · simp [kAX, ax]
    simp [up, noChunk, noArray]
  show execContextSwitch kind index steps s = _
  unfold execContextSwitch
  rw [if_neg goes, takes]
  rfl

/-- The next ready context is taken: its command starts or goes on, and nothing else moves. -/
theorem contextSwitch_takes {kind index next : Nat} (steps : Nat) {s : State} (up : engUp s kind index = true)
    (whole : ∀ p, (getEng s (engKey kind index)).running = some p → (getQc s p).chunk = none)
    (array : kind = 2 → (getPart s index).fence = none ∧ (getPart s index).next = none) (takes : taken s kind index = some next)
    (onKind : qKind next = kind) (onIndex : qIndex next = index) :
    ∃ u, exec (.contextSwitch kind index steps) s = .next (onlyFabric s (runSteps next steps u))
      ∧ (getEng u (engKey kind index)).running = some next ∧ (getQc u next).started = true ∧ bytesKept s u
      ∧ ((getQc s next).cmd ≠ none → (∀ r, rdG (getQc u next) r = rdG (getQc s next) r) ∧ (getQc u next).pc = (getQc s next).pc)
      ∧ ∀ x, x ≠ next → getQc u x = getQc s x := by
  have ctxs : ∀ x, getQc (runnerLeft s (engKey kind index)) x = getQc s x := fun x => runnerLeft_keep s (getQc · x) (fun p t => getQc_leaveEng p x t) _
  refine ⟨takeCtx next (runnerLeft s (engKey kind index)), exec_contextSwitch steps up whole array takes, ?_, started_takeCtx .., ?_, ?_, ?_⟩
  · rw [← onKind, ← onIndex]
    exact running_takeCtx ..
  · have mem : (takeCtx next (runnerLeft s (engKey kind index))).mem = s.mem :=
      (takeCtx_keep _ _ (·.mem) (fun _ _ => rfl) (fun _ _ => rfl) (fun _ _ _ => rfl) (fun _ _ => rfl) (fun _ _ _ => rfl)).trans
        (runnerLeft_keep s (·.mem) leaveEng_mem _)
    have hs : (takeCtx next (runnerLeft s (engKey kind index))).hs = s.hs :=
      (takeCtx_keep _ _ (·.hs) (fun _ _ => rfl) (fun _ _ => rfl) (fun _ _ _ => rfl) (fun _ _ => rfl) (fun _ _ _ => rfl)).trans
        (runnerLeft_keep s (·.hs) leaveEng_hs _)
    rw [bytesKept, bytesSame, mem, hs]
    exact ⟨⟨rfl, rfl⟩, rfl, rfl, rfl⟩
  · intro busy
    have kept := takeCtx_busy (n := next) (s := runnerLeft s (engKey kind index)) (by rwa [ctxs])
    rwa [ctxs] at kept
  · intro x other
    rw [getQc_takeCtx_ne _ _ other, ctxs]

end Switch

/-- Settles O47: a command handed over to a context at rest starts there at once, and a switch takes the next ready context. -/
theorem enginesTakeCommands : Obligations.EnginesTakeCommands := by
  intro qid s e
  refine ⟨fun t ind starts => ⟨fun head legal => exec_insn_starts ind starts head legal,
    fun steps head aligned => exec_prog_starts steps ind starts head aligned⟩, ?_, ?_⟩
  · intro t steps bs s1 ind _ _ _ _ waits head read aligned starts
    exact exec_prog_indirect steps ind waits head read aligned starts
  · intro kind index steps next k last up whole array leaves takes onKind onIndex
    exact contextSwitch_takes steps up whole array ((taken_next leaves).trans takes) onKind onIndex

end Sys2Proof.Machine
end

section
/-! SUPPORT. Bit fields of a register: which bits a replaced field changes, the elements of a register after results, sticky flags
(R27, R107, R135, R136). -/

namespace Sys2Proof.Machine

/-! ### Fields -/

theorem testBit_fld (n lo w i : Nat) : (fld n lo w).testBit i = (decide (i < w) && n.testBit (lo + i)) := by
  rw [fld, Nat.testBit_mod_two_pow, Nat.testBit_div_two_pow, Nat.add_comm]

theorem fld_lt (n lo w : Nat) : fld n lo w < 2 ^ w := Nat.mod_lt _ (Nat.two_pow_pos w)

/-- A replaced field stands between the bits below it and those above it. -/
theorem setFld_eq (n lo w v : Nat) : setFld n lo w v = 2 ^ lo * (2 ^ w * (n / 2 ^ lo / 2 ^ w) + v % 2 ^ w) + n % 2 ^ lo := by
  have whole := Nat.div_add_mod n (2 ^ lo)
  have upper := Nat.div_add_mod (n / 2 ^ lo) (2 ^ w)
  unfold setFld fld
  generalize n % 2 ^ lo = r at *
  generalize n / 2 ^ lo = h at *
  generalize h / 2 ^ w = g at *
  generalize h % 2 ^ w = f at *
  generalize v % 2 ^ w = b
  subst whole upper
  rw [Nat.mul_add, Nat.mul_add, Nat.mul_comm f, Nat.mul_comm b]
  omega

theorem testBit_setFld (n lo w v j : Nat) :
    (setFld n lo w v).testBit j = if lo ≤ j ∧ j < lo + w then v.testBit (j - lo) else n.testBit j := by
  rw [setFld_eq, Nat.testBit_two_pow_mul_add _ (Nat.mod_lt _ (Nat.two_pow_pos lo)), Nat.testBit_two_pow_mul_add _ (Nat.mod_lt _ (Nat.two_pow_pos w))]
  rw [Nat.testBit_mod_two_pow, Nat.testBit_mod_two_pow, Nat.testBit_div_two_pow, Nat.testBit_div_two_pow]
  by_cases below : j < lo
  · simp [below, Nat.not_le.2 below]
  · by_cases inside : j - lo < w
    · have : j < lo + w := by omega
      simp [below, inside, Nat.not_lt.1 below, this]
    · have : ¬ j < lo + w := by omega
      have place : j - lo - w + w + lo = j := by omega
      simp [below, inside, this, place]

theorem fld_setFld_self (n lo w v : Nat) : fld (setFld n lo w v) lo w = v % 2 ^ w := by
  refine Nat.eq_of_testBit_eq fun i => ?_
  rw [testBit_fld, testBit_setFld, Nat.testBit_mod_two_pow]
  by_cases inside : i < w <;> simp [inside]

theorem fld_setFld_apart {lo w lo' w' : Nat} (apart : lo' + w' ≤ lo ∨ lo + w ≤ lo') (n v : Nat) : fld (setFld n lo w v) lo' w' = fld n lo' w' := by
  refine Nat.eq_of_testBit_eq fun i => ?_
  rw [testBit_fld, testBit_fld, testBit_setFld]
  by_cases inside : i < w'
  · have : ¬ (lo ≤ lo' + i ∧ lo' + i < lo + w) := by omega
    simp [this]
  · simp [inside]

theorem elems_apart {w i j : Nat} (other : i ≠ j) : w * i + w ≤ w * j ∨ w * j + w ≤ w * i := by
  rcases Nat.lt_or_gt_of_ne other with h | h
  · exact .inl (Nat.mul_succ w i ▸ Nat.mul_le_mul_left w h)
  · exact .inr (Nat.mul_succ w j ▸ Nat.mul_le_mul_left w h)

section Elements
variable {β : Type} {key val : β → Nat} {l : List β} {w i : Nat}

/-- Results at other elements leave an element as it was. -/
theorem fld_foldl_setFld_ne (other : ∀ x ∈ l, key x ≠ i) (a : Nat) :
    fld (l.foldl (fun a x => setFld a (w * key x) w (val x)) a) (w * i) w = fld a (w * i) w := by
  induction l generalizing a with
  | nil => rfl
  | cons x l ih =>
    rw [List.foldl_cons, ih (fun y hy => other y (List.mem_cons_of_mem _ hy)),
      fld_setFld_apart (elems_apart (other x (List.mem_cons_self ..)).symm)]

/-- After results of which those at one element all give one value, the element is that value. -/
theorem fld_foldl_setFld {v : Nat} (written : ∃ x ∈ l, key x = i) (same : ∀ x ∈ l, key x = i → val x = v) (a : Nat) :
    fld (l.foldl (fun a x => setFld a (w * key x) w (val x)) a) (w * i) w = v % 2 ^ w := by
  induction l generalizing a with
  | nil => simp at written
  | cons x l ih =>
    rw [List.foldl_cons]
    by_cases later : ∃ y ∈ l, key y = i
    · exact ih later (fun y hy => same y (List.mem_cons_of_mem _ hy)) _
    · have here : key x = i := by
        obtain ⟨y, hy, hk⟩ := written
        rcases List.mem_cons.1 hy with rfl | hy
        · exact hk
        · exact absurd ⟨y, hy, hk⟩ later
      rw [fld_foldl_setFld_ne (fun y hy hk => later ⟨y, hy, hk⟩), ← here, fld_setFld_self, same x (List.mem_cons_self ..) here]

end Elements

/-! ### Elements of a register -/

/-- A field below the top of a register is that of the number it holds. -/
theorem fld_ofNat {k lo w : Nat} (fits : lo + w ≤ k) (x : Nat) : fld (BitVec.ofNat k x).toNat lo w = fld x lo w := by
  refine Nat.eq_of_testBit_eq fun i => ?_
  rw [testBit_fld, testBit_fld, BitVec.toNat_ofNat, Nat.testBit_mod_two_pow]
  by_cases inside : i < w
  · simp [show lo + i < k by omega]
  · simp [inside]

theorem elem_fits {w i : Nat} (lane : i < 1024 / w) : w * i + w ≤ 1024 := by
  have := Nat.mul_le_mul_left w (Nat.succ_le_of_lt lane)
  rw [Nat.mul_succ] at this
  exact this.trans (Nat.mul_div_le 1024 w)

theorem mem_laneRes {c : QCtx} {pg : BitVec 3} {n : Nat} {f : Nat → Res} {r : Nat × Res} :
    r ∈ laneRes c pg n f ↔ (r.1 < n ∧ active c pg r.1 = true) ∧ r.2 = f r.1 := by
  obtain ⟨i, x⟩ := r
  simp only [laneRes, upto, List.mem_map, List.mem_filter, List.mem_range, Prod.mk.injEq]
  constructor
  · rintro ⟨j, lane, rfl, rfl⟩
    exact ⟨lane, rfl⟩
  · rintro ⟨lane, rfl⟩
    exact ⟨i, lane, rfl, rfl⟩

/-- The active elements among the first `n` take their results, the others keep their values. -/
theorem elem_putRes (c : QCtx) (pg : BitVec 3) (w n : Nat) (f : Nat → Res) (old : VReg) {i : Nat} (lane : i < 1024 / w) :
    elem (putRes w old (laneRes c pg n f)) w i = if i < n ∧ active c pg i = true then (f i).bits % 2 ^ w else elem old w i := by
  rw [elem, putRes, fld_ofNat (elem_fits lane)]
  split
  next here =>
    refine fld_foldl_setFld ⟨(i, f i), mem_laneRes.2 ⟨here, rfl⟩, rfl⟩ (fun r hr at_ => ?_) _
    rw [(mem_laneRes.1 hr).2, at_]
  next not_here =>
    exact fld_foldl_setFld_ne (fun r hr at_ => not_here (by rw [← at_]; exact (mem_laneRes.1 hr).1)) _

/-! ### Flags and counters -/

theorem testBit_bfld {k : Nat} (x : BitVec k) (lo w i : Nat) : (bfld x lo w).testBit i = (decide (i < w) && x.getLsbD (lo + i)) := testBit_fld ..

/-- Raised flags stand in the flags' field beside those that stood there. -/
theorem getLsbD_raise (fl : Nat) (v : W64) (i : Nat) : (raise fl v).getLsbD i = (v.getLsbD i || (decide (5 ≤ i ∧ i < 10) && fl.testBit (i - 5))) := by
  have shifted : fl % 32 * 2 ^ 5 = 2 ^ 5 * (fl % 2 ^ 5) + 0 := by omega
  rw [raise, BitVec.getLsbD_or, BitVec.getLsbD_ofNat, shifted, Nat.testBit_two_pow_mul_add _ (by decide), Nat.testBit_mod_two_pow]
  by_cases below : i < 5
  · simp [below, show ¬ (5 ≤ i ∧ i < 10) by omega]
  · by_cases inside : i < 10
    · simp [below, inside, show i < 64 by omega, show i - 5 < 5 by omega, show 5 ≤ i by omega]
    · simp [below, inside, show ¬ i - 5 < 5 by omega]

theorem vfFlags_raise (fl : Nat) (v : W64) : vfFlags (raise fl v) = vfFlags v ||| fl % 32 := by
  refine Nat.eq_of_testBit_eq fun i => ?_
  rw [vfFlags, vfFlags, testBit_bfld, Nat.testBit_or, testBit_bfld, getLsbD_raise, show (32 : Nat) = 2 ^ 5 from rfl, Nat.testBit_mod_two_pow]
  by_cases inside : i < 5
  · simp [inside, show 5 + i < 10 by omega]
  · simp [inside]

/-- Fields beside the flags are as they were. -/
theorem bfld_raise {lo w : Nat} (apart : lo + w ≤ 5 ∨ 10 ≤ lo) (fl : Nat) (v : W64) : bfld (raise fl v) lo w = bfld v lo w := by
  refine Nat.eq_of_testBit_eq fun i => ?_
  rw [testBit_bfld, testBit_bfld, getLsbD_raise]
  by_cases inside : i < w
  · simp [show ¬ (5 ≤ lo + i ∧ lo + i < 10) by omega]
  · simp [inside]

@[simp] theorem raise_zero (v : W64) : raise 0 v = v := by simp [raise]

/-- A bit once gathered over a list stays, and each member of the list gathers its own. -/
theorem testBit_foldl_or {β : Type} {g : Nat → β → Nat} {h : β → Nat} {i : Nat}
    (each : ∀ a x, (a.testBit i || (h x).testBit i) = true → (g a x).testBit i = true) {l : List β} {a : Nat}
    (held : a.testBit i = true ∨ ∃ x ∈ l, (h x).testBit i = true) : (l.foldl g a).testBit i = true := by
  induction l generalizing a with
  | nil => simpa using held
  | cons y l ih =>
    refine ih ?_
    rcases held with held | ⟨x, hx, bit⟩
    · exact .inl (each a y (by simp [held]))
    · rcases List.mem_cons.1 hx with rfl | hx
      · exact .inl (each a x (by simp [bit]))
      · exact .inr ⟨x, hx, bit⟩

/-- A value whose bits all stand in another is a part of it. -/
theorem and_eq_of_testBit {a b : Nat} (held : ∀ i, b.testBit i = true → a.testBit i = true) : a &&& b = b := by
  refine Nat.eq_of_testBit_eq fun i => ?_
  rw [Nat.testBit_and]
  cases bit : b.testBit i with
  | false => simp
  | true => simp [held i bit]

theorem testBit_resFlags {free : Nat} {rs : List (Nat × Res)} {r : Nat × Res} (hr : r ∈ rs) {i : Nat} (bit : r.2.flags.testBit i = true) :
    (resFlags free rs).testBit i = true :=
  testBit_foldl_or (h := fun r => r.2.flags) (fun a x held => by
    rw [Nat.testBit_or, Nat.testBit_or]
    simp only [Bool.or_eq_true] at held ⊢
    exact .inl held) (.inr ⟨r, hr, bit⟩)

/-- A raised set of flags holds each of its parts. -/
theorem vfFlags_raise_and {fl part : Nat} (held : ∀ i, part.testBit i = true → fl.testBit i = true) (v : W64) :
    vfFlags (raise fl v) &&& (part % 32) = part % 32 := by
  refine and_eq_of_testBit fun i bit => ?_
  rw [show (32 : Nat) = 2 ^ 5 from rfl, Nat.testBit_mod_two_pow, Bool.and_eq_true] at bit
  rw [vfFlags_raise, Nat.testBit_or, show (32 : Nat) = 2 ^ 5 from rfl, Nat.testBit_mod_two_pow, held i bit.2]
  simp [of_decide_eq_true bit.1]

theorem flagsRaised_applyRes {c d : QCtx} (free : Nat) (rs : List (Nat × Res)) (vfcsr : d.vfcsr = raise (resFlags free rs) c.vfcsr)
    (nums : d.nums = countAll c.nums (rs.map (fun r => r.2.cnt))) : flagsRaised c d (rs.map Prod.snd) := by
  refine ⟨fun r hr => ?_, ?_, ?_, ?_, ?_⟩
  · obtain ⟨p, hp, rfl⟩ := List.mem_map.1 hr
    rw [vfcsr]
    exact vfFlags_raise_and (fun i => testBit_resFlags hp) _
  · rw [vfcsr, vfFlags_raise]
    exact and_eq_of_testBit fun i bit => by simp [bit]
  · rw [vfcsr, bfld_raise (.inl (by omega))]
  · rw [vfcsr, bfld_raise (.inr (by omega))]
  · rw [nums, List.map_map]
    rfl

end Sys2Proof.Machine
end

section
/-! SUPPORT. Vector instructions: where they run, and the result that one leaves in its register, its flags and its counters (R41, R107,
R123, R135). -/

namespace Sys2Proof.Machine

/-! ### The end of an instruction that changes its own queue context -/

/-- Work that changes queues, queue contexts and counts alone keeps the board, memory, arrays, collectives, faults and output. -/
theorem memKept_onlyWork {s u : State} (mem : u.mem = s.mem) (hs : u.hs = s.hs) (ax : u.ax = s.ax) (rx : u.rx = s.rx) (fr : u.fr = s.fr)
    (out : u.out = s.out) : memKept s (onlyWork s u) := by
  refine ⟨boardKept_onlyWork .., ?_, ?_, ax, ?_, ?_, out⟩ <;> simp [onlyWork, keepRegs, keepQueue, keepFn, *]

section Own
variable {s u : State} {q len : Nat} {F : QCtx → QCtx}

/-- A queue context that runs an instruction, changed as `F` changes it, ends it. -/
theorem getQc_doneInsn_modQc (same : getQc u q = getQc s q) (has : (getQc s q).cmd.isSome = true)
    (cmd : (F (getQc s q)).cmd = (getQc s q).cmd) : getQc (doneInsn q len (modQc q F u)) q = endCtx len (F (getQc s q)) := by
  have own : getQc (modQc q F u) q = F (getQc s q) := by rw [getQc_modQc, if_pos rfl, same]
  rw [getQc_doneInsn_self _ _ _ (by rw [own, cmd]; exact has), own]

/-- An instruction that changes its own queue context as `F` does, from a state `u` with the queue contexts of `s`, ends there. -/
theorem onlyWork_doneInsn_modQc (same : ∀ k, getQc u k = getQc s k) (has : (getQc s q).cmd.isSome = true)
    (cmd : (F (getQc s q)).cmd = (getQc s q).cmd) (pc : (F (getQc s q)).pc = (getQc s q).pc) :
    let t := onlyWork s (doneInsn q len (modQc q F u))
    getQc t q = endCtx len (F (getQc s q)) ∧ ended s t q ((getQc s q).pc + BitVec.ofNat 64 len) ∧ (∀ k, k ≠ q → getQc t k = getQc s k)
      ∧ bytesKept u t := by
  intro t
  have own : getQc t q = endCtx len (F (getQc s q)) := getQc_doneInsn_modQc (same q) has cmd
  exact ⟨own, ended_of_endCtx own cmd pc, fun k other => by simp [t, other, same], bytesKept_onlyWork s (by simp) (by simp)⟩

theorem memKept_doneInsn_modQc (mem : u.mem = s.mem) (hs : u.hs = s.hs) (ax : u.ax = s.ax) (rx : u.rx = s.rx) (fr : u.fr = s.fr)
    (out : u.out = s.out) : memKept s (onlyWork s (doneInsn q len (modQc q F u))) :=
  memKept_onlyWork (by simpa) (by simpa) (by simpa) (by simpa) (by simpa) (by simpa)

end Own

@[simp] theorem endCtx_nums (len : Nat) (c : QCtx) : (endCtx len c).nums = c.nums := by unfold endCtx; split <;> rfl

/-! ### Where a vector instruction runs -/

section Runs
variable {q : BitVec 20} {s : State}

theorem onKind_runs {q k : Nat} (run : canRun s q anyKind = true) (kind : qKind q = k) (body : State → State) :
    onKind q k s body = .next (onlyWork s (body s)) := by
  rw [onKind, if_pos run, if_pos kind]

theorem vxInsnNz_runs {nz : Bool} {bad : QCtx → Bool} (run : canRun s q.toNat anyKind = true) (kind : qKind q.toNat = kVX) (zero : nz = false)
    (good : bad (getQc s q.toNat) = false) (body : QCtx → State → State) :
    vxInsnNz q nz bad body s = .next (onlyWork s (body (getQc s q.toNat) s)) := by
  rw [vxInsnNz, onKind_runs run kind, if_neg (by simp [zero]), if_neg (by simp [good])]

theorem vxInsn_runs {bad : QCtx → Bool} (run : canRun s q.toNat anyKind = true) (kind : qKind q.toNat = kVX)
    (good : bad (getQc s q.toNat) = false) (body : QCtx → State → State) :
    vxInsn q bad body s = .next (onlyWork s (body (getQc s q.toNat) s)) := vxInsnNz_runs run kind rfl good body

theorem wBad_eq_false {w : BitVec 2} (width : w ≠ 3) : wBad w = false := by simpa [wBad] using width

theorem rmBad_eq_false {rm : BitVec 3} (five : rm ≠ 5) (six : rm ≠ 6) : rmBad rm = false := by simpa [rmBad] using ⟨five, six⟩

end Runs

/-! ### A vector result -/

/-- The queue context that vector results leave: RD and, by its results, flags and counters. -/
def withRes (free : Nat) (rd : BitVec 5) (v : VReg) (rs : List (Nat × Res)) (c : QCtx) : QCtx := applyRes free rs (wrV rd v c)

section WithRes
variable (free : Nat) (rd : BitVec 5) (v : VReg) (rs : List (Nat × Res)) (c : QCtx)

@[simp] theorem withRes_cmd : (withRes free rd v rs c).cmd = c.cmd := rfl
@[simp] theorem withRes_pc : (withRes free rd v rs c).pc = c.pc := rfl
@[simp] theorem withRes_vfcsr : (withRes free rd v rs c).vfcsr = raise (resFlags free rs) c.vfcsr := rfl
@[simp] theorem withRes_nums : (withRes free rd v rs c).nums = countAll c.nums (rs.map (fun r => r.2.cnt)) := rfl
@[simp] theorem rdG_withRes (r : BitVec 5) : rdG (withRes free rd v rs c) r = rdG c r := rfl
@[simp] theorem rdP_withRes (r : Nat) : rdP (withRes free rd v rs c) r = rdP c r := rfl
@[simp] theorem rdV_withRes (r : BitVec 5) : rdV (withRes free rd v rs c) r = if r = rd then v else rdV c r := rdV_wrV c rd r v

theorem flagsRaised_withRes (len : Nat) : flagsRaised c (endCtx len (withRes free rd v rs c)) (rs.map Prod.snd) :=
  flagsRaised_applyRes free rs (by simp) (by simp)

end WithRes

theorem map_snd_laneRes (c : QCtx) (pg : BitVec 3) (n : Nat) (f : Nat → Res) : (laneRes c pg n f).map Prod.snd = (activeOf c pg n).map f := by
  rw [laneRes, List.map_map]
  rfl

section Result
variable {q : BitVec 20} {rd : BitVec 5} {pg : BitVec 3} {s : State}

/-- A vector instruction that leaves one register and the flags and counts of its results answers a next state and keeps the rest. -/
theorem vxInsn_register {nz : Bool} {bad : QCtx → Bool} (v : QCtx → State → VReg) (rs : QCtx → State → List (Nat × Res))
    (run : canRun s q.toNat anyKind = true) (kind : qKind q.toNat = kVX) (zero : nz = false)
    (good : bad (getQc s q.toNat) = false) :
    let c := getQc s q.toNat
    ∃ t, vxInsnNz q nz bad (fun c t => doneInsn q.toNat 8
          (modQc q.toNat (fun x => applyRes t.free (rs c t) (wrV rd (v c t) x)) { t with free := t.free + 64 })) s = .next t
      ∧ rdV (getQc t q.toNat) rd = v c s ∧ (∀ r, r ≠ rd → rdV (getQc t q.toNat) r = rdV c r)
      ∧ flagsRaised c (getQc t q.toNat) ((rs c s).map Prod.snd)
      ∧ (∀ r, rdG (getQc t q.toNat) r = rdG c r) ∧ (∀ r, rdP (getQc t q.toNat) r = rdP c r)
      ∧ ended s t q.toNat (c.pc + 8) ∧ (∀ k, k ≠ q.toNat → getQc t k = getQc s k) ∧ memKept s t := by
  intro c
  obtain ⟨own, end_, others, -⟩ := onlyWork_doneInsn_modQc (s := s) (u := { s with free := s.free + 64 }) (len := 8)
    (F := withRes s.free rd (v c s) (rs c s)) (fun _ => rfl) (canRun_has run).2 rfl rfl
  refine ⟨_, vxInsnNz_runs run kind zero good _, ?_, fun r other => ?_, ?_, fun r => ?_, fun r => ?_, end_, others,
    memKept_doneInsn_modQc rfl rfl rfl rfl rfl rfl⟩
  · exact (congrArg (rdV · rd) own).trans (by simp)
  · exact (congrArg (rdV · r) own).trans (by simp [other, c])
  · exact (congrArg (fun d => flagsRaised c d _) own).mpr (flagsRaised_withRes ..)
  · exact (congrArg (rdG · r) own).trans (by simp [c])
  · exact (congrArg (rdP · r) own).trans (by simp [c])

/-- A vector instruction whose fields are good answers a next state with its vector result. -/
theorem vecInsn_result {nz : Bool} {bad : QCtx → Bool} (w n : Nat) (f : State → Nat → QCtx → Nat → Res) (run : canRun s q.toNat anyKind = true)
    (kind : qKind q.toNat = kVX) (zero : nz = false) (good : bad (getQc s q.toNat) = false) :
    ∃ t, vxInsnNz q nz bad (fun _ t => vecPut q.toNat rd pg w n (f t) t) s = .next t
      ∧ vecResult s t q.toNat rd pg w n (f s s.free (getQc s q.toNat)) := by
  obtain ⟨t, next, reg, vecs, flags, gens, preds, end_, others, kept⟩ := vxInsn_register (rd := rd)
    (fun c t => putRes w (rdV c rd) (laneRes c pg n (f t t.free c))) (fun c t => laneRes c pg n (f t t.free c)) run kind zero good
  refine ⟨t, next, fun i lane => ?_, ?_, vecs, gens, preds, end_, others, kept⟩
  · rw [reg]
    exact elem_putRes _ _ w n _ _ lane
  · rw [← map_snd_laneRes]
    exact flags

theorem fInsn_result {w : BitVec 2} {rm : BitVec 3} (f : FloatFmt → RMode → QCtx → Nat → Res) (run : canRun s q.toNat anyKind = true)
    (kind : qKind q.toNat = kVX) (width : w ≠ 3) (five : rm ≠ 5) (six : rm ≠ 6) :
    ∃ t, fInsn q rd pg w rm f s = .next t ∧ vecResult s t q.toNat rd pg (wBits w) (lanes (wBits w))
      (f (longFmt (wBits w)) (dirRM rm (getQc s q.toNat).vfcsr) (getQc s q.toNat)) := by
  have good : (wBad w || rmBad rm) = false := by rw [wBad_eq_false width, rmBad_eq_false five six]; rfl
  rw [fInsn, vxInsn]
  exact vecInsn_result (wBits w) (lanes (wBits w)) (fun _ _ c i => f (longFmt (wBits w)) (dirRM rm c.vfcsr) c i) run kind rfl good

theorem wInsn_result {w : BitVec 2} (f : Nat → QCtx → Nat → Res) (run : canRun s q.toNat anyKind = true)
    (kind : qKind q.toNat = kVX) (width : w ≠ 3) :
    ∃ t, wInsn q rd pg w f s = .next t ∧ vecResult s t q.toNat rd pg (wBits w) (lanes (wBits w)) (f (wBits w) (getQc s q.toNat)) := by
  rw [wInsn, vxInsn]
  exact vecInsn_result (wBits w) (lanes (wBits w)) (fun _ _ c i => f (wBits w) c i) run kind rfl (wBad_eq_false width)

/-- Of a result's bits those of the element count alone. -/
theorem vecResult_of_bits {t : State} {q w n : Nat} {f g : Nat → Nat} (h : vecResult s t q rd pg w n (fun i => { bits := f i }))
    (bits : ∀ i, f i % 2 ^ w = g i % 2 ^ w) : vecResult s t q rd pg w n (fun i => { bits := g i }) := by
  obtain ⟨elems, ⟨-, sticky, low, high, nums⟩, rest⟩ := h
  have plain : ∀ f : Nat → Nat, (((activeOf (getQc s q) pg n).map (fun i => ({ bits := f i } : Res))).map (·.cnt)) = (activeOf (getQc s q) pg n).map (fun _ => 0) :=
    fun f => by rw [List.map_map]; rfl
  refine ⟨fun i lane => ?_, ⟨fun r hr => ?_, sticky, low, high, ?_⟩, rest⟩
  · rw [elems i lane, bits]
  · obtain ⟨i, -, rfl⟩ := List.mem_map.1 hr
    simp
  · rw [nums, plain, plain]

theorem i2_result {w : BitVec 2} {ra rb : BitVec 5} (op : Nat → Nat → Nat → Nat) (run : canRun s q.toNat anyKind = true)
    (kind : qKind q.toNat = kVX) (width : w ≠ 3) :
    ∃ t, i2 q rd ra rb pg w op s = .next t ∧ vecResult s t q.toNat rd pg (wBits w) (lanes (wBits w))
      (fun i => { bits := op (wBits w) (elem (rdV (getQc s q.toNat) ra) (wBits w) i) (elem (rdV (getQc s q.toNat) rb) (wBits w) i) }) := by
  obtain ⟨t, next, result⟩ := wInsn_result (rd := rd) (pg := pg) (fun n c i => { bits := op n (elem (rdV c ra) n i) (elem (rdV c rb) n i) % 2 ^ n })
    run kind width
  exact ⟨t, next, vecResult_of_bits result fun i => Nat.mod_mod ..⟩

end Result

end Sys2Proof.Machine
end

section
/-! SUPPORT. The obligations of vector arithmetic, integers, conversions and activations, assembled (R39, R135 to R138). -/

namespace Sys2Proof.Machine

/-- Settles O19: each instruction is one of the two shared forms, with its operation on elements. -/
theorem vectorArithmeticByElement : Obligations.VectorArithmeticByElement := by
  intro q rd ra rb rc pg w rm s run kind width five six c n f m a b d e he
  have rounded : ∀ op, exec e.1 s = fInsn q rd pg w rm op s → op f m c = e.2 →
      ∃ t, exec e.1 s = .next t ∧ vecResult s t q.toNat rd pg n (lanes n) e.2 :=
    fun op means value => by rw [means, ← value]; exact fInsn_result op run kind width five six
  have plain : ∀ op, exec e.1 s = wInsn q rd pg w op s → op n c = e.2 →
      ∃ t, exec e.1 s = .next t ∧ vecResult s t q.toNat rd pg n (lanes n) e.2 :=
    fun op means value => by rw [means, ← value]; exact wInsn_result op run kind width
  simp only [List.mem_cons, List.not_mem_nil, or_false] at he
  rcases he with rfl | rfl | rfl | rfl | rfl | rfl | rfl | rfl | rfl | rfl | rfl | rfl | rfl | rfl | rfl | rfl | rfl | rfl | rfl | rfl
  · exact rounded (fun f m c i => addR f m (elemV c ra n i) (elemV c rb n i)) rfl rfl
  · exact rounded (fun f m c i => subR f m (elemV c ra n i) (elemV c rb n i)) rfl rfl
  · exact rounded (fun f m c i => mulR f m (elemV c ra n i) (elemV c rb n i)) rfl rfl
  · exact rounded (fun f m c i => divR f m (elemV c ra n i) (elemV c rb n i)) rfl rfl
  · exact rounded (fun f m c i => sqrtR f m (elemV c ra n i)) rfl rfl
  · exact rounded (fun f m c i => fmaR f m false false (elemV c ra n i) (elemV c rb n i) (elemV c rc n i)) rfl rfl
  · exact rounded (fun f m c i => fmaR f m false true (elemV c ra n i) (elemV c rb n i) (elemV c rc n i)) rfl rfl
  · exact rounded (fun f m c i => fmaR f m true false (elemV c ra n i) (elemV c rb n i) (elemV c rc n i)) rfl rfl
  · exact plain (fun n c i => minMaxR (longFmt n) false (elemV c ra n i) (elemV c rb n i)) rfl rfl
  · exact plain (fun n c i => minMaxR (longFmt n) true (elemV c ra n i) (elemV c rb n i)) rfl rfl
  · exact plain (fun n c i => remR (longFmt n) (elemV c ra n i) (elemV c rb n i)) rfl rfl
  · exact rounded (fun f m c i => rintR f m (elemV c ra n i)) rfl rfl
  · exact plain (fun n c i => { bits := elem (rdV c ra) n i % 2 ^ (n - 1) }) rfl rfl
  · exact plain (fun n c i => { bits := elem (rdV c ra) n i + 2 ^ (n - 1) }) rfl rfl
  · exact plain (fun n c i => { bits := 2 ^ (classBit (classOf (longFmt n) (elemV c ra n i)) % 10) }) rfl rfl
  · exact rounded (fun _ m c i => toIntR n m (elemV c ra n i)) rfl rfl
  · exact rounded (fun f m c i => toLong f m (ofInt (sField n (elem (rdV c ra) n i)) 0)) rfl rfl
  · exact plain (fun n c i => { bits := elem (rdV c ra) n i }) rfl rfl
  · exact plain (fun _ c _ => { bits := (rdG c ra).toNat }) rfl rfl
  · exact plain (fun n c i => { bits := elem (rdV c ra) n (elem (rdV c rb) n i % lanes n) }) rfl rfl

/-- Settles O20: each instruction is the shared form of integer instructions, with its operation on elements. -/
theorem vectorIntegerByElement : Obligations.VectorIntegerByElement := by
  intro q rd ra rb pg w s run kind width c n a b e he
  have wraps : ∀ op, exec e.1 s = i2 q rd ra rb pg w op s → (fun i => op n (a i) (b i)) = e.2 →
      ∃ t, exec e.1 s = .next t ∧ vecResult s t q.toNat rd pg n (lanes n) (fun i => { bits := e.2 i }) :=
    fun op means value => by rw [means, ← value]; exact i2_result op run kind width
  simp only [List.mem_cons, List.not_mem_nil, or_false] at he
  rcases he with rfl | rfl | rfl | rfl | rfl | rfl | rfl | rfl | rfl | rfl | rfl | rfl | rfl
  · exact wraps (fun _ a b => a + b) rfl rfl
  · exact wraps (fun n a b => 2 ^ n + a - b) rfl rfl
  · exact wraps (fun _ a b => a * b) rfl rfl
  · exact wraps (fun _ a b => a &&& b) rfl rfl
  · exact wraps (fun _ a b => a ||| b) rfl rfl
  · exact wraps (fun _ a b => a ^^^ b) rfl rfl
  · exact wraps (fun _ a b => a * 2 ^ elemSh b) rfl rfl
  · exact wraps (fun _ a b => a / 2 ^ elemSh b) rfl rfl
  · exact wraps (fun n a b => (sField n a / 2 ^ elemSh b % 2 ^ n).toNat) rfl rfl
  · exact wraps (fun n a b => if sField n a < sField n b then a else b) rfl rfl
  · exact wraps (fun n a b => if sField n a < sField n b then b else a) rfl rfl
  · exact wraps (fun _ a b => min a b) rfl rfl
  · exact wraps (fun _ a b => max a b) rfl rfl

/-! ### Conversions to and from blocks (R33, R37) -/

theorem bmWidth_le {k : Nat} (block : isBM k = true) : bmWidth k ≤ 16 := by
  simp only [isBM, Bool.and_eq_true, decide_eq_true_eq] at block
  obtain ⟨low, high⟩ := block
  interval_cases k <;> decide

/-- Results at elements below a bound leave a number below it. -/
theorem foldl_setFld_lt {β : Type} {key val : β → Nat} {l : List β} {w b a : Nat} (start : a < 2 ^ b) (below : ∀ x ∈ l, w * key x + w ≤ b) :
    l.foldl (fun a x => setFld a (w * key x) w (val x)) a < 2 ^ b := by
  induction l generalizing a with
  | nil => exact start
  | cons x l ih =>
    refine ih (Nat.lt_pow_two_of_testBit _ fun i high => ?_) (fun y hy => below y (List.mem_cons_of_mem _ hy))
    have := below x (List.mem_cons_self ..)
    rw [testBit_setFld, if_neg (by omega)]
    exact Nat.testBit_lt_two_pow (start.trans_le (Nat.pow_le_pow_right (by decide) high))

/-- The field above a number's bits is what stands there. -/
theorem fld_above {k m : Nat} (below : m < 2 ^ k) (x w : Nat) : fld (2 ^ k * x + m) k w = x % 2 ^ w := by
  rw [fld, Nat.mul_add_div (Nat.two_pow_pos k), Nat.div_eq_of_lt below, Nat.add_zero]

section Block
variable {w : Nat} {old : VReg} {act : List Nat} {b : Block}

/-- The mantissas of a block's register: those of the active elements as formed, the others as they were or 0. -/
def bmMants (w : Nat) (old : VReg) (act : List Nat) (b : Block) : Nat :=
  (act.zip b.ms).foldl (fun a p => setFld a (w * p.1) w (p.2 % 2 ^ w).toNat) (if b.e = 0 ∨ b.e = 255 then 0 else fld old.toNat 0 (32 * w))

theorem bmReg_eq (w : Nat) (old : VReg) (act : List Nat) (b : Block) :
    bmReg w old act b = BitVec.ofNat 1024 (2 ^ 1016 * (b.e % 256) + bmMants w old act b) := by
  rw [bmReg, Nat.add_comm, Nat.mul_comm]
  rfl

theorem bmMants_lt {k : Nat} (room : 32 * w ≤ k) (lanes : ∀ i ∈ act, i < 32) : bmMants w old act b < 2 ^ k := by
  refine foldl_setFld_lt ?_ fun p hp => ?_
  · split
    · exact Nat.two_pow_pos k
    · exact (fld_lt ..).trans_le (Nat.pow_le_pow_right (by decide) room)
  · have := Nat.mul_le_mul_left w (Nat.succ_le_of_lt (lanes p.1 (List.of_mem_zip hp).1))
    rw [Nat.mul_succ] at this
    omega

theorem fld_bmReg_exponent (width : w ≤ 16) (lanes : ∀ i ∈ act, i < 32) : fld (bmReg w old act b).toNat 1016 8 = b.e % 256 := by
  have below : bmMants w old act b < 2 ^ 1016 := bmMants_lt (k := 1016) (by omega) lanes
  rw [bmReg_eq, fld_ofNat (by decide), fld_above below]
  exact Nat.mod_mod ..

theorem fst_inj_of_mem_zip {α β : Type} {l : List α} {m : List β} (distinct : l.Nodup) {x y : α × β} (hx : x ∈ l.zip m) (hy : y ∈ l.zip m)
    (same : x.1 = y.1) : x = y := by
  obtain ⟨i, hi, rfl⟩ := List.getElem_of_mem hx
  obtain ⟨j, hj, rfl⟩ := List.getElem_of_mem hy
  rw [List.getElem_zip, List.getElem_zip, distinct.getElem_inj_iff] at same
  subst same
  rfl

theorem fld_bmReg_mantissa (width : w ≤ 16) (lanes : ∀ i ∈ act, i < 32) (distinct : act.Nodup) {p : Nat × Int} (hp : p ∈ act.zip b.ms) :
    fld (bmReg w old act b).toNat (w * p.1) w = (p.2 % 2 ^ w).toNat := by
  have place := Nat.mul_le_mul_left w (Nat.succ_le_of_lt (lanes p.1 (List.of_mem_zip hp).1))
  rw [Nat.mul_succ] at place
  have small : (p.2 % 2 ^ w).toNat < 2 ^ w := by
    have := Int.emod_lt_of_pos p.2 (show (0 : Int) < 2 ^ w by positivity)
    have := Int.emod_nonneg p.2 (show (2 ^ w : Int) ≠ 0 by positivity)
    zify
    omega
  have below : bmMants w old act b < 2 ^ 1016 := bmMants_lt (k := 1016) (by omega) lanes
  calc fld (bmReg w old act b).toNat (w * p.1) w
      = fld (bmMants w old act b) (w * p.1) w := by
        refine Nat.eq_of_testBit_eq fun i => ?_
        rw [bmReg_eq, fld_ofNat (by omega), testBit_fld, testBit_fld, Nat.testBit_two_pow_mul_add _ below]
        by_cases inside : i < w
        · rw [if_pos (by omega)]
        · simp [inside]
    _ = (p.2 % 2 ^ w).toNat % 2 ^ w :=
        fld_foldl_setFld ⟨p, hp, rfl⟩ (fun x hx at_ => by rw [fst_inj_of_mem_zip distinct hx hp at_]) _
    _ = (p.2 % 2 ^ w).toNat := Nat.mod_eq_of_lt small

end Block

section Convert
variable {q : BitVec 20} {rd ra fc : BitVec 5} {pg : BitVec 3} {s : State}

/-- The results that a formed block counts: a mantissa's count each, and the signals of the operands. -/
def bmResults (c : QCtx) (ra : BitVec 5) (act : List Nat) (b : Block) : List (Nat × Res) :=
  (act.zip b.cnts).map (fun p => (p.1, ({ bits := 0, flags := sigFlags (act.map (elemV c ra 32)), maybe := b.maybe, cnt := p.2 } : Res)))

theorem vcvtbm_result (run : canRun s q.toNat anyKind = true) (kind : qKind q.toNat = kVX) (block : isBM fc.toNat = true) :
    let c := getQc s q.toNat
    ∃ t, exec (.vcvtbm q rd ra fc pg) s = .next t
      ∧ (let act := activeOf c pg 32
         let b := formBlock (bmWidth fc.toNat) (fun i => vfShort c.vfcsr (genOf s q.toNat c.seq) (s.free + i)) (act.map (elemV c ra 32))
         fld (rdV (getQc t q.toNat) rd).toNat 1016 8 = b.e % 256
         ∧ ∀ p ∈ act.zip b.ms, fld (rdV (getQc t q.toNat) rd).toNat (bmWidth fc.toNat * p.1) (bmWidth fc.toNat) = (p.2 % 2 ^ bmWidth fc.toNat).toNat)
      ∧ ended s t q.toNat (c.pc + 8) ∧ (∀ r, r ≠ rd → rdV (getQc t q.toNat) r = rdV c r) ∧ memKept s t := by
  intro c
  let act := activeOf c pg 32
  let b := formBlock (bmWidth fc.toNat) (fun i => vfShort c.vfcsr (genOf s q.toNat c.seq) (s.free + i)) (act.map (elemV c ra 32))
  have lanes : ∀ i ∈ act, i < 32 := fun i hi => List.mem_range.1 (List.mem_filter.1 hi).1
  have distinct : act.Nodup := List.nodup_range.filter _
  obtain ⟨t, next, reg, others, -, -, -, end_, -, kept⟩ := vxInsn_register (rd := rd) (nz := false) (bad := fun _ => !isBM fc.toNat)
    (fun c t => bmReg (bmWidth fc.toNat) (rdV c rd) (activeOf c pg 32)
      (formBlock (bmWidth fc.toNat) (fun i => vfShort c.vfcsr (genOf t q.toNat c.seq) (t.free + i)) ((activeOf c pg 32).map (elemV c ra 32))))
    (fun c t => bmResults c ra (activeOf c pg 32)
      (formBlock (bmWidth fc.toNat) (fun i => vfShort c.vfcsr (genOf t q.toNat c.seq) (t.free + i)) ((activeOf c pg 32).map (elemV c ra 32))))
    run kind rfl (by rw [block]; rfl)
  refine ⟨t, next, ⟨?_, fun p hp => ?_⟩, end_, others, kept⟩
  · rw [reg]
    exact fld_bmReg_exponent (b := b) (bmWidth_le block) lanes
  · rw [reg]
    exact fld_bmReg_mantissa (b := b) (bmWidth_le block) lanes distinct hp

end Convert

/-- Settles O21: conversions to long formats and from element floats and blocks are vector results; a block's register by its fields. -/
theorem vectorFormatConversions : Obligations.VectorFormatConversions := by
  intro q rd ra fc pg w rm s run kind width five six c n k g
  refine ⟨fun long => ?_, fun short => ⟨?_, ?_⟩, fun block => ⟨?_, vcvtbm_result run kind block⟩⟩
  · show ∃ t, execVcvtf q rd ra fc pg w rm s = .next t ∧ _
    unfold execVcvtf vxInsn
    exact vecInsn_result (floatFmt k).width (min (lanes n) (lanes (floatFmt k).width))
      (fun _ _ c i => toLong (floatFmt k) (dirRM rm c.vfcsr) (elemV c ra n i)) run kind rfl
      (by rw [wBad_eq_false width, rmBad_eq_false five six, long]; rfl)
  · show ∃ t, execVcvte q rd ra fc pg w s = .next t ∧ _
    unfold execVcvte vxInsn
    exact vecInsn_result (fmtBits k) (lanes n)
      (fun t m c i => toShort k (vfShort c.vfcsr (genOf t q.toNat c.seq) (m + i)) (elemV c ra n i)) run kind rfl
      (by rw [wBad_eq_false width, short]; rfl)
  · show ∃ t, execVdece q rd ra fc pg w s = .next t ∧ _
    unfold execVdece vxInsn
    exact vecInsn_result n (lanes n)
      (fun _ m c i => exactTo (longFmt n) (m + i) (decodeCode k (fld (rdV c ra).toNat (fmtBits k * i) (fmtBits k)))) run kind rfl
      (by rw [wBad_eq_false width, short]; rfl)
  · show ∃ t, execVdecbm q rd ra fc pg s = .next t ∧ _
    unfold execVdecbm vxInsn
    exact vecInsn_result 32 32 (fun _ m c i => exactTo fmt32 (m + i)
      (decodeBM (bmWidth k) (fld (rdV c ra).toNat 1016 8) (sField (bmWidth k) (fld (rdV c ra).toNat (bmWidth k * i) (bmWidth k))))) run kind rfl
      (by rw [block]; rfl)

/-- Settles O22: with their fields as R137 asks, the activations are vector results. -/
theorem vectorActivations : Obligations.VectorActivations := by
  intro q rd ra rb rc fn pg w s run kind width code c n a b d
  have good : actBad w 0 fn = false := by simp [actBad, Nat.not_lt.2 width, Nat.not_lt.2 code]
  refine ⟨fun alpha => ?_, fun entry alpha => ?_, ?_⟩
  · show ∃ t, execVact q rd ra rb fn pg w 0 s = .next t ∧ _
    unfold execVact
    exact vecInsn_result n (lanes n)
      (fun _ k c i => actRes n (k + i) (if fn = 6 then [elemV c ra n i, elemV c rb n i] else [elemV c ra n i])
        (actAV fn.toNat (elemV c ra n i) (elemV c rb n i))) run kind (by rcases alpha with rfl | rfl <;> simp) good
  · show ∃ t, execVder q rd ra rb rc fn pg w 0 s = .next t ∧ _
    unfold execVder
    exact vecInsn_result n (lanes n)
      (fun _ k c i => actRes n (k + i)
        (if fn = 6 then [elemV c ra n i, elemV c rb n i, elemV c rc n i] else [elemV c ra n i, elemV c rb n i])
        (avMul (derAV fn.toNat (elemV c ra n i) (elemV c rc n i)) (elemV c rb n i))) run kind (by rcases alpha with rfl | rfl <;> simp)
      (by rw [good, entry]; rfl)
  · show ∃ t, execVderi q rd ra rb fn pg w 0 s = .next t ∧ _
    unfold execVderi vxInsn
    exact vecInsn_result n (lanes n) (fun _ k c i => actRes n (k + i) [elemV c ra n i, elemV c rb n i]
      (avMul (derIAV fn.toNat (elemV c ra n i) none) (elemV c rb n i))) run kind rfl good

end Sys2Proof.Machine
end

section
/-! SUPPORT. Predicate results, moves between elements and general registers, reductions into element 0, predicate logic and VFCSR
(R26, R27, R62, R135, Tables 07-3 and 07-4). -/

namespace Sys2Proof.Machine

/-! ### Instructions of VX that change their own queue context alone -/

section Own
variable {q : BitVec 20} {s : State} {bad : QCtx → Bool} {body : QCtx → State → State}

/-- A VX instruction that changes its own queue context alone answers a next state in which that is all it did. -/
theorem vxInsn_modQc (F : QCtx → QCtx) (run : canRun s q.toNat anyKind = true) (kind : qKind q.toNat = kVX)
    (good : bad (getQc s q.toNat) = false) (does : body (getQc s q.toNat) s = doneInsn q.toNat 8 (modQc q.toNat F s))
    (cmd : (F (getQc s q.toNat)).cmd = (getQc s q.toNat).cmd) (pc : (F (getQc s q.toNat)).pc = (getQc s q.toNat).pc) :
    let c := getQc s q.toNat
    ∃ t, vxInsn q bad body s = .next t ∧ getQc t q.toNat = endCtx 8 (F c)
      ∧ ended s t q.toNat (c.pc + 8) ∧ (∀ k, k ≠ q.toNat → getQc t k = getQc s k) ∧ memKept s t := by
  intro c
  obtain ⟨own, end_, others, -⟩ := onlyWork_doneInsn_modQc (s := s) (u := s) (len := 8) (F := F) (fun _ => rfl) (canRun_has run).2 cmd pc
  refine ⟨_, vxInsn_runs run kind good body, ?_⟩
  rw [does]
  exact ⟨own, end_, others, memKept_doneInsn_modQc rfl rfl rfl rfl rfl rfl⟩

/-- A VX instruction with a general register as its result. -/
theorem vxInsn_general (rd : BitVec 5) (v : QCtx → W64) (run : canRun s q.toNat anyKind = true) (kind : qKind q.toNat = kVX)
    (good : bad (getQc s q.toNat) = false)
    (does : body (getQc s q.toNat) s = doneInsn q.toNat 8 (modQc q.toNat (fun x => wrG rd (v x) x) s)) :
    ∃ t, vxInsn q bad body s = .next t ∧ regResult s t q.toNat rd 8 (v (getQc s q.toNat)) := by
  obtain ⟨t, next, own, end_, others, kept⟩ := vxInsn_modQc _ run kind good does (wrG_cmd ..) (wrG_pc ..)
  refine ⟨t, next, ?_, ?_, end_, others, kept⟩
  · rw [own, rdG_endCtx, rdG_wrG]
    simp
  · rw [own]
    exact othersKept_endCtx_wrG ..

/-- The instruction of VX that changes nothing and ends. -/
theorem vxInsn_nothing (run : canRun s q.toNat anyKind = true) (kind : qKind q.toNat = kVX) (good : bad (getQc s q.toNat) = false)
    (nothing : body (getQc s q.toNat) s = doneInsn q.toNat 8 s) :
    let c := getQc s q.toNat
    ∃ t, vxInsn q bad body s = .next t ∧ ended s t q.toNat (c.pc + 8) ∧ memKept s t ∧ (∀ r, rdG (getQc t q.toNat) r = rdG c r)
      ∧ othersKept c (getQc t q.toNat) 0 := by
  intro c
  have own : getQc (onlyWork s (body c s)) q.toNat = endCtx 8 c := by
    rw [getQc_onlyWork, nothing]
    exact getQc_doneInsn_self _ _ _ (canRun_has run).2
  refine ⟨_, vxInsn_runs run kind good body, ended_of_endCtx own rfl rfl, ?_, fun r => ?_, ?_⟩
  · rw [nothing]
    exact memKept_onlyWork (by simp) (by simp) (by simp) (by simp) (by simp) (by simp)
  · exact (congrArg (rdG · r) own).trans (by simp)
  · exact (congrArg (fun d => othersKept c d 0) own).mpr (othersKept_endCtx ..)

end Own

/-! ### Predicate results -/

theorem foldl_bits_lt (b : Nat → Bool) (n : Nat) : (upto n).foldl (fun a i => a + b01 (b i) * 2 ^ i) 0 < 2 ^ n := by
  induction n with
  | zero => simp [upto]
  | succ n ih =>
    rw [upto, List.range_succ, List.foldl_append]
    simp only [upto, List.foldl_cons, List.foldl_nil] at ih ⊢
    have : b01 (b n) * 2 ^ n ≤ 1 * 2 ^ n := Nat.mul_le_mul_right _ (by unfold b01; split <;> omega)
    omega

/-- Bits gathered one by one are the bits of their sum. -/
theorem testBit_foldl_bits (b : Nat → Bool) (n j : Nat) :
    ((upto n).foldl (fun a i => a + b01 (b i) * 2 ^ i) 0).testBit j = (decide (j < n) && b j) := by
  induction n with
  | zero => simp [upto]
  | succ n ih =>
    have below := foldl_bits_lt b n
    rw [upto] at ih below ⊢
    rw [List.range_succ, List.foldl_append, List.foldl_cons, List.foldl_nil, Nat.add_comm, Nat.mul_comm, Nat.testBit_two_pow_mul_add _ below, ih]
    rcases Nat.lt_trichotomy j n with lt | rfl | gt
    · simp [lt, Nat.lt_succ_of_lt lt]
    · cases b j <;> simp [b01]
    · have : ∀ x, (b01 x).testBit (j - n) = false := fun x => Nat.testBit_lt_two_pow
        (Nat.lt_of_lt_of_le (by unfold b01; split <;> decide : b01 x < 2 ^ 1) (Nat.pow_le_pow_right (by decide) (by omega)))
      simp [this, show ¬ j < n by omega, show ¬ j < n + 1 by omega]

/-- Among the outcomes of the active elements, that of an element is found where it is active. -/
theorem find_active (c : QCtx) (pg : BitVec 3) (n i : Nat) (g : Nat → Bool × Nat) :
    (((upto n).filter (active c pg)).map (fun j => (j, g j))).find? (fun r => r.1 == i)
      = if i < n ∧ active c pg i = true then some (i, g i) else none := by
  have members (r : Nat × Bool × Nat) : r ∈ ((upto n).filter (active c pg)).map (fun j => (j, g j)) ↔
      (r.1 < n ∧ active c pg r.1 = true) ∧ r.2 = g r.1 := by
    rw [List.mem_map]
    constructor
    · rintro ⟨j, hj, rfl⟩
      exact ⟨⟨List.mem_range.1 (List.mem_filter.1 hj).1, (List.mem_filter.1 hj).2⟩, rfl⟩
    · rintro ⟨⟨lane, on⟩, value⟩
      exact ⟨r.1, List.mem_filter.2 ⟨List.mem_range.2 lane, on⟩, Prod.ext rfl value.symm⟩
  cases found : (((upto n).filter (active c pg)).map (fun j => (j, g j))).find? (fun r => r.1 == i) with
  | none =>
    have absent := List.find?_eq_none.1 found
    exact (if_neg fun here => absent (i, g i) ((members _).2 ⟨here, rfl⟩) (by simp)).symm
  | some r =>
    obtain ⟨here, value⟩ := (members r).1 (List.mem_of_find?_eq_some found)
    have at_ : r.1 = i := by simpa using List.find?_some found
    subst at_
    rw [if_pos here, ← value]

section Predicate
variable (c : QCtx) (pd pg : BitVec 3) (n : Nat) (f : QCtx → Nat → Bool × Nat)

/-- The outcomes of the active elements, each with its flags. -/
def predOutcomes : List (Nat × Bool × Nat) := ((upto n).filter (active c pg)).map (fun i => (i, f c i))

/-- Bit i of a predicate result. -/
def predBit (i : Nat) : Bool := match (predOutcomes c pg n f).find? (fun r => r.1 == i) with | some r => r.2.1 | none => (rdP c pd.toNat).getLsbD i

/-- A predicate result as a register's value. -/
def predValue : W64 := BitVec.ofNat 64 ((upto 64).foldl (fun a i => a + b01 (predBit c pd pg n f i) * 2 ^ i) 0)

theorem predBit_eq (i : Nat) : predBit c pd pg n f i = if i < n ∧ active c pg i = true then (f c i).1 else (rdP c pd.toNat).getLsbD i := by
  rw [predBit, predOutcomes, find_active]
  by_cases here : i < n ∧ active c pg i = true
  · rw [if_pos here, if_pos here]
  · rw [if_neg here, if_neg here]

theorem getLsbD_predValue {i : Nat} (lane : i < 64) : (predValue c pd pg n f).getLsbD i = predBit c pd pg n f i := by
  rw [predValue, BitVec.getLsbD_ofNat, testBit_foldl_bits]
  simp [lane]

/-- What the predicate result of `c` makes of a queue context. -/
def withPred (x : QCtx) : QCtx :=
  { wrP pd.toNat (predValue c pd pg n f) x with vfcsr := raise ((predOutcomes c pg n f).foldl (fun a r => a ||| r.2.2) 0) x.vfcsr }

theorem rdP_withPred (x : QCtx) (r : Nat) : rdP (withPred c pd pg n f x) r =
    if r = pd.toNat then (if pd.toNat = 0 then BitVec.allOnes 64 else predValue c pd pg n f) else rdP x r := rdP_wrP ..

/-- A predicate instruction of VX whose fields are good answers a next state with its predicate result and raises its flags. -/
theorem predInsn_result {q : BitVec 20} {s : State} {bad : QCtx → Bool} (run : canRun s q.toNat anyKind = true) (kind : qKind q.toNat = kVX)
    (good : bad (getQc s q.toNat) = false) :
    let c := getQc s q.toNat
    ∃ t, vxInsn q bad (fun _ t => predPut q.toNat pd.toNat pg n f t) s = .next t ∧ predResult s t q.toNat pd pg n (fun i => (f c i).1)
      ∧ (getQc t q.toNat).vfcsr = raise ((predOutcomes c pg n f).foldl (fun a r => a ||| r.2.2) 0) c.vfcsr := by
  intro c
  obtain ⟨own, end_, others, -⟩ := onlyWork_doneInsn_modQc (s := s) (u := s) (len := 8) (F := withPred c pd pg n f)
    (fun _ => rfl) (canRun_has run).2 (wrP_cmd ..) (wrP_pc ..)
  have own : getQc (onlyWork s (predPut q.toNat pd.toNat pg n f s)) q.toNat = endCtx 8 (withPred c pd pg n f c) := own
  refine ⟨_, vxInsn_runs run kind good _, ⟨fun i lane => ?_, fun r other => ?_, fun r => ?_, fun r => ?_, end_, others,
    memKept_doneInsn_modQc rfl rfl rfl rfl rfl rfl⟩, ?_⟩
  · rw [own, rdP_endCtx, rdP_withPred, if_pos rfl]
    by_cases p0 : pd = 0
    · rw [if_pos (by rw [p0]; rfl), if_pos p0]
      rw [BitVec.getLsbD_allOnes, decide_eq_true lane]
    · rw [if_neg (show pd.toNat ≠ 0 from fun h => p0 (BitVec.eq_of_toNat_eq h)), if_neg p0, getLsbD_predValue _ _ _ _ _ lane, predBit_eq]
  · rw [own, rdP_endCtx, rdP_withPred, if_neg other]
  · rw [own, rdG_endCtx]
    exact rdG_wrP ..
  · rw [own, rdV_endCtx]
    exact rdV_wrP ..
  · rw [own, endCtx_vfcsr]
    rfl

end Predicate

/-- Settles O23: both are predicate results; the flags of VCMP gather those of each active element, and VISEQ has none. -/
theorem vectorComparisonsWritePredicates : Obligations.VectorComparisonsWritePredicates := by
  intro q pd ra rb fn pg w s run kind width c n r
  refine ⟨fun code => ?_, ?_⟩
  · obtain ⟨t, next, result, flags⟩ := predInsn_result (s := s) (bad := fun _ => wBad w || decide (6 < fn.toNat)) pd pg (lanes n)
      (fun c i => compareR fn.toNat (elemV c ra n i) (elemV c rb n i)) run kind (by simp [wBad_eq_false width, code])
    refine ⟨t, next, result, fun i lane on => ?_⟩
    rw [flags]
    refine vfFlags_raise_and (fun j bit => ?_) _
    exact testBit_foldl_or (h := fun r : Nat × Bool × Nat => r.2.2) (fun a x held => by rwa [Nat.testBit_or])
      (.inr ⟨(i, r i), List.mem_map.2 ⟨i, List.mem_filter.2 ⟨List.mem_range.2 lane, on⟩, rfl⟩, bit⟩)
  · obtain ⟨t, next, result, flags⟩ := predInsn_result (s := s) (bad := fun _ => wBad w) pd pg (lanes n)
      (fun c i => (elem (rdV c ra) n i == elem (rdV c rb) n i, 0)) run kind (wBad_eq_false width)
    refine ⟨t, next, result, ?_⟩
    have quiet : ∀ l : List Nat, (l.map (fun i => (i, elem (rdV c ra) n i == elem (rdV c rb) n i, 0))).foldl (fun a r => a ||| r.2.2) 0 = 0 := by
      intro l
      induction l with
      | nil => rfl
      | cons _ _ ih => simpa using ih
    rw [flags, predOutcomes, quiet, raise_zero]

end Sys2Proof.Machine
end

section
/-! SUPPORT. Moves between elements and general registers, reductions into element 0, predicate logic and VFCSR, assembled (R26, R62,
R134, Table 07-4). -/

namespace Sys2Proof.Machine

/-! ### One element of a register -/

/-- One element replaced. -/
theorem elem_putRes_single (w : Nat) (old : VReg) (i : Nat) (r : Res) {j : Nat} (lane : j < 1024 / w) :
    elem (putRes w old [(i, r)]) w j = if j = i then r.bits % 2 ^ w else elem old w j := by
  rw [elem, putRes, fld_ofNat (elem_fits lane), List.foldl_cons, List.foldl_nil]
  split
  next here => rw [here, fld_setFld_self]
  next other => exact fld_setFld_apart (elems_apart (Ne.symm other)).symm ..

/-- A register that holds a value below the element width holds it in element 0, and 0 in the others. -/
theorem elem_ofNat_first (w x : Nat) {j : Nat} (lane : j < 1024 / w) : elem (BitVec.ofNat 1024 (x % 2 ^ w)) w j = if j = 0 then x % 2 ^ w else 0 := by
  rw [elem, fld_ofNat (elem_fits lane), fld]
  split
  next first => simp [first]
  next later =>
    have above : x % 2 ^ w < 2 ^ (w * j) := (Nat.mod_lt _ (Nat.two_pow_pos w)).trans_le
      (Nat.pow_le_pow_right (by decide) (Nat.le_mul_of_pos_right w (Nat.pos_of_ne_zero later)))
    rw [Nat.div_eq_of_lt above, Nat.zero_mod]

/-- A reduction answers a next state with its result in element 0 of RD and 0 in the others. -/
theorem reduceInsn_result {q : BitVec 20} {s : State} {bad : QCtx → Bool} (rd : BitVec 5) (w : Nat) (f : Nat → QCtx → Res)
    (run : canRun s q.toNat anyKind = true) (kind : qKind q.toNat = kVX) (good : bad (getQc s q.toNat) = false) :
    let c := getQc s q.toNat
    ∃ t, vxInsn q bad (fun _ t => reducePut q.toNat rd w f t) s = .next t ∧ ended s t q.toNat (c.pc + 8) ∧ memKept s t
      ∧ (∀ j, j < lanes w → elem (rdV (getQc t q.toNat) rd) w j = if j = 0 then (f s.free c).bits % 2 ^ w else 0)
      ∧ flagsRaised c (getQc t q.toNat) [f s.free c] ∧ (∀ r, r ≠ rd → rdV (getQc t q.toNat) r = rdV c r) := by
  intro c
  obtain ⟨t, next, reg, vecs, flags, -, -, end_, -, kept⟩ := vxInsn_register (nz := false) (rd := rd)
    (fun _ t => BitVec.ofNat 1024 ((f t.free (getQc t q.toNat)).bits % 2 ^ w)) (fun _ t => [(0, f t.free (getQc t q.toNat))]) run kind rfl good
  refine ⟨t, next, end_, kept, fun j lane => ?_, flags, vecs⟩
  rw [reg]
  exact elem_ofNat_first w _ lane

/-- Settles O25: VEXT and VINS move the element that RB names where it is active; reductions leave their result in element 0. -/
theorem vectorElementMovesAndReductions : Obligations.VectorElementMovesAndReductions := by
  intro q rd ra rb pg w rm s run kind width five six c n i xs
  have good (lane : i < lanes n) : (wBad w || decide (lanes n ≤ i)) = false := by simp [wBad_eq_false width, Nat.not_le.2 lane]
  refine ⟨fun lane on => ⟨?_, ?_⟩, fun lane off e he => ?_, fun e he => ?_⟩
  · show ∃ t, execVext q rd ra rb pg w s = .next t ∧ _
    unfold execVext
    exact vxInsn_general rd (fun _ => BitVec.ofNat 64 (elem (rdV c ra) n i)) run kind (good lane) (congrArg (doneInsn q.toNat 8) (if_pos on))
  · show ∃ t, execVins q rd ra rb pg w s = .next t ∧ _
    unfold execVins
    obtain ⟨t, next, own, end_, -, kept⟩ := vxInsn_modQc (bad := fun c => wBad w || decide (lanes n ≤ (rdG c rb).toNat))
      (body := fun c t => doneInsn q.toNat 8 (if active c pg (rdG c rb).toNat then
        modQc q.toNat (wrV rd (putRes n (rdV c rd) [((rdG c rb).toNat, { bits := (rdG c ra).toNat })])) t else t))
      (wrV rd (putRes n (rdV c rd) [(i, { bits := (rdG c ra).toNat })])) run kind (good lane) (congrArg (doneInsn q.toNat 8) (if_pos on)) rfl rfl
    refine ⟨t, next, end_, kept, fun j inside => ?_, fun r other => ?_⟩
    · rw [own, rdV_endCtx, rdV_wrV, if_pos rfl]
      exact elem_putRes_single n _ i _ inside
    · rw [own, rdV_endCtx, rdV_wrV, if_neg other]
  · simp only [List.mem_cons, List.not_mem_nil, or_false] at he
    have idle := Bool.eq_false_iff.1 off
    rcases he with rfl | rfl
    · show ∃ t, execVext q rd ra rb pg w s = .next t ∧ _
      unfold execVext
      exact vxInsn_nothing run kind (good lane) (congrArg (doneInsn q.toNat 8) (if_neg idle))
    · show ∃ t, execVins q rd ra rb pg w s = .next t ∧ _
      unfold execVins
      exact vxInsn_nothing run kind (good lane) (congrArg (doneInsn q.toNat 8) (if_neg idle))
  · simp only [List.mem_cons, List.not_mem_nil, or_false] at he
    rcases he with rfl | rfl
    · show ∃ t, execVrsum q rd ra pg w rm s = .next t ∧ _
      unfold execVrsum
      exact reduceInsn_result rd n (fun _ c => sumRes (longFmt n) (dirRM rm c.vfcsr) ((activeOf c pg (lanes n)).map (elemV c ra n))) run kind
        (by rw [wBad_eq_false width, rmBad_eq_false five six]; rfl)
    · show ∃ t, execVrmax q rd ra pg w s = .next t ∧ _
      unfold execVrmax
      exact reduceInsn_result rd n (fun k c => extremeRes (longFmt n) true k ((activeOf c pg (lanes n)).map (elemV c ra n))) run kind
        (wBad_eq_false width)

/-! ### Predicate logic and VFCSR -/

section Control
variable {q : BitVec 20} {s : State}

/-- Predicate logic on registers 0 to 7 answers a next state with its result; p0 stays all ones. -/
theorem pInsn_result {pd : BitVec 5} {bad : Bool} (f : QCtx → W64) (run : canRun s q.toNat anyKind = true) (kind : qKind q.toNat = kVX)
    (small : pd.toNat < 8) (good : bad = false) :
    let c := getQc s q.toNat
    ∃ t, pInsn q pd bad f s = .next t ∧ rdP (getQc t q.toNat) pd.toNat = (if pd = 0 then BitVec.allOnes 64 else f c)
      ∧ (∀ r, r ≠ pd.toNat → rdP (getQc t q.toNat) r = rdP c r) ∧ (∀ r, rdG (getQc t q.toNat) r = rdG c r)
      ∧ (∀ r, rdV (getQc t q.toNat) r = rdV c r) ∧ ended s t q.toNat (c.pc + 8) ∧ memKept s t := by
  intro c
  obtain ⟨t, next, own, end_, -, kept⟩ := vxInsn_modQc (bad := fun _ => bad || decide (8 ≤ pd.toNat))
    (body := fun _ t => doneInsn q.toNat 8 (modQc q.toNat (fun c => wrP pd.toNat (f c) c) t)) (fun c => wrP pd.toNat (f c) c) run kind
    (by simp [good, Nat.not_le.2 small]) rfl (wrP_cmd ..) (wrP_pc ..)
  refine ⟨t, next, ?_, fun r other => ?_, fun r => ?_, fun r => ?_, end_, kept⟩
  · rw [own, rdP_endCtx, rdP_wrP, if_pos rfl]
    exact if_congr (by rw [← BitVec.toNat_inj]; rfl) rfl rfl
  · rw [own, rdP_endCtx, rdP_wrP, if_neg other]
  · rw [own, rdG_endCtx, rdG_wrP]
  · rw [own, rdV_endCtx, rdV_wrP]

/-- A write of VFCSR keeps every register and memory. -/
theorem vfcsrInsn_result {bad : QCtx → Bool} (v : QCtx → W64) (run : canRun s q.toNat anyKind = true) (kind : qKind q.toNat = kVX)
    (good : bad (getQc s q.toNat) = false) :
    let c := getQc s q.toNat
    ∃ t, vxInsn q bad (fun _ t => doneInsn q.toNat 8 (modQc q.toNat (fun c => { c with vfcsr := v c }) t)) s = .next t
      ∧ (getQc t q.toNat).vfcsr = v c
      ∧ (∀ r, rdG (getQc t q.toNat) r = rdG c r) ∧ (∀ r, rdV (getQc t q.toNat) r = rdV c r) ∧ (∀ r, rdP (getQc t q.toNat) r = rdP c r)
      ∧ ended s t q.toNat (c.pc + 8) ∧ memKept s t := by
  intro c
  obtain ⟨t, next, own, end_, -, kept⟩ := vxInsn_modQc (bad := bad)
    (body := fun _ t => doneInsn q.toNat 8 (modQc q.toNat (fun c => { c with vfcsr := v c }) t))
    (fun c => { c with vfcsr := v c }) run kind good rfl rfl rfl
  refine ⟨t, next, ?_, fun r => ?_, fun r => ?_, fun r => ?_, end_, kept⟩
  · rw [own, endCtx_vfcsr]
  · rw [own, rdG_endCtx]; rfl
  · rw [own, rdV_endCtx]; rfl
  · rw [own, rdP_endCtx]; rfl

theorem finCtx_vfcsr (s : State) (q st : Nat) : (finCtx s q st).vfcsr = (getQc s q).vfcsr := by
  unfold finCtx
  split
  · rfl
  · split <;> rfl

/-- A VX instruction with a reserved field ends as an illegal instruction with reason ENCODING and keeps VFCSR. -/
theorem vxInsn_illegal {bad : QCtx → Bool} {body : QCtx → State → State} (run : canRun s q.toNat anyKind = true) (kind : qKind q.toNat = kVX)
    (wrong : bad (getQc s q.toNat) = true) :
    ∃ t, vxInsn q bad body s = .next t ∧ (getQc t q.toNat).vfcsr = (getQc s q.toNat).vfcsr ∧ faultAdded s t 1 0x11 6 := by
  have means : vxInsn q bad body s = .next (onlyWork s (illegalNow q.toNat rEncoding s)) := by
    rw [vxInsn, vxInsnNz, onKind_runs run kind, if_neg Bool.false_ne_true, if_pos wrong]
  refine ⟨_, means, ?_, (illegalEnd_illegal (canRun_has run).2 _ _ _).1⟩
  rw [getQc_onlyWork, illegalNow, illegal, getQc_finishCmd, if_pos rfl, finCtx_vfcsr, getQc_addFault]

end Control

/-- Settles O26: predicate logic, the moves to general registers and the two writes of VFCSR, legal and illegal. -/
theorem predicatesAndVfcsr : Obligations.PredicatesAndVfcsr := by
  intro q pd pa pb rd ra s run kind c
  have reads : ∃ t, exec (.rdvfcsr q rd) s = .next t ∧ regResult s t q.toNat rd 8 c.vfcsr := by
    show ∃ t, execRdvfcsr q rd s = .next t ∧ _
    have means : execRdvfcsr q rd s = vxInsn q (fun _ => false) (fun _ t => doneInsn q.toNat 8 (modQc q.toNat (fun c => wrG rd c.vfcsr c) t)) s := rfl
    rw [means]
    exact vxInsn_general rd (·.vfcsr) run kind rfl rfl
  refine ⟨fun small smallA smallB e he => ?_, fun smallA e he => ?_, reads, fun e he => ?_⟩
  · have fields : pBad pa = false ∧ pBad pb = false := by simp [pBad, smallA, smallB]
    simp only [List.mem_cons, List.not_mem_nil, or_false] at he
    rcases he with rfl | rfl | rfl | rfl | rfl
    · exact pInsn_result (bad := pBad pa || pBad pb) (fun c => rdP c pa.toNat &&& rdP c pb.toNat) run kind small (by simp [fields])
    · exact pInsn_result (bad := pBad pa || pBad pb) (fun c => rdP c pa.toNat ||| rdP c pb.toNat) run kind small (by simp [fields])
    · exact pInsn_result (bad := pBad pa || pBad pb) (fun c => rdP c pa.toNat ^^^ rdP c pb.toNat) run kind small (by simp [fields])
    · exact pInsn_result (bad := pBad pa) (fun c => ~~~ rdP c pa.toNat) run kind small fields.1
    · exact pInsn_result (bad := false) (fun c => rdG c ra) run kind small rfl
  · simp only [List.mem_cons, List.not_mem_nil, or_false] at he
    rcases he with rfl | rfl
    · show ∃ t, execPmovg q rd pa s = .next t ∧ _
      unfold execPmovg
      exact vxInsn_general rd (fun x => rdP x pa.toNat) run kind (by simp [pBad, smallA]) rfl
    · exact reads
  · simp only [List.mem_cons, List.not_mem_nil, or_false] at he
    rcases he with rfl | rfl
    · have means : exec (.wrvfcsr q ra) s = vxInsn q (fun c => !vfcsrOk (rdG c ra))
          (fun _ t => doneInsn q.toNat 8 (modQc q.toNat (fun c => { c with vfcsr := rdG c ra }) t)) s := rfl
      rw [means]
      exact ⟨fun legal => vfcsrInsn_result (fun c => rdG c ra) run kind (by simpa using legal),
        fun wrong => vxInsn_illegal run kind (by simpa using wrong)⟩
    · have means : exec (.clrvff q ra) s = vxInsn q (fun c => rdG c ra &&& ~~~ (0x3E0 : W64) != 0)
          (fun _ t => doneInsn q.toNat 8 (modQc q.toNat (fun c => { c with vfcsr := c.vfcsr &&& ~~~ rdG c ra }) t)) s := rfl
      rw [means]
      exact ⟨fun legal => vfcsrInsn_result (fun c => c.vfcsr &&& ~~~ rdG c ra) run kind (by simpa using legal),
        fun wrong => vxInsn_illegal run kind (by simpa using wrong)⟩

end Sys2Proof.Machine
end

section
/-! SUPPORT. Loads and stores of vector and predicate registers: the place of an aligned line, the bytes that several stores leave, and
the bytes of a register's active elements (R90, R107, R136). -/

namespace Sys2Proof.Machine

/-! ### Bytes of a value -/

theorem getElem_leBytes (n v i : Nat) (hi : i < (leBytes n v).length) : (leBytes n v)[i] = BitVec.ofNat 8 (v / 2 ^ (8 * i)) := by
  induction n generalizing v i with
  | zero => simp at hi
  | succ n ih =>
    cases i with
    | zero => simp [leBytes]
    | succ i =>
      simp only [leBytes, List.getElem_cons_succ]
      rw [ih, Nat.div_div_eq_div_mul, show 8 * (i + 1) = 8 + 8 * i by omega, Nat.pow_add]

theorem leNat_leBytes (n v : Nat) : leNat (leBytes n v) = v % 2 ^ (8 * n) := by
  induction n generalizing v with
  | zero => simp [leBytes, leNat, Nat.mod_one]
  | succ n ih =>
    rw [leBytes, leNat, ih, show 8 * (n + 1) = 8 + 8 * n by omega, Nat.pow_add, Nat.mod_mul, BitVec.toNat_ofNat]

/-- Byte `k` of a register. -/
def regByte (v : VReg) (k : Nat) : Byte := BitVec.ofNat 8 (v.toNat / 2 ^ (8 * k))

/-- The bytes of a field of whole bytes are the register's. -/
theorem getElem_leBytes_fld (v : VReg) (k n i : Nat) (hi : i < (leBytes n (fld v.toNat (8 * k) (8 * n))).length) :
    (leBytes n (fld v.toNat (8 * k) (8 * n)))[i] = regByte v (k + i) := by
  have inside : i < n := by simpa using hi
  rw [getElem_leBytes, regByte]
  refine BitVec.eq_of_getLsbD_eq fun j hj => ?_
  rw [BitVec.getLsbD_ofNat, BitVec.getLsbD_ofNat, Nat.testBit_div_two_pow, Nat.testBit_div_two_pow, testBit_fld]
  have : j + 8 * i < 8 * n := by omega
  simp only [this, decide_true, Bool.true_and]
  congr 2
  omega

theorem locBytes_congr {s t : State} {loc n : Nat} (same : ∀ i, i < n → locByte t (loc + i) = locByte s (loc + i)) :
    locBytes t loc n = locBytes s loc n := by
  induction n generalizing loc with
  | zero => rfl
  | succ n ih =>
    have first : locByte t loc = locByte s loc := same 0 (Nat.succ_pos n)
    rw [locBytes, locBytes, first, ih fun i hi => ?_]
    have := same (i + 1) (by omega)
    rwa [show loc + (i + 1) = loc + 1 + i by omega] at this

/-! ### The place of an aligned line -/

section Place
variable {s s1 : State} {ctx va acc loc : Nat} {who : Who}

/-- A home address lies at its physical address's place in the page. -/
theorem homeOf_mod {cnt pa h : Nat} (e : homeOf cnt pa = some h) : h % 4096 = pa % 4096 := by
  unfold homeOf at e
  dsimp only at e
  split at e
  · split at e <;> cases e
    rfl
  · split at e
    · split at e
      · cases e
        omega
      · cases e
    · split at e
      · split at e <;> cases e
        rfl
      · split at e
        · split at e <;> cases e
          rfl
        · cases e

theorem pageOut_mod {pte lvl : Nat} (e : pageOut s ctx who pte lvl va = .ok loc) : loc % 4096 = va % 4096 := by
  have place : ∀ b, (b * 4096 + va % (if lvl = 0 then 2 ^ 21 else 2 ^ 30)) % 4096 = va % 4096 := by
    intro b
    split <;> omega
  unfold pageOut at e
  dsimp only at e
  have placed := place (fld pte 12 45)
  generalize fld pte 12 45 * 4096 + va % (if lvl = 0 then 2 ^ 21 else 2 ^ 30) = pa at e placed
  by_cases hostPage : fld pte 5 1 = 1
  · rw [if_pos hostPage] at e
    split at e
    · cases e
    · split at e
      · cases e
      · cases e
        simp only [hostBit]
        omega
  · rw [if_neg hostPage] at e
    split at e
    · cases e
    · split at e
      · rename_i home
        cases e
        rw [homeOf_mod home, placed]
      · cases e

/-- A location lies at its address's place in the page. -/
theorem translate_mod (reach : translate s ctx va acc who = (.ok loc, s1)) : loc % 4096 = va % 4096 := by
  unfold translate at reach
  dsimp only at reach
  split at reach
  · simp at reach
  · split at reach
    · simp at reach
    · simp at reach
    · split at reach
      · simp at reach
      · exact pageOut_mod (Prod.ext_iff.mp reach).1

/-- The 128 bytes of an aligned location lie in one core memory or in none. -/
theorem coreClosed_line {l o : Nat} (aligned : l % 128 = 0) (inside : o < 128) (s : State) : coreClosed s (l + o) = coreClosed s l := by
  have host : isHost (l + o) = isHost l := by
    rw [isHost, isHost, decide_eq_decide]
    simp only [hostBit]
    omega
  have window : isCoreAddr (l + o) = isCoreAddr l := by
    rw [isCoreAddr, isCoreAddr, ← Bool.decide_and, ← Bool.decide_and, decide_eq_decide]
    simp only [coreBase]
    omega
  have core : coreOfAddr (l + o) = coreOfAddr l := by
    simp only [coreOfAddr, coreBase]
    omega
  rw [coreClosed, coreClosed, host, window, core]

end Place

/-! ### Several stores within one line -/

section Stores
variable {s : State} {loc cause : Nat} {st : List (Nat × List Byte)}

/-- The state after stores at offsets of a location. -/
def storesAt (cause loc : Nat) (st : List (Nat × List Byte)) (s : State) : State := st.foldl (fun x p => storeAt cause (loc + p.1) p.2 x) s

/-- Whether a store reaches offset `k`. -/
def Covers (p : Nat × List Byte) (k : Nat) : Prop := p.1 ≤ k ∧ k < p.1 + p.2.length

theorem coreClosed_storeAt (cause loc l : Nat) (bs : List Byte) (s : State) : coreClosed (storeAt cause loc bs s) l = coreClosed s l := by
  have kept : ∀ t : State, coreClosed (changed cause t) l = coreClosed t l :=
    fun t => changed_keep (coreClosed · l) (fun _ _ => rfl) (fun _ _ => rfl) (fun _ _ => rfl) cause t
  rw [storeAt, kept]
  unfold locStore
  split
  · rfl
  · split <;> rfl

@[simp] theorem getQc_storesAt (q : Nat) : getQc (storesAt cause loc st s) q = getQc s q := by
  unfold storesAt
  induction st generalizing s with
  | nil => rfl
  | cons p st ih => rw [List.foldl_cons, ih, getQc_storeAt]

theorem getElem_locBytes (s : State) (loc n i : Nat) (hi : i < (locBytes s loc n).length) : (locBytes s loc n)[i] = locByte s (loc + i) := by
  induction n generalizing loc i with
  | zero => simp [locBytes] at hi
  | succ n ih =>
    cases i with
    | zero => simp [locBytes]
    | succ i =>
      simp only [locBytes, List.getElem_cons_succ]
      rw [ih, show loc + 1 + i = loc + (i + 1) by omega]

/-- What a store leaves in a line that no reset domain absorbs. -/
theorem stored_line {p : Nat × List Byte} (aligned : loc % 128 = 0) (opened : coreClosed s loc = false)
    (whole : isHost loc = false → loc + 128 ≤ hostBit) (inside : p.1 < 128 ∧ p.1 + p.2.length ≤ 128) :
    stored s (storeAt cause (loc + p.1) p.2 s) (loc + p.1) p.2 := by
  obtain ⟨starts, ends⟩ := inside
  have bytes : stored s (locStore (loc + p.1) p.2 s) (loc + p.1) p.2 :=
    stored_locStore (by rw [coreClosed_line aligned starts, opened]) fun dev => by
      have below : isHost loc = false := by
        simp only [isHost, decide_eq_false_iff_not] at dev ⊢
        omega
      have := whole below
      omega
  exact stored_of_same bytes ⟨rfl, rfl⟩ ⟨by rw [storeAt, changed_mem], by rw [storeAt, changed_hs]⟩

/-- A byte that no store reaches is as it was. -/
theorem locByte_storesAt_ne (aligned : loc % 128 = 0) (opened : coreClosed s loc = false) (whole : isHost loc = false → loc + 128 ≤ hostBit)
    (inside : ∀ p ∈ st, p.1 < 128 ∧ p.1 + p.2.length ≤ 128) {a : Nat} (apart : ∀ p ∈ st, ∀ k, Covers p k → a ≠ loc + k) :
    locByte (storesAt cause loc st s) a = locByte s a := by
  induction st generalizing s with
  | nil => rfl
  | cons p st ih =>
    have first := stored_line (cause := cause) aligned opened whole (inside p (List.mem_cons_self ..))
    have rest := ih (s := storeAt cause (loc + p.1) p.2 s) (by rw [coreClosed_storeAt, opened]) (fun p hp => inside p (List.mem_cons_of_mem _ hp))
      (fun p hp => apart p (List.mem_cons_of_mem _ hp))
    refine rest.trans (first.2 a ?_)
    by_contra reached
    refine apart p (List.mem_cons_self ..) (a - loc) ?_ ?_
    · constructor <;> omega
    · omega

/-- Where all stores that reach a byte give it one value, it has that value. -/
theorem locByte_storesAt {B : Nat → Byte} (aligned : loc % 128 = 0) (opened : coreClosed s loc = false)
    (whole : isHost loc = false → loc + 128 ≤ hostBit) (inside : ∀ p ∈ st, p.1 < 128 ∧ p.1 + p.2.length ≤ 128)
    (value : ∀ p ∈ st, ∀ i (hi : i < p.2.length), p.2[i] = B (p.1 + i)) {k : Nat} (reached : ∃ p ∈ st, Covers p k) :
    locByte (storesAt cause loc st s) (loc + k) = B k := by
  induction st generalizing s with
  | nil => simp at reached
  | cons p st ih =>
    have first := stored_line (cause := cause) aligned opened whole (inside p (List.mem_cons_self ..))
    have opened' : coreClosed (storeAt cause (loc + p.1) p.2 s) loc = false := by rw [coreClosed_storeAt, opened]
    have inside' := fun r hr => inside r (List.mem_cons_of_mem p hr)
    by_cases later : ∃ r ∈ st, Covers r k
    · exact ih opened' inside' (fun r hr => value r (List.mem_cons_of_mem p hr)) later
    · have here : Covers p k := by
        obtain ⟨r, hr, covers⟩ := reached
        rcases List.mem_cons.1 hr with rfl | hr
        · exact covers
        · exact absurd ⟨r, hr, covers⟩ later
      obtain ⟨lo, hi⟩ := here
      have rest : locByte (storesAt cause loc st (storeAt cause (loc + p.1) p.2 s)) (loc + k)
          = locByte (storeAt cause (loc + p.1) p.2 s) (loc + k) :=
        locByte_storesAt_ne aligned opened' whole inside' fun r hr j covers same => later ⟨r, hr, by rwa [Nat.add_left_cancel same]⟩
      have at_ : k - p.1 < p.2.length := by omega
      calc locByte (storesAt cause loc (p :: st) s) (loc + k)
          = locByte (storeAt cause (loc + p.1) p.2 s) (loc + p.1 + (k - p.1)) := rest.trans (by rw [show loc + p.1 + (k - p.1) = loc + k by omega])
        _ = (locBytes (storeAt cause (loc + p.1) p.2 s) (loc + p.1) p.2.length)[k - p.1]'(by simpa using at_) := (getElem_locBytes ..).symm
        _ = p.2[k - p.1] := by simp only [first.1]
        _ = B k := by rw [value p (List.mem_cons_self ..), show p.1 + (k - p.1) = k by omega]

end Stores

/-! ### The bytes of a register's active elements -/

section Active
variable {c : QCtx} {pg : BitVec 3} {v : VReg} {b n : Nat}

/-- The bytes of half a register are those of the elements of that half. -/
theorem half_iff_lane (size : b * n = 64) (h k : Nat) : 64 * h ≤ k ∧ k < 64 * h + 64 ↔ h * n ≤ k / b ∧ k / b < h * n + n := by
  have pos : 0 < b := Nat.pos_of_ne_zero fun zero => by simp [zero] at size
  have start : h * n * b = 64 * h := by rw [← size, Nat.mul_comm, Nat.mul_comm h, Nat.mul_assoc]
  rw [Nat.le_div_iff_mul_le pos, Nat.div_lt_iff_lt_mul pos, Nat.add_mul, start, Nat.mul_comm n b, size]

/-- The elements of one half of a register. -/
def halfLanes (n h : Nat) : List Nat := (upto n).map (fun i => h * n + i)

theorem mem_halfLanes {n h i : Nat} : i ∈ halfLanes n h ↔ h * n ≤ i ∧ i < h * n + n := by
  simp only [halfLanes, upto, List.mem_map, List.mem_range]
  constructor
  · rintro ⟨j, lane, rfl⟩
    omega
  · rintro ⟨low, high⟩
    exact ⟨i - h * n, by omega, by omega⟩

/-- A store of the active elements is a half of them or one of them. -/
theorem mem_activeStores (size : b * n = 64) {p : Nat × List Byte} : p ∈ activeStores c pg v (8 * b) ↔ ∃ h, h < 2 ∧
    p ∈ if (halfLanes n h).all (active c pg) then [(64 * h, leBytes 64 (fld v.toNat (512 * h) 512))]
        else ((halfLanes n h).filter (active c pg)).map (fun i => (b * i, leBytes b (elem v (8 * b) i))) := by
  have pos : 0 < b := Nat.pos_of_ne_zero fun zero => by simp [zero] at size
  have bytes : 8 * b / 8 = b := by omega
  have half : 512 / (8 * b) = n := Nat.div_eq_of_eq_mul_right (by omega) (by rw [Nat.mul_assoc, size])
  simp only [activeStores, bytes, half, List.mem_flatMap, upto, List.mem_range]
  rfl

/-- A store of active elements lies within the line and gives it bytes of the register, of active elements alone. -/
theorem of_mem_activeStores (size : b * n = 64) {p : Nat × List Byte} (hp : p ∈ activeStores c pg v (8 * b)) :
    (p.1 < 128 ∧ p.1 + p.2.length ≤ 128) ∧ (∀ i (hi : i < p.2.length), p.2[i] = regByte v (p.1 + i))
    ∧ ∀ k, Covers p k → active c pg (k / b) = true := by
  have pos : 0 < b := Nat.pos_of_ne_zero fun zero => by simp [zero] at size
  obtain ⟨h, half, hp⟩ := (mem_activeStores size).1 hp
  by_cases whole : (halfLanes n h).all (active c pg) = true
  · rw [if_pos whole, List.mem_singleton] at hp
    subst hp
    refine ⟨?_, fun i hi => ?_, fun k covers => ?_⟩
    · simp only [length_leBytes]
      omega
    · simp only [show 512 * h = 8 * (64 * h) by omega]
      exact getElem_leBytes_fld v (64 * h) 64 i _
    · have covers : 64 * h ≤ k ∧ k < 64 * h + 64 := by simpa [Covers] using covers
      exact List.all_eq_true.1 whole _ (mem_halfLanes.2 ((half_iff_lane size h k).1 covers))
  · rw [if_neg whole] at hp
    obtain ⟨i, hi, rfl⟩ := List.mem_map.1 hp
    obtain ⟨lane, on⟩ := List.mem_filter.1 hi
    have place : ∀ k, b * i ≤ k → k < b * i + b → k / b = i := fun k lo hi =>
      Nat.div_eq_of_lt_le (by rw [Nat.mul_comm]; exact lo) (by rw [Nat.mul_comm, Nat.mul_succ]; exact hi)
    have last := (half_iff_lane size h (b * i + (b - 1))).2 (by rw [place _ (by omega) (by omega)]; exact mem_halfLanes.1 lane)
    refine ⟨?_, fun j hj => ?_, fun k covers => ?_⟩
    · simp only [length_leBytes]
      omega
    · simp only [elem, Nat.mul_assoc]
      exact getElem_leBytes_fld v (b * i) b j _
    · have covers : b * i ≤ k ∧ k < b * i + b := by simpa [Covers] using covers
      rw [place k covers.1 covers.2]
      exact on

/-- Every byte of an active element is stored. -/
theorem covered_of_active (size : b * n = 64) {k : Nat} (inside : k < 128) (on : active c pg (k / b) = true) :
    ∃ p ∈ activeStores c pg v (8 * b), Covers p k := by
  have pos : 0 < b := Nat.pos_of_ne_zero fun zero => by simp [zero] at size
  have lane := mem_halfLanes.2 ((half_iff_lane size (k / 64) k).1 (by omega))
  by_cases whole : (halfLanes n (k / 64)).all (active c pg) = true
  · refine ⟨(64 * (k / 64), leBytes 64 (fld v.toNat (512 * (k / 64)) 512)), (mem_activeStores size).2 ⟨k / 64, by omega, ?_⟩, ?_⟩
    · rw [if_pos whole]
      exact List.mem_singleton.2 rfl
    · simp only [Covers, length_leBytes]
      omega
  · refine ⟨(b * (k / b), leBytes b (elem v (8 * b) (k / b))), (mem_activeStores size).2 ⟨k / 64, by omega, ?_⟩, ?_⟩
    · rw [if_neg whole]
      exact List.mem_map.2 ⟨k / b, List.mem_filter.2 ⟨lane, on⟩, rfl⟩
    · simp only [Covers, length_leBytes]
      have := Nat.div_add_mod k b
      have := Nat.mod_lt k pos
      omega

/-- Stores of the active elements leave each of those its value and every other byte as it was. -/
theorem storesAt_activeStores {s : State} {loc cause : Nat} (size : b * n = 64) (aligned : loc % 128 = 0) (opened : coreClosed s loc = false)
    (whole : isHost loc = false → loc + 128 ≤ hostBit) :
    let t := storesAt cause loc (activeStores c pg v (8 * b)) s
    (∀ i, i < 2 * n → active c pg i = true → locNat t (loc + b * i) b = elem v (8 * b) i)
    ∧ (∀ i, i < 2 * n → active c pg i = false → locNat t (loc + b * i) b = locNat s (loc + b * i) b)
    ∧ ∀ a, a < loc ∨ loc + 128 ≤ a → locByte t a = locByte s a := by
  intro t
  have pos : 0 < b := Nat.pos_of_ne_zero fun zero => by simp [zero] at size
  have facts := fun p hp => of_mem_activeStores (c := c) (pg := pg) (v := v) size (p := p) hp
  have lane : ∀ i j, j < b → (b * i + j) / b = i := fun i j hj => by
    rw [Nat.mul_add_div pos, Nat.div_eq_of_lt hj, Nat.add_zero]
  refine ⟨fun i inside on => ?_, fun i inside off => ?_, fun a outside => ?_⟩
  · have within : b * i + b ≤ 128 := by
      have := Nat.mul_le_mul_left b (Nat.succ_le_of_lt inside)
      rw [Nat.mul_succ, Nat.mul_left_comm, size] at this
      omega
    have bytes : locBytes t (loc + b * i) (leBytes b (elem v (8 * b) i)).length = leBytes b (elem v (8 * b) i) :=
      locBytes_eq fun j hj => by
        have hj' : j < b := by simpa using hj
        rw [Nat.add_assoc, locByte_storesAt (B := regByte v) aligned opened whole (fun p hp => (facts p hp).1) (fun p hp => (facts p hp).2.1)
          (covered_of_active size (by omega) (by rw [lane i j hj']; exact on))]
        simp only [elem, Nat.mul_assoc]
        exact (getElem_leBytes_fld v (b * i) b j (by simpa using hj')).symm
    rw [length_leBytes] at bytes
    rw [locNat, bytes, leNat_leBytes]
    exact Nat.mod_eq_of_lt (fld_lt ..)
  · rw [locNat, locNat, locBytes_congr fun j hj => ?_]
    refine locByte_storesAt_ne aligned opened whole (fun p hp => (facts p hp).1) fun p hp k covers same => ?_
    have here := (facts p hp).2.2 k covers
    rw [show k = b * i + j by omega, lane i j hj, off] at here
    cases here
  · refine locByte_storesAt_ne aligned opened whole (fun p hp => (facts p hp).1) fun p hp k covers same => ?_
    obtain ⟨-, ends⟩ := (facts p hp).1
    obtain ⟨-, below⟩ := covers
    omega

end Active

end Sys2Proof.Machine
end

section
/-! SUPPORT. Vector and predicate loads and stores, assembled (R107, R136, Table 07-4). -/

namespace Sys2Proof.Machine

section Wide
variable {q : BitVec 20} {s s1 : State} {va loc n : Nat}

/-- A store of aligned, translated bytes. -/
theorem storeWide_ok {q : Nat} (aligned : va % n = 0) (reach : translate s (getQc s q).ctx va accWrite (whoOf q) = (.ok loc, s1))
    (put : Nat → State → State) : storeWide q va n put s = doneInsn q 8 (put loc s1) := by
  rw [storeWide, if_neg (by simp [aligned]), reach]

/-- A load of aligned, translated bytes without poison. -/
theorem loadWide_ok {q : Nat} {u : State} (aligned : va % n = 0) (reach : translate s (getQc s q).ctx va accRead (whoOf q) = (.ok loc, s1))
    (reads : (if 64 < n then readLoc (loc + 64) s1 else s1) = u) (clean : poisonIn u loc n = none) (f : Nat → QCtx → QCtx) :
    loadWide q va n f s = doneInsn q 8 (modQc q (f (locNat u loc n)) u) := by
  rw [loadWide, if_neg (by simp [aligned]), reach]
  dsimp only
  rw [reads, clean]

theorem getQc_readLoc (l : Nat) (s : State) (k : Nat) : getQc (readLoc l s) k = getQc s k := by
  rw [getQc, getQc, sans_en (readLoc_sans l s)]

theorem bytesSame_readLoc (l : Nat) (s : State) : bytesSame s (readLoc l s) :=
  ⟨sans_cells (readLoc_sans l s), by rw [sans_hs (readLoc_sans l s)]⟩

/-- The end of an instruction that changes no register. -/
theorem onlyWork_doneInsn {u : State} {q : Nat} (same : ∀ k, getQc u k = getQc s k) (has : (getQc s q).cmd.isSome = true) :
    let t := onlyWork s (doneInsn q 8 u)
    getQc t q = endCtx 8 (getQc s q) ∧ ended s t q ((getQc s q).pc + 8) ∧ bytesKept u t ∧ boardKept s t := by
  intro t
  have own : getQc t q = endCtx 8 (getQc s q) := by
    rw [getQc_onlyWork, getQc_doneInsn_self _ _ _ (by rw [same]; exact has), same]
  exact ⟨own, ended_of_endCtx own rfl rfl, bytesKept_onlyWork s (by simp) (by simp), boardKept_onlyWork ..⟩

end Wide

/-- The width of the elements that VST's guard governs is that of a W field. -/
theorem vstWidth_cases : ∃ b n, 2 ^ (4 + Config.vstWidth % 3) = 8 * b ∧ b * n = 64 ∧ 2 ≤ b := by
  have three : Config.vstWidth % 3 < 3 := Nat.mod_lt _ (by decide)
  generalize Config.vstWidth % 3 = k at three
  interval_cases k
  · exact ⟨2, 32, rfl, rfl, by decide⟩
  · exact ⟨4, 16, rfl, rfl, by decide⟩
  · exact ⟨8, 8, rfl, rfl, by decide⟩

section Ends
variable {q : BitVec 20} {rd : BitVec 5} {s u : State}

/-- The end of a load of a vector register from a state `u` that kept queue contexts and bytes. -/
theorem vectorLoad_result {q : Nat} (same : ∀ k, getQc u k = getQc s k) (bytes : bytesSame s u) (has : (getQc s q).cmd.isSome = true) (v : VReg) :
    let t := onlyWork s (doneInsn q 8 (modQc q (wrV rd v) u))
    rdV (getQc t q) rd = v ∧ (∀ r, r ≠ rd → rdV (getQc t q) r = rdV (getQc s q) r) ∧ ended s t q ((getQc s q).pc + 8)
      ∧ bytesSame s t ∧ bytesKept u t ∧ boardKept s t := by
  obtain ⟨own, end_, -, kept⟩ := onlyWork_doneInsn_modQc (len := 8) (F := wrV rd v) same has rfl rfl
  refine ⟨?_, fun r other => ?_, end_, bytesSame_trans bytes kept.1, kept, boardKept_onlyWork ..⟩
  · rw [own, rdV_endCtx, rdV_wrV, if_pos rfl]
  · rw [own, rdV_endCtx, rdV_wrV, if_neg other]

/-- The end of a load of a predicate register from a state `u` that kept queue contexts and bytes. -/
theorem predicateLoad_result {q : Nat} (same : ∀ k, getQc u k = getQc s k) (bytes : bytesSame s u) (has : (getQc s q).cmd.isSome = true) (v : W64) :
    let t := onlyWork s (doneInsn q 8 (modQc q (wrP rd.toNat v) u))
    rdP (getQc t q) rd.toNat = (if rd = 0 then BitVec.allOnes 64 else v) ∧ (∀ r, r ≠ rd.toNat → rdP (getQc t q) r = rdP (getQc s q) r)
      ∧ ended s t q ((getQc s q).pc + 8) ∧ bytesSame s t ∧ bytesKept u t ∧ boardKept s t := by
  obtain ⟨own, end_, -, kept⟩ := onlyWork_doneInsn_modQc (len := 8) (F := wrP rd.toNat v) same has (wrP_cmd ..) (wrP_pc ..)
  refine ⟨?_, fun r other => ?_, end_, bytesSame_trans bytes kept.1, kept, boardKept_onlyWork ..⟩
  · rw [own, rdP_endCtx, rdP_wrP, if_pos rfl]
    exact if_congr (by rw [← BitVec.toNat_inj]; rfl) rfl rfl
  · rw [own, rdP_endCtx, rdP_wrP, if_neg other]

/-- VST with no active element stores nothing. -/
theorem activeStores_eq_nil {c : QCtx} {pg : BitVec 3} {v : VReg} {b n : Nat} (size : b * n = 64) (wide : 2 ≤ b)
    (idle : ∀ i, i < 64 → active c pg i = false) : activeStores c pg v (8 * b) = [] := by
  have few : 2 * n ≤ 64 := size ▸ Nat.mul_le_mul_right n wide
  have pos : 0 < n := Nat.pos_of_ne_zero fun zero => by simp [zero] at size
  have off : ∀ h i, h < 2 → i ∈ halfLanes n h → active c pg i = false := fun h i half lane => by
    have := Nat.mul_le_mul_right n (Nat.le_of_lt_succ half)
    obtain ⟨-, high⟩ := mem_halfLanes.1 lane
    exact idle i (by omega)
  refine List.eq_nil_iff_forall_not_mem.2 fun p hp => ?_
  obtain ⟨h, half, hp⟩ := (mem_activeStores size).1 hp
  split at hp
  next whole =>
    have first : h * n ∈ halfLanes n h := mem_halfLanes.2 (by omega)
    have on := List.all_eq_true.1 whole _ first
    rw [off h _ half first] at on
    cases on
  next =>
    obtain ⟨i, hi, -⟩ := List.mem_map.1 hp
    obtain ⟨lane, on⟩ := List.mem_filter.1 hi
    rw [off h i half lane] at on
    cases on

/-- VST at an aligned, translated address ends behind the stores of its active elements, which with none are no access. -/
theorem execVst_stores {ra : BitVec 5} {off : W32} {pg : BitVec 3} {s1 : State} {loc : Nat} (run : canRun s q.toNat anyKind = true)
    (kind : qKind q.toNat = kVX) (aligned : wideAddr (getQc s q.toNat) ra off % 128 = 0)
    (reach : translate s (getQc s q.toNat).ctx (wideAddr (getQc s q.toNat) ra off) accWrite (whoOf q.toNat) = (.ok loc, s1)) :
    ∃ u, execVst q rd ra off pg s = .next (onlyWork s (doneInsn q.toNat 8 u)) ∧ (∀ k, getQc u k = getQc s k)
      ∧ bytesSame (storesAt causeEngine loc
          (activeStores (getQc s q.toNat) pg (rdV (getQc s q.toNat) rd) (2 ^ (4 + Config.vstWidth % 3))) s1) u := by
  rw [execVst, onKind_runs run kind]
  dsimp only
  cases activeStores (getQc s q.toNat) pg (rdV (getQc s q.toNat) rd) (2 ^ (4 + Config.vstWidth % 3)) with
  | nil =>
    obtain ⟨dev, host⟩ := bytesSame_translate reach
    dsimp only
    rw [if_neg (by simp [aligned])]
    exact ⟨s, rfl, fun _ => rfl, dev.symm, host.symm⟩
  | cons p st =>
    dsimp only
    rw [storeWide_ok aligned reach]
    exact ⟨_, rfl, fun k => (getQc_storesAt k).trans (getQc_translate reach k), rfl, rfl⟩

theorem execVst_nothing {ra : BitVec 5} {off : W32} {pg : BitVec 3} (run : canRun s q.toNat anyKind = true) (kind : qKind q.toNat = kVX)
    (aligned : wideAddr (getQc s q.toNat) ra off % 128 = 0)
    (none_ : activeStores (getQc s q.toNat) pg (rdV (getQc s q.toNat) rd) (2 ^ (4 + Config.vstWidth % 3)) = []) :
    execVst q rd ra off pg s = .next (onlyWork s (doneInsn q.toNat 8 s)) := by
  rw [execVst, onKind_runs run kind]
  dsimp only
  rw [none_]
  dsimp only
  rw [if_neg (by simp [aligned])]

end Ends

/-- Settles O24: the loads through the bytes of the translated location, VST through the bytes of its active elements. -/
theorem vectorLoadsAndStores : Obligations.VectorLoadsAndStores := by
  intro q rd ra off pg s s1 loc run kind c va
  have has := (canRun_has run).2
  refine ⟨fun reach => ⟨fun aligned clean => ?_, fun aligned small clean => ?_⟩, fun aligned idle => ?_,
    fun reach => ⟨fun aligned => ?_, fun aligned small => ?_⟩⟩
  · have same : ∀ k, getQc (readLoc (loc + 64) s1) k = getQc s k := fun k => by rw [getQc_readLoc, getQc_translate reach]
    have bytes : bytesSame s (readLoc (loc + 64) s1) := bytesSame_trans (bytesSame_translate reach) (bytesSame_readLoc ..)
    have means : execVld q rd ra off s = .next (onlyWork s (doneInsn q.toNat 8
        (modQc q.toNat (wrV rd (BitVec.ofNat 1024 (locNat s loc 128))) (readLoc (loc + 64) s1)))) := by
      rw [execVld, onKind_runs run kind, loadWide_ok (va := wideAddr c ra off) aligned reach (if_pos (by decide)) clean, locNat_of_same bytes]
    exact ⟨_, means, vectorLoad_result same bytes has _⟩
  · have means : execPld q rd ra off s = .next (onlyWork s (doneInsn q.toNat 8
        (modQc q.toNat (wrP rd.toNat (BitVec.ofNat 64 (locNat s loc 8))) s1))) := by
      rw [execPld, vxInsn_runs run kind (by simpa using small), loadWide_ok (va := wideAddr c ra off) aligned reach (if_neg (by decide)) clean,
        locNat_of_same (bytesSame_translate reach)]
    exact ⟨_, means, predicateLoad_result (getQc_translate reach) (bytesSame_translate reach) has _⟩
  · obtain ⟨b, n, width, size, wide⟩ := vstWidth_cases
    obtain ⟨own, end_, kept, board⟩ := onlyWork_doneInsn (s := s) (u := s) (fun _ => rfl) has
    refine ⟨_, execVst_nothing run kind aligned (by rw [width]; exact activeStores_eq_nil size wide idle), end_, kept, fun r => ?_, board⟩
    rw [own, rdV_endCtx]
  · obtain ⟨u, means, same, bytes⟩ := execVst_stores (rd := rd) (ra := ra) (off := off) (pg := pg) run kind aligned reach
    obtain ⟨b, n, width, size, -⟩ := vstWidth_cases
    have place : loc % 128 = 0 := by
      have := translate_mod reach
      omega
    have whole : isHost loc = false → loc + 128 ≤ hostBit := fun dev => by
      have := translate_lt reach dev
      simp only [hostBit]
      omega
    rw [width] at bytes
    obtain ⟨ons, offs, out⟩ := storesAt_activeStores (c := c) (pg := pg) (v := rdV c rd) (cause := causeEngine) size place
      (closed_of_run run reach) whole
    obtain ⟨own, end_, kept, board⟩ := onlyWork_doneInsn same has
    have after := bytesSame_trans bytes kept.1
    have before := bytesSame_translate reach
    have count : 1024 / (8 * b) = 2 * n := by
      have pos : 0 < b := Nat.pos_of_ne_zero fun zero => by simp [zero] at size
      exact Nat.div_eq_of_eq_mul_right (by omega) (by nlinarith)
    dsimp only
    rw [width, count, show 8 * b / 8 = b by omega]
    refine ⟨_, means, end_, fun i lane on => ?_, fun i lane off => ?_, fun a outside => ?_, fun r => ?_, board⟩
    · rw [locNat_of_same after, ons i lane on]
    · rw [locNat_of_same after, offs i lane off, locNat_of_same before]
    · rw [locByte_of_same after, out a outside, locByte_of_same before]
    · rw [own, rdV_endCtx]
  · have means : execPst q rd ra off s = .next (onlyWork s (doneInsn q.toNat 8
        (storeAt causeEngine loc (leBytes 8 (rdP c rd.toNat).toNat) s1))) := by
      rw [execPst, vxInsn_runs run kind (by simpa using small), storeWide_ok (va := wideAddr c ra off) aligned reach]
    obtain ⟨own, end_, kept, board⟩ := onlyWork_doneInsn (u := storeAt causeEngine loc (leBytes 8 (rdP c rd.toNat).toNat) s1)
      (fun k => by rw [getQc_storeAt, getQc_translate reach]) has
    refine ⟨_, means, end_, stored_storeAt run reach (by simp) causeEngine kept.1, fun r => ?_, board⟩
    rw [own, rdP_endCtx]

end Sys2Proof.Machine
end

section
/-! SUPPORT. Long-running tensor instructions: their start, the descriptors they read, their end, and that what they read and write is a
job from the state they start in (R94, R103, R126, R131, R140). -/

namespace Sys2Proof.Machine

/-! ### The start -/

/-- A queue context whose long-running instruction starts: a program's takes the next sequence number. -/
def longCtx (c : QCtx) : QCtx := if isProg c then { c with nextSeq := c.nextSeq + 1 } else c

section LongCtx
variable (c : QCtx)
@[simp] theorem longCtx_pc : (longCtx c).pc = c.pc := by unfold longCtx; split <;> rfl
@[simp] theorem longCtx_cmd : (longCtx c).cmd = c.cmd := by unfold longCtx; split <;> rfl
@[simp] theorem longCtx_ctx : (longCtx c).ctx = c.ctx := by unfold longCtx; split <;> rfl
@[simp] theorem rdG_longCtx (r : BitVec 5) : rdG (longCtx c) r = rdG c r := by unfold longCtx; split <;> rfl
@[simp] theorem isProg_longCtx : isProg (longCtx c) = isProg c := by rw [isProg, isProg, longCtx_cmd]
end LongCtx

section Start
variable (q word : Nat) (s : State)

theorem startLong_keep {β : Type} (f : State → β) (h1 : ∀ (t : State) (o : Ob), f { t with ob := o } = f t) (h2 : ∀ isl t, f (bumpIseq isl t) = f t)
    (h3 : ∀ k e t, f (setEng k e t) = f t) (h4 : ∀ isl t, f (tickIsland isl t) = f t) (h5 : ∀ q v t, f (setQc q v t) = f t) :
    f (startLong q word s) = f s := by
  unfold startLong
  dsimp only
  split
  · rw [traceEng_keep f h1 h2 h3 h4, h5]
  · rfl

@[simp] theorem startLong_mem : (startLong q word s).mem = s.mem :=
  startLong_keep q word s (·.mem) (fun _ _ => rfl) (fun _ _ => rfl) (fun _ _ _ => rfl) (fun _ _ => rfl) (fun _ _ _ => rfl)
@[simp] theorem startLong_hs : (startLong q word s).hs = s.hs :=
  startLong_keep q word s (·.hs) (fun _ _ => rfl) (fun _ _ => rfl) (fun _ _ _ => rfl) (fun _ _ => rfl) (fun _ _ _ => rfl)
@[simp] theorem startLong_fe : (startLong q word s).fe = s.fe :=
  startLong_keep q word s (·.fe) (fun _ _ => rfl) (fun _ _ => rfl) (fun _ _ _ => rfl) (fun _ _ => rfl) (fun _ _ _ => rfl)
@[simp] theorem startLong_bt : (startLong q word s).bt = s.bt :=
  startLong_keep q word s (·.bt) (fun _ _ => rfl) (fun _ _ => rfl) (fun _ _ _ => rfl) (fun _ _ => rfl) (fun _ _ _ => rfl)
@[simp] theorem startLong_fr : (startLong q word s).fr = s.fr :=
  startLong_keep q word s (·.fr) (fun _ _ => rfl) (fun _ _ => rfl) (fun _ _ _ => rfl) (fun _ _ => rfl) (fun _ _ _ => rfl)
@[simp] theorem startLong_ax : (startLong q word s).ax = s.ax :=
  startLong_keep q word s (·.ax) (fun _ _ => rfl) (fun _ _ => rfl) (fun _ _ _ => rfl) (fun _ _ => rfl) (fun _ _ _ => rfl)
@[simp] theorem startLong_rx : (startLong q word s).rx = s.rx :=
  startLong_keep q word s (·.rx) (fun _ _ => rfl) (fun _ _ => rfl) (fun _ _ _ => rfl) (fun _ _ => rfl) (fun _ _ _ => rfl)
@[simp] theorem getQ_startLong (k : Nat) : getQ (startLong q word s) k = getQ s k :=
  startLong_keep q word s (getQ · k) (fun _ _ => rfl) (fun _ _ => rfl) (fun _ _ _ => rfl) (fun _ _ => rfl) (fun _ _ _ => rfl)

@[simp] theorem getQc_startLong (k : Nat) : getQc (startLong q word s) k = if k = q then longCtx (getQc s q) else getQc s k := by
  unfold startLong longCtx
  dsimp only
  split
  · rw [getQc_traceEng, getQc_setQc]
  · split
    · subst_vars; rfl
    · rfl

end Start

/-! ### Descriptors -/

section Descriptors
variable {s t u : State} {part handle : Nat}

theorem engPart_of_fe (same : t.fe = s.fe) (kind index : Nat) : engPart t kind index = engPart s kind index := by
  simp only [engPart, partCount, same]

theorem meetTd_sans (s : State) (part handle : Nat) : sansCache (meetTd s part handle) = sansCache s := by
  unfold meetTd
  split
  · rfl
  · exact readLoc_sans ..

/-- A descriptor that passes its checks is what its instruction goes on with. -/
theorem withTd_ok {q d o : Nat} {dest : Bool} {extra : Nat → Bool} {seq : BitVec 56} (table : engPart t (qKind q) (qIndex q) = part)
    (read : readTd (meetTd t part handle) part handle = .ok d) (sound : tdOk dest d = true) (fits : extra d = true) (k : Nat → State → State) :
    withTd q handle o dest extra seq t k = k d (meetTd t part handle) := by
  have kept : engPart (meetTd t part handle) (qKind q) (qIndex q) = part := by rw [engPart_of_fe (sans_fe (meetTd_sans ..)), table]
  unfold withTd
  rw [table]
  dsimp only
  rw [kept, read]
  dsimp only
  rw [if_pos (by simp [sound, fits])]

theorem readTds_sans {hs ds : List Nat} (reads : readTds part hs s = some (ds, u)) : sansCache u = sansCache s := by
  induction hs generalizing s ds with
  | nil =>
    cases reads
    rfl
  | cons h hs ih =>
    rw [readTds] at reads
    split at reads
    · obtain ⟨r, rest, same⟩ := Option.map_eq_some_iff.1 reads
      cases same
      exact (ih rest).trans (meetTd_sans ..)
    · cases reads

/-- An instruction whose descriptors can be read goes on with the first, in the state from which the others are read. -/
theorem withTd_readTds {q h d : Nat} {hs ds : List Nat} (table : engPart t (qKind q) (qIndex q) = part)
    (reads : readTds part (h :: hs) t = some (d :: ds, u)) :
    ∃ t1, (∀ (o : Nat) (dest : Bool) (extra : Nat → Bool) (seq : BitVec 56) (k : Nat → State → State), tdOk dest d = true → extra d = true →
        withTd q h o dest extra seq t k = k d t1)
      ∧ engPart t1 (qKind q) (qIndex q) = part ∧ readTds part hs t1 = some (ds, u) := by
  rw [readTds] at reads
  split at reads
  next read =>
    obtain ⟨r, rest, same⟩ := Option.map_eq_some_iff.1 reads
    simp only [Prod.mk.injEq, List.cons.injEq] at same
    obtain ⟨⟨rfl, rfl⟩, rfl⟩ := same
    refine ⟨_, fun o dest extra seq k sound fits => withTd_ok table read sound fits k, ?_, rest⟩
    rw [engPart_of_fe (sans_fe (meetTd_sans ..)), table]
  next => cases reads

theorem readTds_nil (reads : readTds part [] t = some ([], u)) : u = t := by
  cases reads
  rfl

end Descriptors

/-! ### What a started instruction still finds -/

/-- State `u` is one that queue context `q`'s long-running instruction has reached from `s` by its start and its descriptors. -/
structure LongFrom (s : State) (q : Nat) (u : State) : Prop where
  bytes : bytesSame s u
  closed : ∀ l, coreClosed u l = coreClosed s l
  queues : ∀ k, getQ u k = getQ s k
  own : getQc u q = longCtx (getQc s q)

theorem longFrom_of_sans {s u : State} {q word : Nat} (sans : sansCache u = sansCache (startLong q word s)) : LongFrom s q u := by
  refine ⟨⟨?_, ?_⟩, fun l => ?_, fun k => ?_, ?_⟩
  · rw [sans_cells sans, startLong_mem]
  · rw [sans_hs sans, startLong_hs]
  · rw [coreClosed_sans sans]
    simp only [coreClosed, inQuar, startLong_bt, startLong_fr]
  · rw [getQ, sans_fe sans, startLong_fe]
    rfl
  · rw [getQc, sans_en sans]
    exact (getQc_startLong q word s q).trans (if_pos rfl)

theorem longFrom_readTds {s u : State} {q word part : Nat} {hs ds : List Nat} (reads : readTds part hs (startLong q word s) = some (ds, u)) :
    LongFrom s q u := longFrom_of_sans (readTds_sans reads)

/-! ### The end -/

section End
variable {s u : State} {q : Nat}

/-- A queue context whose long-running instruction has counted: a program's counts stand in its engine's bank. -/
def bookedCtx (n : Nums) (c : QCtx) : QCtx := if isProg c then c else { c with nums := addNums c.nums n }

@[simp] theorem bookedCtx_pc (n : Nums) (c : QCtx) : (bookedCtx n c).pc = c.pc := by unfold bookedCtx; split <;> rfl
@[simp] theorem bookedCtx_cmd (n : Nums) (c : QCtx) : (bookedCtx n c).cmd = c.cmd := by unfold bookedCtx; split <;> rfl
@[simp] theorem rdG_bookedCtx (n : Nums) (c : QCtx) (r : BitVec 5) : rdG (bookedCtx n c) r = rdG c r := by unfold bookedCtx; split <;> rfl

theorem endLong_keep {β : Type} (f : State → β) (h1 : ∀ (t : State) (o : Ob), f { t with ob := o } = f t) (h2 : ∀ isl t, f (bumpIseq isl t) = f t)
    (h3 : ∀ k e t, f (setEng k e t) = f t) (h4 : ∀ isl t, f (tickIsland isl t) = f t) (h5 : ∀ t, f (nextFree t) = f t)
    (h6 : ∀ q v t, f (setQc q v t) = f t) (h7 : ∀ q v t, f (setQ q v t) = f t) (q st : Nat) (seq : BitVec 56) (n : Nums) (len : Nat) (s : State) :
    f (endLong q st seq n len s) = f s := by
  unfold endLong
  dsimp only
  split
  · split
    · rw [doneInsn_keep f h1 h2 h3 h4 h5 h6 h7, traceEng_keep f h1 h2 h3 h4, h3]
    · rw [finishCmd_keep f h1 h2 h3 h4 h5 h6 h7, traceEng_keep f h1 h2 h3 h4, h3]
  · rw [finishCmd_keep f h1 h2 h3 h4 h5 h6 h7]
    exact h6 ..

@[simp] theorem endLong_mem (q st : Nat) (seq : BitVec 56) (n : Nums) (len : Nat) (s : State) : (endLong q st seq n len s).mem = s.mem :=
  endLong_keep (·.mem) (fun _ _ => rfl) (fun _ _ => rfl) (fun _ _ _ => rfl) (fun _ _ => rfl) (fun _ => rfl) (fun _ _ _ => rfl) (fun _ _ _ => rfl) ..
@[simp] theorem endLong_hs (q st : Nat) (seq : BitVec 56) (n : Nums) (len : Nat) (s : State) : (endLong q st seq n len s).hs = s.hs :=
  endLong_keep (·.hs) (fun _ _ => rfl) (fun _ _ => rfl) (fun _ _ _ => rfl) (fun _ _ => rfl) (fun _ => rfl) (fun _ _ _ => rfl) (fun _ _ _ => rfl) ..
@[simp] theorem endLong_fr (q st : Nat) (seq : BitVec 56) (n : Nums) (len : Nat) (s : State) : (endLong q st seq n len s).fr = s.fr :=
  endLong_keep (·.fr) (fun _ _ => rfl) (fun _ _ => rfl) (fun _ _ _ => rfl) (fun _ _ => rfl) (fun _ => rfl) (fun _ _ _ => rfl) (fun _ _ _ => rfl) ..

/-- A long-running instruction that ends with DONE ends as any instruction does. -/
theorem getQc_endLong_done (has : (getQc s q).cmd.isSome = true) (seq : BitVec 56) (n : Nums) (len : Nat) :
    getQc (endLong q stDone seq n len s) q = endCtx len (bookedCtx n (getQc s q)) := by
  unfold endLong bookedCtx
  dsimp only
  by_cases prog : isProg (getQc s q) = true
  · rw [if_pos prog, if_pos rfl, if_pos prog, getQc_doneInsn_self _ _ _ (by simpa using has)]
    simp
  · have none_ : isProg (getQc s q) = false := by simpa using prog
    have insn : isProg { getQc s q with nums := addNums (getQc s q).nums n } = false := none_
    rw [if_neg prog, if_neg prog, getQc_finishCmd, if_pos rfl, finCtx_insn (by simpa using has) (by simpa [isProg] using none_)]
    simp [endCtx, insn]

theorem statusGiven_of_queues {s t u : State} {qu id st : Nat} (h : statusGiven u t qu id st) (same : getQ u qu = getQ s qu) :
    statusGiven s t qu id st := by
  unfold statusGiven at *
  rwa [← same]

/-- An instruction command gets the status of its long-running instruction. -/
theorem statusGiven_endLong {st qu id : Nat} (cmd : (getQc s q).cmd = some (qu, id, false)) (seq : BitVec 56) (n : Nums) (len : Nat) :
    statusGiven s (endLong q st seq n len s) qu id st := by
  have insn : isProg (getQc s q) = false := by simp [isProg, cmd]
  unfold endLong
  dsimp only
  rw [if_neg (by simp [insn])]
  refine statusGiven_of_queues (u := modQc q (fun c => { c with nums := addNums c.nums n }) s) (statusGiven_finishCmd (prog := false) ?_ ?_) (getQ_modQc ..)
  · intro prog
    simp [isProg, cmd] at prog
  · simpa using cmd

end End

end Sys2Proof.Machine
end

section
/-! SUPPORT. The jobs of tensor instructions on DM and VX, and the state in which one that met no fault leaves its command (R94, R131 to
R133, R139 to R142). -/

namespace Sys2Proof.Machine

/-! ### What tensor instructions read and write -/

section Jobs
variable {s : State} {j : Job}

theorem JobFrom.moveAll (a : Acc) (tc d1 d2 : Nat) (src : Ix → Option Ix) (h : JobFrom s j) : JobFrom s (moveAll a tc d1 d2 src j) := by
  unfold Machine.moveAll
  refine JobFrom.foldl (fun row j h => JobFrom.foldl (fun run j h => ?_) _ _ h) _ _ h
  have codes := JobFrom.mapJob (s := s) (f := fun i b0 => match src (ixSet (ixSet row 0 run.1) 0 (run.1 + i)) with
    | none => ((0, false), b0)
    | some y => Machine.rdCode a tc d2 y b0) (fun i j h => by
      split
      · exact h
      · exact h.rdCode ..) (upto run.2) j h
  refine JobFrom.wrRun _ _ _ _ _ _ ?_
  split
  · exact codes
  · exact codes.rdExp ..

theorem JobFrom.wrAll (a : Acc) (tc d : Nat) (r : Rnd) {f : Ix → Job → Elem × Job} (elems : ∀ ix j, JobFrom s j → JobFrom s (f ix j).2)
    (h : JobFrom s j) : JobFrom s (wrAll a tc d r f j) := by
  unfold Machine.wrAll
  refine JobFrom.foldl (fun row j h => JobFrom.foldl (fun run j h => ?_) _ _ h) _ _ h
  exact JobFrom.wrVals _ _ _ _ _ _ _ (JobFrom.mapJob (fun i j h => elems _ j h) _ _ h)

theorem JobFrom.convertAll (a : Acc) (tc d1 d2 : Nat) (r : Rnd) (src : Ix → Ix) (h : JobFrom s j) :
    JobFrom s (convertAll a tc d1 d2 r src j) :=
  JobFrom.wrAll a tc d1 r (fun ix _ h => h.rdVal a tc d2 (src ix)) h

theorem JobFrom.rdIndex (a : Acc) (tc d size : Nat) (h : JobFrom s j) : JobFrom s (rdIndex a tc d size j).2 := by
  refine JobFrom.mapJob (fun i j h => ?_) _ _ h
  have read := h.rdCode { a with consume := true } tc d (i, 0, 0, 0)
  dsimp only
  split
  · exact read
  · split
    · exact read
    · exact read.step rfl rfl

theorem mwf_foldl_mset {β : Type} {key val : β → Nat} (l : List β) {m : NMap Nat} (h : mwf 0 m = true) :
    mwf 0 (l.foldl (fun m b => mset 0 m (key b) (val b)) m) = true :=
  List.foldlRecOn (motive := fun m => mwf 0 m = true) l _ h fun _ hm _ _ => mwf_mset 0 _ _ _ hm

theorem JobFrom.scatterOne (a : Acc) (tc d : Nat) (x : Ix) (v : FV) (p : Bool) (h : JobFrom s j) : JobFrom s (scatterOne a tc d x v p j) := by
  unfold Machine.scatterOne
  dsimp only
  generalize (tdPlace tc d x).1 + tdBits d * (tdPlace tc d x).2.1 / 8 = va
  have sans := translate_sans j.s a.ctx (va % 2 ^ 64) accAtomic a.who
  generalize translate j.s a.ctx (va % 2 ^ 64) accAtomic a.who = r at sans ⊢
  obtain ⟨o, s1⟩ := r
  cases o with
  | ok loc => exact ⟨sans.trans h.state, mwf_foldl_mset _ h.writes⟩
  | bad r l x => exact h.step sans rfl
  | poisonAt pa => exact h.step sans rfl

theorem JobFrom.mapElem (a : Acc) (tc d1 d2 : Nat) (d3 : Option Nat) (f : FloatFmt) (mode : RMode) (x : TExt)
    (sel : Option (List (Option Nat))) (ix : Ix) (h : JobFrom s j) : JobFrom s (mapElem a tc d1 d2 d3 f mode x sel ix j).2 := by
  unfold Machine.mapElem
  dsimp only
  split
  · exact h
  · next at2 _ =>
    have first := h.rdVal a tc d2 at2
    cases d3 with
    | none => exact first.step rfl rfl
    | some d => exact (first.rdVal a tc d ix).step rfl rfl

/-- What VT.REDUCE reads of one element's source row. -/
theorem JobFrom.rdVals (a : Acc) (tc d : Nat) (at_ : Nat → Ix) (l : List Nat) (h : JobFrom s j) :
    JobFrom s (Machine.mapJob (fun i b => let (v, b1) := Machine.rdVal a tc d (at_ i) b; (v.1, b1)) l j).2 :=
  JobFrom.mapJob (f := fun i b => let (v, b1) := Machine.rdVal a tc d (at_ i) b; (v.1, b1)) (fun i _ h => h.rdVal a tc d (at_ i)) l j h

end Jobs

/-! ### The end of a job that met no fault -/

section Done
variable {s u : State} {q : Nat} {j : Job}

theorem longInsn_runs {kind cls minor : Nat} {cs : List (Bool × Nat)} (run : canRun s q anyKind = true) (runs : qKind q = kind)
    (good : firstBad cs = none) (body : BitVec 56 → State → State) :
    longInsn q kind cls minor cs s body = .next (onlyWork s (body (longSeq s q) (startLong q (cls * 2 ^ 58 + minor * 2 ^ 52) s))) := by
  rw [longInsn, onKind_runs run runs, good]

/-- What a vector engine's job raises in VFCSR changes no general register. -/
def raisedCtx (q : Nat) (j : Job) (c : QCtx) : QCtx := if qKind q = kVX then { c with vfcsr := raise j.flags c.vfcsr } else c

theorem raisedCtx_cmd (q : Nat) (j : Job) (c : QCtx) : (raisedCtx q j c).cmd = c.cmd := by unfold raisedCtx; split <;> rfl
theorem raisedCtx_pc (q : Nat) (j : Job) (c : QCtx) : (raisedCtx q j c).pc = c.pc := by unfold raisedCtx; split <;> rfl
theorem rdG_raisedCtx (q : Nat) (j : Job) (c : QCtx) (r : BitVec 5) : rdG (raisedCtx q j c) r = rdG c r := by unfold raisedCtx; split <;> rfl

/-- The state in which a job's writes and flags stand. -/
def jobTaken (q : Nat) (j : Job) : State :=
  if qKind q = kVX then modQc q (fun c => { c with vfcsr := raise j.flags c.vfcsr }) (jobCommit (causeOf (qKind q)) j) else jobCommit (causeOf (qKind q)) j

theorem jobEnd_done (ok : j.errs = []) (len : Nat) (seq : BitVec 56) : jobEnd q len seq j = endLong q stDone seq j.nums len (jobTaken q j) := by
  unfold jobEnd jobTaken
  rw [ok]

theorem jobTaken_mem (q : Nat) (j : Job) : (jobTaken q j).mem = (jobCommit (causeOf (qKind q)) j).mem := by unfold jobTaken; split <;> rfl
theorem jobTaken_hs (q : Nat) (j : Job) : (jobTaken q j).hs = (jobCommit (causeOf (qKind q)) j).hs := by unfold jobTaken; split <;> rfl
theorem getQ_jobTaken (q k : Nat) (j : Job) : getQ (jobTaken q j) k = getQ j.s k := by
  unfold jobTaken
  split
  · rw [getQ_modQc, getQ_jobCommit]
  · rw [getQ_jobCommit]

theorem getQc_jobCommit (cause k : Nat) (j : Job) : getQc (jobCommit cause j) k = getQc j.s k :=
  jobCommit_keep (getQc · k) (fun _ _ => rfl) (fun _ _ _ _ => rfl) (fun _ _ => rfl) (fun _ _ => rfl) ..

theorem getQc_jobTaken (q : Nat) (j : Job) : getQc (jobTaken q j) q = raisedCtx q j (getQc j.s q) := by
  unfold jobTaken raisedCtx
  split
  · rw [getQc_modQc, if_pos rfl, getQc_jobCommit]
  · rw [getQc_jobCommit]

/-- A job without a failed access leaves its bytes in memory and its command with DONE. -/
theorem jobDone_jobEnd (has : (getQc s q).cmd.isSome = true) (long : LongFrom s q u) (job : JobFrom u j) (ok : j.errs = []) (seq : BitVec 56) :
    jobDone s (onlyWork s (jobEnd q 16 seq j)) q j := by
  rw [jobEnd_done ok]
  have taken : getQc (jobTaken q j) q = raisedCtx q j (longCtx (getQc s q)) := by
    rw [getQc_jobTaken, getQc, sans_en job.state, ← long.own]
    rfl
  have cmd : (getQc (jobTaken q j) q).cmd = (getQc s q).cmd := by rw [taken, raisedCtx_cmd, longCtx_cmd]
  have own : getQc (onlyWork s (endLong q stDone seq j.nums 16 (jobTaken q j))) q
      = endCtx 16 (bookedCtx j.nums (raisedCtx q j (longCtx (getQc s q)))) := by
    rw [getQc_onlyWork, getQc_endLong_done (by rw [cmd]; exact has), taken]
  refine ⟨fun apart loc reach => ?_, ?_, fun r => ?_, boardKept_onlyWork .., fun qu id insn => ?_⟩
  · have stored := jobStored_jobCommit job ok (causeOf (qKind q)) apart loc (by rw [long.closed, reach])
    have bytes : bytesSame (jobCommit (causeOf (qKind q)) j) (onlyWork s (endLong q stDone seq j.nums 16 (jobTaken q j))) :=
      (bytesKept_onlyWork s (by rw [endLong_mem, jobTaken_mem]) (by rw [endLong_hs, jobTaken_hs])).1
    rw [locByte_of_same bytes, stored, locByte_of_same long.bytes]
  · exact ended_of_endCtx own (by rw [bookedCtx_cmd, raisedCtx_cmd, longCtx_cmd]) (by rw [bookedCtx_pc, raisedCtx_pc, longCtx_pc])
  · rw [own, rdG_endCtx, rdG_bookedCtx, rdG_raisedCtx, rdG_longCtx]
  · have given := statusGiven_endLong (st := stDone) (cmd.trans insn) seq j.nums 16
    refine statusGiven_of_queues (u := jobTaken q j) given ?_
    rw [getQ_jobTaken, getQ, sans_fe job.state]
    exact long.queues qu

end Done

end Sys2Proof.Machine
end

section
/-! SUPPORT. The data mover's instructions and VX's tensor instructions, assembled (R139 to R142, Tables 07-6 and 07-7). -/

namespace Sys2Proof.Machine

section Descriptors
variable {s u : State} {q word part : Nat}

/-- Where an instruction finds its descriptor table. -/
theorem table_startLong {kind : Nat} (kindq : qKind q = kind) : engPart (startLong q word s) (qKind q) (qIndex q) = engPart s kind (qIndex q) := by
  rw [engPart_of_fe (startLong_fe ..), kindq]

/-- A started instruction with one descriptor goes on with it in the state after its read. -/
theorem withTd_one {h d : Nat} (table : engPart s (qKind q) (qIndex q) = part) (reads : readTds part [h] s = some ([d], u))
    {o : Nat} {dest : Bool} {extra : Nat → Bool} {seq : BitVec 56} (k : Nat → State → State) (sound : tdOk dest d = true) (fits : extra d = true) :
    withTd q h o dest extra seq s k = k d u := by
  obtain ⟨t1, first, -, rest⟩ := withTd_readTds table reads
  rw [first _ _ _ _ k sound fits, readTds_nil rest]

/-- A started instruction with two descriptors goes on with them in the state after their reads. -/
theorem withTd_two {h1 h2 d1 d2 : Nat} (table : engPart s (qKind q) (qIndex q) = part) (reads : readTds part [h1, h2] s = some ([d1, d2], u))
    {o1 o2 : Nat} {dest : Bool} {extra1 : Nat → Bool} {extra2 : Nat → Nat → Bool} {seq : BitVec 56} (k : Nat → Nat → State → State)
    (sound1 : tdOk dest d1 = true) (fits1 : extra1 d1 = true) (sound2 : tdOk false d2 = true) (fits2 : extra2 d1 d2 = true) :
    withTd q h1 o1 dest extra1 seq s (fun d1 t => withTd q h2 o2 false (extra2 d1) seq t (k d1)) = k d1 d2 u := by
  obtain ⟨t1, first, table1, rest⟩ := withTd_readTds table reads
  rw [first _ _ _ _ _ sound1 fits1, withTd_one table1 rest _ sound2 fits2]

/-- A started instruction with two descriptors and an index goes on with them in the state after their reads. -/
theorem withTd_three {h1 h2 h3 d1 d2 d3 : Nat} (table : engPart s (qKind q) (qIndex q) = part)
    (reads : readTds part [h1, h2, h3] s = some ([d1, d2, d3], u)) {o1 o2 o3 : Nat} {extra1 : Nat → Bool} {extra2 : Nat → Nat → Bool}
    {extra3 : Nat → Nat → Nat → Bool} {seq : BitVec 56} (k : Nat → Nat → Nat → State → State)
    (sound1 : tdOk true d1 = true) (fits1 : extra1 d1 = true) (sound2 : tdOk false d2 = true) (fits2 : extra2 d1 d2 = true)
    (sound3 : tdOk false d3 = true) (fits3 : extra3 d1 d2 d3 = true) :
    withTd q h1 o1 true extra1 seq s (fun d1 t => withTd q h2 o2 false (extra2 d1) seq t (fun d2 t =>
      withTd q h3 o3 false (extra3 d1 d2) seq t (k d1 d2))) = k d1 d2 d3 u := by
  obtain ⟨t1, first, table1, rest⟩ := withTd_readTds table reads
  rw [first _ _ _ _ _ sound1 fits1, withTd_two table1 rest _ sound2 fits2 sound3 fits3]

end Descriptors

/-- Settles O27: each instruction's job starts from the state in which its descriptors have been read. -/
theorem dataMoverMovesAndConversions : Obligations.DataMoverMovesAndConversions := by
  intro q h1 h2 x s u d1 d2 run kind n part seq t sound1
  have has := (canRun_has run).2
  have table : ∀ minor, engPart (t minor) (qKind n) (qIndex n) = part := fun minor => table_startLong kind
  refine ⟨fun sound2 => ⟨?_, ?_, ?_⟩, ?_⟩
  · intro fields reads fmt dims j ok
    have means : execDmCopy q h1 h2 x s = .next (onlyWork s (jobEnd n 16 seq j)) := by
      rw [execDmCopy, longInsn_runs run kind fields, withTd_two (table 0) reads _ sound1 rfl sound2 (by simp [fmt, dims])]
    exact ⟨_, means, jobDone_jobEnd has (longFrom_readTds reads) ((JobFrom.refl u []).moveAll ..) ok seq⟩
  · intro fields reads dst src dims j ok
    have means : execDmCvt q h1 h2 x s = .next (onlyWork s (jobEnd n 16 seq j)) := by
      rw [execDmCvt, longInsn_runs run kind fields, withTd_two (table 1) reads _ sound1 dst sound2 (by simp [src, dims])]
    exact ⟨_, means, jobDone_jobEnd has (longFrom_readTds reads) ((JobFrom.refl u []).convertAll ..) ok seq⟩
  · intro fields reads rank1 rank2 dimA dimB fmts j ok
    have means : execDmTranspose q h1 h2 x s = .next (onlyWork s (jobEnd n 16 seq j)) := by
      rw [execDmTranspose, longInsn_runs run kind fields,
        withTd_two (table 2) reads _ sound1 (by simp [rank1]) sound2 (by simpa [rank2, dimA, dimB] using fmts)]
      by_cases moves : tdFmt d1 = tdFmt d2 ∧ ¬ tdBM d1
      · simp only [j, if_pos moves]
        rfl
      · simp only [j, if_neg moves]
        rfl
    have job : JobFrom u j := by
      by_cases moves : tdFmt d1 = tdFmt d2 ∧ ¬ tdBM d1
      · simp only [j, if_pos moves]
        exact (JobFrom.refl u []).moveAll ..
      · simp only [j, if_neg moves]
        exact (JobFrom.refl u []).convertAll ..
    exact ⟨_, means, jobDone_jobEnd has (longFrom_readTds reads) job ok seq⟩
  · intro fields reads fmt linear j ok
    have means : execDmFill q h1 x s = .next (onlyWork s (jobEnd n 16 seq j)) := by
      rw [execDmFill, longInsn_runs run kind fields, withTd_one (table 5) reads _ sound1 (by simp [fmt, linear])]
    exact ⟨_, means, jobDone_jobEnd has (longFrom_readTds reads) (JobFrom.wrAll _ _ _ _ (fun _ _ h => h) (JobFrom.refl u [])) ok seq⟩

theorem isInt_of_isLong {k : Nat} (long : isLong k = true) : isInt k = false := by
  have small : k ≤ 2 := by simpa [isLong] using long
  simp [isInt, show k ≠ 0x10 by omega, show k ≠ 0x11 by omega]

/-- The formats that DM.SCATTERADD takes pass its checks. -/
theorem scatter_fits {d1 d2 dim : Nat} (linear1 : tdTiled d1 = false) (linear2 : tdTiled d2 = false)
    (fmts : (isLong (tdFmt d1) = true ∧ isFloating (tdFmt d2) = true) ∨ (isInt (tdFmt d1) = true ∧ tdFmt d2 = tdFmt d1))
    (dims : dimsBut d2 d1 dim = true) :
    (!tdTiled d1 && (isLong (tdFmt d1) || isInt (tdFmt d1))) = true
    ∧ (!tdTiled d2 && dimsBut d2 d1 dim && (if isInt (tdFmt d1) then tdFmt d2 == tdFmt d1 else isFloating (tdFmt d2))) = true := by
  rcases fmts with ⟨long, floating⟩ | ⟨int, same⟩
  · simp [linear1, linear2, dims, long, floating, isInt_of_isLong long]
  · simp [linear1, linear2, dims, int, same]

/-- Settles O28: the index is read first, then a gather moves and a scatter adds, in one job. -/
theorem dataMoverIndexedInstructions : Obligations.DataMoverIndexedInstructions := by
  intro q h1 h2 x s u d1 d2 dx run kind n part dim t c hs sound1 sound2 linear1 linear2 fields
  have has := (canRun_has run).2
  have table : ∀ minor, engPart (t minor) (qKind n) (qIndex n) = part := fun minor => table_startLong kind
  refine ⟨?_, ?_⟩
  · intro reads blocks fmt dims index r j ok
    have soundX : tdOk false dx = true := by
      simp only [idxOk, Bool.and_eq_true] at index
      tauto
    have means : execDmGather q h1 h2 x s = .next (onlyWork s (jobEnd n 16 (longSeq s n) j)) := by
      rw [execDmGather, longInsn_runs run kind fields, withTd_three (table 3) reads _ sound1
        (by rcases blocks with bm | inner <;> simp_all [dim]) sound2 (by simp [linear2, fmt, dims, dim]) soundX index]
    have job : JobFrom u j := (JobFrom.rdIndex _ _ _ _ (JobFrom.refl u [])).moveAll ..
    exact ⟨_, means, jobDone_jobEnd has (longFrom_readTds reads) job ok _⟩
  · intro reads fmts dims index r pairs v j ok
    have soundX : tdOk false dx = true := by
      simp only [idxOk, Bool.and_eq_true] at index
      tauto
    obtain ⟨fits1, fits2⟩ := scatter_fits linear1 linear2 fmts dims
    have means : execDmScatteradd q h1 h2 x s = .next (onlyWork s (jobEnd n 16 (longSeq s n) j)) := by
      rw [execDmScatteradd, longInsn_runs run kind fields, withTd_three (table 4) reads _ sound1 fits1 sound2 fits2 soundX index]
    have job : JobFrom u j := by
      have index : JobFrom u r.2 := JobFrom.rdIndex _ _ _ _ (JobFrom.refl u [])
      have values : JobFrom u v.2 := JobFrom.mapJob (fun p _ h => h.rdVal c (tcOf u) d2 p.1) pairs r.2 index
      exact JobFrom.foldl (fun p _ h => h.scatterOne ..) _ _ (values.step rfl rfl)
    exact ⟨_, means, jobDone_jobEnd has (longFrom_readTds reads) job ok _⟩

/-! ### VT.MAP and VT.REDUCE -/

section Options
variable {s u : State} {q part : Nat}

/-- An index that is in use is read last. -/
theorem withIndex_readTds {x : TExt} {size : Nat} {dx : Option Nat} {seq : BitVec 56} (table : engPart s (qKind q) (qIndex q) = part)
    (reads : readTds part (if x.idxen then [x.idxh.toNat] else []) s = some (dx.toList, u)) (given : dx.isSome = x.idxen)
    (fits : ∀ d, dx = some d → idxOk d size = true) (k : Option Nat → State → State) : withIndex q x size seq s k = k dx u := by
  unfold withIndex
  cases dx with
  | none =>
    have unused : x.idxen = false := given.symm
    rw [unused] at reads ⊢
    rw [if_neg Bool.false_ne_true, readTds_nil reads]
  | some d =>
    have used : x.idxen = true := given.symm
    have index := fits d rfl
    rw [used] at reads ⊢
    rw [if_pos rfl]
    refine withTd_one table reads _ ?_ index
    simp only [idxOk, Bool.and_eq_true] at index
    tauto

/-- A third operand that is in use is read before what follows it. -/
theorem withThird_readTds {two : Bool} {h o : Nat} {hs ds : List Nat} {d3 : Option Nat} {extra : Nat → Bool} {seq : BitVec 56}
    (table : engPart s (qKind q) (qIndex q) = part) (reads : readTds part ((if two then [h] else []) ++ hs) s = some (d3.toList ++ ds, u))
    (given : d3.isSome = two) (sound : ∀ d, d3 = some d → tdOk false d = true ∧ extra d = true) :
    ∃ t, (∀ go : Option Nat → State → State, (if two then withTd q h o false extra seq s (fun d t => go (some d) t) else go none s) = go d3 t)
      ∧ engPart t (qKind q) (qIndex q) = part ∧ readTds part hs t = some (ds, u) := by
  cases d3 with
  | none =>
    have unused : two = false := given.symm
    subst unused
    exact ⟨s, fun go => if_neg Bool.false_ne_true, table, reads⟩
  | some d =>
    have used : two = true := given.symm
    subst used
    obtain ⟨t, third, table', rest⟩ := withTd_readTds table reads
    obtain ⟨ok, fits⟩ := sound d rfl
    exact ⟨t, fun go => (if_pos rfl).trans (third _ _ _ _ _ ok fits), table', rest⟩

end Options

theorem all_lt_four {p : Nat → Bool} (each : ∀ k, k < 4 → p k = true) : [0, 1, 2, 3].all p = true := by
  simp [each 0 (by decide), each 1 (by decide), each 2 (by decide), each 3 (by decide)]

/-- The job of VT.MAP once its descriptors have been read. -/
def mapJobOf (n : Nat) (seq : BitVec 56) (x : TExt) (d1 d2 : Nat) (d3 dx : Option Nat) (t : State) : Job :=
  let c := vtAcc t n
  let tc := tcOf t
  let r := vtRnd t n seq x
  let p : Option (List (Option Nat)) × Job := match dx with
    | some d => let w := rdIndex c tc d (tdDim d2 x.idxdim.toNat) { s := t }; (some w.1, w.2)
    | none => (none, { s := t })
  wrAll c tc d1 r (mapElem c tc d1 d2 d3 (computeIn (d1 :: d2 :: d3.toList)) (r.rm.getD .rne) x p.1) p.2

theorem JobFrom.mapJobOf (n : Nat) (seq : BitVec 56) (x : TExt) (d1 d2 : Nat) (d3 dx : Option Nat) (t : State) :
    JobFrom t (mapJobOf n seq x d1 d2 d3 dx t) := by
  unfold Machine.mapJobOf
  refine JobFrom.wrAll _ _ _ _ (fun ix _ h => h.mapElem ..) ?_
  cases dx with
  | none => exact JobFrom.refl t []
  | some d => exact (JobFrom.refl t []).rdIndex ..

/-- Settles O29: VT.MAP reads its operands and its index before its job, VT.REDUCE its two descriptors. -/
theorem vectorTensorInstructions : Obligations.VectorTensorInstructions := by
  intro q h1 h2 h3 x s u d1 d2 run kind n part t c tc r two dim rdim sound1 fmt1 sound2 fmt2 block
  have has := (canRun_has run).2
  have table : ∀ minor, engPart (t minor) (qKind n) (qIndex n) = part := fun minor => table_startLong kind
  refine ⟨?_, ?_⟩
  · intro d3 dx fields given3 givenX reads dims third index p j ok
    rw [List.append_assoc, List.cons_append, List.cons_append, List.nil_append] at reads
    have long := longFrom_readTds reads
    obtain ⟨t1, first, table1, rest1⟩ := withTd_readTds (table 0) reads
    obtain ⟨t2, second, table2, rest2⟩ := withTd_readTds table1 rest1
    obtain ⟨t3, thirdIs, table3, rest3⟩ := withThird_readTds (o := 3) (seq := longSeq s n) table2 rest2 given3
      (extra := fun d => vtFmt d && blockSource d1 d && tdDims d == tdDims d1) (fun d is => by
        obtain ⟨sound, fmt, blocks, shape⟩ := third d is
        exact ⟨sound, by simp [fmt, blocks, shape]⟩)
    have shape : [0, 1, 2, 3].all (fun k => tdDim d2 k == tdDim d1 k || (x.idxen && k == dim)) = true := all_lt_four fun k lane => by
      rcases dims k lane with same | ⟨used, at_⟩
      · simp [same]
      · simp [used, at_]
    have job : mapJobOf n (longSeq s n) x d1 d2 d3 dx u = j := by cases dx <;> rfl
    have means : execVtMap q h1 h2 h3 x s = .next (onlyWork s (jobEnd n 16 (longSeq s n) j)) := by
      rw [execVtMap, longInsn_runs run kind fields, first _ _ _ _ _ sound1 fmt1, second _ _ _ _ _ sound2 (by rw [fmt2, block]; exact shape), ← job]
      refine congrArg (fun w => Host.Outcome.next (onlyWork s w)) ((thirdIs fun d3 t =>
        withIndex n x (tdDim d1 dim) (longSeq s n) t (fun dx t => jobEnd n 16 (longSeq s n) (mapJobOf n (longSeq s n) x d1 d2 d3 dx t))).trans ?_)
      exact withIndex_readTds table3 rest3 givenX index _
    exact ⟨_, means, jobDone_jobEnd has long (job ▸ JobFrom.mapJobOf ..) ok _⟩
  · intro fields reads one dims j ok
    have shape : [0, 1, 2, 3].all (fun k => k == rdim || tdDim d2 k == tdDim d1 k) = true := all_lt_four fun k lane => by
      by_cases at_ : k = rdim
      · simp [at_]
      · simp [dims k lane at_]
    have means : execVtReduce q h1 h2 x s = .next (onlyWork s (jobEnd n 16 (longSeq s n) j)) := by
      rw [execVtReduce, longInsn_runs run kind fields, withTd_two (table 1) reads _ sound1 (by simp [fmt1, one, rdim]) sound2
        (by rw [fmt2, block]; exact shape)]
      rfl
    have job : JobFrom u j := JobFrom.wrAll c tc d1 r (fun ix _ h => (h.rdVals c tc d2 (ixSet ix rdim) _).step rfl rfl) (JobFrom.refl u [])
    exact ⟨_, means, jobDone_jobEnd has (longFrom_readTds reads) job ok _⟩

end Sys2Proof.Machine
end

section
/-! SUPPORT. A tensor instruction whose first descriptor is not backed or fails its checks (R124, R125, R130, Table 15-3). -/

namespace Sys2Proof.Machine

section Invalid
variable {s t u : State} {q part handle : Nat}

/-! ### The read of a descriptor -/

/-- A descriptor's read meets the same memory errors wherever the tables, memory and quarantine are the same. -/
theorem meetTd_mem_of_same (mem : t.mem = s.mem) (fe : t.fe = s.fe) (closed : ∀ l, coreClosed t l = coreClosed s l) (part handle : Nat) :
    (meetTd t part handle).mem = (meetTd s part handle).mem := by
  unfold meetTd partCount readLoc
  rw [fe]
  split
  · exact mem
  · simp only [closed, mem]
    split
    · exact mem
    · rfl

theorem readTd_of_same (mem : t.mem = s.mem) (fe : t.fe = s.fe) (part handle : Nat) : readTd t part handle = readTd s part handle := by
  unfold readTd partCount
  rw [fe, mem]

/-- A descriptor that is not backed or fails its checks ends its instruction. -/
theorem withTd_invalid {o : Nat} {dest : Bool} {extra : Nat → Bool} {seq : BitVec 56} (table : engPart t (qKind q) (qIndex q) = part)
    (bad : readTd (meetTd t part handle) part handle = .invalid
      ∨ ∃ d, readTd (meetTd t part handle) part handle = .ok d ∧ tdOk dest d = false) (k : Nat → State → State) :
    withTd q handle o dest extra seq t k = longDesc q handle o seq (meetTd t part handle) := by
  have kept : engPart (meetTd t part handle) (qKind q) (qIndex q) = part := by rw [engPart_of_fe (sans_fe (meetTd_sans ..)), table]
  unfold withTd
  rw [table]
  dsimp only
  rw [kept]
  rcases bad with read | ⟨d, read, unsound⟩
  · rw [read]
  · rw [read]
    exact if_neg (by simp [unsound])

/-! ### The end that it makes -/

theorem unretired_of_kind (kind : qKind q = kDM ∨ qKind q = kVX) (s : State) : unretired s q = false := by
  rcases kind with kind | kind <;> simp [unretired, kind, kDM, kVX, kAX, kRX]

/-- A long-running instruction of DM or VX that ends with another status than DONE ends its command with it. -/
theorem endLong_failed {st : Nat} (kind : qKind q = kDM ∨ qKind q = kVX) (failed : st ≠ stDone) {qu id : Nat} {prog : Bool}
    (cmd : (getQc s q).cmd = some (qu, id, prog)) (seq : BitVec 56) (n : Nums) (len : Nat) :
    (getQc (endLong q st seq n len s) q).cmd = none ∧ statusGiven s (endLong q st seq n len s) qu id st := by
  have ends : ∀ w : State, (getQc w q).cmd = some (qu, id, prog) → (∀ k, getQ w k = getQ s k) →
      (getQc (finishCmd q st w) q).cmd = none ∧ statusGiven s (finishCmd q st w) qu id st := by
    intro w cmd queues
    have now : endsNow w q := fun _ => unretired_of_kind kind w
    refine ⟨?_, statusGiven_of_queues (statusGiven_finishCmd now cmd) (queues qu)⟩
    rw [getQc_finishCmd, if_pos rfl, finCtx_of_endsNow now (by rw [cmd]; rfl)]
    rfl
  unfold endLong
  dsimp only
  split
  · exact ends _ (by simpa using cmd) (fun k => by simp)
  · exact ends _ (by simpa using cmd) (fun k => by simp)

/-- What a tensor instruction with an invalid descriptor leaves: its record, no byte written, and its command's status. -/
theorem longDesc_result {word o : Nat} (kind : qKind q = kDM ∨ qKind q = kVX) (has : (getQc s q).cmd.isSome = true) (seq : BitVec 56) :
    let v := onlyWork s (longDesc q handle o seq (meetTd (startLong q word s) part handle))
    faultAdded s v 2 0x12 0 ∧ bytesSame s v ∧ bytesKept (meetTd s part handle) v ∧ (getQc v q).cmd = none
      ∧ ∀ qu id prog, (getQc s q).cmd = some (qu, id, prog) → statusGiven s v qu id 0x12 := by
  intro v
  have sans := meetTd_sans (startLong q word s) part handle
  have long := longFrom_of_sans sans
  have mem : (meetTd (startLong q word s) part handle).mem = (meetTd s part handle).mem :=
    meetTd_mem_of_same (startLong_mem ..) (startLong_fe ..) (fun l => (longFrom_of_sans (q := q) (word := word) rfl).closed l) part handle
  have hs : (meetTd (startLong q word s) part handle).hs = (meetTd s part handle).hs := by
    rw [sans_hs sans, startLong_hs, sans_hs (meetTd_sans s part handle)]
  have kept : bytesKept (meetTd s part handle) v :=
    bytesKept_onlyWork s (by rw [longDesc, endLong_mem, addFault_mem, mem]) (by rw [longDesc, endLong_hs, addFault_hs, hs])
  have met := meetTd_sans s part handle
  have recorded : faultAdded s v 2 0x12 0 :=
    faultAdded_of_same (faultAdded_addFault (by rw [sans_fr sans, startLong_fr])
      { engRec (meetTd (startLong q word s) part handle) q cDescriptor stDescriptor 0 0 handle o 0 with seq := seq } false)
      (by simp [v, longDesc]) (by simp [v, longDesc])
  have commands : (getQc (addFault { engRec (meetTd (startLong q word s) part handle) q cDescriptor stDescriptor 0 0 handle o 0 with seq := seq } false
      (meetTd (startLong q word s) part handle)) q).cmd = (getQc s q).cmd := by
    rw [getQc_addFault, long.own, longCtx_cmd]
  refine ⟨recorded, bytesSame_trans ⟨sans_cells met, by rw [sans_hs met]⟩ kept.1, kept, ?_, fun qu id prog cmd => ?_⟩
  · obtain ⟨⟨qu, id, prog⟩, cmd⟩ := Option.isSome_iff_exists.mp has
    exact (endLong_failed kind (by decide) (commands.trans cmd) seq {} 0).1
  · refine statusGiven_of_queues (endLong_failed kind (by decide) (commands.trans cmd) seq {} 0).2 ?_
    rw [getQ_addFault, long.queues]

/-- A tensor instruction whose first descriptor is not backed or fails its checks answers the state that this makes. -/
theorem longInsn_invalid {kind cls minor o : Nat} {cs : List (Bool × Nat)} {extra : Nat → Bool} {k : BitVec 56 → Nat → State → State}
    (run : canRun s q anyKind = true) (runs : qKind q = kind) (good : firstBad cs = none)
    (bad : let part := engPart s (qKind q) (qIndex q)
      readTd (meetTd s part handle) part handle = .invalid ∨ ∃ d, readTd (meetTd s part handle) part handle = .ok d ∧ tdOk true d = false) :
    longInsn q kind cls minor cs s (fun seq t => withTd q handle o true extra seq t (k seq)) = .next (onlyWork s (longDesc q handle o (longSeq s q)
      (meetTd (startLong q (cls * 2 ^ 58 + minor * 2 ^ 52) s) (engPart s (qKind q) (qIndex q)) handle))) := by
  have same : readTd (meetTd (startLong q (cls * 2 ^ 58 + minor * 2 ^ 52) s) (engPart s (qKind q) (qIndex q)) handle) (engPart s (qKind q) (qIndex q)) handle
      = readTd (meetTd s (engPart s (qKind q) (qIndex q)) handle) (engPart s (qKind q) (qIndex q)) handle := by
    refine readTd_of_same (meetTd_mem_of_same (startLong_mem ..) (startLong_fe ..) (fun l => ?_) _ _) ?_ _ _
    · exact (longFrom_of_sans (q := q) (word := cls * 2 ^ 58 + minor * 2 ^ 52) rfl).closed l
    · rw [sans_fe (meetTd_sans ..), startLong_fe, sans_fe (meetTd_sans ..)]
  rw [longInsn_runs run runs good, withTd_invalid (table_startLong rfl) (by rw [same]; exact bad)]

end Invalid

/-- Settles O30: every one of them reads its destination's descriptor first. -/
theorem invalidDescriptorEndsTheInstruction : Obligations.InvalidDescriptorEndsTheInstruction := by
  intro q h1 h2 h3 x s run n part m bad e he runs good
  have has := (canRun_has run).2
  have ends : ∀ (word : Nat) (i : Instr), qKind n = kDM ∨ qKind n = kVX →
      exec i s = .next (onlyWork s (longDesc n h1.toNat 1 (longSeq s n) (meetTd (startLong n word s) part h1.toNat))) →
      ∃ u, exec i s = .next u ∧ faultAdded s u 2 0x12 0 ∧ bytesSame s u ∧ bytesKept m u ∧ (getQc u n).cmd = none
        ∧ (∀ qu id prog, (getQc s n).cmd = some (qu, id, prog) → statusGiven s u qu id 0x12) :=
    fun _ _ kind means => ⟨_, means, longDesc_result kind has _⟩
  simp only [List.mem_cons, List.not_mem_nil, or_false] at he
  rcases he with rfl | rfl | rfl | rfl | rfl | rfl | rfl | rfl
  · refine ends (0x10 * 2 ^ 58 + 0 * 2 ^ 52) (.dmCopy q h1 h2 x) (.inl runs) ?_
    show execDmCopy q h1 h2 x s = _
    rw [execDmCopy, longInsn_invalid run runs good bad]
  · refine ends (0x10 * 2 ^ 58 + 1 * 2 ^ 52) (.dmCvt q h1 h2 x) (.inl runs) ?_
    show execDmCvt q h1 h2 x s = _
    rw [execDmCvt, longInsn_invalid run runs good bad]
  · refine ends (0x10 * 2 ^ 58 + 2 * 2 ^ 52) (.dmTranspose q h1 h2 x) (.inl runs) ?_
    show execDmTranspose q h1 h2 x s = _
    rw [execDmTranspose, longInsn_invalid run runs good bad]
  · refine ends (0x10 * 2 ^ 58 + 5 * 2 ^ 52) (.dmFill q h1 x) (.inl runs) ?_
    show execDmFill q h1 x s = _
    rw [execDmFill, longInsn_invalid run runs good bad]
  · refine ends (0x10 * 2 ^ 58 + 3 * 2 ^ 52) (.dmGather q h1 h2 x) (.inl runs) ?_
    show execDmGather q h1 h2 x s = _
    rw [execDmGather, longInsn_invalid run runs good bad]
  · refine ends (0x10 * 2 ^ 58 + 4 * 2 ^ 52) (.dmScatteradd q h1 h2 x) (.inl runs) ?_
    show execDmScatteradd q h1 h2 x s = _
    rw [execDmScatteradd, longInsn_invalid run runs good bad]
  · refine ends (0x0E * 2 ^ 58 + 0 * 2 ^ 52) (.vtMap q h1 h2 h3 x) (.inr runs) ?_
    show execVtMap q h1 h2 h3 x s = _
    rw [execVtMap, longInsn_invalid run runs good bad]
  · refine ends (0x0E * 2 ^ 58 + 1 * 2 ^ 52) (.vtReduce q h1 h2 x) (.inr runs) ?_
    show execVtReduce q h1 h2 x s = _
    rw [execVtReduce, longInsn_invalid run runs good bad]

end Sys2Proof.Machine
end

section
/-! SUPPORT. Array instructions up to their place before the array: what holds them, their optional operands, and how an offered command,
the freeze mask and the fence stand (R53, R68, R145, R149, R150). -/

namespace Sys2Proof.Machine

/-! ### The start of an array instruction -/

section Array
variable {s t u : State} {q word part : Nat}

@[simp] theorem getPart_startLong (q word : Nat) (s : State) (p : Nat) : getPart (startLong q word s) p = getPart s p := by
  rw [getPart, getPart, startLong_ax]

theorem partCount_of_fe (same : t.fe = s.fe) : partCount t = partCount s := by rw [partCount, partCount, same]

theorem getPart_of_sans (same : sansCache t = sansCache u) (p : Nat) : getPart t p = getPart u p := by
  rw [getPart, getPart, sans_ax same]

theorem getQc_of_sans (same : sansCache t = sansCache u) (k : Nat) : getQc t k = getQc u k := by
  rw [getQc, getQc, sans_en same]

/-- An array instruction has no effect while acceptance is held. -/
theorem axInsn_held (run : canRun s q anyKind = true) (kind : qKind q = kAX) (held : axHeld s (qIndex q) = true) (minor : Nat)
    (cs : List (Bool × Nat)) (body : BitVec 56 → State → State) : axInsn q minor cs s body = .next s := by
  rw [axInsn, if_pos held, longInsn_runs run kind rfl, if_pos held, onlyWork_self]

/-- An array instruction whose fields are good is carried out where acceptance is not held. -/
theorem axInsn_runs (run : canRun s q anyKind = true) (kind : qKind q = kAX) (free : axHeld s (qIndex q) = false) {minor : Nat}
    {cs : List (Bool × Nat)} (good : firstBad cs = none) (body : BitVec 56 → State → State) :
    axInsn q minor cs s body = .next (onlyWork s (body (longSeq s q) (startLong q (0x14 * 2 ^ 58 + minor * 2 ^ 52) s))) := by
  rw [axInsn, if_neg (by simp [free]), longInsn_runs run kind good, if_neg (by simp [free])]

/-! ### Operands that may be absent -/

/-- An operand that is read where it is in use: its descriptor, or 0. -/
theorem optTd_readTds {b : Bool} {h : Nat} {hs ds : List Nat} {o : Option Nat} (table : engPart t (qKind q) (qIndex q) = part)
    (reads : readTds part ((if b then [h] else []) ++ hs) t = some (o.toList ++ ds, u)) (given : o.isSome = b) :
    ∃ t1, (∀ (operand : Nat) (dest : Bool) (extra : Nat → Bool) (seq : BitVec 56) (k : Nat → State → State),
        (∀ d, o = some d → tdOk dest d = true ∧ extra d = true) →
        (if b then withTd q h operand dest extra seq t k else k 0 t) = k (o.getD 0) t1)
      ∧ engPart t1 (qKind q) (qIndex q) = part ∧ readTds part hs t1 = some (ds, u) := by
  cases o with
  | none =>
    have unused : b = false := given.symm
    subst unused
    exact ⟨t, fun _ _ _ _ _ _ => if_neg Bool.false_ne_true, table, reads⟩
  | some d =>
    have used : b = true := given.symm
    subst used
    obtain ⟨t1, first, table1, rest⟩ := withTd_readTds table reads
    exact ⟨t1, fun operand dest extra seq k sound => (if_pos rfl).trans (first _ _ _ _ k (sound d rfl).1 (sound d rfl).2), table1, rest⟩

/-- The Y operand of an epilogue word is read last. -/
theorem withY_readTds {w : W32} {m n : Nat} {seq : BitVec 56} {o : Option Nat} (table : engPart t (qKind q) (qIndex q) = part)
    (reads : readTds part (if bfld w 0 2 != 0 then [bfld w 16 16] else []) t = some (o.toList, u)) (given : o.isSome = (bfld w 0 2 != 0))
    (sound : ∀ d, o = some d → tdOk false d = true ∧ yOk w m n d = true) (k : Nat → State → State) : withY q w m n seq t k = k (o.getD 0) u := by
  have reads' : readTds part ((if bfld w 0 2 != 0 then [bfld w 16 16] else []) ++ []) t = some (o.toList ++ [], u) := by
    simpa using reads
  obtain ⟨t1, first, -, rest⟩ := optTd_readTds table reads' given
  have met := first 5 false (yOk w m n) seq k sound
  rw [← readTds_nil rest] at met
  rw [withY, ← met]
  by_cases none_ : bfld w 0 2 = 0 <;> simp [none_]

/-! ### A command that waits for its turn -/

/-- An offered command as it waits: with its queue context, and its instruction's number and place. -/
def offeredCmd (q : Nat) (seq : BitVec 56) (c : AxCmd) (t : State) : AxCmd :=
  let src := match (getQc t q).cmd with | some (a, b, _) => (a, b) | none => (0, 0)
  { c with q, queue := src.1, id := src.2, byProg := isProg (getQc t q), seq, pc := pcNow (getQc t q), ctx := (getQc t q).ctx }

theorem getPart_axOffer (q : Nat) (seq : BitVec 56) (c : AxCmd) (t : State) :
    getPart (axOffer q seq c t) (qIndex q) = { getPart t (qIndex q) with next := some (offeredCmd q seq c t) } := by
  unfold axOffer
  dsimp only
  rw [getPart_modPart, if_pos rfl]
  rfl

/-- An offered command waits with its content and its queue context, in a state that its instruction has reached. -/
theorem axOffered_axOffer (long : LongFrom s q u) (kept : getPart u (qIndex q) = getPart s (qIndex q)) (seq : BitVec 56) (c : AxCmd) :
    axOffered s (axOffer q seq c u) q c := by
  have own : getQc (axOffer q seq c u) q = longCtx (getQc s q) := long.own
  refine ⟨⟨offeredCmd q seq c u, ?_, rfl, ?_, ?_, rfl⟩, ?_, ?_, long.bytes⟩
  · rw [getPart_axOffer, kept]
  · exact (congrArg QCtx.ctx long.own).trans (longCtx_ctx _)
  · exact (congrArg isProg long.own).trans (isProg_longCtx _)
  · rw [own, longCtx_pc]
  · rw [own, longCtx_cmd]

theorem axOffered_onlyWork {w : State} {c : AxCmd} (offered : axOffered s w q c) : axOffered s (onlyWork s w) q c := offered

end Array

section Instructions
variable {q : BitVec 20} {s u : State} {h1 h2 : BitVec 16} {x : TExt} {d : Nat}

/-- AX.LOADW with a descriptor that fits waits with the shape this gives. -/
theorem execAxLoadw_offered {tr : Bool} (run : canRun s q.toNat anyKind = true) (kind : qKind q.toNat = kAX)
    (free : axHeld s (qIndex q.toNat) = false)
    (fields : firstBad ([(x.opx != 0, rNonzero)] ++ axChecks x false tr false ++ [(tr && x.srnd == 2, rEncoding)]) = none)
    (reads : readTds (engPart s kAX (qIndex q.toNat)) [h2.toNat] (startLong q.toNat (0x14 * 2 ^ 58 + 0 * 2 ^ 52) s) = some ([d], u))
    (sound : tdOk false d = true) (bm : tdBM d = true) (rank : tdRank d = 2)
    (tiled : tdTiled d = true → tdSplit1 d = true ∧ tdKax d = tr ∧ tdPspan d = isPaired (tdFmt d))
    (rowsFit : 32 * cdiv (tdDim d (b01 tr)) 32 ≤ arrRows (partCount s))
    (colsFit : (if isPaired (tdFmt d) then 2 * tdDim d (1 - b01 tr) else tdDim d (1 - b01 tr)) ≤ arrCols (partCount s)) :
    execAxLoadw q h2 tr x s = .next (onlyWork s (axOffer q.toNat (longSeq s q.toNat)
      { bank := 0, q := q.toNat, tr, x, h2, d2 := BitVec.ofNat 512 d, m := tdDim d (b01 tr), n := tdDim d (1 - b01 tr)
        paired := isPaired (tdFmt d)
        rho := if tr then 2 * min 2048 (32 * cdiv (tdDim d (b01 tr)) 32) else min 2048 (32 * cdiv (tdDim d (b01 tr)) 32) } u)) := by
  have layout : (!tdTiled d || (tdSplit1 d && tdKax d == tr && tdPspan d == isPaired (tdFmt d))) = true := by
    by_cases isTiled : tdTiled d = true
    · obtain ⟨split, kax, span⟩ := tiled isTiled
      simp [split, kax, span]
    · simp [isTiled]
  have cnt : partCount (startLong q.toNat (0x14 * 2 ^ 58 + 0 * 2 ^ 52) s) = partCount s := partCount_of_fe (startLong_fe ..)
  rw [execAxLoadw, axInsn_runs run kind free fields, withTd_one (table_startLong kind) reads _ sound]
  dsimp only
  rw [bm, rank, cnt, layout, decide_eq_true rowsFit, decide_eq_true colsFit]
  rfl

/-- The command of a pass with these operands; 0 stands for an absent one. -/
def passCmd (n : Nat) (rbase : BitVec 12) (acc dt : Bool) (x : TExt) (h1 h2 : BitVec 16) (m cols fmt d1 d2 dx dy : Nat) (mask : NMap W64) : AxCmd :=
  { bank := 1, q := n, acc, dt, rbase := rbase.toNat, m, n := cols, swidth := tdBits d2, paired := isPaired fmt, x, h1, h2
    d1 := BitVec.ofNat 512 d1, d2 := BitVec.ofNat 512 d2, dIdx := BitVec.ofNat 512 dx, dY := BitVec.ofNat 512 dy, mask := mask }

/-- The operands of a pass, of `m` rows from row `rbase` on, fit one another and the loaded weights (R66, R70, R148). -/
structure PassFits (v : AxPart) (ctx : Nat) (x : TExt) (acc dt : Bool) (rbase : Nat) (d1 dx dy : Option Nat) (d2 k cols fmt m : Nat)
    (c : AxCmd) : Prop where
  out : ∀ d, d1 = some d → (tdOk true d && bellFmt (tdFmt d) && tdRank d == 2 && !tdTiled d) = true
  sound : tdOk false d2 = true
  stream : (tdBM d2 && tdRank d2 == 2 && (!tdTiled d2 || (!tdSplit1 d2 && !tdKax d2 && !tdPspan d2))) = true
  depth : tdDim d2 0 = k
  index : ∀ d, dx = some d → tdOk false d = true ∧ idxOk d (tdDim d 0) = true
  count : (if x.idxen then tdDim (dx.getD 0) 0 else tdDim d2 1) = m
  rowsIn : (!(x.idxen && !(dt && x.idxrole == 2)) && tdDim d2 1 != m) = false
  rowsOut : (dt && (tdDim (d1.getD 0) 0 != cols || (!(x.idxen && dt && x.idxrole != 1) && tdDim (d1.getD 0) 1 != m))) = false
  y : ∀ d, dy = some d → tdOk false d = true ∧ yOk x.opx m cols d = true
  region : (c.touches && (decide (4096 < rbase + m) || (acc && laidOut v ctx rbase m (tilesOf c) (!isPaired fmt)))) = false

/-- AX.PASS with operands that fit waits with the shape they give. -/
theorem execAxPass_offered {rbase : BitVec 12} {acc dt : Bool} {d1 dx dy : Option Nat} {d2 k cols fmt m : Nat} {c : AxCmd}
    (run : canRun s q.toNat anyKind = true) (kind : qKind q.toNat = kAX) (free : axHeld s (qIndex q.toNat) = false)
    (fields : firstBad (inOrder ([(!dt && (h1 != 0 || x.opx != 0), rNonzero)] ++ axChecks x true false (dt && x.idxen)
      ++ (if dt then epiChecks x.opx else []))) = none)
    (last : (getPart s (qIndex q.toNat)).last = some ((getQc s q.toNat).ctx, k, cols, fmt))
    (given1 : d1.isSome = dt) (givenX : dx.isSome = x.idxen) (givenY : dy.isSome = (dt && bfld x.opx 0 2 != 0))
    (reads : readTds (engPart s kAX (qIndex q.toNat)) ((if dt then [h1.toNat] else []) ++ [h2.toNat] ++ (if x.idxen then [x.idxh.toNat] else [])
      ++ (if dt && bfld x.opx 0 2 != 0 then [bfld x.opx 16 16] else [])) (startLong q.toNat (0x14 * 2 ^ 58 + 1 * 2 ^ 52) s)
        = some (d1.toList ++ [d2] ++ dx.toList ++ dy.toList, u))
    (cmd : c = passCmd q.toNat rbase acc dt x h1 h2 m cols fmt (d1.getD 0) d2 (dx.getD 0) (dy.getD 0)
      (if acc && dt then maskFor (getPart s (qIndex q.toNat)) (getQc s q.toNat).ctx else []))
    (fits : PassFits (getPart s (qIndex q.toNat)) (getQc s q.toNat).ctx x acc dt rbase.toNat d1 dx dy d2 k cols fmt m c) :
    execAxPass q h1 h2 rbase acc dt x s = .next (onlyWork s (axOffer q.toNat (longSeq s q.toNat) c u)) := by
  obtain ⟨out, sound, stream, depth, index, count, rowsIn, rowsOut, yFits, region⟩ := fits
  have sans := readTds_sans reads
  have kept : getPart u (qIndex q.toNat) = getPart s (qIndex q.toNat) := (getPart_of_sans sans _).trans (getPart_startLong ..)
  have ctx : (getQc (startLong q.toNat (0x14 * 2 ^ 58 + 1 * 2 ^ 52) s) q.toNat).ctx = (getQc s q.toNat).ctx := by
    rw [getQc_startLong, if_pos rfl, longCtx_ctx]
  simp only [List.append_assoc] at reads
  obtain ⟨t1, first, table1, rest1⟩ := optTd_readTds (table_startLong kind) reads given1
  obtain ⟨t2, second, table2, rest2⟩ := withTd_readTds table1 rest1
  obtain ⟨t3, third, table3, rest3⟩ := optTd_readTds table2 rest2 givenX
  have unused : bfld (0#32) 0 2 = 0 := rfl
  have fourth := withY_readTds (w := if dt then x.opx else 0) (m := m) (n := cols) (seq := longSeq s q.toNat) (o := dy) table3
    (u := u) (by cases dt <;> simpa [unused] using rest3) (by cases dt <;> simpa [unused] using givenY) (fun d is => by
      cases dt with
      | true => exact yFits d is
      | false => simp [is] at givenY)
  rw [execAxPass, axInsn_runs run kind free fields]
  dsimp only
  rw [getPart_startLong, last, ctx]
  dsimp only
  rw [first _ _ _ _ _ (fun d is => by simpa only [Bool.and_eq_true, and_assoc] using out d is)]
  rw [second _ _ _ _ _ sound (by simpa [depth] using stream)]
  rw [third _ _ _ _ _ index, count]
  rw [if_neg (Bool.eq_false_iff.1 rowsIn), if_neg (Bool.eq_false_iff.1 rowsOut), fourth, kept]
  subst cmd
  exact congrArg (fun w => Host.Outcome.next (onlyWork s w)) (if_neg (Bool.eq_false_iff.1 region))

/-- The command of a drain with these operands; 0 stands for an absent one. -/
def drainCmd (n : Nat) (rbase : BitVec 12) (x : TExt) (h1 : BitVec 16) (m d1 dx dy : Nat) (mask : NMap W64) : AxCmd :=
  { bank := 2, q := n, rbase := rbase.toNat, m, n := tdDim d1 0, x, h1, d1 := BitVec.ofNat 512 d1, dIdx := BitVec.ofNat 512 dx
    dY := BitVec.ofNat 512 dy, mask := mask }

/-- AX.DRAIN with operands that fit waits with the shape they give, or is accepted at once. -/
theorem execAxDrain_offered {rbase : BitVec 12} {d1 : Nat} {dx dy : Option Nat} {m : Nat}
    (run : canRun s q.toNat anyKind = true) (kind : qKind q.toNat = kAX) (free : axHeld s (qIndex q.toNat) = false)
    (fields : firstBad (inOrder (axChecks x true false false ++ epiChecks x.opx)) = none)
    (givenX : dx.isSome = x.idxen) (givenY : dy.isSome = (bfld x.opx 0 2 != 0))
    (reads : readTds (engPart s kAX (qIndex q.toNat)) ([h1.toNat] ++ (if x.idxen then [x.idxh.toNat] else [])
      ++ (if bfld x.opx 0 2 != 0 then [bfld x.opx 16 16] else [])) (startLong q.toNat (0x14 * 2 ^ 58 + 2 * 2 ^ 52) s)
        = some (d1 :: (dx.toList ++ dy.toList), u))
    (out : (tdOk true d1 && bellFmt (tdFmt d1) && tdRank d1 == 2 && !tdTiled d1) = true)
    (index : ∀ d, dx = some d → tdOk false d = true ∧ idxOk d (tdDim d 0) = true)
    (count : (if x.idxen then tdDim (dx.getD 0) 0 else tdDim d1 1) = m)
    (width : tdDim d1 0 ≤ (if laidOut (getPart s (qIndex q.toNat)) (getQc s q.toNat).ctx rbase.toNat m (upto 8) true
      then arrCols (partCount s) / 2 else arrCols (partCount s)))
    (yFits : ∀ d, dy = some d → tdOk false d = true ∧ yOk x.opx m (tdDim d1 0) d = true) (region : rbase.toNat + m ≤ 4096) :
    execAxDrain q h1 rbase x s = .next (onlyWork s (axAfter (qIndex q.toNat) (axOffer q.toNat (longSeq s q.toNat)
      (drainCmd q.toNat rbase x h1 m d1 (dx.getD 0) (dy.getD 0) (maskFor (getPart s (qIndex q.toNat)) (getQc s q.toNat).ctx)) u))) := by
  have ctx : (getQc (startLong q.toNat (0x14 * 2 ^ 58 + 2 * 2 ^ 52) s) q.toNat).ctx = (getQc s q.toNat).ctx := by
    rw [getQc_startLong, if_pos rfl, longCtx_ctx]
  have sans := readTds_sans reads
  rw [List.append_assoc] at reads
  obtain ⟨t2, second, table2, rest2⟩ := withTd_readTds (table_startLong kind) reads
  obtain ⟨t3, third, table3, rest3⟩ := optTd_readTds table2 rest2 givenX
  have back : sansCache t3 = sansCache (startLong q.toNat (0x14 * 2 ^ 58 + 2 * 2 ^ 52) s) := (readTds_sans rest3).symm.trans sans
  have kept : getPart t3 (qIndex q.toNat) = getPart s (qIndex q.toNat) := (getPart_of_sans back _).trans (getPart_startLong ..)
  have cnt : partCount t3 = partCount s := partCount_of_fe (by rw [sans_fe back, startLong_fe])
  have fourth := withY_readTds (w := x.opx) (m := m) (n := tdDim d1 0) (seq := longSeq s q.toNat) (o := dy) table3 rest3 givenY yFits
  simp only [Bool.and_eq_true, and_assoc] at out
  rw [execAxDrain, axInsn_runs run kind free fields]
  dsimp only
  rw [ctx, second _ _ _ _ _ out.1 (by simpa [and_assoc] using out.2), third _ _ _ _ _ index, count, kept, cnt, if_neg (Nat.not_lt.2 width), fourth,
    if_neg (Nat.not_lt.2 region)]
  rfl

/-! ### The freeze mask and the fence -/

@[simp] theorem endLong_ax (n st : Nat) (seq : BitVec 56) (c : Nums) (len : Nat) (s : State) : (endLong n st seq c len s).ax = s.ax :=
  endLong_keep (·.ax) (fun _ _ => rfl) (fun _ _ => rfl) (fun _ _ _ => rfl) (fun _ _ => rfl) (fun _ => rfl) (fun _ _ _ => rfl) (fun _ _ _ => rfl) ..

/-- What a long-running instruction leaves that ends with DONE in a state its own work has reached. -/
theorem endLong_done_result {s w : State} {n : Nat} (has : (getQc s n).cmd.isSome = true) (own : getQc w n = longCtx (getQc s n)) (seq : BitVec 56)
    (c : Nums) :
    let t := onlyWork s (endLong n stDone seq c 16 w)
    ended s t n ((getQc s n).pc + 16) ∧ (∀ p, getPart t p = getPart w p) ∧ bytesKept w t := by
  intro t
  have end_ : getQc t n = endCtx 16 (bookedCtx c (longCtx (getQc s n))) := by
    rw [getQc_onlyWork, getQc_endLong_done (by rw [own, longCtx_cmd]; exact has), own]
  refine ⟨ended_of_endCtx end_ (by rw [bookedCtx_cmd, longCtx_cmd]) (by rw [bookedCtx_pc, longCtx_pc]), fun p => ?_,
    bytesKept_onlyWork s (endLong_mem ..) (endLong_hs ..)⟩
  rw [getPart, getPart, onlyWork_ax, endLong_ax]

theorem bytesKept_startLong (n word : Nat) (s : State) : bytesKept s (startLong n word s) := by
  refine ⟨⟨?_, ?_⟩, ?_, ?_, ?_⟩ <;> simp

theorem bytesKept_trans {s t u : State} (h : bytesKept s t) (k : bytesKept t u) : bytesKept s u := by
  obtain ⟨bytes, marks, chest, host⟩ := h
  obtain ⟨bytes', marks', chest', host'⟩ := k
  exact ⟨bytesSame_trans bytes bytes', marks'.trans marks, chest'.trans chest, host'.trans host⟩

/-- AX.MASK that clears. -/
theorem execAxMask_clear (run : canRun s q.toNat anyKind = true) (kind : qKind q.toNat = kAX) (free : axHeld s (qIndex q.toNat) = false) :
    ∃ w, execAxMask q 0 true s = .next w ∧ (getPart w (qIndex q.toNat)).mask = [] ∧ (getPart w (qIndex q.toNat)).maskCtx = none
      ∧ (getPart w (qIndex q.toNat)).cmds = (getPart s (qIndex q.toNat)).cmds ∧ ended s w q.toNat ((getQc s q.toNat).pc + 16) ∧ bytesKept s w := by
  let t := startLong q.toNat (0x14 * 2 ^ 58 + 3 * 2 ^ 52) s
  have own : getQc (modPart (qIndex q.toNat) (fun v => { v with mask := [], maskCtx := none }) t) q.toNat = longCtx (getQc s q.toNat) :=
    (getQc_startLong ..).trans (if_pos rfl)
  obtain ⟨end_, parts, kept⟩ := endLong_done_result (canRun_has run).2 own (longSeq s q.toNat) {}
  have part := (parts (qIndex q.toNat)).trans ((getPart_modPart ..).trans (if_pos rfl))
  refine ⟨_, ?_, ?_, ?_, ?_, end_, bytesKept_trans (bytesKept_startLong ..) kept⟩
  · rw [execAxMask, axInsn_runs run kind free (by simp [firstBad])]
    rfl
  · rw [part]
  · rw [part]
  · rw [part, getPart_startLong]

/-! ### Reads alone -/

theorem rdByte_writes (a : Acc) (va : Nat) (j : Job) : (rdByte a va j).2.writes = j.writes := by
  unfold rdByte
  generalize translate j.s a.ctx (va % 2 ^ 64) accRead a.who = r
  obtain ⟨o, s1⟩ := r
  cases o with
  | ok loc =>
    dsimp only
    split
    · rfl
    · split <;> rfl
  | bad r l x => rfl
  | poisonAt pa => rfl

theorem rdNat_writes (a : Acc) (n va : Nat) (j : Job) : (rdNat a va n j).2.writes = j.writes := by
  induction n generalizing va j with
  | zero => rfl
  | succ n ih => exact (ih ..).trans (rdByte_writes ..)

theorem mapJob_writes {α β : Type} {f : α → Job → β × Job} (reads : ∀ x j, (f x j).2.writes = j.writes) (l : List α) (j : Job) :
    (mapJob f l j).2.writes = j.writes := by
  induction l generalizing j with
  | nil => rfl
  | cons x l ih => exact (ih _).trans (reads x j)

/-- What a list of reads gives under a key each: the keys in the list's order. -/
theorem mapJob_keys {α β : Type} {f : α → Job → (Nat × β) × Job} {key : α → Nat} (keyed : ∀ x j, (f x j).1.1 = key x) (l : List α) (j : Job) :
    (mapJob f l j).1.map Prod.fst = l.map key := by
  induction l generalizing j with
  | nil => rfl
  | cons x l ih =>
    show (f x j).1.1 :: (mapJob f l (f x j).2).1.map Prod.fst = _
    rw [keyed, ih]
    rfl

/-- A command that reads alone changes no byte. -/
theorem bytesSame_jobCommit {s : State} {j : Job} (cells : j.s.mem.cells = s.mem.cells) (host : j.s.hs.hostMem = s.hs.hostMem) (ok : j.errs = [])
    (reads : j.writes = []) (cause : Nat) : bytesSame s (jobCommit cause j) := by
  have none_ : jobWrites j = [] := by rw [jobWrites_whole ok (by rw [reads]; rfl), reads]
  refine ⟨?_, ?_⟩
  · rw [jobCommit_cells, none_]
    exact cells
  · rw [jobCommit_hostMem, none_]
    exact host

/-! ### The words of a freeze mask -/

/-- Words of a row of the freeze mask. -/
theorem maskWords_bounds (s : State) : 0 < arrCols (partCount s) / 2048 ∧ arrCols (partCount s) / 2048 ≤ 4 := by
  unfold arrCols
  split <;> decide

/-- The place of word `k` of a mask tensor that is read row by row. -/
def maskKey (words k : Nat) : Nat := 4 * (k / words) + k % words

theorem maskKey_inj {words : Nat} (pos : 0 < words) (few : words ≤ 4) {a b : Nat} (same : maskKey words a = maskKey words b) : a = b := by
  have ha := Nat.mod_lt a pos
  have hb := Nat.mod_lt b pos
  simp only [maskKey] at same
  have rows : a / words = b / words := by omega
  rw [← Nat.div_add_mod a words, ← Nat.div_add_mod b words, rows]
  omega

theorem maskKey_word {words row i : Nat} (lane : i < words) : maskKey words (words * row + i) = 4 * row + i := by
  rw [maskKey, Nat.mul_add_div (by omega), Nat.div_eq_of_lt lane, Nat.mul_add_mod, Nat.mod_eq_of_lt lane, Nat.add_zero]

theorem nodup_maskKeys {words : Nat} (pos : 0 < words) (few : words ≤ 4) (n : Nat) : ((upto n).map (maskKey words)).Nodup :=
  List.nodup_range.map fun _ _ same => maskKey_inj pos few same

theorem mem_maskKeys {words rows row i : Nat} (low : row < rows) (lane : i < words) : 4 * row + i ∈ (upto (rows * words)).map (maskKey words) := by
  have below := Nat.mul_le_mul_right words (Nat.succ_le_of_lt low)
  rw [Nat.succ_mul, Nat.mul_comm row] at below
  exact List.mem_map.2 ⟨words * row + i, List.mem_range.2 (by omega), maskKey_word lane⟩

/-- Words under distinct keys each stand in the mask that they make. -/
theorem mask_of_words {ws : List (Nat × Nat)} (distinct : (ws.map Prod.fst).Nodup) {k : Nat} (read : k ∈ ws.map Prod.fst) :
    ∃ c, (k, c) ∈ ws ∧ mget 0 (ws.foldl (fun m w => mset 0 m w.1 (BitVec.ofNat 64 w.2)) ([] : NMap W64)) k = BitVec.ofNat 64 c := by
  obtain ⟨w, hw, rfl⟩ := List.mem_map.1 read
  refine ⟨w.2, hw, mget_foldl_mset ⟨w, hw, rfl⟩ (fun y hy at_ => ?_) _⟩
  rw [List.inj_on_of_nodup_map distinct hy hw at_]

/-- One word of a mask tensor, under its place in the mask. -/
def maskWord (a : Acc) (tc d words k : Nat) (b : Job) : (Nat × Nat) × Job :=
  let (w, b1) := rdCode a tc d (k % words, k / words, 0, 0) b
  ((maskKey words k, w.1), b1)

/-- The read of a mask tensor. -/
def maskReads (ctx : Nat) (u : State) (p d words : Nat) : List (Nat × Nat) × Job :=
  mapJob (maskWord { ctx, who := .other, consume := true, race := raceOf u p } (tcOf u) d words) (upto (4096 * words)) { s := u }

theorem JobFrom.maskReads (ctx : Nat) (u : State) (p d words : Nat) : JobFrom u (maskReads ctx u p d words).2 :=
  JobFrom.mapJob (f := maskWord { ctx, who := .other, consume := true, race := raceOf u p } (tcOf u) d words)
    (fun k _ h => h.rdCode { ctx, who := .other, consume := true, race := raceOf u p } (tcOf u) d (k % words, k / words, 0, 0)) _ _ (JobFrom.refl u [])

theorem maskReads_writes (ctx : Nat) (u : State) (p d words : Nat) : (maskReads ctx u p d words).2.writes = [] :=
  mapJob_writes (f := maskWord { ctx, who := .other, consume := true, race := raceOf u p } (tcOf u) d words)
    (fun _ j => rdNat_writes _ _ _ j) (upto (4096 * words)) { s := u }

theorem maskReads_keys (ctx : Nat) (u : State) (p d words : Nat) :
    (maskReads ctx u p d words).1.map Prod.fst = (upto (4096 * words)).map (maskKey words) :=
  mapJob_keys (f := maskWord { ctx, who := .other, consume := true, race := raceOf u p } (tcOf u) d words) (fun _ _ => rfl) _ _

/-- A mask read from a tensor, and the job that leaves it. -/
def maskJob (p ctx : Nat) (r : List (Nat × Nat) × Job) : Job :=
  { r.2 with s := modPart p (fun v => { v with mask := r.1.foldl (fun m w => mset 0 m w.1 (BitVec.ofNat 64 w.2)) [], maskCtx := some ctx }) r.2.s }

/-- AX.MASK that takes the words of its tensor. -/
theorem execAxMask_words (run : canRun s q.toNat anyKind = true) (kind : qKind q.toNat = kAX) (free : axHeld s (qIndex q.toNat) = false)
    (reads : readTds (engPart s kAX (qIndex q.toNat)) [h2.toNat] (startLong q.toNat (0x14 * 2 ^ 58 + 3 * 2 ^ 52) s) = some ([d], u))
    (sound : tdOk false d = true) (fmt : tdFmt d = 0x11) (rank : tdRank d = 2) (linear : tdTiled d = false)
    (wide : tdDim d 0 = arrCols (partCount s) / 2048) (rows : tdDim d 1 = 4096) :
    let words := arrCols (partCount s) / 2048
    let r := maskReads (getQc s q.toNat).ctx u (qIndex q.toNat) d words
    r.2.errs = [] → execAxMask q h2 false s = .next (onlyWork s (jobEnd q.toNat 16 (longSeq s q.toNat)
      (maskJob (qIndex q.toNat) (getQc s q.toNat).ctx r))) := by
  intro words r ok
  have ctx : (getQc u q.toNat).ctx = (getQc s q.toNat).ctx := by rw [(longFrom_readTds reads).own, longCtx_ctx]
  have cnt : partCount (startLong q.toNat (0x14 * 2 ^ 58 + 3 * 2 ^ 52) s) = partCount s := partCount_of_fe (startLong_fe ..)
  rw [execAxMask, axInsn_runs run kind free rfl]
  dsimp only
  rw [if_neg Bool.false_ne_true, cnt, withTd_one (table_startLong kind) reads _ sound (by simp [fmt, rank, linear, wide, rows]), ctx]
  refine congrArg (fun j => Host.Outcome.next (onlyWork s (jobEnd q.toNat 16 (longSeq s q.toNat) j))) ?_
  have clean : r.2.errs.isEmpty = true := by rw [ok]; rfl
  exact congrArg (fun w => ({ r.2 with s := w } : Job)) (if_pos clean)

/-- What AX.MASK leaves once it has read its tensor without a fault. -/
theorem maskJob_result {s u : State} {n p d words : Nat} (has : (getQc s n).cmd.isSome = true) (kind : qKind n = kAX) (long : LongFrom s n u)
    (kept : getPart u p = getPart s p) (pos : 0 < words) (few : words ≤ 4) (seq : BitVec 56) :
    let ctx := (getQc s n).ctx
    let r := maskReads ctx u p d words
    let w := onlyWork s (jobEnd n 16 seq (maskJob p ctx r))
    r.2.errs = [] → (getPart w p).maskCtx = some ctx
      ∧ (∀ row i, row < 4096 → i < words → ∃ c, (4 * row + i, c) ∈ r.1 ∧ mget 0 (getPart w p).mask (4 * row + i) = BitVec.ofNat 64 c)
      ∧ (getPart w p).cmds = (getPart s p).cmds ∧ ended s w n ((getQc s n).pc + 16) ∧ bytesSame s w := by
  intro ctx r w ok
  have job : JobFrom u r.2 := JobFrom.maskReads ctx u p d words
  have plain : jobTaken n (maskJob p ctx r) = jobCommit (causeOf (qKind n)) (maskJob p ctx r) := if_neg (by rw [kind]; decide)
  have own : getQc (jobTaken n (maskJob p ctx r)) n = longCtx (getQc s n) := by
    rw [plain, getQc_jobCommit, ← long.own]
    exact getQc_of_sans job.state n
  obtain ⟨end_, parts, after⟩ := endLong_done_result has own seq (maskJob p ctx r).nums
  rw [← jobEnd_done (j := maskJob p ctx r) ok] at end_ parts after
  have part : getPart w p = { getPart s p with
      mask := r.1.foldl (fun m w => mset 0 m w.1 (BitVec.ofNat 64 w.2)) [], maskCtx := some ctx } := by
    rw [parts p, plain, getPart, jobCommit_ax, ← kept, ← getPart_of_sans job.state p]
    exact (getPart_modPart p p (fun v => { v with
      mask := r.1.foldl (fun m w => mset 0 m w.1 (BitVec.ofNat 64 w.2)) [], maskCtx := some ctx }) r.2.s).trans (if_pos rfl)
  have keys := maskReads_keys ctx u p d words
  refine ⟨?_, fun row i low lane => ?_, ?_, end_, ?_⟩
  · rw [part]
  · rw [part]
    exact mask_of_words (keys ▸ nodup_maskKeys pos few _) (keys ▸ mem_maskKeys low lane)
  · rw [part]
  · refine bytesSame_trans ?_ after.1
    rw [plain]
    obtain ⟨cells, host⟩ := long.bytes
    have cells' : (maskJob p ctx r).s.mem.cells = s.mem.cells := (sans_cells job.state).trans cells
    have host' : (maskJob p ctx r).s.hs.hostMem = s.hs.hostMem := (congrArg Hs.hostMem (sans_hs job.state)).trans host
    have reads : (maskJob p ctx r).writes = [] := maskReads_writes ctx u p d words
    exact bytesSame_jobCommit cells' host' ok reads _

/-- AX.FENCE with no accepted command left. -/
theorem execAxFence_done (run : canRun s q.toNat anyKind = true) (kind : qKind q.toNat = kAX) (free : axHeld s (qIndex q.toNat) = false)
    (idle : (getPart s (qIndex q.toNat)).cmds = []) :
    ∃ w, execAxFence q s = .next w ∧ ended s w q.toNat ((getQc s q.toNat).pc + 16) ∧ (getPart w (qIndex q.toNat)).fence = none ∧ bytesKept s w := by
  obtain ⟨end_, parts, kept⟩ := endLong_done_result (w := startLong q.toNat (0x14 * 2 ^ 58 + 4 * 2 ^ 52) s) (canRun_has run).2
    ((getQc_startLong ..).trans (if_pos rfl)) (longSeq s q.toNat) {}
  refine ⟨_, ?_, end_, ?_, bytesKept_trans (bytesKept_startLong ..) kept⟩
  · rw [execAxFence, axInsn_runs run kind free rfl]
    rw [getPart_startLong, idle]
    rfl
  · have none_ : (getPart s (qIndex q.toNat)).fence = none := by
      simp only [axHeld, Bool.or_eq_false_iff] at free
      simpa using free.1
    rw [parts, getPart_startLong, none_]

/-- AX.FENCE behind accepted commands waits for them. -/
theorem execAxFence_waits (run : canRun s q.toNat anyKind = true) (kind : qKind q.toNat = kAX) (free : axHeld s (qIndex q.toNat) = false)
    (busy : (getPart s (qIndex q.toNat)).cmds ≠ []) :
    ∃ w seq, execAxFence q s = .next w ∧ (getPart w (qIndex q.toNat)).fence = some (q.toNat, (getQc s q.toNat).ctx, seq)
      ∧ (getQc w q.toNat).pc = (getQc s q.toNat).pc ∧ (getQc w q.toNat).cmd = (getQc s q.toNat).cmd ∧ bytesKept s w := by
  let t := startLong q.toNat (0x14 * 2 ^ 58 + 4 * 2 ^ 52) s
  have own : getQc t q.toNat = longCtx (getQc s q.toNat) := (getQc_startLong ..).trans (if_pos rfl)
  let w := modPart (qIndex q.toNat) (fun v => { v with fence := some (q.toNat, (getQc t q.toNat).ctx, longSeq s q.toNat) }) t
  have means : execAxFence q s = .next (onlyWork s w) := by
    rw [execAxFence, axInsn_runs run kind free rfl]
    rw [getPart_startLong, if_neg (by simpa using busy)]
  have part : getPart (onlyWork s w) (qIndex q.toNat)
      = { getPart t (qIndex q.toNat) with fence := some (q.toNat, (getQc t q.toNat).ctx, longSeq s q.toNat) } :=
    (getPart_modPart _ _ (fun v => { v with fence := some (q.toNat, (getQc t q.toNat).ctx, longSeq s q.toNat) }) t).trans (if_pos rfl)
  have here : getQc (onlyWork s w) q.toNat = longCtx (getQc s q.toNat) := own
  refine ⟨_, longSeq s q.toNat, means, ?_, ?_, ?_, ?_⟩
  · rw [part, own, longCtx_ctx]
  · rw [here, longCtx_pc]
  · rw [here, longCtx_cmd]
  · exact bytesKept_trans (bytesKept_startLong ..) (bytesKept_onlyWork s rfl rfl)

end Instructions

/-- Settles O51: what holds acceptance holds every array instruction; else each reads its operands and is offered, or ends. -/
theorem arrayCommandsAreOffered : Obligations.ArrayCommandsAreOffered := by
  intro q h1 h2 rbase x s u n p part ctx v t dst run kind
  have has := (canRun_has run).2
  have kept {hs ds : List Nat} {minor : Nat} (reads : readTds part hs (t minor) = some (ds, u)) : getPart u p = getPart s p :=
    (getPart_of_sans (readTds_sans reads) p).trans (getPart_startLong ..)
  refine ⟨fun held acc dt tr clear c hc => ?_, fun free => ⟨?_, ?_, ?_, ?_, ?_, ?_, ?_⟩⟩
  · simp only [List.mem_cons, List.not_mem_nil, or_false] at hc
    rcases hc with rfl | rfl | rfl | rfl | rfl
    · show execAxLoadw q h2 tr x s = _
      rw [execAxLoadw, axInsn_held run kind held]
    · show execAxPass q h1 h2 rbase acc dt x s = _
      rw [execAxPass, axInsn_held run kind held]
    · show execAxDrain q h1 rbase x s = _
      rw [execAxDrain, axInsn_held run kind held]
    · show execAxMask q h2 clear s = _
      rw [execAxMask, axInsn_held run kind held]
    · show execAxFence q s = _
      rw [execAxFence, axInsn_held run kind held]
  · intro tr d fields reads sound bm rank tiled rowsFit colsFit rows
    exact ⟨_, execAxLoadw_offered run kind free fields reads sound bm rank tiled rowsFit colsFit,
      axOffered_onlyWork (axOffered_axOffer (longFrom_readTds reads) (kept reads) _ _)⟩
  · intro acc dt d1 dx dy d2 k cols fmt gathers places m y c fields last given1 givenX givenY reads out sound bm rank tiled depth shape2 index yFits
      region
    have count : (if x.idxen then tdDim (dx.getD 0) 0 else tdDim d2 1) = m := by
      cases dx with
      | none => exact if_neg (by rw [← givenX]; exact Bool.false_ne_true)
      | some d => exact if_pos givenX.symm
    have fits : PassFits v ctx x acc dt rbase.toNat d1 dx dy d2 k cols fmt m c := by
      refine ⟨fun d is => (out d is).1, sound, ?_, depth, index, count, ?_, ?_, yFits, ?_⟩
      · by_cases isTiled : tdTiled d2 = true
        · simp [bm, rank, tiled isTiled]
        · simp [bm, rank, isTiled]
      · by_cases gather : gathers = true
        · rw [show (x.idxen && !(dt && x.idxrole == 2)) = true from gather]
          rfl
        · simp [shape2 (by simpa using gather)]
      · cases d1 with
        | none => simp [← given1]
        | some d =>
          obtain ⟨-, wide, rows⟩ := out d rfl
          by_cases place : places = true
          · rw [show (x.idxen && dt && x.idxrole != 1) = true from place]
            simp [wide]
          · simp [wide, rows (by simpa using place)]
      · by_cases touch : c.touches = true
        · obtain ⟨inside, layout⟩ := region touch
          cases acc with
          | true => simp [Nat.not_lt.2 inside, layout rfl]
          | false => simp [Nat.not_lt.2 inside]
        · simp [touch]
    exact ⟨_, execAxPass_offered run kind free fields last given1 givenX givenY reads rfl fits,
      axOffered_onlyWork (axOffered_axOffer (longFrom_readTds reads) (kept reads) _ c)⟩
  · intro d1 dx dy m y fields givenX givenY reads out index width yFits region
    have count : (if x.idxen then tdDim (dx.getD 0) 0 else tdDim d1 1) = m := by
      cases dx with
      | none => exact if_neg (by rw [← givenX]; exact Bool.false_ne_true)
      | some d => exact if_pos givenX.symm
    exact ⟨_, execAxDrain_offered run kind free fields givenX givenY reads out index count width yFits region,
      axOffered_axOffer (longFrom_readTds reads) (kept reads) _ _⟩
  · rintro rfl
    exact execAxMask_clear run kind free
  · intro d words r reads sound fmt rank linear wide rows ok
    obtain ⟨pos, few⟩ := maskWords_bounds s
    exact ⟨_, execAxMask_words run kind free reads sound fmt rank linear wide rows ok,
      maskJob_result has kind (longFrom_readTds reads) (kept reads) pos few (longSeq s n) ok⟩
  · exact fun idle => execAxFence_done run kind free idle
  · exact fun busy => execAxFence_waits run kind free busy

end Sys2Proof.Machine
end


section
/-! SUPPORT. The update engine's accesses of a layer: its descriptor's reads, its step words' stores and its tallies (R164, R166, R177). -/

namespace Sys2Proof.Machine

/-! ### Accesses within a line -/

section Access
variable {s t t1 : State} {q va n loc : Nat} {bs : List Byte}

/-- Bytes that one line holds are one piece. -/
theorem lineChunks_of_line (some_ : 0 < n) (inside : va % 64 + n ≤ 64) : lineChunks va n = [(va, n)] := by
  have one : (va % 64 + n + 63) / 64 = 1 := by omega
  have first : max va (va / 64 * 64 + 64 * 0) = va := by omega
  have whole : min (va + n) (va / 64 * 64 + 64 * 0 + 64) - va = n := by omega
  rw [lineChunks, one]
  simp only [upto, List.range_one, List.map_cons, List.map_nil, first, whole]

theorem uxRead_ok (read : readVa s (getQc s q).ctx va n accRead .other = (.ok bs, t)) (k : List Byte → State → State) :
    uxRead q va n s k = k bs t := by
  rw [uxRead, read]

theorem uxWrite_ok (reach : translate t (getQc t q).ctx va accWrite .other = (.ok loc, t1)) (some_ : 0 < bs.length)
    (inside : va % 64 + bs.length ≤ 64) (k : State → State) : uxWrite q va bs t k = k (storeAt causeEngine loc bs t1) := by
  rw [uxWrite, writeVa, lineChunks_of_line some_ inside, writeChunks, reach]
  dsimp only
  rw [writeChunks, List.take_length]

/-- What is stored within a line's length behind a translated location stands there in every state that memory does not change from
there. -/
theorem stored_storeAt_behind {ctx acc k cause : Nat} {who : Who} {u : State} (reach : translate t ctx va acc who = (.ok loc, t1))
    (opened : coreClosed t1 (loc + k) = false) (near : k + bs.length ≤ 64) (after : bytesSame (storeAt cause (loc + k) bs t1) u) :
    stored t u (loc + k) bs := by
  have bytes : stored t1 (locStore (loc + k) bs t1) (loc + k) bs := stored_locStore opened fun dev => by
    simp only [isHost, decide_eq_false_iff_not, Nat.not_le] at dev
    have := translate_lt reach (by simp only [isHost, decide_eq_false_iff_not, Nat.not_le]; omega)
    simp only [hostBit]
    omega
  obtain ⟨dev, host⟩ := after
  exact stored_of_same bytes (bytesSame_translate reach) ⟨dev.trans (by rw [storeAt, changed_mem]), host.trans (by rw [storeAt, changed_hs])⟩

/-- An instruction of the update engine whose last access is a store within one line ends behind it. -/
theorem uxWrite_done (has : (getQc s q).cmd.isSome = true) (own : getQc t q = getQc s q)
    (reach : translate t (getQc s q).ctx va accWrite .other = (.ok loc, t1)) (opened : coreClosed t1 loc = false) (some_ : 0 < bs.length)
    (inside : va % 64 + bs.length ≤ 64) :
    let u := onlyWork s (uxWrite q va bs t (doneInsn q 16))
    ended s u q ((getQc s q).pc + 16) ∧ stored t u loc bs := by
  intro u
  have means : u = onlyWork s (doneInsn q 16 (storeAt causeEngine loc bs t1)) := by
    rw [← uxWrite_ok (by rw [own]; exact reach) some_ inside (doneInsn q 16)]
  have same : getQc (storeAt causeEngine loc bs t1) q = getQc s q := by rw [getQc_storeAt, getQc_translate reach, own]
  have last : getQc u q = endCtx 16 (getQc s q) := by
    rw [means, getQc_onlyWork, getQc_doneInsn_self _ _ _ (by rw [same]; exact has), same]
  refine ⟨ended_of_endCtx last rfl rfl, stored_storeAt_behind (k := 0) (cause := causeEngine) reach opened (by omega) ?_⟩
  rw [means]
  exact (bytesKept_onlyWork s (doneInsn_mem ..) (doneInsn_hs ..)).1

end Access

/-! ### The descriptor -/

/-- A read changes, of the bytes of memory and of all other state, nothing. -/
theorem sans_of_readVa {s t : State} {ctx va n acc : Nat} {who : Who} {o : RdOut} (read : readVa s ctx va n acc who = (o, t)) :
    sansCache t = sansCache s := by
  rw [← readVa_sans s ctx va n acc who, read]

section Descriptor
variable {s t : State} {q : Nat} {ra : BitVec 5} {bs : List Byte}

/-- An instruction of the update engine goes on with the descriptor that it could read. -/
theorem withUd_ok (run : canRun s q anyKind = true) (kind : qKind q = kUX) (aligned : (rdG (getQc s q) ra).toNat % 128 = 0)
    (read : readVa s (getQc s q).ctx (rdG (getQc s q) ra).toNat 128 accRead .other = (.ok bs, t)) (body : Nat → Nat → State → State) :
    withUd q ra s body = .next (onlyWork s (body (rdG (getQc s q) ra).toNat (leNat bs) t)) := by
  rw [withUd, onKind_runs run kind]
  dsimp only
  rw [if_neg (by simp [aligned]), uxRead_ok read]

/-- The step words that UX.BEGIN stores, as bytes, where the next free value has number `k` (R166, R169, R179). -/
def beginBytes (d latch : Nat) (n : Int) (eta lam b1 b2 : FV) (snap : Bool) (k : Nat) : List Byte :=
  stepBytes latch n eta lam b1 b2 (biasOf (udBc d) b1 n k) (biasOf (udBc d) b2 n (k + 1))
    (udRule d == 2 && decide (1 ≤ n) && decide (n % (fld d 28 8 : Int) = 0)) snap

theorem length_beginBytes (d latch : Nat) (n : Int) (eta lam b1 b2 : FV) (snap : Bool) (k : Nat) :
    (beginBytes d latch n eta lam b1 b2 snap k).length = 40 := by
  simp [beginBytes, stepBytes]

end Descriptor

/-! ### UX.BEGIN and UX.END -/

section Layer
variable {q : BitVec 20} {ra rb : BitVec 5} {s t1 t2 t3 t4 t5 : State} {bs : List Byte}

section Read
variable (run : canRun s q.toNat anyKind = true) (kind : qKind q.toNat = kUX) (aligned : (rdG (getQc s q.toNat) ra).toNat % 128 = 0)
  (read : readVa s (getQc s q.toNat).ctx (rdG (getQc s q.toNat) ra).toNat 128 accRead .other = (.ok bs, t1))
include run kind aligned read

/-- UX.BEGIN with a sound descriptor and schedule goes on to the store of its step words. -/
theorem execUxBegin_stores {hdr latch : Nat} {ps : List Nat} {n : Int} {eta lam b1 b2 : FV} {snap : Bool} (sound : udBad (leNat bs) = false)
    (schedule : scheduleBad q.toNat (leNat bs) (rdG (getQc s q.toNat) rb).toNat t1 = false)
    (released : if udOpen (leNat bs) then ∀ f, releaseLatch q.toNat (leNat bs) t1 f = f t2 else t2 = t1)
    (points : ∀ f, readSchedule q.toNat (leNat bs) t2 f = f hdr ps t3)
    (curve : scheduleOf (leNat bs) (rdG (getQc s q.toNat) rb).toNat hdr ps = some (n, eta, lam, b1, b2))
    (latched : ∀ f, latchRoots q.toNat (leNat bs) t3 f = f latch t4) (snapped : ∀ f, snapOf q.toNat (leNat bs) n t4 f = f snap t5) :
    execUxBegin q ra rb s = .next (onlyWork s (uxWrite q.toNat ((rdG (getQc s q.toNat) ra).toNat + 88)
      (beginBytes (leNat bs) latch n eta lam b1 b2 snap t5.free) { t5 with free := t5.free + 2 } (doneInsn q.toNat 16))) := by
  have abandoned : ∀ f, (if udOpen (leNat bs) then releaseLatch q.toNat (leNat bs) t1 f else f t1) = f t2 := fun f => by
    split at released
    · next isOpen => rw [if_pos isOpen, released]
    · next isShut => rw [if_neg isShut, released]
  rw [execUxBegin, withUd_ok run kind aligned read]
  dsimp only
  rw [getQc_of_sans (sans_of_readVa read), if_neg (by simp [sound, schedule]), abandoned, points, curve]
  dsimp only
  rw [latched, snapped, beginBytes]

/-- UX.END of an open layer goes on to the store that clears OPEN. -/
theorem execUxEnd_stores (isOpen : udOpen (leNat bs) = true) (released : ∀ f, releaseLatch q.toNat (leNat bs) t1 f = f t2)
    (requested : if udSnap (leNat bs) then ∀ f, uxAdd q.toNat (udRq (leNat bs)) t2 f = f t3 else t3 = t2) :
    execUxEnd q ra s = .next (onlyWork s (uxWrite q.toNat ((rdG (getQc s q.toNat) ra).toNat + 124)
      (leBytes 4 (fld (leNat bs) 993 31 * 2)) t3 (doneInsn q.toNat 16))) := by
  rw [execUxEnd, withUd_ok run kind aligned read]
  dsimp only
  rw [if_neg (by simp [isOpen]), released]
  split at requested
  · next snap => rw [if_pos snap, requested]
  · next still => rw [if_neg still, requested]

end Read

/-- A published root set is latched by 1 added to the LATCH tally of its slot. -/
theorem latchRoots_published {i d loc : Nat} {t : State} (rule : udRule d = 2)
    (reach : translate t (getQc t i).ctx (udRootset d) accTally .other = (.ok loc, t1)) (clean : locPoison t1 loc = false)
    (published : locNat t loc 8 ≠ 0) (f : Nat → State → State) :
    latchRoots i d t f
      = f (locNat t loc 8) (tallyAddAt causeEngine (loc + (if locNat t loc 8 % 2 = 0 then 8 else 16)) 1 t1) := by
  rw [latchRoots, if_neg (by simp [rule]), reach]
  dsimp only
  rw [if_neg (by simp [clean]), locNat_of_same (bytesSame_translate reach), if_neg published]

/-- An addition of 1 to a tally behind a translated location stores the sum. -/
theorem stored_tallyAddAt {ctx va acc loc k : Nat} {who : Who} {t : State} (reach : translate t ctx va acc who = (.ok loc, t1))
    (opened : coreClosed t1 (loc + k) = false) (near : k ≤ 56) (cause : Nat) :
    stored t (tallyAddAt cause (loc + k) 1 t1) (loc + k) (leBytes 8 ((locNat t (loc + k) 8 + 1) % 2 ^ 64)) := by
  rw [tallyAddAt_open opened, locNat_of_same (bytesSame_translate reach)]
  exact stored_storeAt_behind reach opened (by simp only [length_leBytes]; omega) ⟨rfl, rfl⟩

end Layer

end Sys2Proof.Machine
end

section
/-! SUPPORT. The job of one block: what it leaves alone, and the counter that it moves (R171, R174, R175, R182). -/

namespace Sys2Proof.Machine

/-! ### Reads and writes of a block -/

section Jobs
variable {s : State} {j : Job}

theorem JobFrom.of_rdNat {a : Acc} {va n : Nat} {x : Nat × Bool} {k : Job} (h : JobFrom s j) (read : Machine.rdNat a va n j = (x, k)) :
    JobFrom s k := by
  have := JobFrom.rdNat a n va j h
  rwa [read] at this

theorem JobFrom.readMat (a : Acc) (base b r c : Nat) (h : JobFrom s j) : JobFrom s (readMat a base b r c j).2 := by
  refine JobFrom.mapJob (fun y u hu => JobFrom.mapJob (fun x w hw => ?_) _ _ hu) _ j h
  exact JobFrom.rdNat a _ _ w hw

theorem JobFrom.writeMat (a : Acc) (base b : Nat) (m : Mat) (h : JobFrom s j) : JobFrom s (writeMat a base b m j) :=
  JobFrom.foldl (fun _ _ h => JobFrom.foldl (fun _ j h => JobFrom.wrBytes a _ _ j h) _ _ h) _ j h

theorem JobFrom.writeOut (a : Acc) (tc d2 : Nat) (rd : Rnd) (r0 c0 : Nat) (w : Mat) (h : JobFrom s j) :
    JobFrom s (writeOut a tc d2 rd r0 c0 w j) :=
  JobFrom.foldl (fun _ _ h => JobFrom.foldl (fun _ _ h => h.wrVals ..) _ _ h) _ j h

/-- Two matrices that are written where a step word says so. -/
theorem JobFrom.writeMats {p : Prop} [Decidable p] (a : Acc) (base1 base2 b : Nat) (m1 m2 : Mat) (h : JobFrom s j) :
    JobFrom s (if p then Machine.writeMat a base2 b m2 (Machine.writeMat a base1 b m1 j) else j) := by
  split
  · exact (h.writeMat ..).writeMat ..
  · exact h

theorem JobFrom.applyRule (a : Acc) (d rec r0 rows cols : Nat) (g w : Mat) (h : JobFrom s j) :
    JobFrom s (applyRule a d rec r0 rows cols g w j).2 := by
  have drawn : JobFrom s { j with s := { j.s with free := j.s.free + 4 * 2 ^ 30 } } := h.step rfl rfl
  unfold Machine.applyRule
  dsimp only
  split
  · exact ((drawn.readMat ..).writeMat ..).writeMat ..
  · exact ((((drawn.readMat ..).writeMat ..).readMat ..).writeMat ..).writeMat ..
  · split
    · exact (((((drawn.readMat ..).writeMat ..).readMat ..).readMat ..).writeMats ..).writeMats .. |>.writeMat ..
    · exact ((JobFrom.rdNat a _ _ _ ((((((drawn.readMat ..).writeMat ..).readMat ..).readMat ..).writeMats ..).writeMats ..)).readMat ..).readMat ..
        |>.writeMat ..

/-- What UX.CHUNK reads of a block's gradient. -/
theorem JobFrom.readGrad (a : Acc) (tc d d1 c b i rows cols : Nat) (h : JobFrom s j) :
    JobFrom s (Machine.mapJob (fun y => Machine.mapJob (fun x u =>
      (gradOf d c (Machine.rdVal a tc d1 (x, b * i + y, 0, 0) u).1.1, (Machine.rdVal a tc d1 (x, b * i + y, 0, 0) u).2))
      (upto cols)) (upto rows) j).2 := by
  refine JobFrom.mapJob (fun y u hu => JobFrom.mapJob (fun x w hw => ?_) _ _ hu) _ j h
  exact hw.rdVal ..

theorem JobFrom.counted {n : Nums} (h : JobFrom s j) : JobFrom s { j with nums := n } := h.step rfl rfl

/-- What a block reads and writes is a job from the state before it. -/
theorem JobFrom.runBlock (a : Acc) (tc d d1 d2 : Nat) (rd : Rnd) (c i beta rec r hdr : Nat) (h : JobFrom s j) :
    JobFrom s (runBlock a tc d d1 d2 rd c i beta rec r hdr j).2 := by
  unfold Machine.runBlock
  dsimp only
  split
  · exact JobFrom.counted ((h.readMat ..).writeOut ..)
  · split
    · exact JobFrom.counted ((h.readMat ..).writeOut ..)
    · split
      · exact JobFrom.counted (JobFrom.wrBytes _ _ _ _ ((h.readMat ..).writeOut ..))
      · have gradient (rows cols : Nat) := (h.readMat a (rec + 4096) (udB d) rows cols).readGrad a tc d d1 c (udB d) i rows cols
        split
        · exact JobFrom.counted (JobFrom.wrBytes _ _ _ _ ((gradient ..).writeOut ..))
        · exact JobFrom.counted (JobFrom.wrBytes _ _ _ _ (((gradient ..).applyRule ..).writeOut ..))

end Jobs

/-! ### The counter that a block moves

Where several cases of a skip hold at once no rule orders them: that n ≤ 0 decides before a replay, and a replay before a mask without
contributors, is the model's choice. -/

/-- The block counters UPD_SKIP, UPD_REPLAY and UPD_DONE among a command's counters. -/
def blockCounts (n : Nums) : Nat × Nat × Nat := (n.updSkip, n.updReplay, n.updDone)

theorem blockCounts_countAll (n : Nums) (cs : List Nat) : blockCounts (countAll n cs) = blockCounts n := by
  refine List.foldlRecOn (motive := fun m => blockCounts m = blockCounts n) cs countOne rfl (fun m hm c _ => ?_)
  rw [← hm]
  unfold countOne
  split <;> rfl

section Counts
variable {j : Job}

theorem rdByte_nums (a : Acc) (va : Nat) (j : Job) : (rdByte a va j).2.nums = j.nums := by
  unfold rdByte
  generalize translate j.s a.ctx (va % 2 ^ 64) accRead a.who = r
  obtain ⟨o, s1⟩ := r
  cases o with
  | ok loc =>
    dsimp only
    split
    · rfl
    · split <;> rfl
  | bad r l x => rfl
  | poisonAt pa => rfl

theorem rdNat_nums (a : Acc) (n va : Nat) (j : Job) : (rdNat a va n j).2.nums = j.nums := by
  induction n generalizing va j with
  | zero => rfl
  | succ n ih => exact (ih ..).trans (rdByte_nums ..)

theorem mapJob_nums {α β : Type} {f : α → Job → β × Job} (reads : ∀ x j, (f x j).2.nums = j.nums) (l : List α) (j : Job) :
    (mapJob f l j).2.nums = j.nums := by
  induction l generalizing j with
  | nil => rfl
  | cons x l ih => exact (ih _).trans (reads x j)

theorem readMat_nums (a : Acc) (base b r c : Nat) (j : Job) : (readMat a base b r c j).2.nums = j.nums := by
  refine mapJob_nums (fun y u => mapJob_nums (fun x w => ?_) _ u) _ j
  exact rdNat_nums ..

theorem wrByte_nums (a : Acc) (va : Nat) (b : Byte) (p : Bool) (j : Job) : (wrByte a va b p j).nums = j.nums := by
  unfold wrByte
  split <;> rfl

theorem wrBytes_nums (a : Acc) (va : Nat) (bs : List (Byte × Bool)) (j : Job) : (wrBytes a va bs j).nums = j.nums := by
  induction bs generalizing va j with
  | nil => rfl
  | cons b bs ih => exact (ih ..).trans (wrByte_nums ..)

theorem wrRun_nums (a : Acc) (tc d : Nat) (x : Ix) (cs : List (Nat × Bool)) (e : Nat × Bool) (j : Job) : (wrRun a tc d x cs e j).nums = j.nums := by
  unfold wrRun
  dsimp only
  split
  · rw [wrByte_nums, wrBytes_nums]
  · rw [wrBytes_nums]

theorem blockCounts_wrVals (a : Acc) (tc d : Nat) (r : Rnd) (x : Ix) (vs : List (Option FV)) (ovf : List Bool) (j : Job) :
    blockCounts (wrVals a tc d r x vs ovf j).nums = blockCounts j.nums := by
  unfold wrVals
  dsimp only
  split
  · rw [wrRun_nums, blockCounts_countAll]
  · rw [wrRun_nums, blockCounts_countAll]

theorem blockCounts_foldl {α : Type} {f : Job → α → Job} (step : ∀ x j, blockCounts (f j x).nums = blockCounts j.nums) (l : List α) (j : Job) :
    blockCounts (l.foldl f j).nums = blockCounts j.nums :=
  List.foldlRecOn (motive := fun k => blockCounts k.nums = blockCounts j.nums) l f rfl (fun k hk x _ => (step x k).trans hk)

/-- The working weights that a block writes move none of its three counters. -/
theorem blockCounts_writeOut (a : Acc) (tc d2 : Nat) (rd : Rnd) (r0 c0 : Nat) (w : Mat) (j : Job) :
    blockCounts (writeOut a tc d2 rd r0 c0 w j).nums = blockCounts j.nums :=
  blockCounts_foldl (fun _ _ => blockCounts_foldl (fun _ _ => blockCounts_wrVals ..) _ _) _ j

theorem blockCounts_skipped {n : Nums} (none_ : blockCounts n = (0, 0, 0)) :
    blockCounts { n with updSkip := satAdd max32 n.updSkip 1 } = (1, 0, 0) := by
  simp only [blockCounts, Prod.mk.injEq] at none_ ⊢
  obtain ⟨skip, replay, done⟩ := none_
  exact ⟨by rw [skip]; rfl, replay, done⟩

theorem blockCounts_replayed {n : Nums} (none_ : blockCounts n = (0, 0, 0)) :
    blockCounts { n with updReplay := satAdd max32 n.updReplay 1 } = (0, 1, 0) := by
  simp only [blockCounts, Prod.mk.injEq] at none_ ⊢
  obtain ⟨skip, replay, done⟩ := none_
  exact ⟨skip, by rw [replay]; rfl, done⟩

variable {a : Acc} {tc d d1 d2 c i beta rec r hdr : Nat} {rd : Rnd}

/-- A block that leaves its record's weights as they are has moved no counter by writing them. -/
theorem blockCounts_weights (base b rows cols r0 c0 : Nat) (w : Mat) (new : j.nums = {}) :
    blockCounts (writeOut a tc d2 rd r0 c0 w (readMat a base b rows cols j).2).nums = (0, 0, 0) := by
  rw [blockCounts_writeOut, readMat_nums, new]
  rfl

/-- A block before its group's first step is skipped. -/
theorem blockCounts_early (new : j.nums = {}) (early : udStepN d ≤ 0) :
    blockCounts (runBlock a tc d d1 d2 rd c i beta rec r hdr j).2.nums = (1, 0, 0) := by
  unfold runBlock
  dsimp only
  rw [if_pos early]
  exact blockCounts_skipped (blockCounts_weights _ _ _ _ _ _ _ new)

/-- A block that has been applied at its step or later is replayed. -/
theorem blockCounts_applied (new : j.nums = {}) (trains : 0 < udStepN d) (applied : udStepN d ≤ fld hdr 0 32) :
    blockCounts (runBlock a tc d d1 d2 rd c i beta rec r hdr j).2.nums = (0, 1, 0) := by
  unfold runBlock
  dsimp only
  rw [if_neg (by omega), if_pos applied]
  exact blockCounts_replayed (blockCounts_weights _ _ _ _ _ _ _ new)

/-- A block without a contributor is skipped. -/
theorem blockCounts_unfed (new : j.nums = {}) (trains : 0 < udStepN d) (next : (fld hdr 0 32 : Int) < udStepN d) (unfed : c = 0) :
    blockCounts (runBlock a tc d d1 d2 rd c i beta rec r hdr j).2.nums = (1, 0, 0) := by
  unfold runBlock
  dsimp only
  rw [if_neg (by omega), if_neg (by omega), if_pos unfed]
  refine blockCounts_skipped ?_
  rw [wrBytes_nums]
  exact blockCounts_weights _ _ _ _ _ _ _ new

end Counts

end Sys2Proof.Machine
end

section
/-! SUPPORT. The obligation of the update engine's instructions: a chunk's start, its blocks and its end, assembled (R164, R167 to R169, R171
to R173, R177, R179, R182). -/

namespace Sys2Proof.Machine

/-! ### The blocks of a chunk -/

section Blocks
variable {q m i beta : Nat} {w : UxWork} {s : State}

/-- A long-running instruction that ends with DONE has ended, whatever command its queue context holds. -/
theorem ended_endLong (q len : Nat) (seq : BitVec 56) (n : Nums) (s : State) :
    ended s (endLong q stDone seq n len s) q ((getQc s q).pc + BitVec.ofNat 64 len) := by
  by_cases has : (getQc s q).cmd.isSome = true
  · exact ended_of_endCtx (getQc_endLong_done has seq n len) (bookedCtx_cmd ..) (bookedCtx_pc ..)
  · have none_ : (getQc s q).cmd = none := Option.not_isSome_iff_eq_none.mp has
    have idle : isProg (getQc s q) = false := by rw [isProg, none_]
    unfold ended endLong
    dsimp only
    rw [if_neg (by simp [idle]), if_neg (by simp [idle]), getQc_finishCmd, if_pos rfl]
    simp [finCtx, none_]

theorem bytesKept_endLong (q st len : Nat) (seq : BitVec 56) (n : Nums) (s : State) : bytesKept s (endLong q st seq n len s) := by
  refine ⟨⟨?_, ?_⟩, ?_, ?_, ?_⟩ <;> simp

theorem runBlocks_done (last : w.blocks = []) : runBlocks q m w s = endLong q stDone w.seq w.nums 16 s := by
  cases m with
  | zero => rw [runBlocks, if_pos (by simp [last])]
  | succ m => rw [runBlocks, last]

theorem runBlocks_paused (more : w.blocks ≠ []) : runBlocks q 0 w s = pauseChunk q w s := by
  rw [runBlocks, if_neg (by simpa using more)]

/-- A chunk between two rows: what is left of it stands in its queue context, beside what an engine reset would tear. -/
theorem pauseChunk_keeps (q : Nat) (w : UxWork) (s : State) :
    ∃ x y, pauseChunk q w s = modQc q (fun c => { c with chunk := some { w with torn := x, writes := y } }) s := ⟨_, _, rfl⟩

theorem pauseChunk_result (q : Nat) (w : UxWork) (s : State) :
    (∃ x y, (getQc (pauseChunk q w s) q).chunk = some { w with torn := x, writes := y })
      ∧ (getQc (pauseChunk q w s) q).pc = (getQc s q).pc ∧ (getQc (pauseChunk q w s) q).cmd = (getQc s q).cmd
      ∧ bytesKept s (pauseChunk q w s) := by
  obtain ⟨x, y, paused⟩ := pauseChunk_keeps q w s
  have own : getQc (pauseChunk q w s) q = { getQc s q with chunk := some { w with torn := x, writes := y } } := by
    rw [paused, getQc_modQc, if_pos rfl]
  refine ⟨⟨x, y, by rw [own]⟩, by rw [own], by rw [own], ?_⟩
  rw [paused]
  exact ⟨⟨rfl, rfl⟩, rfl, rfl, rfl⟩

variable {n r h : Nat} {p1 p2 : Bool} {j1 j2 : Job} {rest : List (Nat × Nat)}

/-- A block that passes its checks comes to its job. -/
theorem blockOut_job (inLayer : beta < cdiv (udK w.desc.toNat) (udB w.desc.toNat) * cdiv (udN w.desc.toNat) (udB w.desc.toNat))
    (mapped : rdNat (uxAcc s q) (udRecmap w.desc.toNat + 2 * beta) 2 { s } = ((r, p1), j1)) (ok1 : j1.errs = [])
    (owned : r < udNrec w.desc.toNat) (header : rdNat (uxAcc s q) (recAddr w.desc.toNat r) 12 j1 = ((h, p2), j2)) (ok2 : j2.errs = [])
    (own : fld h 64 32 = beta) (whole : fld (fld h 0 64) 63 1 = 0) :
    let out := runBlock (uxAcc s q) (tcOf s) w.desc.toNat w.d1.toNat w.d2.toNat (uxRnd s q w) w.c i beta (recAddr w.desc.toNat r) r
      (fld h 0 64) { s := j2.s }
    blockOut q w i beta s = .job out.1 (recAddr w.desc.toNat r) (fld h 0 64) out.2 := by
  unfold blockOut
  dsimp only
  rw [if_neg (Nat.not_le.2 inLayer), mapped]
  simp only [ok1]
  rw [if_neg (Nat.not_le.2 owned), header]
  simp only [ok2]
  rw [if_neg (by simp [own, whole])]

/-- A row goes on behind a block whose accesses met no fault, in the state in which its writes stand. -/
theorem runBlocks_block {state : Bool} {rec_ hdr : Nat} {j : Job} (first : w.blocks = (i, beta) :: rest)
    (out : blockOut q w i beta s = .job state rec_ hdr j) (ok : j.errs = []) :
    runBlocks q (n + 1) w s
      = runBlocks q n { w with blocks := rest, nums := addNums w.nums j.nums } (jobCommit causeEngine { j with reads := [] }) := by
  rw [runBlocks, first]
  dsimp only
  rw [out]
  dsimp only
  rw [ok]

/-- The writes of a block that met no fault stand in memory, and its command goes on. -/
theorem block_result {j : Job} (job : JobFrom s j) (ok : j.errs = []) :
    let u := jobCommit causeEngine { j with reads := [] }
    jobStored s u { j with reads := [] } ∧ (getQc u q).pc = (getQc s q).pc ∧ (getQc u q).cmd = (getQc s q).cmd := by
  intro u
  have queue : getQc u q = getQc s q := (getQc_jobCommit ..).trans (getQc_of_sans job.state q)
  exact ⟨jobStored_jobCommit (j := { j with reads := [] }) (job.step rfl rfl) ok causeEngine, by rw [queue], by rw [queue]⟩

end Blocks

/-! ### The start of a chunk -/

theorem canRun_chunk {s : State} {q : Nat} {k : Nat → Bool} (run : canRun s q k = true) : (getQc s q).chunk = none := by
  unfold canRun at run
  simp only [Bool.and_eq_true, Option.isNone_iff_eq_none] at run
  exact run.2

theorem canRun_kind {s : State} {q k : Nat} (run : canRun s q anyKind = true) (kind : qKind q = k) : canRun s q (onlyKind k) = true := by
  have same : onlyKind k (qKind q) = anyKind (qKind q) := by simp [onlyKind, anyKind, kind]
  rw [← run, canRun, canRun, same]

section Start
variable {q : BitVec 20} {ra rc : BitVec 5} {h1 h2 : BitVec 16} {s t1 t2 t3 t : State} {bs hd bl : List Byte} {d1 d2 : Nat}

/-- The blocks that a chunk header counts. -/
def headerBlocks (hd : List Byte) : Nat := leNat ((hd.drop 16).take 2)

/-- The chunk that UX.CHUNK has read: its descriptor, its header `hd` with the block list `bl`, its tensors (R173, R174). -/
def chunkWork (seq : BitVec 56) (d : Nat) (hd bl : List Byte) (d1 d2 : Nat) : UxWork :=
  { seq, desc := BitVec.ofNat 1024 d, d1 := BitVec.ofNat 512 d1, d2 := BitVec.ofNat 512 d2
    c := ((upto 128).filter (fun b => (BitVec.ofNat 128 (leNat (hd.take 16))).getLsbD b)).length
    blocks := (upto (headerBlocks hd)).map (fun b => (b, leNat ((bl.drop (4 * b)).take 4))) }

section Reads
variable (read : readVa (startLong q.toNat (0x18 * 2 ^ 58 + 0x01 * 2 ^ 52) s) (getQc s q.toNat).ctx (rdG (getQc s q.toNat) ra).toNat 128
    accRead .other = (.ok bs, t1))
  (header : readVa t1 (getQc s q.toNat).ctx (rdG (getQc s q.toNat) rc).toNat 32 accRead .other = (.ok hd, t2))
  (listed : readVa t2 (getQc s q.toNat).ctx ((rdG (getQc s q.toNat) rc).toNat + 32) (4 * headerBlocks hd) accRead .other = (.ok bl, t3))
  (tensors : readTds (engPart s (qKind q.toNat) (qIndex q.toNat)) [h1.toNat, h2.toNat] t3 = some ([d1, d2], t))
include read header listed

/-- The reads of UX.CHUNK's descriptor and header change nothing behind its start. -/
theorem sans_chunkReads : sansCache t3 = sansCache (startLong q.toNat (0x18 * 2 ^ 58 + 0x01 * 2 ^ 52) s) :=
  (sans_of_readVa listed).trans ((sans_of_readVa header).trans (sans_of_readVa read))

include tensors

/-- What UX.CHUNK has read before its first block has changed no byte, and of its queue context what its start changes. -/
theorem longFrom_chunkReads : LongFrom s q.toNat t :=
  longFrom_of_sans ((readTds_sans tensors).trans (sans_chunkReads read header listed))

/-- UX.CHUNK with sound operands goes on to the first blocks of its header. -/
theorem execUxChunk_starts (run : canRun s q.toNat anyKind = true) (kind : qKind q.toNat = kUX)
    (aligned : (rdG (getQc s q.toNat) ra).toNat % 128 = 0) (sound : udBad (leNat bs) = false) (isOpen : udOpen (leNat bs) = true)
    (place : (rdG (getQc s q.toNat) rc).toNat % 64 = 0) (sound1 : tdOk false d1 = true) (sound2 : tdOk true d2 = true)
    (gradient : tdFmt d1 = 1 ∧ tdTiled d1 = false ∧ tdDim d1 0 = udB (leNat bs) ∧ tdDim d1 1 = udB (leNat bs) * headerBlocks hd
      ∧ tdDim d1 2 = 1 ∧ tdDim d1 3 = 1)
    (weights : bellFmt (tdFmt d2) = true ∧ tdTiled d2 = false ∧ tdDim d2 0 = udK (leNat bs) ∧ tdDim d2 1 = udN (leNat bs) ∧ tdDim d2 2 = 1
      ∧ tdDim d2 3 = 1) (blocks : Nat) :
    execUxChunk q ra h1 h2 rc blocks s
      = .next (onlyWork s (runBlocks q.toNat blocks (chunkWork (longSeq s q.toNat) (leNat bs) hd bl d1 d2) t)) := by
  have own : getQc (startLong q.toNat (0x18 * 2 ^ 58 + 0x01 * 2 ^ 52) s) q.toNat = longCtx (getQc s q.toNat) :=
    (getQc_startLong ..).trans (if_pos rfl)
  have table : engPart t3 (qKind q.toNat) (qIndex q.toNat) = engPart s (qKind q.toNat) (qIndex q.toNat) := by
    rw [engPart_of_fe (sans_fe (sans_chunkReads read header listed)), engPart_of_fe (startLong_fe ..)]
  obtain ⟨t4, first, table4, rest⟩ := withTd_readTds table tensors
  obtain ⟨fmt1, tiled1, dim0, dim1, dim2, dim3⟩ := gradient
  obtain ⟨fmt2, tiled2, cols, rows, planes, volumes⟩ := weights
  unfold headerBlocks at listed dim1
  rw [execUxChunk, canRun_chunk run]
  dsimp only
  rw [startChunk, longInsn_runs run kind rfl]
  dsimp only
  rw [own, longCtx_ctx, rdG_longCtx, rdG_longCtx, if_neg (by simp [aligned]), read]
  dsimp only
  rw [if_neg (by simp [sound, isOpen]), if_neg (by simp [place]), header]
  dsimp only
  rw [listed]
  dsimp only
  rw [first _ _ _ _ _ sound1 (by simp [fmt1, tiled1, dim0, dim1, dim2, dim3]),
    withTd_one table4 rest _ sound2 (by simp [fmt2, tiled2, cols, rows, planes, volumes]), chunkWork, headerBlocks]

end Reads

/-- UX.CHUNK in progress goes on with the blocks that its row before left. -/
theorem execUxChunk_goesOn {w : UxWork} (kind : qKind q.toNat = kUX) (left : (getQc s q.toNat).chunk = some w)
    (run : canRun (modQc q.toNat (fun x => { x with chunk := none }) s) q.toNat anyKind = true) (blocks : Nat) :
    execUxChunk q ra h1 h2 rc blocks s
      = .next (onlyWork s (runBlocks q.toNat blocks w (modQc q.toNat (fun x => { x with chunk := none }) s))) := by
  rw [execUxChunk, left]
  dsimp only
  rw [if_pos (canRun_kind run kind)]

end Start

/-- Settles O55: UX.BEGIN and UX.END by their last store, UX.CHUNK by its start and by the job of each of its blocks. -/
theorem updateEngineInstructions : Obligations.UpdateEngineInstructions := by
  intro q ra rb rc h1 h2 s run kind i c va
  have has := (canRun_has run).2
  refine ⟨?begin_, ?latch, ?start, ?goesOn, ?blocks, ?end_⟩
  case begin_ =>
    intro bs t1 t2 t3 t4 t5 t6 hdr latch loc ps n eta lam b1 b2 snap d step stat aligned read sound schedule released points curve latched
      snapped reach opened own
    have line : (va + 88) % 64 = 24 := by omega
    obtain ⟨end_, bytes⟩ := uxWrite_done (t := { t5 with free := t5.free + 2 })
      (bs := beginBytes d latch n eta lam b1 b2 snap t5.free) has own reach opened (by rw [length_beginBytes]; decide)
      (by rw [length_beginBytes, line])
    exact ⟨_, execUxBegin_stores run kind aligned read sound schedule released points curve latched snapped, end_, bytes⟩
  case latch =>
    intro d loc t t1 rule reach tally clean published opened
    refine ⟨_, latchRoots_published rule reach clean published, ?_⟩
    exact stored_tallyAddAt reach opened (by split <;> decide) _
  case start =>
    intro bs hd bl t1 t2 t3 t d1 d2 blocks d hv nblk mask aligned read sound isOpen place header listed tensors sound1 sound2 gradient weights
    have long := longFrom_chunkReads read header listed tensors
    refine ⟨execUxChunk_starts read header listed tensors run kind aligned sound isOpen place sound1 sound2 gradient weights blocks,
      long.bytes, ?_, ?_⟩
    · rw [long.own, longCtx_pc]
    · rw [long.own, longCtx_cmd]
  case goesOn =>
    exact fun p w blocks left run => execUxChunk_goesOn kind left run blocks
  case blocks =>
    intro w m t d u0
    refine ⟨fun last => ?_, fun more none_ => ?_, ?_⟩
    · rw [show u0 = _ from runBlocks_done last]
      exact ⟨ended_endLong .., bytesKept_endLong ..⟩
    · subst none_
      rw [show u0 = _ from runBlocks_paused more]
      exact pauseChunk_result ..
    · intro b beta r h p1 p2 j1 j2 rest rec_ hdr j first more inLayer mapped ok1 owned header ok2 own whole ok
      obtain ⟨m, rfl⟩ := Nat.exists_eq_add_one.2 more
      have reads : JobFrom t j2 := (JobFrom.refl t []).of_rdNat mapped |>.of_rdNat header
      have job : JobFrom t j := JobFrom.runBlock _ _ _ _ _ _ _ _ _ _ _ _ (j := { s := j2.s }) ⟨reads.state, rfl⟩
      obtain ⟨bytes, pc, cmd⟩ := block_result (q := i) job ok
      exact ⟨_, runBlocks_block first (blockOut_job inLayer mapped ok1 owned header ok2 own whole) ok, bytes, pc, cmd, blockCounts_early rfl,
        blockCounts_applied rfl, blockCounts_unfed rfl⟩
  case end_ =>
    intro bs t1 t2 t3 t4 loc d aligned read isOpen released requested reach opened own
    have line : (va + 124) % 64 = 60 := by omega
    obtain ⟨end_, bytes⟩ := uxWrite_done (bs := leBytes 4 (fld d 993 31 * 2)) has own reach opened (by simp) (by simp [line])
    exact ⟨_, execUxEnd_stores run kind aligned read isOpen released requested, end_, bytes⟩

end Sys2Proof.Machine
end

section
/-! SUPPORT. One port of the fabric: what its commands read and write, what follows a change of its state, and what a failure, a log
record or stored seeds leave of it (R186, R187, R197, R205, R279). -/

namespace Sys2Proof.Machine

/-! ### Ports under the operations of a port command -/

@[simp] theorem getPort_onlyPort (s t : State) (n : Nat) : getPort (onlyPort s t) n = getPort t n := rfl
@[simp] theorem getPort_emit (o : Output) (s : State) (n : Nat) : getPort (emit o s) n = getPort s n := rfl
@[simp] theorem getPort_storeSeeds (m n : Nat) (s : State) : getPort (storeSeeds m s) n = getPort s n := rfl
@[simp] theorem getPort_portLog (m sev event a0 a1 n : Nat) (s : State) : getPort (portLog m sev event a0 a1 s) n = getPort s n := by
  unfold getPort portLog
  rw [addLog_et]

@[simp] theorem getPort_fwPoint (i code arg n : Nat) (s : State) : getPort (fwPoint i code arg s) n = getPort s n :=
  fwPoint_keep (getPort · n) (fun _ _ => rfl) (fun _ _ => rfl) (fun _ _ _ => rfl) (fun _ _ => rfl) ..

theorem portRuns_here {s : State} {n : Nat} (runs : portRuns s n = true) : portHere s n = true ∧ linkFrozen s n = false := by
  simp only [portRuns, Bool.and_eq_true, Bool.not_eq_true'] at runs
  exact runs.1

/-- A training port goes to a state, a port in RETRAIN to that step of it. -/
def stepped (k : Nat) (p : Port) : Port := if p.state = 8 then { p with sub := k } else { p with state := k }

theorem getPort_toStep (n k m : Nat) (s : State) : getPort (toStep n k s) m = if m = n then stepped k (getPort s n) else getPort s m :=
  getPort_modPort ..

/-! ### What follows a change of a port's state or peer record -/

theorem getPort_congr {s t : State} (same : sansRecords s = sansRecords t) (n : Nat) : getPort s n = getPort t n := by
  rw [← getPort_sansRecords, same, getPort_sansRecords]

theorem getPort_checkReady (cause n : Nat) (s : State) : getPort (checkReady cause s) n = getPort s n :=
  getPort_congr (checkReady_sansRecords cause s) n

theorem getPort_endLinks (n : Nat) (s : State) : getPort (endLinks s) n = getPort s n :=
  getPort_congr (endLinks_sansRecords s) n

theorem getPort_leftUp (n m : Nat) (was : Port) (s : State) : getPort (leftUp n was s) m = getPort s m :=
  getPort_congr (leftUp_sansRecords n was s) m

theorem getPort_recheck (n m : Nat) (s : State) : getPort (recheck n s) m = getPort (judgePort n s) m := getPort_checkReady ..

/-- The check of a port leaves every other port as it was. -/
theorem getPort_judgePort_ne {n m : Nat} (other : m ≠ n) (s : State) : getPort (judgePort n s) m = getPort s m := by
  unfold judgePort
  split
  · rfl
  · exact (getPort_modPort ..).trans (if_neg other)

theorem getPort_recheck_ne {n m : Nat} (other : m ≠ n) (s : State) : getPort (recheck n s) m = getPort s m :=
  (getPort_recheck ..).trans (getPort_judgePort_ne other s)

theorem getPort_portChanged_ne {n m : Nat} (other : m ≠ n) (s : State) : getPort (portChanged n s) m = getPort s m :=
  (getPort_recheck_ne other _).trans (getPort_endLinks ..)

/-- A port that agrees with another in all but FWD. -/
theorem eq_with_fwd {p q : Port} (same : { p with fwd := false } = { q with fwd := false }) : p = { q with fwd := p.fwd } := by
  cases p
  cases q
  simpa using same

theorem getPort_recheck_self (n : Nat) (s : State) : getPort (recheck n s) n = { getPort s n with fwd := (getPort (recheck n s) n).fwd } := by
  refine eq_with_fwd ?_
  rw [getPort_recheck]
  exact getPort_judgePort (fun v => { v with fwd := false }) (fun _ _ => rfl) n n s

theorem getPort_portChanged_self (n : Nat) (s : State) :
    getPort (portChanged n s) n = { getPort s n with fwd := (getPort (portChanged n s) n).fwd } :=
  eq_with_fwd (getPort_portChanged (fun v => { v with fwd := false }) (fun _ _ => rfl) n n s)

/-- Bring-up's stages leave the extract in force alone. -/
theorem endLinks_inForce (s : State) : (endLinks s).bt.inForce = s.bt.inForce := by
  unfold endLinks
  split
  · rw [enterStage, droneLog, addLog_bt]
  · rfl

theorem judgePort_unforced {s : State} (none_ : s.bt.inForce = none) (n : Nat) : judgePort n s = s := by
  unfold judgePort
  rw [none_]

/-- Without an extract in force FWD is as it was. -/
theorem portChanged_fwd_unforced {s : State} (none_ : s.bt.inForce = none) (n : Nat) : (getPort (portChanged n s) n).fwd = (getPort s n).fwd := by
  unfold portChanged
  rw [getPort_recheck, judgePort_unforced ((endLinks_inForce s).trans none_), getPort_endLinks]

theorem judge_down {s : State} {n : Nat} (down : (getPort s n).state ≠ 7) (e : Extract) : judge s e n ≠ 1 := by
  unfold judge
  dsimp only
  rw [if_pos down]
  split <;> decide

/-- A port that is not UP and has no FWD gains none by the check. -/
theorem portChanged_fwd_down {s : State} {n : Nat} (down : (getPort s n).state ≠ 7) (held : (getPort s n).fwd = false) :
    (getPort (portChanged n s) n).fwd = false := by
  unfold portChanged
  rw [getPort_recheck]
  rw [← getPort_endLinks] at down held
  unfold judgePort
  split
  · exact held
  · rw [getPort_modPort, if_pos rfl]
    exact beq_false_of_ne (judge_down down _)

/-! ### What leaves the module, and stored seeds -/

theorem sensorEvent_out (sensor value : Nat) (s : State) : s.out <+: (sensorEvent sensor value s).out := by
  unfold sensorEvent
  split
  · exact List.prefix_append ..
  · exact List.prefix_rfl

theorem notice_out (o : Output) (s : State) : s.out <+: (notice o s).out := by
  unfold notice
  repeat' split
  · exact List.prefix_rfl
  · exact List.prefix_rfl
  · exact List.prefix_append ..

theorem enterStage_out (st : Nat) (s : State) : (enterStage st s).out = s.out := by
  rw [enterStage, droneLog, addLog_out]

theorem checkReady_out (cause : Nat) (s : State) : s.out <+: (checkReady cause s).out := by
  unfold checkReady
  split
  · refine List.IsPrefix.trans ?_ ((notice_out ..).trans (sensorEvent_out ..))
    rw [droneLog, addLog_out, enterStage_out]
  · exact List.prefix_rfl

theorem judgePort_out (n : Nat) (s : State) : (judgePort n s).out = s.out := by
  unfold judgePort
  split <;> rfl

theorem endLinks_out (s : State) : (endLinks s).out = s.out := by
  unfold endLinks
  split
  · exact enterStage_out ..
  · rfl

/-- A change of a port adds to what has left the module. -/
theorem portChanged_out (n : Nat) (s : State) : s.out <+: (portChanged n s).out := by
  refine List.IsPrefix.trans ?_ (checkReady_out 2 _)
  rw [judgePort_out, endLinks_out]

theorem enterStage_seeds (st : Nat) (s : State) : (enterStage st s).fl.seeds = s.fl.seeds := by
  rw [enterStage, droneLog, addLog_fl]

theorem checkReady_seeds (cause : Nat) (s : State) : (checkReady cause s).fl.seeds = s.fl.seeds := by
  unfold checkReady
  split
  · dsimp only
    rw [sensorEvent_keep (·.fl.seeds) (fun _ _ => rfl), notice_keep (·.fl.seeds) (fun _ _ => rfl) (fun _ _ => rfl), droneLog, addLog_fl,
      enterStage_seeds]
  · rfl

theorem judgePort_seeds (n : Nat) (s : State) : (judgePort n s).fl.seeds = s.fl.seeds := by
  unfold judgePort
  split <;> rfl

theorem endLinks_seeds (s : State) : (endLinks s).fl.seeds = s.fl.seeds := by
  unfold endLinks
  split
  · exact enterStage_seeds ..
  · rfl

/-- A change of a port leaves the stored seeds alone. -/
theorem portChanged_seeds (n : Nat) (s : State) : (portChanged n s).fl.seeds = s.fl.seeds := by
  unfold portChanged recheck
  rw [checkReady_seeds, judgePort_seeds, endLinks_seeds]

/-- The seeds stored for a port, with its peer's identity (R187). -/
def seedOf (p : Port) : Seed := { stored := true, peerId := p.peerId, peerPort := p.peerPort }

theorem storeSeeds_seeds (n : Nat) (s : State) : (storeSeeds n s).fl.seeds = mset {} s.fl.seeds n (seedOf (getPort s n)) := rfl

theorem mget_storeSeeds (n : Nat) (s : State) : mget {} (storeSeeds n s).fl.seeds n = seedOf (getPort s n) := by
  rw [storeSeeds_seeds, mget_mset_self]

/-! ### Failure -/

/-- A port in FAILED: its queue and its replay buffer are dropped and counted (R197). -/
def failedPort (reason : Nat) (p : Port) : Port :=
  { p with state := 9, fwd := false, failReason := reason, sub := 0
           dropped := satAdd max32 p.dropped (p.txq.length + p.replay.length), txq := [], replay := [], resend := []
           swap := none, swapWaits := [], txCopy := none, swapActive := false, dead := [], retrainFails := 0, recordDue := false }

theorem failPort_eq (n reason : Nat) (s : State) :
    failPort n reason s = portChanged n (leftUp n (getPort s n) (setPort n (failedPort reason (getPort s n)) s)) := rfl

theorem getPort_failPort_self (n reason : Nat) (s : State) : getPort (failPort n reason s) n = failedPort reason (getPort s n) := by
  have changed : getPort (leftUp n (getPort s n) (setPort n (failedPort reason (getPort s n)) s)) n = failedPort reason (getPort s n) := by
    rw [getPort_leftUp, getPort_setPort, if_pos rfl]
  have state : (failedPort reason (getPort s n)).state = 9 := rfl
  rw [failPort_eq, getPort_portChanged_self, portChanged_fwd_down (by rw [changed, state]; decide) (by rw [changed]; rfl), changed]
  rfl

theorem getPort_failPort_ne {n m : Nat} (other : m ≠ n) (reason : Nat) (s : State) : getPort (failPort n reason s) m = getPort s m := by
  rw [failPort_eq, getPort_portChanged_ne other, getPort_leftUp, getPort_setPort, if_neg other]

/-- What the fabric's statements say of a port that was `p` and has failed. -/
def hasFailed (p : Port) (reason : Nat) (x : Port) : Prop :=
  x.state = 9 ∧ x.failReason = reason ∧ x.fwd = false ∧ x.txq = [] ∧ x.replay = [] ∧ x.resend = [] ∧ x.dead = [] ∧ x.swap = none
  ∧ x.dropped = satAdd max32 p.dropped (p.txq.length + p.replay.length)

theorem hasFailed_failedPort {p q : Port} (txq : q.txq = p.txq) (replay : q.replay = p.replay) (dropped : q.dropped = p.dropped) (reason : Nat) :
    hasFailed p reason (failedPort reason q) :=
  ⟨rfl, rfl, rfl, rfl, rfl, rfl, rfl, rfl, by rw [← txq, ← replay, ← dropped]; rfl⟩

/-! ### Log records of ports -/

/-- A log record of a port's controller, made where the processors and the logs are those of `s`. -/
theorem logged_portLog {s u t : State} {n sev event a0 a1 : Nat} (pw : u.pw = s.pw) (bt : u.bt = s.bt) (fw : u.fw = s.fw) (fr : u.fr = s.fr)
    (kept : logParts t.fr = logParts (portLog n sev event a0 a1 u).fr) : logged s t (procIsland (54 + n)) sev event a0 a1 :=
  logged_of_addLog fr (droneUp_congr (by rw [pw]) (by rw [pw]) bt fw) kept

end Sys2Proof.Machine
end

section
/-! SUPPORT. Lane maps: the working lane that every logical lane takes in ALIGN, and the map after one lane has moved (R184, R188, R195). -/

namespace Sys2Proof.Machine

/-! ### One lane of a map -/

/-- The physical lane that a lane map gives a logical lane: the lane itself where the map lists none. -/
def physLane (m : NMap Nat) (l : Nat) : Nat := if mget 0 m l = 0 then l else mget 0 m l - 1

theorem laneOf_eq (p : Port) (l : Nat) : laneOf p l = physLane p.laneOf l := rfl

theorem physLane_mset_spare (m : NMap Nat) (l x k : Nat) : physLane (mset 0 m l (x + 1)) k = if k = l then x else physLane m k := by
  unfold physLane
  rw [mget_mset]
  split <;> simp

/-- A logical lane that moves takes its new lane, and every other keeps its own. -/
theorem physLane_move (m : NMap Nat) (l x k : Nat) :
    physLane (mset 0 m l (if x = l then 0 else x + 1)) k = if k = l then x else physLane m k := by
  by_cases own : x = l
  · rw [if_pos own, physLane, physLane, mget_mset]
    by_cases here : k = l
    · simp [here, own]
    · simp [here]
  · rw [if_neg own, physLane_mset_spare]

/-- The failed lanes after one more is marked. -/
theorem getLsbD_setBit18 (v : BitVec 18) (i : Nat) : (setBit18 v i).getLsbD i = (v.getLsbD i || decide (i < 18)) := by
  rw [setBit18, BitVec.getLsbD_or, BitVec.getLsbD_ofNat, Nat.testBit_two_pow_self, Bool.and_true]

/-! ### A spare for every failed lane -/

/-- The working lanes of a list. -/
def working (failed : BitVec 18) (ls : List Nat) : List Nat := ls.filter (fun i => !failed.getLsbD i)

theorem length_working_all (failed : BitVec 18) : failedCount failed + (working failed (upto 18)).length = 18 :=
  (List.length_eq_length_filter_add (l := upto 18) (fun i => failed.getLsbD i)).symm

/-- With at most two failed lanes and fewer than 16 working lanes in use, a working spare is left. -/
theorem exists_spareLane {used : List Nat} {failed : BitVec 18} (few : failedCount failed ≤ 2) (room : (working failed used).length < 16) :
    ∃ x, spareLane used failed = some x ∧ failed.getLsbD x = false := by
  cases found : spareLane used failed with
  | some x =>
    have chosen := List.find?_some (show (upto 18).find? _ = some x from found)
    simp only [Bool.and_eq_true, Bool.not_eq_true'] at chosen
    exact ⟨x, rfl, chosen.2⟩
  | none =>
    have taken : working failed (upto 18) ⊆ working failed used := by
      intro i hi
      obtain ⟨lane, good⟩ := List.mem_filter.1 hi
      refine List.mem_filter.2 ⟨?_, good⟩
      by_contra idle
      have busy := List.find?_eq_none.1 found i lane
      simp only [Bool.not_eq_true'] at good
      simp [idle, good] at busy
    have most : (working failed (upto 18)).length ≤ (working failed used).length :=
      (List.subperm_of_subset (List.nodup_range.filter _) taken).length_le
    have all := length_working_all failed
    omega

/-! ### The map of a direction -/

/-- One logical lane of the map: its base lane where that works, else the lowest working spare. -/
def mapLane (base : Nat → Nat) (failed : BitVec 18) (st : List Nat × NMap Nat) (l : Nat) : List Nat × NMap Nat :=
  if failed.getLsbD (base l) then
    match spareLane st.1 failed with
    | some x => (x :: st.1, mset 0 st.2 l (x + 1))
    | none => st
  else (st.1, mset 0 st.2 l (if base l = l then 0 else base l + 1))

theorem mapLanes_eq (base : Nat → Nat) (failed : BitVec 18) :
    mapLanes base failed = ((upto 16).foldl (mapLane base failed) ((upto 16).map base, [])).2 := rfl

section Lane
variable {base : Nat → Nat} {failed : BitVec 18} {st : List Nat × NMap Nat} {l : Nat}

theorem mapLane_kept (works : failed.getLsbD (base l) = false) :
    mapLane base failed st l = (st.1, mset 0 st.2 l (if base l = l then 0 else base l + 1)) := by
  rw [mapLane, works]
  rfl

theorem mapLane_spare {x : Nat} (fails : failed.getLsbD (base l) = true) (spare : spareLane st.1 failed = some x) :
    mapLane base failed st l = (x :: st.1, mset 0 st.2 l (x + 1)) := by
  rw [mapLane, fails, spare]
  rfl

/-- The logical lane is on a working lane, on its base lane where that works. -/
def laneWorks (base : Nat → Nat) (failed : BitVec 18) (m : NMap Nat) (l : Nat) : Prop :=
  failed.getLsbD (physLane m l) = false ∧ (failed.getLsbD (base l) = false → physLane m l = base l)

/-- Working lanes in use together with the lanes of `ls` that still want a spare. -/
def lanesWanted (base : Nat → Nat) (failed : BitVec 18) (used ls : List Nat) : Nat :=
  (working failed used).length + (ls.filter (fun l => failed.getLsbD (base l))).length

theorem lanesWanted_start (base : Nat → Nat) (failed : BitVec 18) (ls : List Nat) : lanesWanted base failed (ls.map base) ls = ls.length := by
  unfold lanesWanted working
  rw [List.filter_map, List.length_map, Nat.add_comm]
  exact (List.length_eq_length_filter_add (l := ls) (fun l => failed.getLsbD (base l))).symm

/-- One more lane mapped: it works, the others are as they were, and no more lanes are wanted than before. -/
theorem mapLane_works (few : failedCount failed ≤ 2) {ls : List Nat} (room : lanesWanted base failed st.1 (l :: ls) ≤ 16) :
    laneWorks base failed (mapLane base failed st l).2 l ∧ (∀ k, k ≠ l → physLane (mapLane base failed st l).2 k = physLane st.2 k)
    ∧ lanesWanted base failed (mapLane base failed st l).1 ls ≤ 16 := by
  unfold lanesWanted at room
  cases base_ : failed.getLsbD (base l) with
  | false =>
    rw [mapLane_kept base_]
    refine ⟨?_, fun k other => by rw [physLane_move, if_neg other], ?_⟩
    · rw [laneWorks, physLane_move, if_pos rfl]
      exact ⟨base_, fun _ => rfl⟩
    · rw [List.filter_cons_of_neg (by simp [base_])] at room
      exact room
  | true =>
    rw [List.filter_cons_of_pos (p := fun l => failed.getLsbD (base l)) base_, List.length_cons] at room
    obtain ⟨x, spare, works⟩ := exists_spareLane few (used := st.1) (by omega)
    rw [mapLane_spare base_ spare]
    refine ⟨?_, fun k other => by rw [physLane_mset_spare, if_neg other], ?_⟩
    · rw [laneWorks, physLane_mset_spare, if_pos rfl]
      exact ⟨works, fun good => absurd (base_.symm.trans good) (by decide)⟩
    · rw [lanesWanted, working, List.filter_cons_of_pos (by simp [works]), List.length_cons]
      unfold working at room
      omega

end Lane

theorem foldl_mapLane_works {base : Nat → Nat} {failed : BitVec 18} (few : failedCount failed ≤ 2) {ls : List Nat} (once : ls.Nodup)
    {st : List Nat × NMap Nat} (room : lanesWanted base failed st.1 ls ≤ 16) :
    (∀ l ∈ ls, laneWorks base failed (ls.foldl (mapLane base failed) st).2 l)
    ∧ ∀ k, k ∉ ls → physLane (ls.foldl (mapLane base failed) st).2 k = physLane st.2 k := by
  induction ls generalizing st with
  | nil => exact ⟨fun _ h => absurd h List.not_mem_nil, fun _ _ => rfl⟩
  | cons l ls ih =>
    obtain ⟨fresh, once⟩ := List.nodup_cons.1 once
    obtain ⟨here, others, room⟩ := mapLane_works few room
    obtain ⟨later, kept⟩ := ih once room
    rw [List.foldl_cons]
    refine ⟨List.forall_mem_cons.2 ⟨?_, later⟩, fun k hk => ?_⟩
    · rw [laneWorks, kept l fresh]
      exact here
    · rw [kept k (List.not_mem_of_not_mem_cons hk), others k (List.ne_of_not_mem_cons hk)]

/-- Every logical lane of a map is on a working lane, on its base lane where that works. -/
theorem mapLanes_works (base : Nat → Nat) {failed : BitVec 18} (few : failedCount failed ≤ 2) {l : Nat} (lane : l < 16) :
    laneWorks base failed (mapLanes base failed) l := by
  rw [mapLanes_eq]
  refine (foldl_mapLane_works few List.nodup_range ?_).1 l (List.mem_range.2 lane)
  exact (lanesWanted_start base failed (upto 16)).le

end Sys2Proof.Machine
end

section
/-! SUPPORT. The training of a port, from DETECT to UP, to full equalisation or to FAILED, and RETRAIN (R184, R186 to R190, R197). -/

namespace Sys2Proof.Machine

/-- A command leads to a state in which port `n` is as `f` says, and every other port as it was. -/
def portAfter (n : Nat) (s : State) (c : Instr) (f : Port → Prop) : Prop :=
  ∃ t, exec c s = .next t ∧ f (getPort t n) ∧ ∀ m, m ≠ n → getPort t m = getPort s m

section Effects
variable {n : Nat} {s : State} {c : Instr} {f : Port → Prop} {p v : Port}

theorem portAfter_setPort (run : exec c s = .next (onlyPort s (setPort n v s))) (is : f v) : portAfter n s c f :=
  ⟨_, run, by rwa [getPort_onlyPort, getPort_setPort, if_pos rfl], fun m other => by rw [getPort_onlyPort, getPort_setPort, if_neg other]⟩

theorem portAfter_toStep {k : Nat} (run : exec c s = .next (onlyPort s (toStep n k (setPort n v s)))) (is : f (stepped k v)) : portAfter n s c f := by
  refine ⟨_, run, ?_, fun m other => ?_⟩
  · rwa [getPort_onlyPort, getPort_toStep, if_pos rfl, getPort_setPort, if_pos rfl]
  · rw [getPort_onlyPort, getPort_toStep, if_neg other, getPort_setPort, if_neg other]

theorem portAfter_step {k : Nat} (run : exec c s = .next (onlyPort s (toStep n k s))) (is : f (stepped k (getPort s n))) : portAfter n s c f := by
  refine ⟨_, run, ?_, fun m other => ?_⟩
  · rwa [getPort_onlyPort, getPort_toStep, if_pos rfl]
  · rw [getPort_onlyPort, getPort_toStep, if_neg other]

/-- A port whose queue, replay buffer and count of dropped flits were those of `p` has failed. -/
theorem portAfter_failPort {reason : Nat} {u : State} (run : exec c s = .next (onlyPort s (failPort n reason u)))
    (others : ∀ m, m ≠ n → getPort u m = getPort s m) (is : f (failedPort reason (getPort u n))) : portAfter n s c f :=
  ⟨_, run, by rwa [getPort_onlyPort, getPort_failPort_self], fun m other => by rw [getPort_onlyPort, getPort_failPort_ne other, others m other]⟩

theorem portAfter_failSet {reason : Nat} (run : exec c s = .next (onlyPort s (failPort n reason (setPort n v s))))
    (is : f (failedPort reason v)) : portAfter n s c f :=
  portAfter_failPort run (fun m other => by rw [getPort_setPort, if_neg other]) (by rwa [getPort_setPort, if_pos rfl])

/-! ### A failure of RETRAIN -/

/-- RETRAIN after a first failure: it runs again from EQ_SEED. -/
def retriedPort (p : Port) : Port := { p with sub := 3, retrainFails := 1 }

/-- The port has failed in RETRAIN twice, as two failures in a row or within 10 s (R189). -/
def retrainEnds (p : Port) (s : State) : Prop := p.retrainFails = 1 ∨ (p.retrainFails = 2 ∧ Config.duration s.free ≤ 10000)

theorem getPort_retrainFailed_ne {m : Nat} (other : m ≠ n) (s : State) : getPort (retrainFailed n s) m = getPort s m := by
  unfold retrainFailed
  dsimp only
  split
  · exact getPort_failPort_ne other ..
  · exact (getPort_setPort ..).trans (if_neg other)

theorem getPort_retrainFailed_again (stays : ¬ retrainEnds (getPort s n) s) : getPort (retrainFailed n s) n = retriedPort (getPort s n) := by
  unfold retrainEnds at stays
  unfold retrainFailed
  dsimp only
  rw [if_neg stays]
  exact (getPort_setPort ..).trans (if_pos rfl)

theorem getPort_retrainFailed_ends (ends : retrainEnds (getPort s n) s) : getPort (retrainFailed n s) n = failedPort frRetrain (getPort s n) := by
  unfold retrainEnds at ends
  unfold retrainFailed
  dsimp only
  rw [if_pos ends]
  exact getPort_failPort_self ..

/-- A failure of RETRAIN starts it again, or ends the port, by how often it has failed. -/
theorem retrainFailed_effect {u : State} (run : exec c s = .next (onlyPort s (retrainFailed n u)))
    (others : ∀ m, m ≠ n → getPort u m = getPort s m) (txq : (getPort u n).txq = p.txq) (replay : (getPort u n).replay = p.replay)
    (dropped : (getPort u n).dropped = p.dropped) :
    ((getPort u n).retrainFails = 0 → portAfter n s c (fun x => x = retriedPort (getPort u n)))
    ∧ ((getPort u n).retrainFails = 1 → portAfter n s c (hasFailed p frRetrain))
    ∧ ((getPort u n).retrainFails = 2 → portAfter n s c (fun x => hasFailed p frRetrain x ∨ x = retriedPort (getPort u n))) := by
  have frame : ∀ m, m ≠ n → getPort (onlyPort s (retrainFailed n u)) m = getPort s m := fun m other => by
    rw [getPort_onlyPort, getPort_retrainFailed_ne other, others m other]
  have again (stays : ¬ retrainEnds (getPort u n) u) : getPort (onlyPort s (retrainFailed n u)) n = retriedPort (getPort u n) :=
    getPort_retrainFailed_again stays
  have ended (ends : retrainEnds (getPort u n) u) : hasFailed p frRetrain (getPort (onlyPort s (retrainFailed n u)) n) := by
    rw [getPort_onlyPort, getPort_retrainFailed_ends ends]
    exact hasFailed_failedPort txq replay dropped _
  refine ⟨fun never => ⟨_, run, again ?_, frame⟩, fun once => ⟨_, run, ended (.inl once), frame⟩, fun _ => ⟨_, run, ?_, frame⟩⟩
  · rintro (once | ⟨before, -⟩) <;> omega
  · by_cases ends : retrainEnds (getPort u n) u
    · exact .inl (ended ends)
    · exact .inr (again ends)

end Effects

section Training
variable {n : Nat} {s : State} (runs : portRuns s n = true)
include runs

/-! ### DETECT, EQ_FULL and EQ_SEED -/

omit runs in
/-- A port that DETECT has found these failed lanes on: no lane is mapped yet. -/
def detectedPort (rx tx : BitVec 18) (p : Port) : Port :=
  { p with failedRx := rx, failedTx := tx, laneOf := [], txLaneOf := [], inverted := 0, reversed := false, sparesTx := 0
           retrainFails := 0, recordDue := false }

theorem exec_detect (ctl : portCtl s n = true) (detects : (getPort s n).state = 1) (rx tx : BitVec 18) (peer : Bool) :
    exec (.detect n rx tx peer) s = .next (onlyPort s (
      let s1 := setPort n (detectedPort rx tx (getPort s n)) s
      if !peer then failPort n frNoPeer s1
      else if decide (2 < failedCount rx) || decide (2 < failedCount tx) then failPort n frLanes s1
      else toStep n (if (mget {} s.fl.seeds n).stored then 3 else 2) s1)) := by
  show execDetect n rx tx peer s = _
  unfold execDetect
  rw [if_neg (by simp [runs, ctl, detects])]
  rfl

theorem detect_effect (ctl : portCtl s n = true) (detects : (getPort s n).state = 1) (rx tx : BitVec 18) (peer : Bool) :
    (peer = false → portAfter n s (.detect n rx tx peer) (hasFailed (getPort s n) frNoPeer))
    ∧ (peer = true → (2 < failedCount rx ∨ 2 < failedCount tx) → portAfter n s (.detect n rx tx peer) (hasFailed (getPort s n) frLanes))
    ∧ (peer = true → failedCount rx ≤ 2 → failedCount tx ≤ 2 → portAfter n s (.detect n rx tx peer) (fun x =>
        x.state = (if (mget {} s.fl.seeds n).stored then 3 else 2) ∧ x.failedRx = rx ∧ x.failedTx = tx ∧ x.laneOf = [] ∧ x.txLaneOf = []
        ∧ x.retrainFails = 0)) := by
  have run := exec_detect runs ctl detects rx tx peer
  dsimp only at run
  refine ⟨fun alone => ?_, fun found many => ?_, fun found fewRx fewTx => ?_⟩
  · rw [if_pos (by simp [alone])] at run
    exact portAfter_failSet run (hasFailed_failedPort rfl rfl rfl _)
  · rw [if_neg (by simp [found]), if_pos (by simpa using many)] at run
    exact portAfter_failSet run (hasFailed_failedPort rfl rfl rfl _)
  · rw [if_neg (by simp [found]), if_neg (by simpa using ⟨fewRx, fewTx⟩)] at run
    have training : (detectedPort rx tx (getPort s n)).state ≠ 8 := by
      show (getPort s n).state ≠ 8
      omega
    refine portAfter_toStep run ?_
    rw [stepped, if_neg training]
    exact ⟨rfl, rfl, rfl, rfl, rfl, rfl⟩

theorem eqFull_effect (ctl : portCtl s n = true) (full : (getPort s n).state = 2) :
    portAfter n s (.eqFull n) (fun x => x = { getPort s n with state := 4, seeded := false }) := by
  have run : exec (.eqFull n) s = .next (onlyPort s (setPort n { getPort s n with state := 4, seeded := false } s)) := by
    show execEqFull n s = _
    unfold execEqFull
    rw [if_pos (by simp [runs, ctl, full])]
    rfl
  exact portAfter_setPort run rfl

theorem exec_eqSeed_adapted (ctl : portCtl s n = true) (seeds : inStep (getPort s n) 3 = true) :
    exec (.eqSeed n true) s = .next (onlyPort s (toStep n 4 (setPort n { getPort s n with seeded := true } s))) := by
  show execEqSeed n true s = _
  unfold execEqSeed
  rw [if_neg (by simp [runs, ctl, seeds]), if_pos rfl]

theorem exec_eqSeed_failed (ctl : portCtl s n = true) (seeds : inStep (getPort s n) 3 = true) :
    exec (.eqSeed n false) s = .next (onlyPort s (if (getPort s n).state = 8 then retrainFailed n s else toStep n 2 s)) := by
  show execEqSeed n false s = _
  unfold execEqSeed
  rw [if_neg (by simp [runs, ctl, seeds]), if_neg (by decide)]

theorem eqSeed_effect (ctl : portCtl s n = true) (seeds : (getPort s n).state = 3) :
    portAfter n s (.eqSeed n true) (fun x => x = { getPort s n with state := 4, seeded := true })
    ∧ portAfter n s (.eqSeed n false) (fun x => x = { getPort s n with state := 2 }) := by
  have step : inStep (getPort s n) 3 = true := by simp [inStep, seeds]
  have training : (getPort s n).state ≠ 8 := by omega
  refine ⟨portAfter_toStep (exec_eqSeed_adapted runs ctl step) ?_, portAfter_step (k := 2) ?_ ?_⟩
  · exact if_neg training
  · rw [exec_eqSeed_failed runs ctl step, if_neg training]
  · exact if_neg training

theorem eqSeed_retrain_effect (ctl : portCtl s n = true) (retrains : (getPort s n).state = 8) (seeds : (getPort s n).sub = 3) :
    portAfter n s (.eqSeed n true) (fun x => x = { getPort s n with sub := 4, seeded := true })
    ∧ ((getPort s n).retrainFails = 0 → portAfter n s (.eqSeed n false) (fun x => x = retriedPort (getPort s n)))
    ∧ ((getPort s n).retrainFails = 1 → portAfter n s (.eqSeed n false) (hasFailed (getPort s n) frRetrain))
    ∧ ((getPort s n).retrainFails = 2 →
        portAfter n s (.eqSeed n false) (fun x => hasFailed (getPort s n) frRetrain x ∨ x = retriedPort (getPort s n))) := by
  have step : inStep (getPort s n) 3 = true := by simp [inStep, retrains, seeds]
  refine ⟨portAfter_toStep (exec_eqSeed_adapted runs ctl step) (if_pos retrains), ?_⟩
  exact retrainFailed_effect ((exec_eqSeed_failed runs ctl step).trans (by rw [if_pos retrains])) (fun _ _ => rfl) rfl rfl rfl

/-! ### ALIGN -/

omit runs in
/-- A port on which ALIGN has found more failed lanes. -/
def alignedPort (r : AlignReport) (p : Port) : Port := { p with failedRx := p.failedRx ||| r.failedRx, failedTx := p.failedTx ||| r.failedTx }

omit runs in
/-- The lanes of an aligned port: in RETRAIN those it had, else in the order found, and spares for those that fail. -/
def mappedPort (r : AlignReport) (p : Port) : Port :=
  let rx := p.failedRx ||| r.failedRx
  let tx := p.failedTx ||| r.failedTx
  if p.state = 8 then { alignedPort r p with inverted := r.inverted, laneOf := mapLanes (laneOf p) rx, txLaneOf := mapLanes (txLane p) tx }
  else { alignedPort r p with inverted := r.inverted, reversed := r.order == 1, laneOf := mapLanes (fun l => if r.order = 1 then 17 - l else l) rx
                              txLaneOf := mapLanes id tx }

omit runs in
/-- The lane of the receive direction that ALIGN starts from, and that of the transmit direction. -/
def alignBase (r : AlignReport) (p : Port) (l : Nat) : Nat := if p.state = 8 then laneOf p l else if r.order = 1 then 17 - l else l

omit runs in
def alignBaseTx (p : Port) (l : Nat) : Nat := if p.state = 8 then txLane p l else l

omit runs in
theorem mappedPort_lanes (r : AlignReport) (p : Port) : (mappedPort r p).laneOf = mapLanes (alignBase r p) (p.failedRx ||| r.failedRx)
    ∧ (mappedPort r p).txLaneOf = mapLanes (alignBaseTx p) (p.failedTx ||| r.failedTx) := by
  unfold mappedPort alignBase alignBaseTx
  by_cases retrains : p.state = 8
  · simp only [if_pos retrains, and_self]
  · simp only [if_neg retrains, true_and]
    rfl

theorem exec_align (ctl : portCtl s n = true) (r : AlignReport) (aligns : inStep (getPort s n) 4 = true) :
    exec (.align n r) s = .next (onlyPort s (
      let p := getPort s n
      if 2 ≤ r.order then failPort n frOrder (setPort n (alignedPort r p) s)
      else if decide (2 < failedCount (p.failedRx ||| r.failedRx)) || decide (2 < failedCount (p.failedTx ||| r.failedTx)) then
        failPort n frLanes (setPort n (alignedPort r p) s)
      else if !r.lock then
        if p.state = 8 then retrainFailed n (setPort n (alignedPort r p) s)
        else if p.seeded then toStep n 2 (setPort n (alignedPort r p) s) else setPort n (alignedPort r p) s
      else toStep n 5 (setPort n { mappedPort r p with sparesTx := countTx (mappedPort r p) } s))) := by
  show execAlign n r s = _
  unfold execAlign
  rw [if_neg (by simp [runs, ctl, aligns])]
  rfl

omit runs in
/-- After ALIGN every logical lane of a port is on a working lane, on its base lane where that works. -/
theorem stepped_mappedPort (r : AlignReport) {p : Port} (fewRx : failedCount (p.failedRx ||| r.failedRx) ≤ 2)
    (fewTx : failedCount (p.failedTx ||| r.failedTx) ≤ 2) (spares : Nat) :
    let x := stepped 5 { mappedPort r p with sparesTx := spares }
    inStep x 5 = true ∧ x.failedRx = p.failedRx ||| r.failedRx ∧ x.failedTx = p.failedTx ||| r.failedTx ∧ x.inverted = r.inverted
    ∧ x.reversed = (if p.state = 8 then p.reversed else r.order == 1)
    ∧ ∀ l, l < 16 → (p.failedRx ||| r.failedRx).getLsbD (laneOf x l) = false ∧ (p.failedTx ||| r.failedTx).getLsbD (txLane x l) = false
        ∧ ((p.failedRx ||| r.failedRx).getLsbD (alignBase r p l) = false → laneOf x l = alignBase r p l)
        ∧ ((p.failedTx ||| r.failedTx).getLsbD (alignBaseTx p l) = false → txLane x l = alignBaseTx p l) := by
  intro x
  have lanes : x.laneOf = (mappedPort r p).laneOf ∧ x.txLaneOf = (mappedPort r p).txLaneOf := by
    unfold x stepped
    split <;> exact ⟨rfl, rfl⟩
  obtain ⟨rxMap, txMap⟩ := mappedPort_lanes r p
  have works (l : Nat) (lane : l < 16) := And.intro (mapLanes_works (alignBase r p) fewRx lane) (mapLanes_works (alignBaseTx p) fewTx lane)
  rw [← rxMap, ← txMap, ← lanes.1, ← lanes.2] at works
  have rest : inStep x 5 = true ∧ x.failedRx = p.failedRx ||| r.failedRx ∧ x.failedTx = p.failedTx ||| r.failedTx ∧ x.inverted = r.inverted
      ∧ x.reversed = (if p.state = 8 then p.reversed else r.order == 1) := by
    by_cases retrains : p.state = 8
    · simp [x, stepped, mappedPort, alignedPort, inStep, retrains]
    · simp [x, stepped, mappedPort, alignedPort, inStep, retrains]
  obtain ⟨step, failedRx, failedTx, inverted, reversed⟩ := rest
  exact ⟨step, failedRx, failedTx, inverted, reversed,
    fun l lane => ⟨(works l lane).1.1, (works l lane).2.1, (works l lane).1.2, (works l lane).2.2⟩⟩

theorem align_effect (ctl : portCtl s n = true) (r : AlignReport) (aligns : inStep (getPort s n) 4 = true) :
    let p := getPort s n
    let rx := p.failedRx ||| r.failedRx
    let tx := p.failedTx ||| r.failedTx
    (2 ≤ r.order → portAfter n s (.align n r) (hasFailed p frOrder))
    ∧ (r.order < 2 → (2 < failedCount rx ∨ 2 < failedCount tx) → portAfter n s (.align n r) (hasFailed p frLanes))
    ∧ (r.order < 2 → failedCount rx ≤ 2 → failedCount tx ≤ 2 → r.lock = true →
        portAfter n s (.align n r) (fun x => inStep x 5 = true ∧ x.failedRx = rx ∧ x.failedTx = tx ∧ x.inverted = r.inverted
          ∧ x.reversed = (if p.state = 8 then p.reversed else r.order == 1)
          ∧ ∀ l, l < 16 → rx.getLsbD (laneOf x l) = false ∧ tx.getLsbD (txLane x l) = false
              ∧ (rx.getLsbD (alignBase r p l) = false → laneOf x l = alignBase r p l)
              ∧ (tx.getLsbD (alignBaseTx p l) = false → txLane x l = alignBaseTx p l)))
    ∧ (r.order < 2 → failedCount rx ≤ 2 → failedCount tx ≤ 2 → r.lock = false →
        (p.state = 4 → portAfter n s (.align n r) (fun x => x = { alignedPort r p with state := (if p.seeded then 2 else 4) }))
        ∧ (p.state = 8 → p.retrainFails = 0 → portAfter n s (.align n r) (fun x => x = retriedPort (alignedPort r p)))
        ∧ (p.state = 8 → p.retrainFails = 1 → portAfter n s (.align n r) (hasFailed p frRetrain))
        ∧ (p.state = 8 → p.retrainFails = 2 →
            portAfter n s (.align n r) (fun x => hasFailed p frRetrain x ∨ x = retriedPort (alignedPort r p)))) := by
  intro p rx tx
  have run := exec_align runs ctl r aligns
  refine ⟨fun another => ?_, fun known many => ?_, fun known fewRx fewTx lock => ?_, fun known fewRx fewTx open_ => ?_⟩
  · rw [if_pos another] at run
    exact portAfter_failSet run (hasFailed_failedPort rfl rfl rfl _)
  · rw [if_neg (by omega), if_pos (by simpa using many)] at run
    exact portAfter_failSet run (hasFailed_failedPort rfl rfl rfl _)
  · rw [if_neg (by omega), if_neg (by simpa using ⟨fewRx, fewTx⟩), lock, if_neg (by decide)] at run
    exact portAfter_toStep run (stepped_mappedPort r fewRx fewTx _)
  · rw [if_neg (by omega), if_neg (by simpa using ⟨fewRx, fewTx⟩), open_, if_pos (by decide)] at run
    have retried (retrains : p.state = 8) :=
      retrainFailed_effect (p := p) (run.trans (by rw [if_pos retrains]))
        (fun m other => by rw [getPort_setPort, if_neg other]) (by rw [getPort_setPort, if_pos rfl]; rfl) (by rw [getPort_setPort, if_pos rfl]; rfl)
        (by rw [getPort_setPort, if_pos rfl]; rfl)
    rw [getPort_setPort, if_pos rfl] at retried
    refine ⟨fun trains => ?_, fun retrains => (retried retrains).1, fun retrains => (retried retrains).2.1, fun retrains => (retried retrains).2.2⟩
    have training : p.state ≠ 8 := by omega
    rw [if_neg training] at run
    cases seeded : p.seeded with
    | true =>
      rw [seeded, if_pos rfl] at run
      exact portAfter_toStep run (if_neg training)
    | false =>
      rw [seeded, if_neg (by decide)] at run
      refine portAfter_setPort run ?_
      rw [if_neg (by decide), ← trains]
      rfl

end Training

end Sys2Proof.Machine
end

section
/-! SUPPORT. A port's link: LINK_INIT, discovery, time limits and RETRAIN; the obligation of training assembled (R186, R189, R190, R192). -/

namespace Sys2Proof.Machine

section Link
variable {n : Nat} {s : State} (runs : portRuns s n = true)
include runs

/-! ### LINK_INIT -/

omit runs in
/-- A link at its start: sequence numbers 0, the credits of Table 10-4, nothing kept for replay. -/
def startedLink (p : Port) : Port :=
  { p with state := 6, txSeq := 0, rxSeq := 0, requested := false, rxAny := false, replay := [], resend := [], txq := [], credits := firstCredits
           owed := [], partial_ := [] }

omit runs in
/-- A port that is UP again after RETRAIN: what is not acknowledged is resent. -/
def resumedLink (p : Port) : Port :=
  { p with state := 7, sub := 0, resend := p.replay, requested := false, recordDue := false
           retrainFails := if p.retrainFails = 1 then 2 else p.retrainFails }

theorem linkInit_effect (ctl : portCtl s n = true) (trains : (getPort s n).state = 5) :
    portAfter n s (.linkInit n) (fun x =>
      x.state = 6 ∧ x.txSeq = 0 ∧ x.rxSeq = 0 ∧ x.replay = [] ∧ x.txq = [] ∧ x.credits = firstCredits) := by
  have run : exec (.linkInit n) s = .next (onlyPort s (setPort n (startedLink (getPort s n)) s)) := by
    show execLinkInit n s = _
    unfold execLinkInit
    rw [if_neg (by simp [runs, ctl, inStep, trains]), if_neg (by omega)]
    rfl
  exact portAfter_setPort run ⟨rfl, rfl, rfl, rfl, rfl, rfl⟩

theorem exec_linkInit_retrain (ctl : portCtl s n = true) (retrains : (getPort s n).state = 8) (last : (getPort s n).sub = 5) :
    exec (.linkInit n) s = .next (onlyPort s (portChanged n (setPort n (resumedLink (getPort s n))
      (if (getPort s n).recordDue then emit (.discovery n (ownRecord s n)) s else s)))) := by
  show execLinkInit n s = _
  unfold execLinkInit
  rw [if_neg (by simp [runs, ctl, inStep, retrains, last]), if_pos retrains]
  rfl

omit runs in
/-- After a change of port `n` to `v` and what follows it, the port is `v` but for FWD. -/
theorem portAfter_changed {c : Instr} {f : Port → Prop} {u : State} (v : Port) (run : exec c s = .next (onlyPort s (portChanged n u)))
    (ports : ∀ m, getPort u m = if m = n then v else getPort s m) (is : ∀ b, f { v with fwd := b }) : portAfter n s c f := by
  refine ⟨_, run, ?_, fun m other => ?_⟩
  · rw [getPort_onlyPort, getPort_portChanged_self, ports, if_pos rfl]
    exact is _
  · rw [getPort_onlyPort, getPort_portChanged_ne other, ports, if_neg other]

theorem linkInit_retrain_effect (ctl : portCtl s n = true) (retrains : (getPort s n).state = 8) (last : (getPort s n).sub = 5) :
    let p := getPort s n
    portAfter n s (.linkInit n) (fun x => x.state = 7 ∧ x.txSeq = p.txSeq ∧ x.rxSeq = p.rxSeq ∧ x.replay = p.replay ∧ x.resend = p.replay
      ∧ x.txq = p.txq ∧ x.credits = p.credits ∧ x.peerId = p.peerId ∧ x.laneOf = p.laneOf ∧ x.recordDue = false
      ∧ x.retrainFails = if p.retrainFails = 1 then 2 else p.retrainFails)
    ∧ ((getPort s n).recordDue = true → ∃ t more, exec (.linkInit n) s = .next t ∧ t.out = s.out ++ .discovery n (ownRecord s n) :: more) := by
  intro p
  have run := exec_linkInit_retrain runs ctl retrains last
  refine ⟨portAfter_changed (resumedLink (getPort s n)) run (fun m => ?_) (fun _ => ⟨rfl, rfl, rfl, rfl, rfl, rfl, rfl, rfl, rfl, rfl, rfl⟩),
    fun due => ?_⟩
  · rw [getPort_setPort]
    exact if_congr Iff.rfl rfl (by split <;> rfl)
  · rw [if_pos due] at run
    obtain ⟨more, sent⟩ := portChanged_out n (setPort n (resumedLink (getPort s n)) (emit (.discovery n (ownRecord s n)) s))
    exact ⟨_, more, run, sent.symm.trans (List.append_assoc ..)⟩

/-! ### Discovery -/

theorem exec_discover (ctl : portCtl s n = true) (discovers : (getPort s n).state = 6) (r : DiscRecord) :
    exec (.discover n r) s = .next (onlyPort s (
      let p := getPort s n
      let seed := mget {} s.fl.seeds n
      let s1 := emit (.discovery n (ownRecord s n)) s
      let s2 := setPort n { takeRecord r p with state := 7, fwd := false, failReason := 0 } s1
      if p.seeded && (seed.peerId != r.peerId || seed.peerPort != r.port % 16) then
        portChanged n (setPort n { takeRecord r p with state := 2, seeded := false } s1)
      else portChanged n (if p.seeded then s2 else storeSeeds n s2))) := by
  show execDiscover n r s = _
  unfold execDiscover
  rw [if_neg (by simp [runs, ctl, discovers])]

omit runs in
/-- The seeds that training used name another peer than the record (R187). -/
def seedsDiffer (n : Nat) (r : DiscRecord) (s : State) : Prop :=
  (getPort s n).seeded = true ∧ ((mget {} s.fl.seeds n).peerId ≠ r.peerId ∨ (mget {} s.fl.seeds n).peerPort ≠ r.port % 16)

/-- Seeds of another peer lead back to full equalisation. -/
theorem discover_differs (ctl : portCtl s n = true) (discovers : (getPort s n).state = 6) {r : DiscRecord} (differs : seedsDiffer n r s) :
    exec (.discover n r) s = .next (onlyPort s (portChanged n
      (setPort n { takeRecord r (getPort s n) with state := 2, seeded := false } (emit (.discovery n (ownRecord s n)) s)))) := by
  rw [exec_discover runs ctl discovers]
  dsimp only
  rw [if_pos (by simpa [seedsDiffer] using differs)]

/-- Else the port is UP, and seeds found by full equalisation are stored. -/
theorem discover_up (ctl : portCtl s n = true) (discovers : (getPort s n).state = 6) {r : DiscRecord} (same : ¬ seedsDiffer n r s) :
    exec (.discover n r) s = .next (onlyPort s (
      let s2 := setPort n { takeRecord r (getPort s n) with state := 7, fwd := false, failReason := 0 } (emit (.discovery n (ownRecord s n)) s)
      portChanged n (if (getPort s n).seeded then s2 else storeSeeds n s2))) := by
  rw [exec_discover runs ctl discovers]
  dsimp only
  rw [if_neg (by simpa [seedsDiffer] using same)]

theorem discover_effect (ctl : portCtl s n = true) (discovers : (getPort s n).state = 6) (r : DiscRecord) :
    ∃ t, exec (.discover n r) s = .next t ∧ (∀ m, m ≠ n → getPort t m = getPort s m)
      ∧ (∃ more, t.out = s.out ++ .discovery n (ownRecord s n) :: more)
      ∧ (seedsDiffer n r s → (∃ f, getPort t n = { takeRecord r (getPort s n) with state := 2, seeded := false, fwd := f }) ∧ t.fl.seeds = s.fl.seeds)
      ∧ (¬ seedsDiffer n r s → (getPort t n).state = 7 ∧ (getPort t n).peerId = r.peerId ∧ (getPort t n).peerPort = r.port % 16
          ∧ (getPort t n).peerGrade = r.grade % 256 ∧ (getPort t n).coordValid = r.coord.isSome ∧ (s.bt.inForce = none → (getPort t n).fwd = false)
          ∧ ((getPort s n).seeded = false → mget {} t.fl.seeds n = { stored := true, peerId := r.peerId, peerPort := r.port % 16 })) := by
  -- What the change of a port to `v` adds to the own record sent.
  have told (u : State) (sent : u.out = s.out ++ [.discovery n (ownRecord s n)]) :
      ∃ more, (onlyPort s (portChanged n u)).out = s.out ++ .discovery n (ownRecord s n) :: more := by
    obtain ⟨more, grown⟩ := portChanged_out n u
    exact ⟨more, grown.symm.trans (by rw [sent, List.append_assoc]; rfl)⟩
  by_cases differs : seedsDiffer n r s
  · refine ⟨_, discover_differs runs ctl discovers differs, fun m other => ?_, told _ rfl, fun _ => ⟨?_, ?_⟩, fun same => absurd differs same⟩
    · rw [getPort_onlyPort, getPort_portChanged_ne other, getPort_setPort, if_neg other, getPort_emit]
    · rw [getPort_onlyPort, getPort_portChanged_self, getPort_setPort, if_pos rfl]
      exact ⟨_, rfl⟩
    · exact portChanged_seeds ..
  · let v : Port := { takeRecord r (getPort s n) with state := 7, fwd := false, failReason := 0 }
    let s2 := setPort n v (emit (.discovery n (ownRecord s n)) s)
    let u := if (getPort s n).seeded then s2 else storeSeeds n s2
    have ports (m : Nat) : getPort u m = if m = n then v else getPort s m := by
      unfold u
      split <;> exact getPort_setPort ..
    have here : getPort u n = v := (ports n).trans (if_pos rfl)
    have sent : u.out = s.out ++ [.discovery n (ownRecord s n)] := by
      unfold u
      split <;> rfl
    have forced : u.bt.inForce = s.bt.inForce := by
      unfold u
      split <;> rfl
    have up := getPort_portChanged_self n u
    rw [here] at up
    refine ⟨_, discover_up runs ctl discovers differs, fun m other => ?_, told u sent, fun other => absurd other differs, fun _ => ?_⟩
    · exact (getPort_portChanged_ne other u).trans ((ports m).trans (if_neg other))
    · refine ⟨congrArg Port.state up, congrArg Port.peerId up, congrArg Port.peerPort up, congrArg Port.peerGrade up, congrArg Port.coordValid up,
        fun none_ => ?_, fun fresh => ?_⟩
      · exact (portChanged_fwd_unforced (forced.trans none_) n).trans (congrArg Port.fwd here)
      · have stored : u = storeSeeds n s2 := if_neg (by simp [fresh])
        show mget {} (portChanged n u).fl.seeds n = _
        rw [portChanged_seeds, stored, mget_storeSeeds, getPort_setPort, if_pos rfl]
        rfl

/-! ### Time limits -/

theorem exec_portStateTimeout : exec (.portStateTimeout n) s = .next (onlyPort s (
    let p := getPort s n
    if p.state = 8 then failPort n frTimeout s
    else if p.state = 3 ∨ (p.state = 4 ∧ p.seeded) then toStep n 2 (setPort n { p with seeded := false } s)
    else if 1 ≤ p.state ∧ p.state ≤ 6 then failPort n frTimeout s
    else s)) := by
  show execPortStateTimeout n s = _
  unfold execPortStateTimeout
  rw [if_neg (by simp [runs])]

theorem timeout_seeded (seeds : (getPort s n).state = 3 ∨ ((getPort s n).state = 4 ∧ (getPort s n).seeded = true)) :
    portAfter n s (.portStateTimeout n) (fun x => x = { getPort s n with state := 2, seeded := false }) := by
  have training : (getPort s n).state ≠ 8 := by omega
  refine portAfter_toStep (k := 2) (v := { getPort s n with seeded := false }) ?_ (if_neg training)
  rw [exec_portStateTimeout runs]
  dsimp only
  rw [if_neg training, if_pos seeds]

theorem timeout_fails (fails : (getPort s n).state = 8
    ∨ (1 ≤ (getPort s n).state ∧ (getPort s n).state ≤ 6 ∧ (getPort s n).state ≠ 3 ∧ ¬ ((getPort s n).state = 4 ∧ (getPort s n).seeded = true))) :
    portAfter n s (.portStateTimeout n) (hasFailed (getPort s n) frTimeout) := by
  refine portAfter_failPort (u := s) ?_ (fun _ _ => rfl) (hasFailed_failedPort rfl rfl rfl _)
  rw [exec_portStateTimeout runs]
  dsimp only
  rcases fails with retrains | ⟨low, high, full, ends⟩
  · rw [if_pos retrains]
  · rw [if_neg (by omega), if_neg (by rintro (h | h); exacts [full h, ends h]), if_pos ⟨low, high⟩]

/-! ### RETRAIN -/

omit runs in
/-- A port in RETRAIN, its swap given up and its dead lanes forgotten. -/
def retrainingPort (p : Port) : Port :=
  { p with state := 8, sub := 3, swap := none, swapWaits := [], txCopy := none, swapActive := false, dead := [] }

theorem exec_retrain (up : (getPort s n).state = 7) {cause : Nat}
    (reason : cause = 0 ∧ (getPort s n).fallbackClk = true ∨ cause = 1 ∧ (getPort s n).dead = [] ∨ cause = 2) :
    exec (.retrain n cause) s = .next (onlyPort s (enterRetrain n s)) := by
  show execRetrain n cause s = _
  unfold execRetrain
  dsimp only
  rw [if_pos]
  rcases reason with ⟨rfl, fallback⟩ | ⟨rfl, alive⟩ | rfl
  · simp [runs, up, fallback]
  · simp [runs, up, alive]
  · simp [runs, up]

omit runs in
/-- Outside LINKS and without an extract in force nothing follows a change of a port. -/
theorem portChanged_quiet {u : State} (later : u.bt.stage ≠ 5) (none_ : u.bt.inForce = none) : portChanged n u = u := by
  have unmatched : matchAll u = false := by
    unfold matchAll
    rw [none_]
  have waits : endLinks u = u := by
    unfold endLinks
    rw [if_neg (by simp [later])]
  unfold portChanged recheck
  rw [waits, judgePort_unforced none_]
  unfold checkReady
  rw [if_neg (by simp [unmatched])]

omit runs in
/-- A port that leaves UP logs the state it goes to (R205). -/
theorem enterRetrain_logs (up : (getPort s n).state = 7) (later : s.bt.stage ≠ 5) (none_ : s.bt.inForce = none) :
    logged s (onlyPort s (enterRetrain n s)) (procIsland (54 + n)) 3 0x0502 n (portState { getPort s n with state := 8, swapActive := false }) := by
  let u := setPort n (retrainingPort (getPort s n)) s
  have recorded : leftUp n (getPort s n) u = portLog n 3 0x0502 n (portState { getPort s n with state := 8, swapActive := false }) u := by
    unfold leftUp
    rw [if_pos up, getPort_setPort, if_pos rfl]
    rfl
  refine logged_portLog (u := u) rfl rfl rfl rfl ?_
  show logParts (portChanged n (leftUp n (getPort s n) u)).fr = _
  rw [recorded, portChanged_quiet]
  · rw [portLog, addLog_bt]
    exact later
  · rw [portLog, addLog_bt]
    exact none_

theorem retrain_effect {cause : Nat} (up : (getPort s n).state = 7)
    (reason : cause = 0 ∧ (getPort s n).fallbackClk = true ∨ cause = 1 ∧ (getPort s n).dead = [] ∨ cause = 2) :
    let p := getPort s n
    portAfter n s (.retrain n cause) (fun x => x.state = 8 ∧ x.sub = 3 ∧ x.txSeq = p.txSeq ∧ x.rxSeq = p.rxSeq ∧ x.replay = p.replay ∧ x.txq = p.txq
      ∧ x.credits = p.credits ∧ x.peerId = p.peerId ∧ x.laneOf = p.laneOf ∧ x.swap = none ∧ x.swapWaits = [] ∧ x.dead = [])
    ∧ (s.bt.stage ≠ 5 → s.bt.inForce = none → ∃ t, exec (.retrain n cause) s = .next t
        ∧ logged s t (procIsland (54 + n)) 3 0x0502 n (portState { p with state := 8, swapActive := false })) := by
  have run := exec_retrain runs up reason
  refine ⟨portAfter_changed (retrainingPort (getPort s n)) run (fun m => ?_) (fun _ => ⟨rfl, rfl, rfl, rfl, rfl, rfl, rfl, rfl, rfl, rfl, rfl, rfl⟩),
    fun later none_ => ⟨_, run, enterRetrain_logs up later none_⟩⟩
  exact (getPort_leftUp ..).trans (getPort_setPort ..)

theorem discoveryRecord_effect (up : (getPort s n).state = 7) (r : DiscRecord) :
    portAfter n s (.discoveryRecord n r) (fun x => x = { takeRecord r (getPort s n) with fwd := x.fwd }) := by
  have run : exec (.discoveryRecord n r) s = .next (onlyPort s (recheck n (modPort n (takeRecord r) s))) := by
    show execDiscoveryRecord n r s = _
    unfold execDiscoveryRecord
    rw [if_pos (by simp [runs, up])]
  have own := getPort_recheck_self n (modPort n (takeRecord r) s)
  rw [getPort_modPort, if_pos rfl] at own
  refine ⟨_, run, own, fun m other => ?_⟩
  rw [getPort_onlyPort, getPort_recheck_ne other, getPort_modPort, if_neg other]

end Link

/-- Settles O56: each state of training, RETRAIN and the time limits by the lemma of its command. -/
theorem portTraining : Obligations.PortTraining := by
  intro n s runs p after failed again
  exact ⟨fun rx tx peer ctl detects => detect_effect runs ctl detects rx tx peer, eqFull_effect runs, eqSeed_effect runs, eqSeed_retrain_effect runs,
    fun r ctl aligns => align_effect runs ctl r aligns, linkInit_effect runs, linkInit_retrain_effect runs,
    fun r ctl discovers => discover_effect runs ctl discovers r, timeout_seeded runs, fun retrains => timeout_fails runs (.inl retrains),
    fun low high full ends => timeout_fails runs (.inr ⟨low, high, full, ends⟩), fun _ up reason => retrain_effect runs up reason,
    fun r up => discoveryRecord_effect runs up r⟩

end Sys2Proof.Machine
end

section
/-! SUPPORT. Flits that leave a port: their header, what sending one changes, and FLIT_TRANSMIT (R191 to R193, Table 10-3). -/

namespace Sys2Proof.Machine

/-! ### A flit that leaves -/

/-- The fields of a header up to the acknowledgement, each below its width, read back from it (Table 10-3). -/
theorem flitHeader_fields {ty vc fseq ack : Nat} (a b c : Nat) (tyLow : ty < 8) (vcLow : vc < 8) (seqLow : fseq < 4096) (ackLow : ack < 4096) :
    let h : BitVec 96 := BitVec.ofNat 96 (ty + 2 ^ 3 * vc + 2 ^ 6 * fseq + 2 ^ 18 * ack + 2 ^ 30 * a + 2 ^ 32 * b + 2 ^ 35 * c)
    fhType h = ty ∧ fhVc h = vc ∧ fhSeq h = fseq ∧ fhAck h = ack := by
  intro h
  unfold fhType fhVc fhSeq fhAck bfld
  rw [fld_ofNat (by decide), fld_ofNat (by decide), fld_ofNat (by decide), fld_ofNat (by decide)]
  unfold fld
  refine ⟨?_, ?_, ?_, ?_⟩ <;> omega

/-- A flit of this type, VC, sequence number and payload has left port `n`, with the acknowledgement that the port owes. -/
def flitSent (n : Nat) (s t : State) (ty vc fseq : Nat) (payload : List Byte) : Prop :=
  ∃ h poison, t.out = s.out ++ [.flit n h payload (flitCrc h payload) poison] ∧ fhType h = ty ∧ fhVc h = vc ∧ fhSeq h = fseq
    ∧ fhAck h = (if ty = 4 then (getPort s n).rxSeq else ((getPort s n).rxSeq + 4095) % 4096)

/-- The acknowledgement in a flit: a replay request names the flit expected next, any other flit the one before it. -/
def flitAck (ty : Nat) (p : Port) : Nat := if ty = 4 then p.rxSeq else (p.rxSeq + 4095) % 4096

section Sent
variable {n ty vc fseq : Nat} {payload : List Byte} {poison : List Nat} {s t u : State}

theorem emitFlit_out (tyLow : ty ≤ 4) (vcLow : vc < 8) (seqLow : fseq < 4096) (ackLow : flitAck ty (getPort u n) < 4096) :
    ∃ h, (emitFlit n ty vc fseq payload poison u).out = u.out ++ [.flit n h payload (flitCrc h payload) poison]
      ∧ fhType h = ty ∧ fhVc h = vc ∧ fhSeq h = fseq ∧ fhAck h = flitAck ty (getPort u n) := by
  unfold emitFlit
  unfold flitAck at ackLow ⊢
  split
  · rw [if_pos ‹_›] at ackLow
    exact ⟨_, rfl, flitHeader_fields _ _ _ (by omega) vcLow seqLow ackLow⟩
  · rw [if_neg ‹_›] at ackLow
    exact ⟨_, rfl, flitHeader_fields _ _ _ (by omega) vcLow seqLow ackLow⟩

/-- A flit sent where nothing else has left and the sequence number expected is that of `s`. -/
theorem flitSent_emitFlit (out : u.out = s.out) (expected : (getPort u n).rxSeq = (getPort s n).rxSeq) (tyLow : ty ≤ 4) (vcLow : vc < 8)
    (seqLow : fseq < 4096) (request : ty = 4 → (getPort s n).rxSeq < 4096) (is : t.out = (emitFlit n ty vc fseq payload poison u).out) :
    flitSent n s t ty vc fseq payload := by
  have ack : flitAck ty (getPort u n) = if ty = 4 then (getPort s n).rxSeq else ((getPort s n).rxSeq + 4095) % 4096 := by
    rw [flitAck, expected]
  have ackLow : flitAck ty (getPort u n) < 4096 := by
    rw [ack]
    split
    · exact request ‹_›
    · omega
  obtain ⟨h, sent, fields⟩ := emitFlit_out (payload := payload) (poison := poison) tyLow vcLow seqLow ackLow
  rw [ack] at fields
  exact ⟨h, poison, is.trans (sent.trans (by rw [out])), fields⟩

/-- A flit that leaves takes the credits that it returns from those owed. -/
theorem getPort_emitFlit_self (n ty vc fseq : Nat) (payload : List Byte) (poison : List Nat) (u : State) :
    ∃ o, getPort (emitFlit n ty vc fseq payload poison u) n = { getPort u n with owed := o } := by
  unfold emitFlit
  split <;> exact ⟨_, (getPort_setPort ..).trans (if_pos rfl)⟩

theorem emitFlit_inbox : (emitFlit n ty vc fseq payload poison u).et.inbox = u.et.inbox := by
  unfold emitFlit
  split <;> rfl

end Sent

/-! ### FLIT_TRANSMIT -/

/-- A port, with nothing to resend, after a new flit: the flit takes the next FSEQ and a credit of its VC, and is kept for replay. -/
def sentPort (i : Nat) (f : Flit) (p : Port) : Port :=
  { p with resend := [], txq := p.txq.eraseIdx i, txSeq := (p.txSeq + 1) % 4096, replay := p.replay ++ [{ f with fseq := p.txSeq }]
           credits := mset 0 p.credits f.vc (mget 0 p.credits f.vc - 1) }

section Transmit
variable {n : Nat} {s : State} (runs : portRuns s n = true) (up : (getPort s n).state = 7) (alive : (getPort s n).dead = [])
include runs up alive

theorem transmit_resends {f : Flit} {fs : List Flit} (due : (getPort s n).resend = f :: fs) (tyLow : f.ty < 4) (vcLow : f.vc < 8)
    (seqLow : f.fseq < 4096) :
    let p := getPort s n
    ∃ t, exec (.flitTransmit n) s = .next t ∧ flitSent n s t f.ty f.vc f.fseq f.payload ∧ (getPort t n).resend = fs
      ∧ (getPort t n).replay = p.replay ∧ (getPort t n).txSeq = p.txSeq ∧ (getPort t n).credits = p.credits := by
  intro p
  obtain ⟨here, free⟩ := portRuns_here runs
  let u := setPort n { p with resend := fs } s
  have run : exec (.flitTransmit n) s = .next (onlyPort s (emitFlit n f.ty f.vc f.fseq f.payload f.poison u)) := by
    show execFlitTransmit n s = _
    unfold execFlitTransmit
    dsimp only
    rw [if_neg (by simp [here, up, alive]), if_neg (by simp [free]), due]
  have own : getPort u n = { p with resend := fs } := (getPort_setPort ..).trans (if_pos rfl)
  obtain ⟨o, kept⟩ := getPort_emitFlit_self n f.ty f.vc f.fseq f.payload f.poison u
  rw [own] at kept
  refine ⟨_, run, flitSent_emitFlit (u := u) rfl (by rw [own]) (by omega) vcLow seqLow (by omega) rfl, ?_⟩
  rw [getPort_onlyPort, kept]
  exact ⟨rfl, rfl, rfl, rfl⟩

theorem transmit_sends {i : Nat} {f : Flit} (seqLow : (getPort s n).txSeq < 4096) (done : (getPort s n).resend = [])
    (room : (getPort s n).replay.length < 1024) (next : sendable (getPort s n) = some i) (is : (getPort s n).txq[i]? = some f) (tyLow : f.ty < 4)
    (vcLow : f.vc < 8) :
    let p := getPort s n
    ∃ t, exec (.flitTransmit n) s = .next t ∧ flitSent n s t f.ty f.vc p.txSeq f.payload ∧ (getPort t n).txSeq = (p.txSeq + 1) % 4096
      ∧ (getPort t n).replay = p.replay ++ [{ f with fseq := p.txSeq }] ∧ (getPort t n).txq = p.txq.eraseIdx i
      ∧ (∀ v, mget 0 (getPort t n).credits v = if v = f.vc then mget 0 p.credits v - 1 else mget 0 p.credits v) := by
  intro p
  obtain ⟨here, free⟩ := portRuns_here runs
  let u := setPort n (sentPort i f p) s
  have taken : p.txq.getD i { ty := 1, vc := 0, payload := [] } = f := by rw [List.getD_eq_getElem?_getD, is]; rfl
  have run : exec (.flitTransmit n) s = .next (onlyPort s (emitFlit n f.ty f.vc p.txSeq f.payload f.poison u)) := by
    show execFlitTransmit n s = _
    unfold execFlitTransmit
    dsimp only
    rw [if_neg (by simp [here, up, alive]), if_neg (by simp [free]), done]
    dsimp only
    rw [if_pos room, next]
    dsimp only
    rw [taken]
    rfl
  have own : getPort u n = sentPort i f p := (getPort_setPort ..).trans (if_pos rfl)
  obtain ⟨o, kept⟩ := getPort_emitFlit_self n f.ty f.vc p.txSeq f.payload f.poison u
  rw [own] at kept
  refine ⟨_, run, flitSent_emitFlit (u := u) rfl (by rw [own]; rfl) (by omega) vcLow seqLow (by omega) rfl, ?_⟩
  rw [getPort_onlyPort, kept]
  refine ⟨rfl, rfl, rfl, fun v => (mget_mset ..).trans ?_⟩
  split <;> subst_vars <;> rfl

theorem transmit_idles (seqLow : (getPort s n).txSeq < 4096) (done : (getPort s n).resend = [])
    (held : 1024 ≤ (getPort s n).replay.length ∨ sendable (getPort s n) = none) :
    let p := getPort s n
    ∃ t, exec (.flitTransmit n) s = .next t ∧ flitSent n s t 0 0 p.txSeq noPayload ∧ (getPort t n).txSeq = p.txSeq ∧ (getPort t n).txq = p.txq
      ∧ (getPort t n).credits = p.credits ∧ (getPort t n).replay = p.replay := by
  intro p
  obtain ⟨here, free⟩ := portRuns_here runs
  have none_ : (if p.replay.length < 1024 then sendable p else none) = none := by
    rcases held with full | blocked
    · exact if_neg (Nat.not_lt.2 full)
    · rw [blocked, ite_self]
  have run : exec (.flitTransmit n) s = .next (onlyPort s (emitFlit n 0 0 p.txSeq noPayload [] s)) := by
    show execFlitTransmit n s = _
    unfold execFlitTransmit
    dsimp only
    rw [if_neg (by simp [here, up, alive]), if_neg (by simp [free]), done]
    dsimp only
    rw [none_]
  obtain ⟨o, kept⟩ := getPort_emitFlit_self n 0 0 p.txSeq noPayload [] s
  refine ⟨_, run, flitSent_emitFlit (u := s) rfl rfl (by decide) (by decide) seqLow (by omega) rfl, ?_⟩
  rw [getPort_onlyPort, kept]
  exact ⟨rfl, rfl, rfl, rfl⟩

end Transmit

end Sys2Proof.Machine
end

section
/-! SUPPORT. Flits that reach a port: replay requests, the order of flits, packets delivered, and the code's counts (R185, R190 to R194). -/

namespace Sys2Proof.Machine

/-! ### Changes of ports alone -/

/-- Ports apart, `t` is the state `s`. -/
def portsOnly (s t : State) : Prop := ∃ ps, t = { s with et := { s.et with ports := ps } }

theorem portsOnly.refl (s : State) : portsOnly s s := ⟨_, rfl⟩

theorem portsOnly.setPort {s t : State} (h : portsOnly s t) (n : Nat) (v : Port) : portsOnly s (setPort n v t) := by
  obtain ⟨ps, rfl⟩ := h
  exact ⟨_, rfl⟩

theorem portsOnly.out {s t : State} (h : portsOnly s t) : t.out = s.out := by
  obtain ⟨ps, rfl⟩ := h
  rfl

theorem portsOnly.inbox {s t : State} (h : portsOnly s t) : t.et.inbox = s.et.inbox := by
  obtain ⟨ps, rfl⟩ := h
  rfl

theorem portsOnly.staysHere {s t : State} (h : portsOnly s t) (x : Packet) : staysHere t x = staysHere s x := by
  obtain ⟨ps, rfl⟩ := h
  rfl

/-! ### A replay is asked for -/

section Ask
variable {n : Nat} {s t u : State} (out : u.out = s.out) (fresh : (getPort u n).requested = false)

include fresh in
theorem askReplay_once : askReplay n u = emitFlit n 4 0 (getPort u n).txSeq noPayload [] (modPort n (fun p => { p with requested := true }) u) := by
  unfold askReplay
  rw [fresh]
  rfl

include fresh in
theorem getPort_askReplay : ∃ o, getPort (askReplay n u) n = { getPort u n with requested := true, owed := o } := by
  rw [askReplay_once fresh]
  obtain ⟨o, kept⟩ := getPort_emitFlit_self n 4 0 (getPort u n).txSeq noPayload [] (modPort n (fun p => { p with requested := true }) u)
  rw [getPort_modPort, if_pos rfl] at kept
  exact ⟨o, kept⟩

theorem askReplay_inbox : (askReplay n u).et.inbox = u.et.inbox := by
  unfold askReplay
  split
  · rfl
  · rw [emitFlit_inbox]
    rfl

include fresh out in
/-- A replay request has left a port whose sequence numbers are those of `s`. -/
theorem flitSent_askReplay (expected : (getPort u n).rxSeq = (getPort s n).rxSeq) (next : (getPort u n).txSeq = (getPort s n).txSeq)
    (rxLow : (getPort s n).rxSeq < 4096) (txLow : (getPort s n).txSeq < 4096) (is : t.out = (askReplay n u).out) :
    flitSent n s t 4 0 (getPort s n).txSeq noPayload := by
  refine flitSent_emitFlit (poison := []) (u := modPort n (fun p => { p with requested := true }) u) out ?_ (by decide) (by decide) txLow
    (fun _ => rxLow) ?_
  · rw [getPort_modPort, if_pos rfl]
    exact expected
  · rw [is, askReplay_once fresh, next]

end Ask

/-! ### What a flit brings -/

/-- The code's verdicts on a flit are counted (R185). -/
def countedPort (fl : FlitIn) (p : Port) : Port :=
  { p with fecCorr := satAdd max32 p.fecCorr fl.corrected, fecUncorr := satAdd max32 p.fecUncorr fl.uncorrected }

/-- Every codeword of the flit could be read, and beyond that its CRC and length are right. -/
def flitRead (fl : FlitIn) : Prop := fl.codewordOk = true ∧ fl.uncorrected = 0
def flitGood (fl : FlitIn) : Prop := flitRead fl ∧ fl.crc = flitCrc fl.header fl.payload ∧ fl.payload.length = 512

/-- The acknowledgement of a header, where it holds one. -/
def ackedPort (h : BitVec 96) (p : Port) : Port := if fhAckv h then takeAck (fhAck h) p else p

/-- An acknowledgement changes what is kept for replay alone, returned credits the credits alone. -/
theorem takeAck_fields (ack : Nat) (p : Port) : ∃ a b, takeAck ack p = { p with replay := a, resend := b } := by
  unfold takeAck
  split <;> exact ⟨_, _, rfl⟩

theorem ackedPort_fields (h : BitVec 96) (p : Port) : ∃ a b, ackedPort h p = { p with replay := a, resend := b } := by
  unfold ackedPort
  split
  · exact takeAck_fields ..
  · exact ⟨_, _, rfl⟩

theorem takeCredits_fields (h : BitVec 96) (p : Port) : ∃ c, takeCredits h p = { p with credits := c } := by
  unfold takeCredits
  split <;> exact ⟨_, rfl⟩

/-- What the header of a flit in order brings, its acknowledgement and its credits. -/
theorem headerTaken_fields (h : BitVec 96) (p : Port) :
    ∃ a b c, takeCredits h (ackedPort h p) = { p with replay := a, resend := b, credits := c } := by
  obtain ⟨a, b, acked⟩ := ackedPort_fields h p
  obtain ⟨c, credited⟩ := takeCredits_fields h (ackedPort h p)
  rw [acked] at credited
  exact ⟨a, b, c, acked ▸ credited⟩

section Receive
variable {n : Nat} {s : State} {fl : FlitIn} (up : (getPort s n).state = 7)
include up

theorem exec_flitReceive (runs : portRuns s n = true) (fl : FlitIn) :
    exec (.flitReceive n fl) s = .next (onlyPort s (receiveFlit n fl s)) := by
  obtain ⟨here, free⟩ := portRuns_here runs
  show execFlitReceive n fl s = _
  unfold execFlitReceive
  rw [if_neg (by simp [here, up]), if_neg (by simp [free])]

theorem receiveFlit_unread (lost : ¬ flitRead fl) : receiveFlit n fl s = askReplay n (setPort n (countedPort fl (getPort s n)) s) := by
  unfold receiveFlit
  dsimp only
  rw [if_neg (by simp [up]), if_pos]
  · rfl
  · by_contra read
    rw [Bool.or_eq_true, not_or, Bool.not_eq_true', Bool.not_eq_false, bne_iff_ne, not_ne_iff] at read
    exact lost read

omit up in
theorem flitRead_test (read : flitRead fl) : ¬ ((!fl.codewordOk || fl.uncorrected != 0) = true) := by
  obtain ⟨ok, corrected⟩ := read
  simp [ok, corrected]

theorem receiveFlit_badCrc (read : flitRead fl) (bad : ¬ flitGood fl) :
    receiveFlit n fl s = askReplay n (setPort n { countedPort fl (getPort s n) with crcBad := satAdd max32 (getPort s n).crcBad 1 }
      (setPort n (countedPort fl (getPort s n)) s)) := by
  unfold receiveFlit
  dsimp only
  rw [if_neg (by simp [up]), if_neg (flitRead_test read), if_pos]
  · rfl
  · by_contra fine
    rw [not_or, not_ne_iff, not_ne_iff] at fine
    exact bad ⟨read, fine⟩

theorem receiveFlit_request (good : flitGood fl) (request : fhType fl.header = 4) :
    receiveFlit n fl s = setPort n (doReplay (fhAck fl.header) (takeCredits fl.header (countedPort fl (getPort s n))))
      (setPort n (countedPort fl (getPort s n)) s) := by
  obtain ⟨read, crc, len⟩ := good
  unfold receiveFlit
  dsimp only
  rw [if_neg (by simp [up]), if_neg (flitRead_test read), if_neg (by simp [crc, len]), if_neg (by omega), if_pos request]
  rfl

/-- The flit of a packet that arrives. -/
def flitOf (fl : FlitIn) : Flit :=
  { ty := fhType fl.header, vc := fhVc fl.header, fseq := fhSeq fl.header, payload := fl.payload, poison := fl.poison }

theorem receiveFlit_inOrder (good : flitGood fl) (data : 0 < fhType fl.header ∧ fhType fl.header < 4) (inOrder : fhSeq fl.header = (getPort s n).rxSeq)
    (low : fhVc fl.header < 6) :
    receiveFlit n fl s = acceptFlit n (flitOf fl)
      (setPort n (takeCredits fl.header (ackedPort fl.header (countedPort fl (getPort s n)))) (setPort n (countedPort fl (getPort s n)) s)) := by
  obtain ⟨read, crc, len⟩ := good
  unfold receiveFlit
  dsimp only
  rw [if_neg (by simp [up]), if_neg (flitRead_test read), if_neg (by simp [crc, len]), if_neg (by omega), if_neg (by omega), if_pos inOrder,
    if_neg (by omega), if_neg (by omega)]
  rfl

theorem receiveFlit_outOfOrder (good : flitGood fl) (data : fhType fl.header < 4) (missed : fhSeq fl.header ≠ (getPort s n).rxSeq)
    (ahead : (fhSeq fl.header + 4096 - (getPort s n).rxSeq) % 4096 < 2048) :
    ∃ a b c, receiveFlit n fl s = askReplay n (setPort n { countedPort fl (getPort s n) with replay := a, resend := b, credits := c }
      (setPort n (countedPort fl (getPort s n)) s)) := by
  obtain ⟨read, crc, len⟩ := good
  have fields : ∃ a b c, (if fhType fl.header = 0 then takeCredits fl.header (ackedPort fl.header (countedPort fl (getPort s n)))
      else ackedPort fl.header (countedPort fl (getPort s n))) = { countedPort fl (getPort s n) with replay := a, resend := b, credits := c } := by
    split
    · exact headerTaken_fields ..
    · obtain ⟨a, b, acked⟩ := ackedPort_fields fl.header (countedPort fl (getPort s n))
      exact ⟨a, b, _, acked⟩
  obtain ⟨a, b, c, taken⟩ := fields
  refine ⟨a, b, c, ?_⟩
  unfold receiveFlit
  dsimp only
  rw [if_neg (by simp [up]), if_neg (flitRead_test read), if_neg (by simp [crc, len]), if_neg (by omega), if_neg (by omega), if_neg missed,
    if_pos ahead, ← taken]
  rfl

end Receive

/-! ### A flit in order joins its packet -/

/-- A port that has accepted a flit in order: it expects the next one. -/
def orderedPort (p : Port) : Port := { p with rxSeq := (p.rxSeq + 1) % 4096, rxAny := true, requested := false }

section Accept
variable {n : Nat} {s : State} {f : Flit}

/-- A data flit joins what its VC assembles, and a last flit makes a packet of it. -/
theorem acceptFlit_assembles (data : f.ty ≠ 3) : ∃ u, portsOnly s u ∧ (∃ o, getPort u n = { orderedPort (getPort s n) with owed := o })
    ∧ acceptFlit n f s = (let held := mget [] (getPort s n).partial_ f.vc ++ [f]
        if f.ty = 2 then packetIn n f.vc held (modPort n (fun p => { p with partial_ := mset [] p.partial_ f.vc [] }) u)
        else modPort n (fun p => { p with partial_ := mset [] p.partial_ f.vc held }) u) := by
  let s1 := modPort n orderedPort s
  have own : getPort s1 n = orderedPort (getPort s n) := (getPort_modPort ..).trans (if_pos rfl)
  have only : portsOnly s s1 := (portsOnly.refl s).setPort ..
  let len := pktLenM1 (BitVec.ofNat 256 (leNat (((mget [] (getPort s1 n).partial_ f.vc ++ [f]).headD f).payload.take 32))) + 1
  have run : acceptFlit n f s = (let u := if slotsHeld f.vc len = 0 then oweCredits n f.vc 1 s1 else s1
      let held := mget [] (getPort s1 n).partial_ f.vc ++ [f]
      if f.ty = 2 then packetIn n f.vc held (modPort n (fun p => { p with partial_ := mset [] p.partial_ f.vc [] }) u)
      else modPort n (fun p => { p with partial_ := mset [] p.partial_ f.vc held }) u) := if_neg data
  have parts : (getPort s1 n).partial_ = (getPort s n).partial_ := by rw [own]; rfl
  rw [parts] at run
  by_cases emptied : slotsHeld f.vc len = 0
  · rw [if_pos emptied] at run
    refine ⟨_, only.setPort .., ?_, run⟩
    rw [getPort_setPort, if_pos rfl, own]
    exact ⟨_, rfl⟩
  · rw [if_neg emptied] at run
    exact ⟨_, only, ⟨_, own⟩, run⟩

/-- The packet that flits of a VC make. -/
def packetOf (vc : Nat) (fs : List Flit) : Packet :=
  { header := BitVec.ofNat 256 (leNat ((fs.flatMap (fun f => f.payload)).take 32)), body := (fs.flatMap (fun f => f.payload)).drop 32, vc
    poison := (fs.headD { ty := 1, vc, payload := [] }).poison }

theorem packetOf_append (vc : Nat) (held : List Flit) (f : Flit) :
    packetOf vc (held ++ [f]) = { header := BitVec.ofNat 256 (leNat (((held ++ [f]).flatMap (fun f => f.payload)).take 32))
                                  body := ((held ++ [f]).flatMap (fun f => f.payload)).drop 32, vc, poison := ((held ++ [f]).headD f).poison } := by
  cases held <;> rfl

/-- A packet that stays here waits in the receive buffer. -/
theorem routePacket_stays {x : Packet} (stays : staysHere s x = true) :
    routePacket (some n) x s = { s with et := { s.et with inbox := s.et.inbox ++ [(n, x)] } } := by
  simp only [staysHere, Bool.and_eq_true, Bool.not_eq_true', beq_iff_eq] at stays
  obtain ⟨⟨⟨header, dest⟩, own⟩, data⟩ := stays
  unfold routePacket
  dsimp only
  rw [if_neg (by simp [header]), if_neg (by simp [dest]), if_pos own, if_neg (by simp [data])]
  rfl

theorem packetIn_stays {vc : Nat} {fs : List Flit} (whole : pktLenM1 (packetOf vc fs).header + 1 = fs.length)
    (own : 2 * pktClass (packetOf vc fs).header + vc % 2 = vc) (carried : (getPort s n).fwd = true ∨ pktClass (packetOf vc fs).header = clControl)
    (stays : staysHere s (packetOf vc fs) = true) :
    packetIn n vc fs s = { s with et := { s.et with inbox := s.et.inbox ++ [(n, packetOf vc fs)] } } := by
  have header : badHeader (packetOf vc fs).header = false := by
    simp only [staysHere, Bool.and_eq_true, Bool.not_eq_true'] at stays
    exact stays.1.1.1
  have packet : packetIn n vc fs s = (
      let p := packetOf vc fs
      let k := if slotsHeld vc (pktLenM1 p.header + 1) = 0 then 0 else fs.length
      if pktLenM1 p.header + 1 ≠ fs.length ∨ 2 * pktClass p.header + vc % 2 ≠ vc ∨ badHeader p.header then oweCredits n vc k (countDiscard s)
      else if !(getPort s n).fwd && !(pktClass p.header == clControl && staysHere s p) then oweCredits n vc k (countNoRoute s)
      else if staysHere s p then routePacket (some n) p s
      else oweCredits n vc k (routePacket (some n) p s)) := rfl
  rw [packet]
  dsimp only
  rw [if_neg (by simp [whole, own, header]), if_neg, if_pos stays, routePacket_stays stays]
  rcases carried with carried | control
  · simp [carried]
  · simp [control, stays]

end Accept

/-! ### The code's counts -/

/-- The counts of corrected and uncorrected codewords of a port. -/
def codeCounts (p : Port) : Nat × Nat := (p.fecCorr, p.fecUncorr)

section Counts
variable {n : Nat}

theorem codeCounts_modPort {f : Port → Port} (keeps : ∀ p, codeCounts (f p) = codeCounts p) (m : Nat) (s : State) :
    codeCounts (getPort (modPort m f s) n) = codeCounts (getPort s n) := by
  rw [getPort_modPort]
  split
  · subst_vars
    exact keeps _
  · rfl

theorem codeCounts_setPort (v : Port) (s : State) : codeCounts (getPort (setPort n v s) n) = codeCounts v := by
  rw [getPort_setPort, if_pos rfl]

theorem codeCounts_oweCredits (m vc k : Nat) (s : State) : codeCounts (getPort (oweCredits m vc k s) n) = codeCounts (getPort s n) := by
  refine codeCounts_modPort ?_ m s
  exact fun _ => rfl

theorem codeCounts_leaveBy (m : Nat) (vc : Nat → Nat) (x : Packet) (s : State) : codeCounts (getPort (leaveBy m vc x s) n) = codeCounts (getPort s n) := by
  unfold leaveBy
  split
  · refine codeCounts_modPort ?_ _ s
    exact fun _ => rfl
  · rfl

theorem codeCounts_routePacket (arrived : Option Nat) (x : Packet) (s : State) :
    codeCounts (getPort (routePacket arrived x s) n) = codeCounts (getPort s n) := by
  unfold routePacket
  dsimp only
  split
  · rfl
  split
  · rfl
  split
  · split <;> rfl
  split
  · split
    · rfl
    · exact codeCounts_leaveBy ..
  · split
    · exact codeCounts_leaveBy ..
    · split
      · exact codeCounts_leaveBy ..
      · rfl

theorem codeCounts_packetIn (m vc : Nat) (fs : List Flit) (s : State) : codeCounts (getPort (packetIn m vc fs s) n) = codeCounts (getPort s n) := by
  unfold packetIn
  dsimp only
  split
  · exact codeCounts_oweCredits ..
  · split
    · exact codeCounts_oweCredits ..
    · split
      · exact codeCounts_routePacket ..
      · exact (codeCounts_oweCredits ..).trans (codeCounts_routePacket ..)

theorem codeCounts_acceptFlit (f : Flit) (s : State) : codeCounts (getPort (acceptFlit n f s) n) = codeCounts (getPort s n) := by
  by_cases control : f.ty = 3
  · rw [show acceptFlit n f s = oweCredits n f.vc 1 (modPort n orderedPort s) from if_pos control, codeCounts_oweCredits]
    refine codeCounts_modPort ?_ n s
    exact fun _ => rfl
  · obtain ⟨u, -, ⟨o, own⟩, run⟩ := acceptFlit_assembles (n := n) (s := s) control
    have counts : codeCounts (getPort u n) = codeCounts (getPort s n) := by rw [own]; rfl
    rw [run]
    dsimp only
    split
    · refine (codeCounts_packetIn ..).trans ((codeCounts_modPort ?_ n u).trans counts)
      exact fun _ => rfl
    · refine (codeCounts_modPort ?_ n u).trans counts
      exact fun _ => rfl

theorem codeCounts_askReplay (s : State) : codeCounts (getPort (askReplay n s) n) = codeCounts (getPort s n) := by
  cases asked : (getPort s n).requested with
  | true => rw [askReplay, if_pos asked]
  | false =>
    obtain ⟨o, kept⟩ := getPort_askReplay asked
    rw [kept]
    rfl

theorem codeCounts_ackedPort (h : BitVec 96) (p : Port) : codeCounts (ackedPort h p) = codeCounts p := by
  obtain ⟨a, b, acked⟩ := ackedPort_fields h p
  rw [acked]
  rfl

theorem codeCounts_takeCredits (h : BitVec 96) (p : Port) : codeCounts (takeCredits h p) = codeCounts p := by
  obtain ⟨c, credited⟩ := takeCredits_fields h p
  rw [credited]
  rfl

/-- Whatever a flit brings, its codewords are counted once. -/
theorem codeCounts_receiveFlit {s : State} (up : (getPort s n).state = 7) (fl : FlitIn) :
    codeCounts (getPort (receiveFlit n fl s) n) = codeCounts (countedPort fl (getPort s n)) := by
  have asked (v : Port) (u : State) : codeCounts (getPort (askReplay n (setPort n v u)) n) = codeCounts v :=
    (codeCounts_askReplay _).trans (codeCounts_setPort v u)
  have acked := codeCounts_ackedPort fl.header (countedPort fl (getPort s n))
  have taken := (codeCounts_takeCredits fl.header (ackedPort fl.header (countedPort fl (getPort s n)))).trans acked
  unfold receiveFlit
  extract_lets p0 p t h p1 s1 s2
  rw [if_neg (by simp [p, p0, up])]
  split
  next => exact asked ..
  split
  next => exact asked ..
  split
  next => exact codeCounts_setPort ..
  split
  next => exact (codeCounts_setPort ..).trans (codeCounts_takeCredits fl.header (countedPort fl (getPort s n)))
  split
  next =>
    split
    next => exact (codeCounts_setPort ..).trans taken
    split
    next =>
      refine (codeCounts_modPort ?_ n _).trans ((codeCounts_setPort ..).trans taken)
      exact fun _ => rfl
    next => exact (codeCounts_acceptFlit ..).trans ((codeCounts_setPort ..).trans taken)
  next =>
    have brought : codeCounts (if fhType fl.header = 0 then takeCredits fl.header (ackedPort fl.header (countedPort fl (getPort s n)))
        else ackedPort fl.header (countedPort fl (getPort s n))) = codeCounts (countedPort fl (getPort s n)) := by
      split
      · exact taken
      · exact acked
    split
    next => exact (asked ..).trans brought
    next => exact (codeCounts_setPort ..).trans brought

end Counts

end Sys2Proof.Machine
end

section
/-! SUPPORT. What FLIT_RECEIVE, REPLAY_REQUEST and REPLAY_REQUEST_RESEND lead to on a port that is UP (R191 to R193). -/

namespace Sys2Proof.Machine

section Receive
variable {n : Nat} {s : State} (runs : portRuns s n = true) (up : (getPort s n).state = 7) {fl : FlitIn}

/-! ### Replay requests that leave -/

/-- A command that makes port `n` a port `v` and then asks for a replay. -/
theorem asks_effect {c : Instr} {v : Port} {u : State} (run : exec c s = .next (onlyPort s (askReplay n (setPort n v u)))) (only : portsOnly s u)
    (fresh : v.requested = false) (expected : v.rxSeq = (getPort s n).rxSeq) (next : v.txSeq = (getPort s n).txSeq)
    (rxLow : (getPort s n).rxSeq < 4096) (txLow : (getPort s n).txSeq < 4096) :
    ∃ t, exec c s = .next t ∧ flitSent n s t 4 0 (getPort s n).txSeq noPayload
      ∧ (∃ o, getPort t n = { v with requested := true, owed := o }) ∧ t.et.inbox = s.et.inbox := by
  have own : getPort (setPort n v u) n = v := (getPort_setPort ..).trans (if_pos rfl)
  have changed := only.setPort n v
  refine ⟨_, run, flitSent_askReplay (u := setPort n v u) changed.out (by rwa [own]) (by rwa [own]) (by rwa [own]) rxLow txLow rfl, ?_,
    askReplay_inbox.trans changed.inbox⟩
  obtain ⟨o, kept⟩ := getPort_askReplay (n := n) (u := setPort n v u) (by rwa [own])
  rw [own] at kept
  exact ⟨o, kept⟩

theorem portsOnly_counted : portsOnly s (setPort n (countedPort fl (getPort s n)) s) := (portsOnly.refl s).setPort ..

include runs up

/-- A flit that is bad is answered by one replay request and delivers nothing. -/
theorem receive_bad (bad : ¬ flitGood fl) (fresh : (getPort s n).requested = false) (rxLow : (getPort s n).rxSeq < 4096)
    (txLow : (getPort s n).txSeq < 4096) :
    let p := getPort s n
    ∃ t, exec (.flitReceive n fl) s = .next t ∧ flitSent n s t 4 0 p.txSeq noPayload ∧ (getPort t n).requested = true
      ∧ (getPort t n).rxSeq = p.rxSeq ∧ (getPort t n).partial_ = p.partial_ ∧ (getPort t n).credits = p.credits ∧ t.et.inbox = s.et.inbox
      ∧ (flitRead fl → (getPort t n).crcBad = satAdd max32 p.crcBad 1) ∧ (¬ flitRead fl → (getPort t n).crcBad = p.crcBad) := by
  have run := exec_flitReceive up runs fl
  by_cases read : flitRead fl
  · rw [receiveFlit_badCrc up read bad] at run
    obtain ⟨t, done, sent, ⟨o, own⟩, inbox⟩ := asks_effect run portsOnly_counted fresh rfl rfl rxLow txLow
    refine ⟨t, done, sent, ?_⟩
    rw [own]
    exact ⟨rfl, rfl, rfl, rfl, inbox, fun _ => rfl, fun lost => absurd read lost⟩
  · rw [receiveFlit_unread up read] at run
    obtain ⟨t, done, sent, ⟨o, own⟩, inbox⟩ := asks_effect run (portsOnly.refl s) fresh rfl rfl rxLow txLow
    refine ⟨t, done, sent, ?_⟩
    rw [own]
    exact ⟨rfl, rfl, rfl, rfl, inbox, fun ok => absurd ok read, fun _ => rfl⟩

/-- So is one that shows a flit before it to be missing. -/
theorem receive_outOfOrder (good : flitGood fl) (data : fhType fl.header < 4) (missed : fhSeq fl.header ≠ (getPort s n).rxSeq)
    (ahead : (fhSeq fl.header + 4096 - (getPort s n).rxSeq) % 4096 < 2048) (fresh : (getPort s n).requested = false)
    (rxLow : (getPort s n).rxSeq < 4096) (txLow : (getPort s n).txSeq < 4096) :
    let p := getPort s n
    ∃ t, exec (.flitReceive n fl) s = .next t ∧ flitSent n s t 4 0 p.txSeq noPayload ∧ (getPort t n).rxSeq = p.rxSeq
      ∧ (getPort t n).requested = true ∧ t.et.inbox = s.et.inbox := by
  obtain ⟨a, b, c, asked⟩ := receiveFlit_outOfOrder up good data missed ahead
  have run := exec_flitReceive up runs fl
  rw [asked] at run
  obtain ⟨t, done, sent, ⟨o, own⟩, inbox⟩ := asks_effect run portsOnly_counted fresh rfl rfl rxLow txLow
  refine ⟨t, done, sent, ?_⟩
  rw [own]
  exact ⟨rfl, rfl, inbox⟩

theorem receive_counts (fl : FlitIn) : ∃ t, exec (.flitReceive n fl) s = .next t
    ∧ (getPort t n).fecCorr = satAdd max32 (getPort s n).fecCorr fl.corrected
    ∧ (getPort t n).fecUncorr = satAdd max32 (getPort s n).fecUncorr fl.uncorrected :=
  ⟨_, exec_flitReceive up runs fl, Prod.mk.inj (codeCounts_receiveFlit up fl)⟩

/-! ### Replay requests that arrive -/

theorem receive_request (good : flitGood fl) (request : fhType fl.header = 4) :
    let p := getPort s n
    ∃ t, exec (.flitReceive n fl) s = .next t ∧ (getPort t n).replays = satAdd max32 p.replays 1
      ∧ (getPort t n).resend = p.replay.dropWhile (fun f => f.fseq != fhAck fl.header) ∧ (getPort t n).replay = p.replay := by
  refine ⟨_, exec_flitReceive up runs fl, ?_⟩
  obtain ⟨c, credited⟩ := takeCredits_fields fl.header (countedPort fl (getPort s n))
  rw [getPort_onlyPort, receiveFlit_request up good request, getPort_setPort, if_pos rfl, credited]
  exact ⟨rfl, rfl, rfl⟩

theorem replayRequest_effect (fseq : BitVec 12) : ∃ t, exec (.replayRequest n fseq) s = .next t ∧ getPort t n = doReplay fseq.toNat (getPort s n) := by
  have run : exec (.replayRequest n fseq) s = .next (onlyPort s (modPort n (doReplay fseq.toNat) s)) := by
    show execReplayRequest n fseq s = _
    unfold execReplayRequest
    rw [if_pos (by simp [(portRuns_here runs).1, up])]
  exact ⟨_, run, (getPort_modPort ..).trans (if_pos rfl)⟩

theorem replayRequestResend_effect (asked : (getPort s n).requested = true) (rxLow : (getPort s n).rxSeq < 4096) (txLow : (getPort s n).txSeq < 4096) :
    ∃ t, exec (.replayRequestResend n) s = .next t ∧ flitSent n s t 4 0 (getPort s n).txSeq noPayload ∧ (getPort t n).rxSeq = (getPort s n).rxSeq := by
  have run : exec (.replayRequestResend n) s = .next (onlyPort s (emitFlit n 4 0 (getPort s n).txSeq noPayload [] s)) := by
    show execReplayRequestResend n s = _
    unfold execReplayRequestResend
    dsimp only
    rw [if_pos (by simp [(portRuns_here runs).1, up, asked])]
  obtain ⟨o, kept⟩ := getPort_emitFlit_self n 4 0 (getPort s n).txSeq noPayload [] s
  exact ⟨_, run, flitSent_emitFlit rfl rfl (by decide) (by decide) txLow (fun _ => rxLow) rfl, by rw [getPort_onlyPort, kept]⟩

/-! ### Flits in order -/

/-- A data flit in order joins its packet in a state that has changed in its ports alone. -/
theorem receive_inOrder (good : flitGood fl) (data : fhType fl.header = 1 ∨ fhType fl.header = 2) (inOrder : fhSeq fl.header = (getPort s n).rxSeq)
    (low : fhVc fl.header < 6) : ∃ u, portsOnly s u
      ∧ (getPort u n).rxSeq = ((getPort s n).rxSeq + 1) % 4096 ∧ (getPort u n).partial_ = (getPort s n).partial_ ∧ (getPort u n).fwd = (getPort s n).fwd
      ∧ exec (.flitReceive n fl) s = .next (onlyPort s (
          let vc := fhVc fl.header
          let held := mget [] (getPort s n).partial_ vc ++ [flitOf fl]
          if fhType fl.header = 2 then packetIn n vc held (modPort n (fun p => { p with partial_ := mset [] p.partial_ vc [] }) u)
          else modPort n (fun p => { p with partial_ := mset [] p.partial_ vc held }) u)) := by
  obtain ⟨a, b, c, taken⟩ := headerTaken_fields fl.header (countedPort fl (getPort s n))
  have run := exec_flitReceive up runs fl
  rw [receiveFlit_inOrder up good (by omega) inOrder low, taken] at run
  let v : Port := { countedPort fl (getPort s n) with replay := a, resend := b, credits := c }
  let t := setPort n v (setPort n (countedPort fl (getPort s n)) s)
  have own : getPort t n = v := (getPort_setPort ..).trans (if_pos rfl)
  obtain ⟨u, ⟨qs, only⟩, ⟨o, is⟩, accepted⟩ := acceptFlit_assembles (n := n) (s := t) (f := flitOf fl) (by show fhType fl.header ≠ 3; omega)
  rw [own] at is accepted
  obtain ⟨ps, start⟩ : portsOnly s t := portsOnly_counted.setPort ..
  refine ⟨u, ⟨qs, by rw [only, start]⟩, ?_, ?_, ?_, run.trans (by rw [accepted]; rfl)⟩
  all_goals rw [is]; rfl

theorem receive_first (good : flitGood fl) (first : fhType fl.header = 1) (inOrder : fhSeq fl.header = (getPort s n).rxSeq)
    (low : fhVc fl.header < 6) :
    let p := getPort s n
    ∃ t, exec (.flitReceive n fl) s = .next t ∧ (getPort t n).rxSeq = (p.rxSeq + 1) % 4096 ∧ t.out = s.out ∧ t.et.inbox = s.et.inbox
      ∧ (∀ v, mget [] (getPort t n).partial_ v = if v = fhVc fl.header
          then mget [] p.partial_ v ++ [{ ty := 1, vc := v, fseq := fhSeq fl.header, payload := fl.payload, poison := fl.poison }]
          else mget [] p.partial_ v) := by
  intro p
  obtain ⟨u, only, seq, parts, -, run⟩ := receive_inOrder runs up good (.inl first) inOrder low
  dsimp only at run
  rw [if_neg (by omega)] at run
  have changed := only.setPort n { getPort u n with partial_ := mset [] (getPort u n).partial_ (fhVc fl.header) (mget [] p.partial_ (fhVc fl.header) ++ [flitOf fl]) }
  refine ⟨_, run, ?_, changed.out, changed.inbox, fun v => ?_⟩
  · rw [getPort_onlyPort, getPort_modPort, if_pos rfl]
    exact seq
  · rw [getPort_onlyPort, getPort_modPort, if_pos rfl]
    refine (mget_mset ..).trans ?_
    rw [parts]
    split
    · subst_vars
      rw [flitOf, first]
    · rfl

/-- The last flit of a packet for this module delivers the whole packet. -/
theorem receive_last (good : flitGood fl) (last : fhType fl.header = 2) (inOrder : fhSeq fl.header = (getPort s n).rxSeq)
    (low : fhVc fl.header < 6) {x : Packet} (is : x = packetOf (fhVc fl.header) (mget [] (getPort s n).partial_ (fhVc fl.header) ++ [flitOf fl]))
    (whole : pktLenM1 x.header + 1 = (mget [] (getPort s n).partial_ (fhVc fl.header) ++ [flitOf fl]).length)
    (own : 2 * pktClass x.header + fhVc fl.header % 2 = fhVc fl.header) (carried : (getPort s n).fwd = true ∨ pktClass x.header = clControl)
    (stays : staysHere s x = true) :
    ∃ t, exec (.flitReceive n fl) s = .next t ∧ t.et.inbox = s.et.inbox ++ [(n, x)] ∧ (getPort t n).rxSeq = ((getPort s n).rxSeq + 1) % 4096
      ∧ mget [] (getPort t n).partial_ (fhVc fl.header) = [] ∧ t.out = s.out := by
  subst is
  obtain ⟨u, only, seq, parts, fwd, run⟩ := receive_inOrder runs up good (.inr last) inOrder low
  dsimp only at run
  rw [if_pos last] at run
  let v : Port := { getPort u n with partial_ := mset [] (getPort u n).partial_ (fhVc fl.header) [] }
  let u' := setPort n v u
  have changed : portsOnly s u' := only.setPort ..
  have port : getPort u' n = v := (getPort_setPort ..).trans (if_pos rfl)
  have cleared : mget [] v.partial_ (fhVc fl.header) = [] := by
    unfold v
    rw [mget_mset_self]
  have delivered := packetIn_stays (n := n) (s := u') whole own (by rw [port]; exact fwd ▸ carried) ((changed.staysHere _).trans stays)
  have done : exec (.flitReceive n fl) s = .next (onlyPort s (packetIn n (fhVc fl.header)
      (mget [] (getPort s n).partial_ (fhVc fl.header) ++ [flitOf fl]) u')) := run
  rw [delivered] at done
  refine ⟨_, done, ?_, ?_, ?_, changed.out⟩
  · exact congrArg (· ++ _) changed.inbox
  · exact (congrArg Port.rxSeq port).trans seq
  · exact (congrArg (fun p => mget [] p.partial_ (fhVc fl.header)) port).trans cleared

end Receive

end Sys2Proof.Machine
end

section
/-! SUPPORT. Lane sparing: how a swap is decided, trained and made, and what a dead lane does to its port (R195 to R198). -/

namespace Sys2Proof.Machine

/-! ### The next swap -/

section Next
variable {n : Nat} {s : State}

/-- No swap begins while one is in progress, a dead lane waits for its spare, or the controller does not run. -/
theorem nextSwap_held (held : (getPort s n).swap ≠ none ∨ (getPort s n).dead ≠ [] ∨ portCtl s n = false) : nextSwap n s = s := by
  unfold nextSwap
  dsimp only
  split
  · rw [if_neg]
    simp only [Bool.and_eq_true, Option.isNone_iff_eq_none, List.isEmpty_iff, not_and]
    rintro ⟨⟨idle, alive⟩, -⟩ ctl
    simp [idle, alive, ctl] at held
  · rfl

theorem nextSwap_none (none_ : (getPort s n).swapWaits = []) : nextSwap n s = s := by
  unfold nextSwap
  dsimp only
  rw [none_]

theorem nextSwap_starts {l : Nat} {ls : List Nat} (waits : (getPort s n).swapWaits = l :: ls) (idle : (getPort s n).swap = none)
    (alive : (getPort s n).dead = []) (up : (getPort s n).state = 7) (ctl : portCtl s n = true) :
    nextSwap n s = startSwap n l (setPort n { getPort s n with swapWaits := ls } s) := by
  unfold nextSwap
  dsimp only
  rw [waits]
  dsimp only
  rw [if_pos (by simp [idle, alive, up, ctl])]

/-- A swap that starts takes the lowest working spare and asks the partner with a control flit. -/
theorem getPort_startSwap_spare {l x : Nat} (spare : spareLane (usedRx (getPort s n)) (getPort s n).failedRx = some x) :
    ∃ f : Flit, getPort (startSwap n l s) n = { getPort s n with swap := some (l, x, false), swapActive := true, txq := (getPort s n).txq ++ [f] }
      ∧ f.ty = 3 ∧ f.vc = 4 := by
  unfold startSwap
  dsimp only
  rw [getPort_fwPoint, spare]
  exact ⟨_, (getPort_setPort ..).trans (if_pos rfl), rfl, rfl⟩

/-- Without a spare the port fails. -/
theorem getPort_startSwap_none {l : Nat} (none_ : spareLane (usedRx (getPort s n)) (getPort s n).failedRx = none) :
    ∃ v, getPort (startSwap n l s) n = failedPort frLanes { getPort s n with failedRx := v } := by
  unfold startSwap
  dsimp only
  rw [getPort_fwPoint, none_]
  dsimp only
  rw [getPort_failPort_self, getPort_setPort, if_pos rfl]
  exact ⟨_, rfl⟩

/-- Whatever swap is next, no lane moves yet and no lane is dead that was not. -/
theorem nextSwap_keeps : (getPort (nextSwap n s) n).laneOf = (getPort s n).laneOf
    ∧ ((getPort s n).dead = [] → (getPort (nextSwap n s) n).dead = []) := by
  by_cases held : (getPort s n).swap ≠ none ∨ (getPort s n).dead ≠ [] ∨ portCtl s n = false
  · rw [nextSwap_held held]
    exact ⟨rfl, id⟩
  · unfold nextSwap
    dsimp only
    split
    · split
      · rename_i l ls _ _
        let u := setPort n { getPort s n with swapWaits := ls } s
        have own : getPort u n = { getPort s n with swapWaits := ls } := (getPort_setPort ..).trans (if_pos rfl)
        show (getPort (startSwap n l u) n).laneOf = _ ∧ (_ → (getPort (startSwap n l u) n).dead = _)
        cases spare : spareLane (usedRx (getPort u n)) (getPort u n).failedRx with
        | some x =>
          obtain ⟨f, started, -⟩ := getPort_startSwap_spare (l := l) spare
          rw [started, own]
          exact ⟨rfl, id⟩
        | none =>
          obtain ⟨v, failed⟩ := getPort_startSwap_none (l := l) spare
          rw [failed, own]
          exact ⟨rfl, fun _ => rfl⟩
      · exact ⟨rfl, id⟩
    · exact ⟨rfl, id⟩

end Next

/-! ### A lane moves -/

/-- A port whose logical lane `l` has moved to physical lane `x`: the lane it had is marked failed. -/
def movedPort (l x : Nat) (p : Port) : Port :=
  { p with laneOf := mset 0 p.laneOf l (if x = l then 0 else x + 1), failedRx := setBit18 p.failedRx (laneOf p l) }

theorem laneOf_movedPort (l x k : Nat) (p : Port) : laneOf (movedPort l x p) k = if k = l then x else laneOf p k :=
  physLane_move p.laneOf l x k

theorem moveRx_eq {n : Nat} {u : State} {q : Port} (own : getPort u n = q) (l x : Nat) :
    moveRx n l x u = portLog n 1 0x0501 n (laneOf q l) (storeSeeds n (setPort n (movedPort l x q) u)) := by
  subst own
  rfl

theorem getPort_moveRx (n l x : Nat) (u : State) : getPort (moveRx n l x u) n = movedPort l x (getPort u n) := by
  rw [moveRx_eq rfl, getPort_portLog, getPort_storeSeeds, getPort_setPort, if_pos rfl]

/-- Several lanes move: each to its own new lane, the others stay, and the rest of the port is as it was. -/
theorem getPort_foldl_moveRx {n : Nat} (es : List (Nat × Nat)) (once : (es.map Prod.fst).Nodup) (s : State) :
    let q := getPort (es.foldl (fun t e => moveRx n e.1 e.2 t) s) n
    (∃ a b, q = { getPort s n with laneOf := a, failedRx := b }) ∧ (∀ e ∈ es, laneOf q e.1 = e.2)
    ∧ ∀ k, k ∉ es.map Prod.fst → laneOf q k = laneOf (getPort s n) k := by
  induction es generalizing s with
  | nil => exact ⟨⟨_, _, rfl⟩, fun _ h => absurd h List.not_mem_nil, fun _ _ => rfl⟩
  | cons e es ih =>
    obtain ⟨fresh, once⟩ := List.nodup_cons.1 once
    obtain ⟨⟨a, b, rest⟩, moved, kept⟩ := ih once (moveRx n e.1 e.2 s)
    rw [getPort_moveRx] at rest kept
    refine ⟨⟨a, b, rest⟩, List.forall_mem_cons.2 ⟨?_, moved⟩, fun k out => ?_⟩
    · exact (kept e.1 fresh).trans ((laneOf_movedPort ..).trans (if_pos rfl))
    · obtain ⟨other, later⟩ := not_or.1 (List.mem_cons.not.1 out)
      exact (kept k later).trans ((laneOf_movedPort ..).trans (if_neg other))

section Lanes
variable {n : Nat} {s : State} (runs : portRuns s n = true) (up : (getPort s n).state = 7)
include runs up

/-! ### LANE_DEGRADE, SWAP_REQ and SPARE_TRAINED -/

omit runs up in
/-- The corrected symbols of a lane are counted. -/
def degradedPort (lane symbols : Nat) (p : Port) : Port := { p with sym := mset 0 p.sym lane (satAdd max32 (mget 0 p.sym lane) symbols) }

theorem exec_laneDegrade {lane l : Nat} (on : logicalOf (getPort s n) lane = some l) (symbols : Nat) :
    exec (.laneDegrade n lane symbols) s = .next (onlyPort s (
      let s1 := setPort n (degradedPort lane symbols (getPort s n)) s
      if decide (symbols ≤ 10000) || (getPort s n).dead.contains l || swapping (getPort s n) l then s1
      else nextSwap n (modPort n (fun v => { v with swapWaits := v.swapWaits ++ [l] }) s1))) := by
  show execLaneDegrade n lane symbols s = _
  unfold execLaneDegrade
  dsimp only
  rw [if_neg (by simp [runs, up]), on]
  rfl

theorem laneDegrade_counts {lane symbols l : Nat} (on : logicalOf (getPort s n) lane = some l)
    (well : symbols ≤ 10000 ∨ l ∈ (getPort s n).dead ∨ swapping (getPort s n) l = true) :
    ∃ t, exec (.laneDegrade n lane symbols) s = .next t ∧ getPort t n = degradedPort lane symbols (getPort s n) := by
  have run := exec_laneDegrade runs up on symbols
  dsimp only at run
  rw [if_pos (by simpa [or_assoc] using well)] at run
  exact ⟨_, run, (getPort_setPort ..).trans (if_pos rfl)⟩

/-- A lane with too many corrected symbols joins the swaps that wait, and the next of them begins. -/
theorem laneDegrade_decides {lane symbols l : Nat} (on : logicalOf (getPort s n) lane = some l) (many : 10000 < symbols)
    (alive : l ∉ (getPort s n).dead) (stays : swapping (getPort s n) l = false) :
    ∃ u, getPort u n = { degradedPort lane symbols (getPort s n) with swapWaits := (getPort s n).swapWaits ++ [l] } ∧ portCtl u n = portCtl s n
      ∧ exec (.laneDegrade n lane symbols) s = .next (onlyPort s (nextSwap n u)) := by
  have run := exec_laneDegrade runs up on symbols
  dsimp only at run
  rw [if_neg (by simp [alive, stays]; omega)] at run
  refine ⟨modPort n (fun v => { v with swapWaits := v.swapWaits ++ [l] }) (setPort n (degradedPort lane symbols (getPort s n)) s), ?_, rfl, run⟩
  rw [getPort_modPort, if_pos rfl, getPort_setPort, if_pos rfl]
  rfl

theorem laneDegrade_swaps {lane symbols l : Nat} (on : logicalOf (getPort s n) lane = some l) (many : 10000 < symbols)
    (alive : l ∉ (getPort s n).dead) (stays : swapping (getPort s n) l = false) (first : (getPort s n).swapWaits = []) (idle : (getPort s n).swap = none)
    (allAlive : (getPort s n).dead = []) (ctl : portCtl s n = true) :
    let p := getPort s n
    (∀ x, spareLane (usedRx p) p.failedRx = some x → ∃ t f, exec (.laneDegrade n lane symbols) s = .next t
        ∧ getPort t n = { degradedPort lane symbols p with swap := some (l, x, false), swapActive := true, txq := p.txq ++ [f] } ∧ f.ty = 3 ∧ f.vc = 4)
    ∧ (spareLane (usedRx p) p.failedRx = none →
        ∃ t, exec (.laneDegrade n lane symbols) s = .next t ∧ (getPort t n).state = 9 ∧ (getPort t n).failReason = 1) := by
  intro p
  obtain ⟨u, own, ctlSame, run⟩ := laneDegrade_decides runs up on many alive stays
  rw [first, List.nil_append] at own
  let q := degradedPort lane symbols p
  let t := setPort n q u
  have quiet : q.swapWaits = [] := first
  have begun : nextSwap n u = startSwap n l t := by
    rw [nextSwap_starts (l := l) (ls := []) (by rw [own]) (by rw [own]; exact idle) (by rw [own]; exact allAlive) (by rw [own]; exact up) (ctlSame.trans ctl),
      own]
    unfold t
    rw [← quiet]
  rw [begun] at run
  have here : getPort t n = q := (getPort_setPort ..).trans (if_pos rfl)
  refine ⟨fun x spare => ?_, fun none_ => ?_⟩
  · obtain ⟨f, started, ty, vc⟩ := getPort_startSwap_spare (s := t) (n := n) (l := l) (x := x) (by rw [here]; exact spare)
    rw [here] at started
    exact ⟨_, f, run, started, ty, vc⟩
  · obtain ⟨v, failed⟩ := getPort_startSwap_none (s := t) (n := n) (l := l) (by rw [here]; exact none_)
    refine ⟨_, run, ?_⟩
    rw [getPort_onlyPort, failed]
    exact ⟨rfl, rfl⟩

theorem laneDegrade_waits {lane symbols l : Nat} (on : logicalOf (getPort s n) lane = some l) (many : 10000 < symbols)
    (alive : l ∉ (getPort s n).dead) (stays : swapping (getPort s n) l = false)
    (held : (getPort s n).swap ≠ none ∨ (getPort s n).dead ≠ [] ∨ portCtl s n = false) :
    ∃ t, exec (.laneDegrade n lane symbols) s = .next t
      ∧ getPort t n = { degradedPort lane symbols (getPort s n) with swapWaits := (getPort s n).swapWaits ++ [l] } := by
  obtain ⟨u, own, ctlSame, run⟩ := laneDegrade_decides runs up on many alive stays
  have waits : (getPort u n).swap ≠ none ∨ (getPort u n).dead ≠ [] ∨ portCtl u n = false := by
    rw [own, ctlSame]
    exact held
  rw [nextSwap_held waits] at run
  exact ⟨_, run, own⟩

theorem swapReq_effect (ctl : portCtl s n = true) (free : (getPort s n).txCopy = none) {lane : Nat} (low : lane < 16) (spare : Nat) :
    ∃ t, exec (.swapReq n lane spare) s = .next t ∧ getPort t n = { getPort s n with txCopy := some (lane, spare), swapActive := true } := by
  have run : exec (.swapReq n lane spare) s = .next (onlyPort s (setPort n { getPort s n with txCopy := some (lane, spare), swapActive := true } s)) := by
    show execSwapReq n lane spare s = _
    unfold execSwapReq
    dsimp only
    rw [if_pos (by simp [runs, up, ctl, free, low])]
  exact ⟨_, run, (getPort_setPort ..).trans (if_pos rfl)⟩

theorem spareTrained_effect {l x agreed : Nat} {b : Bool} (swap : (getPort s n).swap = some (l, x, b)) (enough : 10 ^ 9 ≤ agreed) :
    ∃ t, exec (.spareTrained n agreed) s = .next t ∧ getPort t n = { getPort s n with swap := some (l, x, true) } := by
  have run : exec (.spareTrained n agreed) s = .next (onlyPort s (setPort n { getPort s n with swap := some (l, x, true) } s)) := by
    show execSpareTrained n agreed s = _
    unfold execSpareTrained
    dsimp only
    rw [swap]
    dsimp only
    rw [if_pos (by simp only [runs, up, enough, decide_true]; rfl)]
  exact ⟨_, run, (getPort_setPort ..).trans (if_pos rfl)⟩

/-! ### LANE_SWITCH -/

theorem exec_laneSwitch_rx {l x : Nat} (trained : (getPort s n).swap = some (l, x, true)) :
    exec (.laneSwitch n) s = .next (onlyPort s (nextSwap n (moveRx n l x
      (setPort n { getPort s n with swap := none, swapActive := (getPort s n).txCopy.isSome } s)))) := by
  show execLaneSwitch n s = _
  unfold execLaneSwitch
  dsimp only
  rw [if_neg (by simp [runs, up]), trained]

/-- A trained swap moves its logical lane alone and touches no flit. -/
theorem laneSwitch_rx_effect {l x : Nat} (trained : (getPort s n).swap = some (l, x, true)) (none_ : (getPort s n).swapWaits = []) :
    let p := getPort s n
    ∃ t, exec (.laneSwitch n) s = .next t ∧ laneOf (getPort t n) l = x ∧ (∀ k, k ≠ l → laneOf (getPort t n) k = laneOf p k)
      ∧ (getPort t n).failedRx.getLsbD (laneOf p l) = (p.failedRx.getLsbD (laneOf p l) || decide (laneOf p l < 18))
      ∧ (getPort t n).swap = none ∧ (getPort t n).txq = p.txq ∧ (getPort t n).replay = p.replay ∧ (getPort t n).credits = p.credits
      ∧ (mget {} t.fl.seeds n).stored = true ∧ logged s t (procIsland (54 + n)) 1 0x0501 n (laneOf p l) := by
  intro p
  let q : Port := { p with swap := none, swapActive := p.txCopy.isSome }
  let u := storeSeeds n (setPort n (movedPort l x q) (setPort n q s))
  have run := exec_laneSwitch_rx runs up trained
  have own : getPort (setPort n q s) n = q := (getPort_setPort ..).trans (if_pos rfl)
  have port : getPort (moveRx n l x (setPort n q s)) n = movedPort l x q := by rw [getPort_moveRx, own]
  have quiet : (getPort (moveRx n l x (setPort n q s)) n).swapWaits = [] := by
    rw [port]
    exact none_
  have moved : moveRx n l x (setPort n q s) = portLog n 1 0x0501 n (laneOf p l) u := moveRx_eq own l x
  rw [nextSwap_none quiet, moved] at run
  rw [moved] at port
  refine ⟨_, run, ?_⟩
  rw [getPort_onlyPort, port]
  refine ⟨(laneOf_movedPort ..).trans (if_pos rfl), fun k other => (laneOf_movedPort ..).trans (if_neg other), getLsbD_setBit18 .., rfl, rfl, rfl, rfl, ?_,
    logged_portLog (u := u) rfl rfl rfl rfl rfl⟩
  show (mget {} (portLog n 1 0x0501 n (laneOf p l) u).fl.seeds n).stored = true
  rw [portLog, addLog_fl, mget_storeSeeds]
  rfl

omit runs up in
/-- A port whose transmit lane `l` has moved to the copy that the partner asked for. -/
def copiedPort (l x : Nat) (p : Port) : Port :=
  { p with txCopy := none, swapActive := p.swap.isSome, failedTx := setBit18 p.failedTx (txLane p l)
           txLaneOf := mset 0 p.txLaneOf l (if x = l then 0 else x + 1) }

theorem exec_laneSwitch_tx {l x : Nat} (untrained : ∀ k y, (getPort s n).swap ≠ some (k, y, true)) (copy : (getPort s n).txCopy = some (l, x)) :
    exec (.laneSwitch n) s = .next (onlyPort s (portLog n 1 0x0501 n (txLane (getPort s n) l + 32) (storeSeeds n
      (setPort n { copiedPort l x (getPort s n) with sparesTx := countTx (copiedPort l x (getPort s n)) } s)))) := by
  show execLaneSwitch n s = _
  unfold execLaneSwitch
  dsimp only
  rw [if_neg (by simp [runs, up]), copy]
  split
  · exact absurd ‹_› (untrained _ _)
  · rename_i taken _
    obtain ⟨rfl, rfl⟩ := Prod.mk.inj (Option.some.inj taken)
    rfl
  · exact nomatch ‹some (l, x) = none›

theorem laneSwitch_tx_effect {l x : Nat} (untrained : ∀ k y, (getPort s n).swap ≠ some (k, y, true)) (copy : (getPort s n).txCopy = some (l, x)) :
    let p := getPort s n
    ∃ t, exec (.laneSwitch n) s = .next t ∧ txLane (getPort t n) l = x ∧ (∀ k, k ≠ l → txLane (getPort t n) k = txLane p k)
      ∧ (getPort t n).txCopy = none ∧ (getPort t n).laneOf = p.laneOf ∧ (getPort t n).txq = p.txq ∧ (getPort t n).replay = p.replay
      ∧ logged s t (procIsland (54 + n)) 1 0x0501 n (txLane p l + 32) := by
  intro p
  let v : Port := { copiedPort l x p with sparesTx := countTx (copiedPort l x p) }
  let u := storeSeeds n (setPort n v s)
  have lanes (k : Nat) : txLane v k = if k = l then x else txLane p k := physLane_move p.txLaneOf l x k
  have port : getPort (portLog n 1 0x0501 n (txLane p l + 32) u) n = v := by
    rw [getPort_portLog, getPort_storeSeeds, getPort_setPort, if_pos rfl]
  refine ⟨_, exec_laneSwitch_tx runs up untrained copy, ?_⟩
  rw [getPort_onlyPort, port]
  exact ⟨(lanes l).trans (if_pos rfl), fun k other => (lanes k).trans (if_neg other), rfl, rfl, rfl, rfl, logged_portLog (u := u) rfl rfl rfl rfl rfl⟩

/-! ### DEAD_LANE and DEAD_LANE_RESUME -/

omit runs up in
/-- A port that swaps logical lane `l` no longer, nor means to. -/
def withdrawnPort (l : Nat) (p : Port) : Port :=
  { (if p.swap.map Prod.fst = some l then dropSwap false p else p) with swapWaits := p.swapWaits.filter (· != l) }

omit runs up in
theorem withdrawnPort_fields (l : Nat) (p : Port) :
    ∃ a b, withdrawnPort l p = { p with swap := a, swapActive := b, swapWaits := p.swapWaits.filter (· != l) } := by
  unfold withdrawnPort dropSwap
  split
  · split <;> exact ⟨_, _, rfl⟩
  · exact ⟨_, _, rfl⟩

theorem exec_deadLane_lane {lane l : Nat} (on : logicalOf (getPort s n) lane = some l) :
    exec (.deadLane n lane) s = .next (onlyPort s (
      let q := withdrawnPort l (getPort s n)
      if (getPort s n).dead.contains l then s
      else if q.dead.length < (sparesFree q).length then setPort n { q with dead := q.dead ++ [l] } s
      else failPort n frLanes (setPort n { q with failedRx := setBit18 (getPort s n).failedRx lane } s))) := by
  show execDeadLane n lane s = _
  unfold execDeadLane withdrawnPort
  dsimp only
  rw [if_neg (by simp [runs, up]), on]
  rcases swap : (getPort s n).swap with _ | ⟨k, x, b⟩
  · rfl
  · by_cases mine : k = l
    · simp [mine]
    · simp [mine]

theorem deadLane_lane_effect {lane l : Nat} (on : logicalOf (getPort s n) lane = some l) :
    let p := getPort s n
    let q := withdrawnPort l p
    (l ∈ p.dead → ∃ t, exec (.deadLane n lane) s = .next t ∧ getPort t n = p)
    ∧ (l ∉ p.dead → q.dead.length < (sparesFree q).length →
        ∃ t, exec (.deadLane n lane) s = .next t ∧ getPort t n = { q with dead := p.dead ++ [l] })
    ∧ (l ∉ p.dead → (sparesFree q).length ≤ q.dead.length →
        ∃ t, exec (.deadLane n lane) s = .next t ∧ (getPort t n).state = 9 ∧ (getPort t n).failReason = 1
          ∧ (getPort t n).dropped = satAdd max32 p.dropped (p.txq.length + p.replay.length)) := by
  intro p q
  have run := exec_deadLane_lane runs up on
  dsimp only at run
  obtain ⟨a, b, fields⟩ := withdrawnPort_fields l p
  refine ⟨fun dead => ?_, fun alive room => ?_, fun alive full => ?_⟩
  · rw [if_pos (by simpa using dead)] at run
    exact ⟨_, run, rfl⟩
  · rw [if_neg (by simpa using alive), if_pos room] at run
    have same : q.dead = p.dead := by rw [show q = _ from fields]
    refine ⟨_, run, ?_⟩
    rw [getPort_onlyPort, getPort_setPort, if_pos rfl, ← same]
  · rw [if_neg (by simpa using alive), if_neg (Nat.not_lt.2 full)] at run
    refine ⟨_, run, ?_⟩
    rw [getPort_onlyPort, getPort_failPort_self, getPort_setPort, if_pos rfl, fields]
    exact ⟨rfl, rfl, rfl⟩

theorem deadLane_spare_idle {lane : Nat} (off : logicalOf (getPort s n) lane = none) (none_ : (getPort s n).swapWaits = [])
    (other : ∀ k b, (getPort s n).swap ≠ some (k, lane, b)) :
    ∃ t, exec (.deadLane n lane) s = .next t ∧ getPort t n = { getPort s n with failedRx := setBit18 (getPort s n).failedRx lane } := by
  let v : Port := { getPort s n with failedRx := setBit18 (getPort s n).failedRx lane }
  have own : getPort (setPort n v s) n = v := (getPort_setPort ..).trans (if_pos rfl)
  have run : exec (.deadLane n lane) s = .next (onlyPort s (nextSwap n (setPort n v s))) := by
    show execDeadLane n lane s = _
    unfold execDeadLane
    dsimp only
    rw [if_neg (by simp [runs, up]), off]
    dsimp only
    rw [if_neg]
    split
    · rename_i k x b swap
      rw [beq_iff_eq]
      rintro rfl
      exact other k b swap
    · decide
  rw [nextSwap_none (by rw [own]; exact none_)] at run
  exact ⟨_, run, own⟩

/-- A spare that dies under a swap: the swap is decided afresh. -/
theorem deadLane_spare_swapped {lane k x : Nat} {b : Bool} (off : logicalOf (getPort s n) lane = none) (none_ : (getPort s n).swapWaits = [])
    (swap : (getPort s n).swap = some (k, lane, b)) (alive : (getPort s n).dead = []) (ctl : portCtl s n = true)
    (spare : spareLane (usedRx (getPort s n)) (setBit18 (getPort s n).failedRx lane) = some x) :
    ∃ t, exec (.deadLane n lane) s = .next t ∧ (getPort t n).swap = some (k, x, false) ∧ (getPort t n).laneOf = (getPort s n).laneOf := by
  let p1 : Port := { getPort s n with failedRx := setBit18 (getPort s n).failedRx lane }
  let v : Port := { p1 with swap := none, swapActive := p1.txCopy.isSome, swapWaits := [k] }
  have dropped : dropSwap true p1 = v := by
    unfold dropSwap
    rw [show p1.swap = some (k, lane, b) from swap, show p1.swapWaits = [] from none_]
    rfl
  have own : getPort (setPort n v s) n = v := (getPort_setPort ..).trans (if_pos rfl)
  have run : exec (.deadLane n lane) s = .next (onlyPort s (nextSwap n (setPort n v s))) := by
    show execDeadLane n lane s = _
    unfold execDeadLane
    rw [← dropped]
    unfold p1
    dsimp only
    rw [if_neg (by simp [runs, up]), off, swap]
    dsimp only
    rw [if_pos (beq_self_eq_true lane)]
  rw [nextSwap_starts (s := setPort n v s) (l := k) (ls := []) (by rw [own]) (by rw [own]) (by rw [own]; exact alive) (by rw [own]; exact up) ctl] at run
  let u := setPort n { getPort (setPort n v s) n with swapWaits := [] } (setPort n v s)
  have here : getPort u n = { v with swapWaits := [] } := (getPort_setPort ..).trans ((if_pos rfl).trans (by rw [own]))
  obtain ⟨f, started, -⟩ := getPort_startSwap_spare (s := u) (n := n) (l := k) (x := x) (by rw [here]; exact spare)
  refine ⟨_, run, ?_⟩
  rw [getPort_onlyPort, started, here]
  exact ⟨rfl, rfl⟩

/-- The port carries flits again, each dead lane on a spare of its own, the lowest first. -/
theorem deadLaneResume_effect (dead : (getPort s n).dead ≠ []) (once : (getPort s n).dead.Nodup) (ctl : portCtl s n = true)
    (enough : (getPort s n).dead.length ≤ (sparesFree (getPort s n)).length) :
    let p := getPort s n
    ∃ t, exec (.deadLaneResume n) s = .next t ∧ (getPort t n).dead = []
      ∧ (∀ i l x : Nat, p.dead[i]? = some l → (sparesFree p)[i]? = some x → laneOf (getPort t n) l = x)
      ∧ (∀ k, k ∉ p.dead → laneOf (getPort t n) k = laneOf p k)
      ∧ (p.swapWaits = [] → (getPort t n).replay = p.replay ∧ (getPort t n).credits = p.credits ∧ (getPort t n).txq = p.txq) := by
  intro p
  let es := p.dead.zip (sparesFree p)
  let u := es.foldl (fun t e => moveRx n e.1 e.2 t) (setPort n { p with dead := [] } s)
  have run : exec (.deadLaneResume n) s = .next (onlyPort s (nextSwap n u)) := by
    show execDeadLaneResume n s = _
    unfold execDeadLaneResume
    dsimp only
    rw [if_neg (by simp [runs, up, ctl, dead]), if_neg (Nat.not_lt.2 enough)]
  have keys : es.map Prod.fst = p.dead := List.map_fst_zip enough
  obtain ⟨⟨a, b, rest⟩, moved, kept⟩ := getPort_foldl_moveRx (n := n) es (keys ▸ once) (setPort n { p with dead := [] } s)
  rw [getPort_setPort, if_pos rfl] at rest kept
  obtain ⟨lanes, alive⟩ := nextSwap_keeps (n := n) (s := u)
  have lane (k : Nat) : laneOf (getPort (nextSwap n u) n) k = laneOf (getPort u n) k := by rw [laneOf_eq, lanes]; rfl
  refine ⟨_, run, alive (congrArg Port.dead rest), fun i l x deadAt spareAt => ?_, fun k out => ?_, fun none_ => ?_⟩
  · exact (lane l).trans (moved (l, x) (List.mem_of_getElem? (List.getElem?_zip_eq_some.2 ⟨deadAt, spareAt⟩)))
  · exact (lane k).trans (kept k (keys ▸ out))
  · rw [getPort_onlyPort, nextSwap_none ((congrArg Port.swapWaits rest).trans none_), rest]
    exact ⟨rfl, rfl, rfl⟩

end Lanes

/-- Settles O57: each command of a port that is UP by its own lemma. -/
theorem flitsCreditsReplayAndLanes : Obligations.FlitsCreditsReplayAndLanes := by
  intro n s runs up p sent
  refine ⟨fun alive txLow => ⟨?resends, ?sends, ?idles⟩, fun fl => ⟨?bad, receive_counts runs up fl, ?request, ?first, ?last, ?missed⟩,
    replayRequest_effect runs up, replayRequestResend_effect runs up, fun lane symbols l on => ⟨laneDegrade_counts runs up on, ?degraded⟩,
    fun lane spare ctl free low => swapReq_effect runs up ctl free low spare, fun l x agreed b => spareTrained_effect runs up,
    fun l x => laneSwitch_rx_effect runs up, fun l x => laneSwitch_tx_effect runs up, fun lane l => deadLane_lane_effect runs up,
    fun lane off none_ => ⟨deadLane_spare_idle runs up off none_, fun k x b => deadLane_spare_swapped runs up off none_⟩,
    deadLaneResume_effect runs up⟩
  case resends => exact fun f fs => transmit_resends runs up alive
  case sends => exact fun i f done room => transmit_sends runs up alive txLow done room
  case idles => exact transmit_idles runs up alive txLow
  case bad => exact receive_bad runs up
  case request => exact receive_request runs up
  case first => exact receive_first runs up
  case last =>
    intro good last inOrder low f fs bytes x whole own carried stays
    have flit : f = flitOf fl := by
      unfold f flitOf
      rw [last]
    refine receive_last runs up good last inOrder low ?_ (flit ▸ whole) own carried stays
    rw [← flit]
    exact (packetOf_append (fhVc fl.header) (mget [] p.partial_ (fhVc fl.header)) f).symm
  case missed => exact receive_outOfOrder runs up
  case degraded =>
    intro many alive stays
    exact ⟨laneDegrade_swaps runs up on many alive stays, laneDegrade_waits runs up on many alive stays⟩

end Sys2Proof.Machine
end

section
/-! SUPPORT. The slots of open collectives: what a change of one slot, a bucket's fill and a decision of every chunk leave of them (R207,
R216, R217). -/

namespace Sys2Proof.Machine

/-! ### Look-up -/

@[simp] theorem getSlot_modSlot (k j : Nat) (f : Slot → Slot) (s : State) : getSlot (modSlot k f s) j = if j = k then f (getSlot s k) else getSlot s j :=
  mget_mset _ _ _ _ _

theorem getSlot_of_rx {s t : State} (same : t.rx = s.rx) (k : Nat) : getSlot t k = getSlot s k := by rw [getSlot, getSlot, same]

theorem freeSlot_of_rx {s t : State} (same : t.rx = s.rx) (w : Nat) : freeSlot t w = freeSlot s w := by
  simp only [freeSlot, getSlot_of_rx same]

theorem tagOpen_of_rx {s t : State} (same : t.rx = s.rx) (ctx tag : Nat) : tagOpen t ctx tag = tagOpen s ctx tag := by
  rw [tagOpen, tagOpen, same]

/-- What a view of slots leaves as it is agrees where the views do. -/
theorem field_of_view {β : Type} {view : Slot → Slot} {v w : Slot} (same : view v = view w) (field : Slot → β)
    (kept : ∀ v, field (view v) = field v) : field v = field w := by rw [← kept v, same, kept]

/-! ### The fill of a bucket -/

/-- A slot without what the fill of its bucket decides and records. -/
def sansFill (v : Slot) : Slot := { v with ready := false, cause := 0, normal := false, slack := 0, decisions := [] }

theorem fillSlot_sans (k : Nat) (v : Slot) : sansFill (fillSlot k v) = sansFill v := by
  unfold fillSlot
  dsimp only
  split <;> rfl

theorem fillSlot_ready (k : Nat) (v : Slot) : (fillSlot k v).ready = true := by
  unfold fillSlot
  dsimp only
  split <;> rfl

/-- What holds of a slot, and of an open slot still holds when its bucket fills, holds after every slot has looked at its tally. -/
theorem getSlot_rxFill {P : Slot → Prop} {s : State} {k : Nat} (here : P (getSlot s k))
    (fills : ∀ n v, v.live = true → P v → P (fillSlot n v)) : P (getSlot (rxFill s) k) := by
  unfold rxFill
  refine List.foldlRecOn (motive := fun t => P (getSlot t k)) s.rx.slots _ here fun t ht e _ => ?_
  dsimp only
  split
  · next due =>
    have live : (getSlot t e.1).live = true := by
      simp only [Bool.and_eq_true] at due
      exact due.1.1
    show P (getSlot (setSlot e.1 (fillSlot t.free (getSlot t e.1)) { t with free := t.free + 1 }) k)
    rw [getSlot_setSlot]
    split
    · next own => exact fills _ _ live (own ▸ ht)
    · exact ht
  · exact ht

theorem getSlot_rxFill_sans (s : State) (k : Nat) : sansFill (getSlot (rxFill s) k) = sansFill (getSlot s k) :=
  getSlot_rxFill (P := fun v => sansFill v = sansFill (getSlot s k)) rfl fun n v _ h => (fillSlot_sans n v).trans h

theorem getSlot_rxFill_free {s : State} {k : Nat} (free : getSlot s k = {}) : getSlot (rxFill s) k = {} :=
  getSlot_rxFill (P := fun v => v = {}) free fun _ _ live h => by simp [h] at live

/-! ### Decisions -/

/-- Once every undecided chunk decides, no chunk is undecided. -/
theorem undecided_decideAll {d : Nat} (decided : d ≠ 0) (v : Slot) : undecided (decideAll d v) = [] := by
  refine List.filter_eq_nil_iff.2 fun j live => ?_
  have listed : j ∈ liveChunks v := live
  show ¬ (mget 0 ((undecided v).foldl (fun m j => mset 0 m j d) v.decisions) j == 0) = true
  by_cases open_ : mget 0 v.decisions j = 0
  · have member : j ∈ undecided v := List.mem_filter.2 ⟨listed, by simp [open_]⟩
    rw [mget_foldl_mset (key := fun j => j) (val := fun _ => d) ⟨j, member, rfl⟩ fun _ _ _ => rfl]
    simpa using decided
  · rw [mget_foldl_mset_ne (key := fun j => j) (val := fun _ => d)]
    · simpa using open_
    · rintro x member rfl
      exact open_ (by simpa using (List.mem_filter.1 member).2)

@[simp] theorem abortSlot_pieces (st : Nat) (v : Slot) : (abortSlot st v).pieces = v.pieces := by
  unfold abortSlot
  dsimp only
  split <;> rfl

/-- An aborted collective that reduces has decided every chunk. -/
theorem undecided_abortSlot {v : Slot} (sums : reduces v = true) (st : Nat) : undecided (abortSlot st v) = [] := by
  unfold abortSlot
  rw [if_pos sums]
  exact undecided_decideAll (d := dOut) (by decide) v

end Sys2Proof.Machine
end

section
/-! SUPPORT. Acceptance of the four RX instructions: the slot that opens, and the end of the instruction (R103, R206 to R209, R214, R219,
R222, R224, R226). -/

namespace Sys2Proof.Machine

/-! ### The slot that opens -/

section Accept
variable (q k : Nat) (v : Slot) (t : State)

theorem acceptSlot_mem : (acceptSlot q k v t).mem = t.mem := by
  unfold acceptSlot
  dsimp only
  split <;> simp

theorem acceptSlot_hs : (acceptSlot q k v t).hs = t.hs := by
  unfold acceptSlot
  dsimp only
  split <;> simp

/-- A slot as its collective opens: live, with its command's queue and number, under the queue context's program. -/
def openedSlot (v : Slot) (src : Nat × Nat) (c : QCtx) (order : Nat) : Slot :=
  { v with live := true, queue := src.1, id := src.2, byProg := isProg c, pc := pcNow c, order }

/-- The accepted collective takes its slot, filled already where its tally stands at its count; every other slot is as before. -/
theorem getSlot_acceptSlot : ∃ src, ∀ j, getSlot (acceptSlot q k v t) j =
    if j = k then (if filled t v then fillSlot t.free (openedSlot v src (getQc t q) t.free) else openedSlot v src (getQc t q) t.free)
    else getSlot t j := by
  refine ⟨match (getQc t q).cmd with | some (a, b, _) => (a, b) | none => (0, 0), fun j => ?_⟩
  unfold acceptSlot
  dsimp only
  split
  · exact (getSlot_of_rx (doneInsn_rx ..) j).trans (getSlot_setSlot ..)
  · exact (getSlot_of_rx (leaveEng_rx ..) j).trans (getSlot_setSlot ..)

/-- A program goes on behind the instruction; an instruction command leaves its queue context. -/
theorem getQc_acceptSlot (has : (getQc t q).cmd.isSome = true) : getQc (acceptSlot q k v t) q =
    if isProg (getQc t q) then endCtx 16 (getQc t q) else { getQc t q with cmd := none, started := false } := by
  unfold acceptSlot
  dsimp only
  split
  · exact getQc_doneInsn_self _ _ _ has
  · rw [getQc_modQc, if_pos rfl, getQc_leaveEng]
    rfl

end Accept

/-! ### What an instruction latches -/

section Latch
variable {q : Nat} {s t : State} {v w : Slot}

/-- A slot without what is latched behind its descriptor. -/
def sansLatch (v : Slot) : Slot := { v with wdesc := 0, entries := [], dl := 0 }

/-- What is latched behind a descriptor changes no other part of the slot, and its reads no byte. -/
theorem rxLatched_keeps (latched : rxLatched s q v w t) : sansLatch w = sansLatch v ∧ sansCache t = sansCache s := by
  unfold rxLatched at latched
  split at latched
  · obtain ⟨d, reads, -, -, rfl⟩ := latched
    exact ⟨rfl, readTds_sans reads⟩
  · split at latched
    · obtain ⟨bs, read, rfl, -⟩ := latched
      exact ⟨rfl, sans_of_readVa read⟩
    · split at latched
      · obtain ⟨rfl, rfl⟩ := latched
        exact ⟨rfl, rfl⟩
      · obtain ⟨bs, read, rfl⟩ := latched
        exact ⟨rfl, sans_of_readVa read⟩

/-- An instruction whose operands behind its descriptor are sound goes on with the slot that has latched them. -/
theorem latchSlot_ok (latched : rxLatched s q v w t) (seq : BitVec 56) (go : Slot → State → State) : latchSlot q seq v s go = go w t := by
  unfold rxLatched at latched
  unfold latchSlot
  by_cases gather : v.kind = cAG
  · rw [if_pos gather] at latched ⊢
    obtain ⟨d, reads, sound, fits, rfl⟩ := latched
    exact withTd_one rfl reads _ sound fits
  · rw [if_neg gather] at latched ⊢
    by_cases permutes : v.kind = cPERM
    · rw [if_pos permutes] at latched ⊢
      obtain ⟨bs, read, rfl, sound⟩ := latched
      rw [read]
      dsimp only
      rw [List.findIdx?_eq_none_iff.2 sound]
    · rw [if_neg permutes] at latched ⊢
      by_cases given : bfld v.desc 5 1 = 1
      · rw [if_pos given] at latched ⊢
        obtain ⟨rfl, rfl⟩ := latched
        rfl
      · rw [if_neg given] at latched ⊢
        obtain ⟨bs, read, rfl⟩ := latched
        rw [read]

end Latch

/-! ### An RX instruction -/

/-- The slot of an RX instruction of a kind with descriptor `d` at `va`, before what is latched behind its descriptor (R207, R208). -/
def newSlot (kind n va : Nat) (d : BitVec 1024) (s : State) : Slot :=
  { kind, q := n, seq := longSeq s n, ctx := (getQc s n).ctx, desc := d, va, n := axisSizeOf s.et.axisSize (bfld d 1 2)
    me := coordOn s.et.coord (bfld d 1 2), line := if kind = cPERM then 0 else mget 0 s.rx.line (bfld d 1 2) }

theorem sans_et {s t : State} (h : sansCache s = sansCache t) : s.et = t.et := congrArg (fun x => x.et) h

theorem startLong_et (q word : Nat) (s : State) : (startLong q word s).et = s.et :=
  startLong_keep q word s (·.et) (fun _ _ => rfl) (fun _ _ => rfl) (fun _ _ _ => rfl) (fun _ _ => rfl) (fun _ _ _ => rfl)

section Instruction
variable {q : BitVec 20} {ra : BitVec 5} {s t1 t2 t3 : State} {kind loc i : Nat} {bs : List Byte} {v w : Slot}
  (read : readVa (startLong q.toNat (0x16 * 2 ^ 58 + kind * 2 ^ 52) s) (getQc s q.toNat).ctx (rdG (getQc s q.toNat) ra).toNat 128 accRead .other
    = (.ok bs, t1))
  (new : v = newSlot kind q.toNat (rdG (getQc s q.toNat) ra).toNat (BitVec.ofNat 1024 (leNat bs)) s)
  (latched : rxLatched t1 q.toNat v w t2)
  (reach : translate t2 (getQc s q.toNat).ctx (bfld (BitVec.ofNat 1024 (leNat bs)) 288 57) accTally .other = (.ok loc, t3))

include read latched reach in
/-- The reads of an RX instruction change nothing behind its start. -/
theorem sans_rxReads : sansCache t3 = sansCache (startLong q.toNat (0x16 * 2 ^ 58 + kind * 2 ^ 52) s) :=
  (translate_ok_sans reach).trans ((rxLatched_keeps latched).2.trans (sans_of_readVa read))

include read new latched reach

/-- With its operands sound, its FILL_TALLY in reach and a slot free, an RX instruction is accepted. -/
theorem openCollective_accepts (run : canRun s q.toNat anyKind = true) (engine : qKind q.toNat = kRX)
    (aligned : (rdG (getQc s q.toNat) ra).toNat % 128 = 0) (sound : cdBad v = false) (bucket : bucketBad v = false)
    (fresh : tagOpen s (getQc s q.toNat).ctx (cdTag v) = false) (clean : locPoison t3 loc = false)
    (free : freeSlot s (qIndex q.toNat) = some i) :
    openCollective kind q ra s
      = .next (onlyWork s (acceptSlot q.toNat (slotKey (qIndex q.toNat) i) { w with fillLoc := loc } t3)) := by
  have rx1 : t1.rx = s.rx := (sans_rx (sans_of_readVa read)).trans (startLong_rx ..)
  have et1 : t1.et = s.et := (sans_et (sans_of_readVa read)).trans (startLong_et ..)
  have rx3 : t3.rx = s.rx := (sans_rx (sans_rxReads read latched reach)).trans (startLong_rx ..)
  have own : getQc (startLong q.toNat (0x16 * 2 ^ 58 + kind * 2 ^ 52) s) q.toNat = longCtx (getQc s q.toNat) :=
    (getQc_startLong ..).trans (if_pos rfl)
  subst new
  unfold newSlot at sound bucket fresh latched
  rw [openCollective, longInsn_runs run engine rfl]
  dsimp only
  rw [own, longCtx_ctx, rdG_longCtx, if_neg (by simp [aligned]), read]
  dsimp only
  rw [et1, rx1, tagOpen_of_rx rx1, sound, bucket, fresh, if_neg (by decide), latchSlot_ok latched, reach]
  dsimp only
  rw [if_neg (by simp [clean]), freeSlot_of_rx rx3, free]

/-- What an accepted RX instruction leaves: its slot, every other slot, its end, its registers and the bytes of memory. -/
theorem rxAccepted_effect (run : canRun s q.toNat anyKind = true) :
    let n := q.toNat
    let c := getQc s n
    let k := slotKey (qIndex n) i
    let u := onlyWork s (acceptSlot n k { w with fillLoc := loc } t3)
    (getSlot u k).live = true ∧ (getSlot u k).kind = kind ∧ (getSlot u k).ctx = c.ctx
      ∧ (getSlot u k).q = n ∧ (getSlot u k).seq = longSeq s n
      ∧ (getSlot u k).desc = v.desc ∧ (getSlot u k).n = v.n ∧ (getSlot u k).me = v.me ∧ (getSlot u k).line = v.line
      ∧ (getSlot u k).fillLoc = loc ∧ (getSlot u k).wdesc = w.wdesc ∧ (getSlot u k).entries = w.entries ∧ (getSlot u k).dl = w.dl
      ∧ (getSlot u k).byProg = isProg c ∧ (getSlot u k).ready = filled t3 { w with fillLoc := loc }
      ∧ (∀ j, j ≠ k → getSlot u j = getSlot s j) ∧ ended s u n (c.pc + 16)
      ∧ (∀ r, rdG (getQc u n) r = rdG c r) ∧ bytesSame s u := by
  intro n c k u
  have sans := sans_rxReads read latched reach
  have long : LongFrom s n t3 := longFrom_of_sans sans
  have latches := (rxLatched_keeps latched).1
  obtain ⟨src, slots⟩ := getSlot_acceptSlot n k { w with fillLoc := loc } t3
  have slots : ∀ j, getSlot u j = _ := slots
  have has : (getQc t3 n).cmd.isSome = true := by rw [long.own, longCtx_cmd]; exact (canRun_has run).2
  have last : getQc u n = _ := getQc_acceptSlot n k { w with fillLoc := loc } t3 has
  rw [long.own, isProg_longCtx] at last
  have mine := slots k
  rw [if_pos rfl, long.own] at mine
  have filling : sansFill (getSlot u k) = sansFill (openedSlot { w with fillLoc := loc } src (longCtx c) t3.free) := by
    rw [mine]
    split
    · exact fillSlot_sans ..
    · rfl
  subst new
  refine ⟨field_of_view filling (·.live) fun _ => rfl, ?_, ?_, ?_, ?_, ?_, ?_, ?_, ?_, field_of_view filling (·.fillLoc) fun _ => rfl,
    field_of_view filling (·.wdesc) fun _ => rfl, field_of_view filling (·.entries) fun _ => rfl, field_of_view filling (·.dl) fun _ => rfl,
    (field_of_view filling (·.byProg) fun _ => rfl).trans (isProg_longCtx c), ?_, fun j other => ?_, ?_, fun r => ?_, ?_⟩
  · exact (field_of_view filling (·.kind) fun _ => rfl).trans (field_of_view latches (·.kind) fun _ => rfl)
  · exact (field_of_view filling (·.ctx) fun _ => rfl).trans (field_of_view latches (·.ctx) fun _ => rfl)
  · exact (field_of_view filling (·.q) fun _ => rfl).trans (field_of_view latches (·.q) fun _ => rfl)
  · exact (field_of_view filling (·.seq) fun _ => rfl).trans (field_of_view latches (·.seq) fun _ => rfl)
  · exact (field_of_view filling (·.desc) fun _ => rfl).trans (field_of_view latches (·.desc) fun _ => rfl)
  · exact (field_of_view filling (·.n) fun _ => rfl).trans (field_of_view latches (·.n) fun _ => rfl)
  · exact (field_of_view filling (·.me) fun _ => rfl).trans (field_of_view latches (·.me) fun _ => rfl)
  · exact (field_of_view filling (·.line) fun _ => rfl).trans (field_of_view latches (·.line) fun _ => rfl)
  · rw [mine]
    split
    · next full => exact (fillSlot_ready ..).trans full.symm
    · next short =>
      have before : w.ready = false := field_of_view latches (·.ready) fun _ => rfl
      exact before.trans (Bool.eq_false_iff.2 short).symm
  · rw [slots, if_neg other, getSlot_of_rx ((sans_rx sans).trans (startLong_rx ..))]
  · unfold ended
    rw [last]
    by_cases prog : isProg (getQc s n) = true
    · simp [prog, endCtx, c]
    · simp [prog]
  · rw [last]
    split
    · rw [rdG_endCtx, rdG_longCtx]
    · exact rdG_longCtx ..
  · exact bytesSame_trans long.bytes (bytesKept_onlyWork s (acceptSlot_mem ..) (acceptSlot_hs ..)).1

end Instruction

/-- Settles O53: each form is accepted with its own kind, and acceptance leaves the same for all four. -/
theorem rxInstructionsOpenCollectives : Obligations.RxInstructionsOpenCollectives := by
  intro q ra s t1 t2 t3 kind bs w loc i n c va d a v k run engine aligned read sound bucket fresh latched reach clean free e he own
  have accepts : ∀ f, f = openCollective kind q ra s → f = _ := fun _ same =>
    same.trans (openCollective_accepts read rfl latched reach run engine aligned sound bucket fresh clean free)
  refine ⟨_, accepts _ ?_, rxAccepted_effect read rfl latched reach run⟩
  simp only [List.mem_cons, List.not_mem_nil, or_false] at he
  rcases he with rfl | rfl | rfl | rfl <;> subst own <;> rfl

end Sys2Proof.Machine
end

section
/-! SUPPORT. A piece that a member sends on unchanged: its bytes as words and back, and the stream of a chunk that the member decided OUT
(R211, R216, R217). -/

namespace Sys2Proof.Machine

/-! ### Bytes and words -/

theorem leBytes_leNat (bs : List Byte) : leBytes bs.length (leNat bs) = bs := by
  induction bs with
  | nil => rfl
  | cons b bs ih =>
    have small : b.toNat < 256 := b.isLt
    have low : BitVec.ofNat 8 (leNat (b :: bs)) = b := by
      refine BitVec.eq_of_toNat_eq ?_
      rw [BitVec.toNat_ofNat, leNat]
      omega
    have high : leNat (b :: bs) / 256 = leNat bs := by
      rw [leNat]
      omega
    rw [List.length_cons, leBytes, low, high, ih]

/-- A word's bytes are those it was made of. -/
theorem leBytes_word (a b c d : Byte) : leBytes 4 (BitVec.ofNat 32 (leNat [a, b, c, d])).toNat = [a, b, c, d] := by
  have small : leNat [a, b, c, d] < 2 ^ 32 := leNat_lt [a, b, c, d]
  rw [BitVec.toNat_ofNat, Nat.mod_eq_of_lt small]
  exact leBytes_leNat [a, b, c, d]

/-- Bytes of which each aligned four share their poison are what their words give back. -/
theorem ofWords_toWords (f : Nat → Byte × Bool) (even : ∀ i, (f i).2 = (f (i / 4 * 4)).2) (a m : Nat) :
    ofWords (toWords ((List.range' (4 * a) (4 * m)).map f)) = (List.range' (4 * a) (4 * m)).map f := by
  induction m generalizing a with
  | zero => rfl
  | succ m ih =>
    have word : ∀ i, i < 4 → (f (4 * a + i)).2 = (f (4 * a)).2 := fun i small => by
      rw [even, show (4 * a + i) / 4 * 4 = 4 * a by omega]
    have byte : ∀ i, i < 4 → ((f (4 * a + i)).1, (f (4 * a)).2) = f (4 * a + i) := fun i small => Prod.ext rfl (word i small).symm
    have first : (List.range' (4 * a) (4 * (m + 1))).map f
        = f (4 * a) :: f (4 * a + 1) :: f (4 * a + 2) :: f (4 * a + 3) :: (List.range' (4 * (a + 1)) (4 * m)).map f := by
      rw [show 4 * (m + 1) = 4 * m + 1 + 1 + 1 + 1 by omega, show 4 * (a + 1) = 4 * a + 1 + 1 + 1 + 1 by omega]
      simp only [List.range'_succ, List.map_cons]
    have rest := ih (a + 1)
    rw [first, toWords, ofWords, List.flatMap_cons, leBytes_word, ← ofWords, rest]
    simp only [word 1 (by decide), word 2 (by decide), word 3 (by decide), Bool.or_self, List.map_cons, List.map_nil, byte 1 (by decide),
      byte 2 (by decide), byte 3 (by decide), List.cons_append, List.nil_append]

/-! ### The bytes of a piece -/

/-- Poison that every unit has whole does not spread. -/
theorem spread_pieceBytes (n : Nat) (p : Piece) : spread (pieceBytes n p) = pieceBytes n p := by
  have marked : ∀ i, i < n → (unitPoison (pieceBytes n p)).contains (i / 64) = mget false p.poison (i / 64) := fun i inside => by
    rw [Bool.eq_iff_iff, List.contains_iff_mem]
    simp only [unitPoison, pieceBytes, upto, List.mem_eraseDups, List.mem_map, List.mem_filter, List.mem_zipIdx_iff_getElem?]
    constructor
    · rintro ⟨⟨b, j⟩, ⟨read, poisoned⟩, same⟩
      obtain ⟨_, listed⟩ := List.getElem?_eq_some_iff.1 read
      rw [List.getElem_map, List.getElem_range, same] at listed
      exact (congrArg Prod.snd listed).trans poisoned
    · intro poisoned
      refine ⟨((mget 0 p.data i, mget false p.poison (i / 64)), i), ⟨?_, poisoned⟩, rfl⟩
      rw [List.getElem?_map, List.getElem?_range inside]
      rfl
  refine List.ext_getElem (by simp [spread, pieceBytes]) fun i h1 h2 => ?_
  have inside : i < n := by simpa [pieceBytes, upto] using h2
  have at_ := marked i inside
  simp only [spread, List.getElem_map, List.getElem_zipIdx, Nat.zero_add, at_]
  simp [pieceBytes, upto]

/-- A piece of whole units, summed with nothing, is sent on as it came. -/
theorem forwarded_bytes (n : Nat) (p : Piece) : spread (ofWords (toWords (pieceBytes (64 * n) p))) = pieceBytes (64 * n) p := by
  have units : 64 * n = 4 * (16 * n) := by omega
  have whole : ofWords (toWords (pieceBytes (64 * n) p)) = pieceBytes (64 * n) p := by
    unfold pieceBytes upto
    rw [List.range_eq_range', units]
    refine ofWords_toWords _ (fun i => ?_) 0 (16 * n)
    dsimp only
    rw [show i / 4 * 4 / 64 = i / 64 by omega]
  rw [whole, spread_pieceBytes]

/-- The sum of one piece alone, as bytes, is that piece. -/
theorem passed_sum (n : Nat) (p : Piece) : (addTerm (addTerm none (some (toWords (pieceBytes (64 * n) p)))) none).map
    (fun l => spread (ofWords (l.map (fun e => (e.1, e.2.1))))) = some (pieceBytes (64 * n) p) := by
  simp only [addTerm, Option.map_some, List.map_map]
  exact congrArg some ((congrArg (fun l => spread (ofWords l)) (List.map_id' _)).trans (forwarded_bytes n p))

/-! ### A member that decided OUT -/

section Forward
variable {k j d : Nat} {x : Nat × Bool} {s : State}

/-- A chunk that decided OUT, and of which nothing has been read, has no term of this member. -/
theorem fetchTerms_out (out : mget 0 (getSlot s k).decisions j = dOut) : fetchTerms k j s = s := by
  unfold fetchTerms
  dsimp only
  rw [if_pos (Or.inl (by rw [out]; decide))]

theorem termOf_unread {v : Slot} (unread : mget 0 v.fetched j = 0) (r : Nat) : termOf v j r = none := by
  unfold termOf
  rw [if_neg (by simp [unread])]

/-- A member inside a stream that decided OUT sends a received piece on with its mask and its bytes: one of the descriptor's LENGTH through
the sum of that one term, one of another LENGTH as it is. -/
theorem pumpReduce_out (on : onReduce (getSlot s k) x.2 x.1 j = some d) (inner : d ≠ reduceSpan (getSlot s k) x.2 x.1 j)
    (out : mget 0 (getSlot s k).decisions j = dOut) (unread : mget 0 (getSlot s k).fetched j = 0)
    (whole : complete (getPiece (getSlot s k) (pieceKey 0 j x.1 x.2)) = true)
    (waits : (getPiece (getSlot s k) (pieceKey 0 j x.1 x.2)).sent = false) :
    let v := getSlot s k
    let p := getPiece v (pieceKey 0 j x.1 x.2)
    pumpReduce k j x s = modSlot k (setPiece (pieceKey 0 j x.1 x.2) (pieceSent p))
      (sendPiece v 0 j x.1 x.2 p.mask (if p.empty then none else some (pieceBytes (64 * p.len) p)) s) := by
  intro v p
  have slot : getSlot s k = v := rfl
  have piece : getPiece v (pieceKey 0 j x.1 x.2) = p := rfl
  rw [slot] at on inner out unread whole waits
  rw [piece] at whole waits
  have starts : (d == reduceSpan v x.2 x.1 j) = false := by simpa using inner
  have header : p.hasHdr = true := by
    simp only [complete, Bool.and_eq_true] at whole
    exact whole.1
  unfold pumpReduce
  dsimp only
  rw [slot, on, piece]
  dsimp only
  rw [starts, if_neg (by simp [waits, out, whole, dOut])]
  by_cases other : odd v j p = true
  · have data : p.empty = false := by
      simp only [odd, Bool.and_eq_true, Bool.not_eq_true'] at other
      exact other.1.2
    rw [if_pos (by simpa using other), data]
    rfl
  · rw [if_neg (by simpa using other), fetchTerms_out out, slot, termOf_unread unread]
    by_cases empty : p.empty = true
    · rw [empty]
      rfl
    · have data : p.empty = false := by simpa using empty
      have length : 64 * p.len = pieceLen v j := by simpa [odd, header, data] using other
      rw [data, ← length, if_neg (by decide), if_neg (by decide), if_neg (by decide), if_neg (by decide), Option.map_none, passed_sum]

end Forward

end Sys2Proof.Machine
end

section
/-! SUPPORT. Packets of open collectives: how a row takes one, and what data, piece headers and acknowledgements leave of their slot (R216,
R217, R221, R226, Table 11-10). -/

namespace Sys2Proof.Machine

/-! ### The collectives' part of the state -/

/-- The state without its collectives. -/
def sansRx (s : State) : State := { s with rx := {} }

theorem sansRx_modSlot (k : Nat) (f : Slot → Slot) (s : State) : sansRx (modSlot k f s) = sansRx s := rfl

theorem et_of_sansRx {s t : State} (same : sansRx t = sansRx s) : t.et = s.et := (congrArg State.et same :)

/-- What changes collectives alone changes no byte and no poison. -/
theorem bytesKept_of_sansRx {s t : State} (same : sansRx t = sansRx s) : bytesKept s t := by
  have mem : t.mem = s.mem := (congrArg State.mem same :)
  have hs : t.hs = s.hs := (congrArg State.hs same :)
  refine ⟨⟨?_, ?_⟩, ?_, ?_, ?_⟩ <;> simp only [mem, hs]

@[simp] theorem getSlot_takePacket (n : Nat) (p : Packet) (s : State) (k : Nat) : getSlot (takePacket n p s) k = getSlot s k := rfl

/-- A packet taken from its port leaves the receive buffer, and no byte changes. -/
theorem taken_of_sansRx {n : Nat} {p : Packet} {s u : State} (same : sansRx u = sansRx (takePacket n p s)) :
    u.et.inbox = dropOne (n, p) s.et.inbox ∧ bytesKept s u :=
  ⟨congrArg Et.inbox (et_of_sansRx same), bytesKept_of_sansRx (s := takePacket n p s) same⟩

/-! ### A row of packets -/

section Row
variable {n k : Nat} {sort : Packet → Bool} {act : Nat → Packet → State → State} {p : Packet} {s : State}

/-- A packet of a sort that a row takes: its collective's engine is in service, or an engine reset ended its collective. -/
def rowTakes (s : State) (sort : Packet → Bool) (p : Packet) : Bool :=
  sort p && (match matchSlot s p with | some k => engUp s kRX (k / 64) | none => deadTag s p)

theorem rxRow_eq (n : Nat) (sort : Packet → Bool) (act : Nat → Packet → State → State) (s : State) :
    rxRow n sort act s = .next (onlyFabric s (match firstPacket n (rowTakes s sort) s with
      | none => s
      | some p => match matchSlot s p with
        | some k => rxPump (act k p (takePacket n p s))
        | none => discardPacket n p s)) := rfl

/-- A row acts on the slot of its packet's open collective, and the collectives go on. -/
theorem rxRow_open (first : firstPacket n (rowTakes s sort) s = some p) (open_ : matchSlot s p = some k) :
    rxRow n sort act s = .next (onlyFabric s (rxPump (act k p (takePacket n p s)))) := by
  rw [rxRow_eq, first]
  dsimp only
  rw [open_]

/-- A row discards its packet where no collective is open for it. -/
theorem rxRow_dead (first : firstPacket n (rowTakes s sort) s = some p) (none_ : matchSlot s p = none) :
    rxRow n sort act s = .next (onlyFabric s (discardPacket n p s)) := by
  rw [rxRow_eq, first]
  dsimp only
  rw [none_]

/-- A packet without a collective is discarded: it is counted, leaves the receive buffer, and no slot and no byte changes. -/
theorem discardPacket_effect (n : Nat) (p : Packet) (s : State) :
    let t := onlyFabric s (discardPacket n p s)
    t.rx.discard = satAdd max32 s.rx.discard 1 ∧ t.et.inbox = dropOne (n, p) s.et.inbox ∧ t.rx.slots = s.rx.slots ∧ bytesKept s t :=
  ⟨rfl, rfl, rfl, ⟨rfl, rfl⟩, rfl, rfl, rfl⟩

end Row

/-! ### Pieces of a slot -/

@[simp] theorem getPiece_setPiece (key : Nat) (p : Piece) (v : Slot) : getPiece (setPiece key p v) key = p := mget_mset_self ..
@[simp] theorem getPiece_arrive (stage j key : Nat) (v : Slot) : getPiece (arrive stage j v) key = getPiece v key := rfl
@[simp] theorem getPiece_abortSlot (st key : Nat) (v : Slot) : getPiece (abortSlot st v) key = getPiece v key := by
  rw [getPiece, abortSlot_pieces, getPiece]

/-! ### Data -/

section Data
variable {n k : Nat} {p : Packet} {s : State}

/-- A piece after the data of a packet: `u` units from unit `off` on (R221). -/
def pieceWith (pc : Piece) (off u : Nat) (p : Packet) : Piece :=
  { pc with units := pc.units + u, data := putBytes (64 * off) (p.body.take (64 * u)) pc.data
            poison := (p.poison.filter (· < u)).foldl (fun m i => mset false m (off + i) true) pc.poison }

theorem recvData_piece (dense : p.header.getLsbD 105 = false) (kind : (getSlot s k).kind ≠ cPERM)
    (due : expects (getSlot s k) (bfld p.header 106 1) (bfld p.header 96 7) (bfld p.header 103 2) (!portPlus n) = true) :
    let key := pieceKey (bfld p.header 106 1) (bfld p.header 96 7) (bfld p.header 103 2) (!portPlus n)
    let pc := getPiece (getSlot s k) key
    recvData n k p s = modSlot k (fun w => arrive (bfld p.header 106 1) (bfld p.header 96 7) (setPiece key (pieceWith pc (bfld p.header 107 22)
      (dataUnits p (if pc.hasHdr then pc.len - bfld p.header 107 22 else 2 ^ 22)) p) w)) s := by
  intro key pc
  unfold recvData
  dsimp only
  rw [dense, if_neg (by decide), if_neg (by simp [kind, due])]
  rfl

/-- The bytes of a packet stand at its offset in its piece, within the units it delivers; every other byte of the piece is as before. -/
theorem pieceWith_data (pc : Piece) (off u : Nat) (p : Packet) :
    (∀ i, i < 64 * u → i < p.body.length → mget 0 (pieceWith pc off u p).data (64 * off + i) = p.body.getD i 0)
    ∧ ∀ i, i < 64 * off ∨ 64 * off + 64 * u ≤ i → mget 0 (pieceWith pc off u p).data i = mget 0 pc.data i := by
  have length : (p.body.take (64 * u)).length = min (64 * u) p.body.length := List.length_take
  refine ⟨fun i inside listed => ?_, fun i outside => mget_putBytes_out _ _ _ _ (by omega)⟩
  have here : i < (p.body.take (64 * u)).length := by omega
  rw [pieceWith, mget_putBytes_in _ _ _ _ here]
  rw [List.getElem_take, List.getD_eq_getElem _ _ listed]

/-- What RX_DATA_PACKET does with the data of a reduction or a gather. -/
theorem rxDataPacket_piece (first : firstPacket n (rowTakes s isData) s = some p) (open_ : matchSlot s p = some k)
    (dense : p.header.getLsbD 105 = false) (kind : (getSlot s k).kind ≠ cPERM)
    (due : expects (getSlot s k) (bfld p.header 106 1) (bfld p.header 96 7) (bfld p.header 103 2) (!portPlus n) = true) :
    let stage := bfld p.header 106 1
    let j := bfld p.header 96 7
    let off := bfld p.header 107 22
    let key := pieceKey stage j (bfld p.header 103 2) (!portPlus n)
    let pc := getPiece (getSlot s k) key
    let units := dataUnits p (if pc.hasHdr then pc.len - off else 2 ^ 22)
    ∃ u, exec (.rxDataPacket n) s = .next (onlyFabric s (rxPump u)) ∧ u.et.inbox = dropOne (n, p) s.et.inbox
      ∧ (getPiece (getSlot u k) key).units = pc.units + units ∧ (getSlot u k).cause = 1 + cdAxis (getSlot s k)
      ∧ (∀ i, i < 64 * units → i < p.body.length → mget 0 (getPiece (getSlot u k) key).data (64 * off + i) = p.body.getD i 0)
      ∧ (∀ i, (i < 64 * off ∨ 64 * off + 64 * units ≤ i) → mget 0 (getPiece (getSlot u k) key).data i = mget 0 pc.data i)
      ∧ (stage = 0 → mget false (getSlot u k).arrived j = true) ∧ bytesKept s u := by
  intro stage j off key pc units
  have means : recvData n k p (takePacket n p s)
      = modSlot k (fun w => arrive stage j (setPiece key (pieceWith pc off units p) w)) (takePacket n p s) := recvData_piece dense kind due
  have row := rxRow_open (act := recvData n) first open_
  rw [means] at row
  have slot : getSlot (modSlot k (fun w => arrive stage j (setPiece key (pieceWith pc off units p) w)) (takePacket n p s)) k
      = arrive stage j (setPiece key (pieceWith pc off units p) (getSlot s k)) := by
    rw [getSlot_modSlot, if_pos rfl, getSlot_takePacket]
  obtain ⟨inbox, bytes⟩ := taken_of_sansRx (n := n) (p := p) (sansRx_modSlot k _ (takePacket n p s))
  refine ⟨_, row, inbox, ?_⟩
  rw [slot, getPiece_arrive, getPiece_setPiece]
  obtain ⟨inside, outside⟩ := pieceWith_data pc off units p
  refine ⟨rfl, rfl, inside, outside, fun reduction => ?_, bytes⟩
  rw [arrive, if_pos reduction, mget_mset_self]

/-! ### Shards -/

theorem JobFrom.writePiece {s : State} {j : Job} (a : Acc) (vas : List (Option Nat)) (bs : List (Byte × Bool)) (h : JobFrom s j) :
    JobFrom s (writePiece a vas bs j) := by
  refine JobFrom.foldl (fun e j h => ?_) _ _ h
  split
  · exact h.wrByte ..
  · exact h

theorem getSlot_changed_sans (cause : Nat) (s : State) (k : Nat) : sansFill (getSlot (changed cause s) k) = sansFill (getSlot s k) :=
  getSlot_rxFill_sans ..

theorem foldl_poisonLoc_rx (ls : List Nat) (t : State) : (ls.foldl (fun t l => poisonLoc l t) t).rx = t.rx := by
  refine List.foldlRecOn (motive := fun (u : State) => u.rx = t.rx) _ _ rfl fun u same l _ => ?_
  unfold poisonLoc
  split <;> exact same

/-- What a command writes may fill buckets; nothing else changes of any slot. -/
theorem getSlot_jobCommit_sans (cause k : Nat) (j : Job) : sansFill (getSlot (jobCommit cause j) k) = sansFill (getSlot j.s k) := by
  unfold jobCommit
  exact (getSlot_changed_sans ..).trans (congrArg sansFill (getSlot_of_rx (foldl_poisonLoc_rx ..) k))

/-- A command's writes change nothing that waits at the ports. -/
theorem jobCommit_et (cause : Nat) (j : Job) : (jobCommit cause j).et = j.s.et :=
  jobCommit_keep (·.et) (fun _ _ => rfl) (fun _ _ _ _ => rfl) (fun _ _ => rfl) (fun _ _ => rfl) ..

/-- A job that starts behind a change of no byte stores what it stores in the state before it. -/
theorem jobStored_behind {s s1 t : State} {j : Job} (h : jobStored s1 t j) (bytes : bytesSame s s1)
    (closed : ∀ l, coreClosed s1 l = coreClosed s l) : jobStored s t j := fun apart loc reach => by
  rw [h apart loc ((closed loc).trans reach), locByte_of_same bytes]

/-- The units that a packet of a shard adds to its receive entry, and the job that writes its bytes to the entry's place (R226). -/
def shardUnits (p : Packet) (e : BitVec 256) : Nat := dataUnits p (peLen e / 64 - bfld p.header 107 22)

def shardTaken (k cause i : Nat) (e : BitVec 256) (p : Packet) (s : State) : State :=
  let pc := getPiece (getSlot s k) (shardKey i)
  modSlot k (fun w => { setPiece (shardKey i) { pc with units := pc.units + shardUnits p e } w with cause }) s

def shardJob (k cause i : Nat) (e : BitVec 256) (p : Packet) (s : State) : Job :=
  let v := getSlot s k
  writePiece (rxAcc v) (runVas (recvBase v e + 64 * bfld p.header 107 22) (64 * shardUnits p e))
    ((p.body.take (64 * shardUnits p e)).zipIdx.map (fun b => (b.1, p.poison.contains (b.2 / 64)))) { s := shardTaken k cause i e p s }

/-- A shard's packet that no fault meets writes its bytes where its receive entry has them. -/
theorem recvShard_writes {cause i : Nat} {e : BitVec 256} {rest : List (Nat × BitVec 256)} (runs : (getSlot s k).halted = false)
    (entry : entriesWhere (getSlot s k) (fun i e => peRecv e && peEntry e == bfld p.header 96 9 && pePeer e == pktSrc p.header
      && !mget false (getSlot s k).stored i) = (i, e) :: rest) (ok : (shardJob k cause i e p s).errs = []) :
    recvShard k cause p s = jobCommit cause (shardJob k cause i e p s) := by
  unfold recvShard
  dsimp only
  rw [entry]
  dsimp only
  rw [if_neg (by simp [runs])]
  show rxErrs k (shardJob k cause i e p s).errs _ = _
  rw [ok]
  rfl

/-- What RX_DATA_PACKET does with the data of a permute. -/
theorem rxDataPacket_shard {i : Nat} {e : BitVec 256} {rest : List (Nat × BitVec 256)}
    (first : firstPacket n (rowTakes s isData) s = some p) (open_ : matchSlot s p = some k) (sparse : p.header.getLsbD 105 = true)
    (kind : (getSlot s k).kind = cPERM) (runs : (getSlot s k).halted = false)
    (entry : entriesWhere (getSlot s k) (fun i e => peRecv e && peEntry e == bfld p.header 96 9 && pePeer e == pktSrc p.header
      && !mget false (getSlot s k).stored i) = (i, e) :: rest)
    (ok : (shardJob k (1 + portAxis n) i e p (takePacket n p s)).errs = []) :
    ∃ u, exec (.rxDataPacket n) s = .next (onlyFabric s (rxPump u)) ∧ u.et.inbox = dropOne (n, p) s.et.inbox
      ∧ (getPiece (getSlot u k) (shardKey i)).units = (getPiece (getSlot s k) (shardKey i)).units + shardUnits p e
      ∧ jobStored s u (shardJob k (1 + portAxis n) i e p (takePacket n p s)) := by
  have means : recvData n k p (takePacket n p s) = jobCommit (1 + portAxis n) (shardJob k (1 + portAxis n) i e p (takePacket n p s)) := by
    unfold recvData
    dsimp only
    rw [if_pos sparse, if_pos (by exact kind)]
    exact recvShard_writes runs entry ok
  have row := rxRow_open (act := recvData n) first open_
  rw [means] at row
  have job : JobFrom (shardTaken k (1 + portAxis n) i e p (takePacket n p s)) (shardJob k (1 + portAxis n) i e p (takePacket n p s)) :=
    JobFrom.writePiece _ _ _ (JobFrom.refl _ [])
  refine ⟨_, row, ?_, ?_, jobStored_behind (jobStored_jobCommit job ok _) ⟨rfl, rfl⟩ fun _ => rfl⟩
  · rw [jobCommit_et, sans_et job.state]
    rfl
  · have slot := (getSlot_jobCommit_sans (1 + portAxis n) k (shardJob k (1 + portAxis n) i e p (takePacket n p s))).trans
      (congrArg sansFill (getSlot_of_rx (sans_rx job.state) k))
    rw [getPiece, field_of_view slot (·.pieces) fun _ => rfl, shardTaken, getSlot_modSlot, if_pos rfl]
    exact congrArg Piece.units (getPiece_setPiece ..)

end Data

/-! ### Piece headers -/

section Header
variable {n k : Nat} {p : Packet} {s : State}

/-- A piece after its header (R221, Table 11-8). -/
def pieceHeaded (pc : Piece) (h : BitVec 256) : Piece :=
  { pc with hasHdr := true, empty := h.getLsbD 107, len := bfld h 109 19, mask := BitVec.ofNat 128 (bfld h 128 128) }

/-- A slot whose piece has its header (R216, R221). -/
def headerArrived (n : Nat) (h : BitVec 256) (v : Slot) : Slot :=
  let key := pieceKey (bfld h 108 1) (bfld h 98 7) (bfld h 105 2) (!portPlus n)
  arrive (bfld h 108 1) (bfld h 98 7) (setPiece key (pieceHeaded (getPiece v key) h) v)

/-- A slot after the header of one of its pieces: aborted with 0x12 where the piece's LENGTH is wrong. -/
def slotHeaded (n : Nat) (h : BitVec 256) (v : Slot) : Slot :=
  if odd v (bfld h 98 7) (pieceHeaded (getPiece v (pieceKey (bfld h 108 1) (bfld h 98 7) (bfld h 105 2) (!portPlus n))) h)
  then abortSlot stDescriptor (headerArrived n h v) else headerArrived n h v

theorem recvHeader_piece (kind : (getSlot s k).kind ≠ cPERM)
    (due : expects (getSlot s k) (bfld p.header 108 1) (bfld p.header 98 7) (bfld p.header 105 2) (!portPlus n) = true) :
    sansRx (recvHeader n k p s) = sansRx s ∧ getSlot (recvHeader n k p s) k = slotHeaded n p.header (getSlot s k) := by
  unfold recvHeader slotHeaded headerArrived
  dsimp only
  rw [if_neg (by simp [kind, due])]
  show sansRx (if odd _ _ (pieceHeaded _ p.header) = true then _ else _) = _ ∧ getSlot (if odd _ _ (pieceHeaded _ p.header) = true then _ else _) k = _
  split
  · refine ⟨(sansRx_modSlot ..).trans (sansRx_modSlot ..), ?_⟩
    rw [getSlot_modSlot, if_pos rfl, getSlot_modSlot, if_pos rfl]
    rfl
  · refine ⟨sansRx_modSlot .., ?_⟩
    rw [getSlot_modSlot, if_pos rfl]
    rfl

theorem odd_pieceHeaded (v : Slot) (j : Nat) (pc : Piece) (h : BitVec 256) :
    odd v j (pieceHeaded pc h) = (!h.getLsbD 107 && 64 * bfld h 109 19 != pieceLen v j) := rfl

theorem getPiece_slotHeaded (n : Nat) (h : BitVec 256) (v : Slot) :
    let key := pieceKey (bfld h 108 1) (bfld h 98 7) (bfld h 105 2) (!portPlus n)
    getPiece (slotHeaded n h v) key = pieceHeaded (getPiece v key) h := by
  intro key
  have arrived : getPiece (headerArrived n h v) key = pieceHeaded (getPiece v key) h := by
    rw [headerArrived, getPiece_arrive, getPiece_setPiece]
  unfold slotHeaded
  split
  · rw [getPiece_abortSlot, arrived]
  · exact arrived

/-- A header of the descriptor's LENGTH ends nothing and decides nothing. -/
theorem slotHeaded_fits {h : BitVec 256} {v : Slot} (fits : h.getLsbD 107 = true ∨ 64 * bfld h 109 19 = pieceLen v (bfld h 98 7)) :
    (slotHeaded n h v).ending = v.ending ∧ (slotHeaded n h v).halted = v.halted ∧ (slotHeaded n h v).decisions = v.decisions := by
  have even : odd v (bfld h 98 7)
      (pieceHeaded (getPiece v (pieceKey (bfld h 108 1) (bfld h 98 7) (bfld h 105 2) (!portPlus n))) h) = false := by
    rw [odd_pieceHeaded]
    rcases fits with empty | length
    · rw [empty]; rfl
    · rw [length]; simp
  rw [slotHeaded, even, if_neg (by decide)]
  exact ⟨rfl, rfl, rfl⟩

/-- A header of another LENGTH ends its collective with DESCRIPTOR_INVALID, and every chunk of one that reduces decides. -/
theorem slotHeaded_unfit {h : BitVec 256} {v : Slot} (data : h.getLsbD 107 = false) (length : 64 * bfld h 109 19 ≠ pieceLen v (bfld h 98 7)) :
    (slotHeaded n h v).ending = (if v.halted then v.ending else some 0x12) ∧ (slotHeaded n h v).halted = true
      ∧ (reduces v = true → undecided (slotHeaded n h v) = []) := by
  have other : odd v (bfld h 98 7)
      (pieceHeaded (getPiece v (pieceKey (bfld h 108 1) (bfld h 98 7) (bfld h 105 2) (!portPlus n))) h) = true := by
    rw [odd_pieceHeaded, data]
    simpa using length
  rw [slotHeaded, other, if_pos rfl]
  exact ⟨rfl, rfl, fun sums => undecided_abortSlot (v := headerArrived n h v) sums stDescriptor⟩

/-- What PIECE_HEADER does with the header of a piece. -/
theorem pieceHeader_piece (first : firstPacket n (rowTakes s isPieceHeader) s = some p) (open_ : matchSlot s p = some k)
    (kind : (getSlot s k).kind ≠ cPERM)
    (due : expects (getSlot s k) (bfld p.header 108 1) (bfld p.header 98 7) (bfld p.header 105 2) (!portPlus n) = true) :
    ∃ u, exec (.pieceHeader n) s = .next (onlyFabric s (rxPump u)) ∧ u.et.inbox = dropOne (n, p) s.et.inbox ∧ bytesKept s u
      ∧ getSlot u k = slotHeaded n p.header (getSlot s k) := by
  obtain ⟨same, slot⟩ := recvHeader_piece (s := takePacket n p s) kind due
  obtain ⟨inbox, bytes⟩ := taken_of_sansRx same
  exact ⟨_, rxRow_open (act := recvHeader n) first open_, inbox, bytes, slot⟩

end Header

/-! ### Acknowledgements -/

theorem sansRx_recvAck (k cause entry peer : Nat) (s : State) : sansRx (recvAck k cause entry peer s) = sansRx s := by
  unfold recvAck
  exact sansRx_modSlot ..

/-- What PERMUTE_ACK does: the first send entry to the packet's sender that is not yet acknowledged is. -/
theorem permuteAck_entry {n k i : Nat} {p : Packet} {s : State} {e : BitVec 256} {rest : List (Nat × BitVec 256)}
    (first : firstPacket n (rowTakes s isAck) s = some p) (open_ : matchSlot s p = some k) (kind : (getSlot s k).kind = cPERM)
    (entry : entriesWhere (getSlot s k) (fun i e => !peRecv e && peEntry e == bfld p.header 98 9 && pePeer e == pktSrc p.header
      && !mget false (getSlot s k).acked i) = (i, e) :: rest) :
    ∃ u, exec (.permuteAck n) s = .next (onlyFabric s (rxPump u)) ∧ mget false (getSlot u k).acked i = true
      ∧ (∀ j, j ≠ i → mget false (getSlot u k).acked j = mget false (getSlot s k).acked j) ∧ u.et.inbox = dropOne (n, p) s.et.inbox
      ∧ bytesKept s u := by
  have row := rxRow_open first open_ (act := fun k p t =>
    if (getSlot t k).kind = cPERM then recvAck k (1 + portAxis n) (bfld p.header 98 9) (pktSrc p.header) t else t)
  rw [if_pos (by exact kind)] at row
  obtain ⟨inbox, bytes⟩ := taken_of_sansRx
    (sansRx_recvAck k (1 + portAxis n) (bfld p.header 98 9) (pktSrc p.header) (takePacket n p s))
  have acked : (getSlot (recvAck k (1 + portAxis n) (bfld p.header 98 9) (pktSrc p.header) (takePacket n p s)) k).acked
      = mset false (getSlot s k).acked i true := by
    rw [recvAck, getSlot_modSlot, if_pos rfl, getSlot_takePacket, entry]
  refine ⟨_, row, ?_, fun j other => ?_, inbox, bytes⟩
  · rw [acked, mget_mset_self]
  · rw [acked, mget_mset_ne _ _ _ other]

/-! ### Deadlines -/

/-- A slot of which a chunk decides OUT at its deadline (R216). -/
def chunkOut (chunk : Nat) (v : Slot) : Slot :=
  { v with decisions := mset 0 v.decisions chunk dOut, normal := true, outSeen := true, cause := 8 }

/-- What CONTRIBUTION_DEADLINE does with an undecided chunk whose deadline has run out. -/
theorem contributionDeadline_out {wc slot chunk elapsed : Nat} {s : State} (live : (getSlot s (slotKey wc slot)).live = true)
    (up : engUp s kRX wc = true) (sums : reduces (getSlot s (slotKey wc slot)) = true) (waits : chunk ∈ undecided (getSlot s (slotKey wc slot)))
    (came : hasArrival (getSlot s (slotKey wc slot)) chunk = true) (short : filled s (getSlot s (slotKey wc slot)) = false)
    (late : (getSlot s (slotKey wc slot)).dl < elapsed) :
    let k := slotKey wc slot
    let v := getSlot s k
    ∃ u, exec (.contributionDeadline wc slot chunk elapsed) s = .next (onlyFabric s (rxPump u))
      ∧ mget 0 (getSlot u k).decisions chunk = dOut ∧ (∀ j, j ≠ chunk → mget 0 (getSlot u k).decisions j = mget 0 v.decisions j)
      ∧ (getSlot u k).outSeen = true ∧ (getSlot u k).pieces = v.pieces ∧ (∀ j, j ≠ k → getSlot u j = getSlot s j) ∧ bytesKept s u := by
  intro k v
  have means : exec (.contributionDeadline wc slot chunk elapsed) s = .next (onlyFabric s (rxPump (setSlot k (chunkOut chunk v) s))) := by
    show execContributionDeadline wc slot chunk elapsed s = _
    unfold execContributionDeadline
    dsimp only
    rw [if_pos (by simp [live, up, sums, waits, came, short, late])]
    rfl
  refine ⟨_, means, ?_⟩
  rw [getSlot_setSlot, if_pos rfl]
  refine ⟨mget_mset_self 0 v.decisions chunk dOut, fun j other => mget_mset_ne 0 v.decisions dOut other, rfl, rfl, fun j other => ?_,
    bytesKept_of_sansRx rfl⟩
  rw [getSlot_setSlot, if_neg other]

end Sys2Proof.Machine
end

section
/-! SUPPORT. The end of a collective: what leaves with its slot, what its program's end leaves, and its DONE tally (R96, R97, R103, R207,
R217, R227). -/

namespace Sys2Proof.Machine

/-! ### What waits for a collective's end -/

/-- No queue context of an engine holds an addition or an end back. -/
def noneHeld (kind index : Nat) (t : State) : Prop :=
  ∀ x, qKind x = kind → qIndex x = index → (getQc t x).heldAdd = none ∧ (getQc t x).heldEnd = none

/-- Where whatever is held back still waits, nothing goes on. -/
theorem releaseHeld_idle {kind index : Nat} {t : State}
    (idle : ∀ x, qKind x = kind → qIndex x = index → unretired t x = true ∨ ((getQc t x).heldAdd = none ∧ (getQc t x).heldEnd = none)) :
    releaseHeld kind index t = t := by
  unfold releaseHeld
  refine List.foldlRecOn (motive := fun u => u = t) _ _ rfl fun u same x listed => ?_
  subst same
  obtain ⟨-, held⟩ := List.mem_filter.1 listed
  simp only [Bool.and_eq_true, beq_iff_eq] at held
  obtain ⟨-, ⟨kinds, indexes⟩, holds⟩ := held
  rcases idle x kinds indexes with waits | ⟨noAdd, noEnd⟩
  · rw [if_pos waits]
  · rw [noAdd, noEnd] at holds
    cases holds

theorem unretired_of_work {s t : State} (ax : t.ax = s.ax) (rx : t.rx = s.rx) (q : Nat) : unretired t q = unretired s q := by
  rw [unretired, unretired, getPart, getPart, ax, rx]

/-- A queue context whose command ends holds its end back for what it has accepted alone. -/
theorem finishCmd_waits {s : State} {q st x : Nat} (idle : (getQc s x).heldAdd = none ∧ (getQc s x).heldEnd = none) :
    unretired (finishCmd q st s) x = true ∨ ((getQc (finishCmd q st s) x).heldAdd = none ∧ (getQc (finishCmd q st s) x).heldEnd = none) := by
  rw [unretired_of_work (finishCmd_ax ..) (finishCmd_rx ..), getQc_finishCmd]
  split
  · next own =>
    subst own
    unfold finCtx
    split
    · exact .inr idle
    · split
      · next holds =>
        simp only [Bool.and_eq_true] at holds
        exact .inl holds.2
      · exact .inr ⟨rfl, rfl⟩
  · exact .inr idle

/-! ### The program that opened it -/

theorem endProgram_keep {β : Type} (f : State → β) (h1 : ∀ (t : State) (o : Ob), f { t with ob := o } = f t) (h2 : ∀ isl t, f (bumpIseq isl t) = f t)
    (h3 : ∀ k e t, f (setEng k e t) = f t) (h4 : ∀ isl t, f (tickIsland isl t) = f t) (h5 : ∀ t, f (nextFree t) = f t)
    (h6 : ∀ q v t, f (setQc q v t) = f t) (h7 : ∀ q v t, f (setQ q v t) = f t)
    (h8 : ∀ (t : State) (ws : List Waiter), f { t with fe := { t.fe with waiters := ws } } = f t) (v : Slot) (st : Nat) (s : State) :
    f (endProgram v st s) = f s := by
  unfold endProgram
  dsimp only
  split
  · exact (finishCmd_keep f h1 h2 h3 h4 h5 h6 h7 ..).trans (h8 ..)
  · rfl

theorem endProgram_waits {s : State} {v : Slot} {st x : Nat} (idle : (getQc s x).heldAdd = none ∧ (getQc s x).heldEnd = none) :
    unretired (endProgram v st s) x = true ∨ ((getQc (endProgram v st s) x).heldAdd = none ∧ (getQc (endProgram v st s) x).heldEnd = none) := by
  unfold endProgram
  dsimp only
  split
  · exact finishCmd_waits (s := dropWaits _ s) idle
  · exact .inr idle

/-! ### The slot is left -/

section Left
variable {k st : Nat} {s : State}

/-- A collective that ends has its counters in its engine's shadow and its end traced; a command of its own has its status. -/
def slotBooked (k st : Nat) (s : State) : State :=
  let v := getSlot s k
  let e := engKey kRX (k / 64)
  let s1 := traceEng kRX (k / 64) 2 (trTag v.seq (qCtxNo v.q)) (st + 2 ^ 8 * v.ctx)
    (setEng e { getEng s e with bank := shadowed v.nums v.seq (qCtxNo v.q) (getEng s e).bank } s)
  if v.byProg then s1 else setResult v.queue v.id st s1

/-- The state in which a collective has left its slot, before what that releases. -/
def slotLeft (k st : Nat) (s : State) : State :=
  let v := getSlot s k
  let t := slotBooked k st s
  let late := if reduces v && !v.ready && outCount v != 0 then [(v.fillLoc, bfld v.desc 352 32, outCount v)] else []
  setSlot k {} { t with rx := { t.rx with lateWait := t.rx.lateWait ++ late } }

/-- The state in which the program that opened a collective has ended with it. -/
def slotEnded (k st : Nat) (s : State) : State :=
  if (getSlot s k).byProg then endProgram (getSlot s k) st (slotLeft k st s) else slotLeft k st s

theorem slotLeft_keep {β : Type} (f : State → β) (h1 : ∀ (t : State) (o : Ob), f { t with ob := o } = f t) (h2 : ∀ isl t, f (bumpIseq isl t) = f t)
    (h3 : ∀ k e t, f (setEng k e t) = f t) (h4 : ∀ isl t, f (tickIsland isl t) = f t) (h7 : ∀ q v t, f (setQ q v t) = f t)
    (h8 : ∀ (t : State) (x : Rx), f { t with rx := x } = f t) : f (slotLeft k st s) = f s := by
  refine (h8 ..).trans ((h8 (slotBooked k st s) _).trans ?_)
  unfold slotBooked
  dsimp only
  split
  · exact (traceEng_keep f h1 h2 h3 h4 ..).trans (h3 ..)
  · exact (h7 ..).trans ((traceEng_keep f h1 h2 h3 h4 ..).trans (h3 ..))

theorem slotEnded_keep {β : Type} (f : State → β) (h1 : ∀ (t : State) (o : Ob), f { t with ob := o } = f t) (h2 : ∀ isl t, f (bumpIseq isl t) = f t)
    (h3 : ∀ k e t, f (setEng k e t) = f t) (h4 : ∀ isl t, f (tickIsland isl t) = f t) (h5 : ∀ t, f (nextFree t) = f t)
    (h6 : ∀ q v t, f (setQc q v t) = f t) (h7 : ∀ q v t, f (setQ q v t) = f t)
    (h8 : ∀ (t : State) (x : Rx), f { t with rx := x } = f t)
    (h9 : ∀ (t : State) (ws : List Waiter), f { t with fe := { t.fe with waiters := ws } } = f t) : f (slotEnded k st s) = f s := by
  have left : f (slotLeft k st s) = f s := slotLeft_keep f h1 h2 h3 h4 h7 h8
  unfold slotEnded
  split
  · exact (endProgram_keep f h1 h2 h3 h4 h5 h6 h7 h9 ..).trans left
  · exact left

theorem slotEnded_mem : (slotEnded k st s).mem = s.mem :=
  slotEnded_keep (·.mem) (fun _ _ => rfl) (fun _ _ => rfl) (fun _ _ _ => rfl) (fun _ _ => rfl) (fun _ => rfl) (fun _ _ _ => rfl) (fun _ _ _ => rfl)
    (fun _ _ => rfl) (fun _ _ => rfl)
theorem slotEnded_hs : (slotEnded k st s).hs = s.hs :=
  slotEnded_keep (·.hs) (fun _ _ => rfl) (fun _ _ => rfl) (fun _ _ _ => rfl) (fun _ _ => rfl) (fun _ => rfl) (fun _ _ _ => rfl) (fun _ _ _ => rfl)
    (fun _ _ => rfl) (fun _ _ => rfl)
theorem slotEnded_fr : (slotEnded k st s).fr = s.fr :=
  slotEnded_keep (·.fr) (fun _ _ => rfl) (fun _ _ => rfl) (fun _ _ _ => rfl) (fun _ _ => rfl) (fun _ => rfl) (fun _ _ _ => rfl) (fun _ _ _ => rfl)
    (fun _ _ => rfl) (fun _ _ => rfl)
theorem slotEnded_bt : (slotEnded k st s).bt = s.bt :=
  slotEnded_keep (·.bt) (fun _ _ => rfl) (fun _ _ => rfl) (fun _ _ _ => rfl) (fun _ _ => rfl) (fun _ => rfl) (fun _ _ _ => rfl) (fun _ _ _ => rfl)
    (fun _ _ => rfl) (fun _ _ => rfl)

theorem bytesKept_slotEnded : bytesKept s (slotEnded k st s) := by
  refine ⟨⟨?_, ?_⟩, ?_, ?_, ?_⟩ <;> simp only [slotEnded_mem, slotEnded_hs]

theorem coreClosed_slotEnded (l : Nat) : coreClosed (slotEnded k st s) l = coreClosed s l := by
  rw [coreClosed, coreClosed, inQuar, inQuar, slotEnded_bt, slotEnded_fr]

theorem getSlot_slotEnded : getSlot (slotEnded k st s) k = {} := by
  have left : getSlot (slotLeft k st s) k = {} := (getSlot_setSlot ..).trans (if_pos rfl)
  unfold slotEnded
  split
  · exact (endProgram_keep (getSlot · k) (fun _ _ => rfl) (fun _ _ => rfl) (fun _ _ _ => rfl) (fun _ _ => rfl) (fun _ => rfl) (fun _ _ _ => rfl)
      (fun _ _ _ => rfl) (fun _ _ => rfl) ..).trans left
  · exact left

/-- Where its engine holds nothing back, the end of a collective releases nothing. -/
theorem closeSlot_eq (idle : noneHeld kRX (k / 64) s) : closeSlot k st s = slotEnded k st s := by
  have before : ∀ x, getQc (slotLeft k st s) x = getQc s x := fun x =>
    slotLeft_keep (getQc · x) (fun _ _ => rfl) (fun _ _ => rfl) (fun _ _ _ => rfl) (fun _ _ => rfl) (fun _ _ _ => rfl) (fun _ _ => rfl)
  have means : closeSlot k st s = releaseHeld kRX (k / 64) (slotEnded k st s) := rfl
  rw [means]
  refine releaseHeld_idle fun x kind index => ?_
  have free := idle x kind index
  rw [← before x] at free
  unfold slotEnded
  split
  · exact endProgram_waits free
  · exact .inr free

theorem getQ_setResult_same {s t : State} {qu id st : Nat} (same : getQ t qu = getQ s qu) :
    getQ (setResult qu id st t) qu = getQ (setResult qu id st s) qu := by
  rw [setResult, setResult, getQ_modQ, getQ_modQ, if_pos rfl, if_pos rfl, same]

theorem statusGiven_setResult {s t : State} {qu id st : Nat} (given : getQ t qu = getQ (setResult qu id st s) qu) : statusGiven s t qu id st := by
  intro f listed own waits
  refine ⟨{ f with result := some st }, ?_, own, rfl⟩
  rw [given, setResult, getQ_modQ, if_pos rfl]
  exact List.mem_map.2 ⟨f, listed, if_pos ⟨own, waits⟩⟩

/-- The command of a collective that no program opened has the collective's status. -/
theorem getQ_slotEnded (alone : (getSlot s k).byProg = false) :
    getQ (slotEnded k st s) (getSlot s k).queue = getQ (setResult (getSlot s k).queue (getSlot s k).id st s) (getSlot s k).queue := by
  have rest : ∀ (t : State) (x : Rx) (q : Nat), getQ { t with rx := x } q = getQ t q := fun _ _ _ => rfl
  have left : getQ (slotLeft k st s) (getSlot s k).queue = getQ (slotBooked k st s) (getSlot s k).queue := (rest ..).trans (rest ..)
  rw [slotEnded, if_neg (by simp [alone]), left, slotBooked]
  dsimp only
  rw [if_neg (by simp [alone])]
  exact getQ_setResult_same (by rw [getQ_traceEng, getQ_setEng])

end Left

/-! ### A collective whose part is done -/

section Finish
variable {k : Nat} {s : State}

/-- What 1 added to a tally in an open location leaves: its value there, every other byte, and a slot that is free. -/
theorem tallyAddAt_effect {loc : Nat} (opened : coreClosed s loc = false) (dev : isHost loc = false → loc < 2 ^ 48) (cause : Nat) :
    let t := tallyAddAt cause loc 1 s
    stored s t loc (leBytes 8 ((locNat s loc 8 + 1) % 2 ^ 64)) ∧ (∀ q, getQ t q = getQ s q) ∧ (getSlot s k = {} → getSlot t k = {}) := by
  intro t
  have bytes := stored_locStore (s := s) (bs := leBytes 8 ((locNat s loc 8 + 1) % 2 ^ 64)) opened fun low => by
    have := dev low
    simp only [length_leBytes, hostBit]
    omega
  have means : t = storeAt cause loc (leBytes 8 ((locNat s loc 8 + 1) % 2 ^ 64)) s := tallyAddAt_open opened cause 1
  have fe : (locStore loc (leBytes 8 ((locNat s loc 8 + 1) % 2 ^ 64)) s).fe = s.fe := by
    unfold locStore
    split
    · rfl
    · split <;> rfl
  have rx : (locStore loc (leBytes 8 ((locNat s loc 8 + 1) % 2 ^ 64)) s).rx = s.rx := by
    unfold locStore
    split
    · rfl
    · split <;> rfl
  rw [means, storeAt]
  refine ⟨stored_of_same bytes ⟨rfl, rfl⟩ ⟨by rw [changed_mem], by rw [changed_hs]⟩, fun q => ?_, fun free => ?_⟩
  · rw [changed_keep (getQ · q) (fun _ _ => rfl) (fun _ _ => rfl) (fun _ _ => rfl), getQ, fe, getQ]
  · exact getSlot_rxFill_free ((getSlot_of_rx (s := s) rx k).trans free)

/-- A collective that ends with DONE adds 1 to its tally and leaves its slot. -/
theorem finishSlot_done {loc : Nat} {s2 : State} (good : (getSlot s k).ending = none) (idle : noneHeld kRX (k / 64) s)
    (reach : translate s (getSlot s k).ctx (cdDone (getSlot s k)) accTally (rxWho (getSlot s k)) = (.ok loc, s2)) (clean : locPoison s2 loc = false)
    (opened : coreClosed s2 loc = false) :
    let v := getSlot s k
    let u := finishSlot k s
    getSlot u k = {} ∧ stored s u loc (leBytes 8 ((locNat s loc 8 + 1) % 2 ^ 64)) ∧ (v.byProg = false → statusGiven s u v.queue v.id 0) := by
  intro v u
  have sans := translate_ok_sans reach
  have slot : getSlot s2 k = v := getSlot_of_rx (sans_rx sans) k
  have idle2 : noneHeld kRX (k / 64) s2 := fun x kind index => by
    rw [getQc_translate reach]
    exact idle x kind index
  have means : u = tallyAddAt v.cause loc 1 (slotEnded k stDone s2) := by
    show finishSlot k s = _
    unfold finishSlot
    dsimp only
    rw [good, reach]
    dsimp only
    rw [if_neg (by simp [clean]), closeSlot_eq idle2]
  have bytes : bytesSame s (slotEnded k stDone s2) := bytesSame_trans (bytesSame_translate reach) bytesKept_slotEnded.1
  obtain ⟨sum, queues, free⟩ := tallyAddAt_effect (k := k) (s := slotEnded k stDone s2) ((coreClosed_slotEnded loc).trans opened)
    (translate_lt reach) v.cause
  rw [means]
  refine ⟨free getSlot_slotEnded, ?_, fun alone => statusGiven_setResult ?_⟩
  · rw [← locNat_of_same bytes]
    exact stored_of_same sum bytes ⟨rfl, rfl⟩
  · have given := getQ_slotEnded (k := k) (st := stDone) (s := s2) (by rw [slot]; exact alone)
    rw [slot] at given
    exact (queues _).trans (given.trans (getQ_setResult_same (by rw [getQ, getQ, sans_fe sans])))

/-- A collective that ends with another status leaves its slot, with a record where its descriptor was found invalid. -/
theorem finishSlot_failed {st : Nat} (bad : (getSlot s k).ending = some st) (clean : (getSlot s k).poisonAt = none) (idle : noneHeld kRX (k / 64) s) :
    let v := getSlot s k
    let u := finishSlot k s
    getSlot u k = {} ∧ bytesKept s u ∧ (v.byProg = false → statusGiven s u v.queue v.id st) ∧ (st = 0x12 → faultAdded s u cDescriptor 0x12 0) := by
  intro v u
  by_cases invalid : st = stDescriptor
  · subst invalid
    have recorded : ∀ r : FaultRec, getSlot (addFault r false s) k = v := fun r => getSlot_of_rx (addFault_rx ..) k
    have idle2 : ∀ r : FaultRec, noneHeld kRX (k / 64) (addFault r false s) := fun r x kind index => by
      rw [getQc_addFault]
      exact idle x kind index
    have means : u = slotEnded k stDescriptor (addFault (rxRec s v cDescriptor stDescriptor 0 0 v.va 6 0) false s) := by
      show finishSlot k s = _
      unfold finishSlot
      dsimp only
      rw [bad, clean]
      dsimp only
      rw [if_pos rfl, closeSlot_eq (idle2 _)]
    have bytes : ∀ r : FaultRec, bytesKept s (addFault r false s) := fun r => by
      refine ⟨⟨?_, ?_⟩, ?_, ?_, ?_⟩ <;> simp
    rw [means]
    refine ⟨getSlot_slotEnded, bytesKept_trans (bytes _) bytesKept_slotEnded, fun alone => statusGiven_setResult ?_, fun _ => ?_⟩
    · have given := getQ_slotEnded (k := k) (st := stDescriptor) (s := addFault (rxRec s v cDescriptor stDescriptor 0 0 v.va 6 0) false s)
        (by rw [recorded]; exact alone)
      rw [recorded] at given
      exact given.trans (getQ_setResult_same (getQ_addFault ..))
    · have added := faultAdded_addFault (s := s) (t := s) rfl (rxRec s v cDescriptor stDescriptor 0 0 v.va 6 0) false
      unfold faultAdded at added ⊢
      rw [slotEnded_fr]
      exact added
  · have means : u = slotEnded k st s := by
      show finishSlot k s = _
      unfold finishSlot
      dsimp only
      rw [bad, clean]
      dsimp only
      rw [if_neg invalid, closeSlot_eq idle]
    rw [means]
    exact ⟨getSlot_slotEnded, bytesKept_slotEnded, fun alone => statusGiven_setResult (getQ_slotEnded alone), fun same => absurd same invalid⟩

end Finish

/-! ### The obligation -/

/-- COLLECTIVE_COMPLETE ends a collective whose part is done once the collectives have gone on with what they have. -/
theorem collectiveComplete_finishes {wc slot : Nat} {s : State} (live : (getSlot (rxPump s) (slotKey wc slot)).live = true)
    (up : engUp (rxPump s) kRX wc = true) (done : partDone (getSlot (rxPump s) (slotKey wc slot)) = true) :
    exec (.collectiveComplete wc slot) s = .next (onlyFabric s (finishSlot (slotKey wc slot) (rxPump s))) := by
  show execCollectiveComplete wc slot s = _
  unfold execCollectiveComplete
  dsimp only
  rw [if_pos (by simp [live, up, done])]

/-- Settles O54: one lemma for each event, in the order of the statement. -/
theorem collectiveDecisionsPacketsAndEnds : Obligations.CollectiveDecisionsPacketsAndEnds := by
  intro n wc slot s k v mine held
  refine ⟨?deadline, ?forward, ?data, ?shard, ?header, ?ack, ?unmatched, ?done, ?failed⟩
  case deadline => exact fun chunk elapsed live up sums waits came short late => contributionDeadline_out live up sums waits came short late
  case forward =>
    intro j d x p sums on inner out unread whole waits
    exact pumpReduce_out on inner out unread whole waits
  case data =>
    intro p first open_ dense kind stage j r off key pc units due
    exact rxDataPacket_piece first open_ dense kind due
  case shard =>
    intro p i e rest off units bs pc s1 w first open_ sparse kind runs entry ok
    exact rxDataPacket_shard first open_ sparse kind runs entry ok
  case header =>
    intro p first open_ kind stage j r empty len key due
    obtain ⟨u, means, inbox, bytes, slot⟩ := pieceHeader_piece first open_ kind due
    refine ⟨u, means, inbox, bytes, ?_⟩
    rw [slot]
    exact ⟨getPiece_slotHeaded n p.header v, slotHeaded_fits, slotHeaded_unfit⟩
  case ack =>
    intro p i e rest first open_ kind entry
    exact permuteAck_entry first open_ kind entry
  case unmatched =>
    intro p gone
    refine ⟨fun first => ⟨_, ?_, discardPacket_effect n p s⟩, fun e listed first none_ => ⟨_, ?_, discardPacket_effect n p s⟩⟩
    · show execUnmatchedPacketTimeout n s = _
      rw [execUnmatchedPacketTimeout, first]
    · simp only [List.mem_cons, List.not_mem_nil, or_false] at listed
      rcases listed with rfl | rfl | rfl
      · exact rxRow_dead (act := recvData n) first none_
      · exact rxRow_dead (act := recvHeader n) first none_
      · exact rxRow_dead first none_
  case done =>
    intro loc s2 s1 w live up ended_ good idle reach clean opened
    exact ⟨_, collectiveComplete_finishes live up ended_, finishSlot_done good idle reach clean opened⟩
  case failed =>
    intro st s1 w live up ended_ bad clean idle
    exact ⟨_, collectiveComplete_finishes live up ended_, finishSlot_failed bad clean idle⟩

end Sys2Proof.Machine
end

section
/-! SUPPORT. Writes of the host's registers: the value taken when it lies in the register's range, one half of a register alone, and a Drone-served register while the Drone is down (R235, R236, Table 14-8). -/

namespace Sys2Proof.Machine

/-! ### What a host's write keeps -/

theorem getFn_keepQueue (s t : State) (f : Bool) : getFn (keepQueue s t) f = getFn t f := by cases f <;> rfl

/-- An event of the Drone's own log leaves the working state and the functions alone. -/
theorem workKept_droneLog (sev event a0 a1 : Nat) (s : State) : workKept s (droneLog sev event a0 a1 s) :=
  ⟨addLog_keep (·.mem) (fun _ _ _ => rfl) (fun _ _ => rfl) (fun _ _ => rfl) (fun _ _ => rfl) ..,
    addLog_keep (·.fe) (fun _ _ _ => rfl) (fun _ _ => rfl) (fun _ _ => rfl) (fun _ _ => rfl) ..,
    addLog_keep (·.ax) (fun _ _ _ => rfl) (fun _ _ => rfl) (fun _ _ => rfl) (fun _ _ => rfl) ..,
    addLog_keep (·.rx) (fun _ _ _ => rfl) (fun _ _ => rfl) (fun _ _ => rfl) (fun _ _ => rfl) ..,
    addLog_ob .., addLog_et ..⟩

theorem getFn_droneLog (sev event a0 a1 : Nat) (s : State) (f : Bool) : getFn (droneLog sev event a0 a1 s) f = getFn s f :=
  addLog_keep (getFn · f) (fun _ _ _ => rfl) (fun _ _ => rfl) (fun _ _ => rfl) (fun _ _ => rfl) ..

theorem workKept_modFn (f : Bool) (g : Fn → Fn) (s : State) : workKept s (modFn f g s) := by
  cases f <;> exact ⟨rfl, rfl, rfl, rfl, rfl, rfl⟩

theorem workKept_trans {s t u : State} (h : workKept s t) (k : workKept t u) : workKept s u := by
  obtain ⟨mem, fe, ax, rx, ob, et⟩ := h
  unfold workKept at k ⊢
  rwa [mem, fe, ax, rx, ob, et] at k

/-- What a written offer leaves: what the Drone agrees to, and a record where the major version is another (R289). -/
theorem negSet_effect (f : Bool) (v : W64) (s : State) : (getFn (negSet f v s) f).negAgreed = agree v ∧ workKept s (negSet f v s) := by
  unfold negSet
  extract_lets s1
  have agreement : (getFn s1 f).negAgreed = agree v := by rw [getFn_modFn_self]
  have kept : workKept s s1 := workKept_modFn ..
  split
  · exact ⟨agreement, kept⟩
  · exact ⟨by rw [getFn_droneLog, agreement], workKept_trans kept (workKept_droneLog ..)⟩

/-- The two fields of THERM_CFG stand apart. -/
theorem bfld_thermCfg {a b : Nat} (low : a < 2 ^ 16) : bfld (BitVec.ofNat 32 (a + 2 ^ 16 * b)) 0 16 = a := by
  simp only [bfld, fld, BitVec.toNat_ofNat]
  omega

theorem thermField_lt {old v : Nat} (fits : old < 2 ^ 16) : thermField old v < 2 ^ 16 := by
  unfold thermField
  split
  · omega
  · exact fits

/-! ### A write while the link and the Drone are up: one lemma for each register -/

section Written
variable {f : Bool} {s : State} (link : (getFn s f).linkUp = true) (up : droneUp s = true)
  (page : f = false ∨ s.hs.l1Act = true ∨ s.hs.failover = true)

theorem pageServed_of_active (page : f = false ∨ s.hs.l1Act = true ∨ s.hs.failover = true) (o : Nat) : pageServed s f o = true := by
  rcases page with h | h | h <;> simp [pageServed, h]

include link up page

theorem exec_registerWrite {off : BitVec 24} {size : Nat} (v : W64) (whole : accessOk off.toNat size = true) :
    exec (.registerWrite f off size v) s = .next (keepQueue s (hostWrite f off.toNat size v.toNat s)) := by
  show execRegisterWrite f off size v s = _
  unfold execRegisterWrite
  dsimp only
  rw [if_pos (by simp [whole, link, up, pageServed_of_active page])]

theorem exec_registerWrite_64 {off : BitVec 24} (v : W64)
    (plain : off.toNat ∈ [0x10, 0x25400, 0x25408, 0x29010, 0x80028]) :
    exec (.registerWrite f off 8 v) s = .next (keepQueue s (write64 f off.toNat v.toNat v.toNat s)) := by
  rw [exec_registerWrite link up page v]
  · simp only [List.mem_cons, List.not_mem_nil, or_false] at plain
    rcases plain with h | h | h | h | h <;> rw [h] <;> rfl
  · simp only [List.mem_cons, List.not_mem_nil, or_false] at plain
    rcases plain with h | h | h | h | h <;> rw [h] <;> rfl

theorem writes_grace (v : W64) : ∃ t, exec (.registerWrite f 0x10#24 8 v) s = .next t ∧ workKept s t
    ∧ (getFn t f).grace = if 10 ≤ v.toNat ∧ v.toNat ≤ 3600 then v.toNat else (getFn s f).grace := by
  have row : write64 f 0x10 v.toNat v.toNat s =
      if 10 ≤ v.toNat ∧ v.toNat ≤ 3600 then modFn f (fun x => { x with grace := v.toNat }) s else s := rfl
  refine ⟨_, exec_registerWrite_64 link up page v (by decide), ?_, ?_⟩
  · show workKept s (write64 f 0x10 v.toNat v.toNat s)
    rw [row]
    split
    · exact workKept_modFn ..
    · exact ⟨rfl, rfl, rfl, rfl, rfl, rfl⟩
  · show (getFn (keepQueue s (write64 f 0x10 v.toNat v.toNat s)) f).grace = _
    rw [getFn_keepQueue, row]
    split
    · rw [getFn_modFn_self]
    · rfl

theorem writes_adminRing_high (v : W64) : ∃ t, exec (.registerWrite f 0x34#24 4 v) s = .next t ∧ workKept s t
    ∧ (getFn t f).adminRing = BitVec.ofNat 64 (((getFn s f).adminRing.toNat % 2 ^ 32 + 2 ^ 32 * (v.toNat % 2 ^ 32)) / 64 * 64) := by
  have row : hostWrite f 0x34 4 v.toNat s = modFn f (fun x =>
      { x with adminRing := BitVec.ofNat 64 (((getFn s f).adminRing.toNat % 2 ^ 32 + 2 ^ 32 * (v.toNat % 2 ^ 32)) / 64 * 64) }) s := rfl
  refine ⟨_, exec_registerWrite link up page v (by decide), ?_, ?_⟩
  · show workKept s (hostWrite f 0x34 4 v.toNat s)
    rw [row]
    exact workKept_modFn ..
  · rw [getFn_keepQueue]
    show (getFn (hostWrite f 0x34 4 v.toNat s) f).adminRing = _
    rw [row, getFn_modFn_self]

theorem writes_pwrCap (v : W64) : ∃ t, exec (.registerWrite f 0x25408#24 8 v) s = .next t ∧ workKept s t
    ∧ t.pw.pwrCap = if 1000 ≤ bfld v 0 13 ∧ bfld v 0 13 ≤ 4200 then bfld v 0 13 else s.pw.pwrCap := by
  have field : v.toNat % 8192 = bfld v 0 13 := by simp [bfld, fld]
  have row : write64 f 0x25408 v.toNat v.toNat s =
      if 1000 ≤ v.toNat % 8192 ∧ v.toNat % 8192 ≤ 4200 then { s with pw := { s.pw with pwrCap := v.toNat % 8192 } } else s := rfl
  rw [field] at row
  refine ⟨_, exec_registerWrite_64 link up page v (by decide), ?_, ?_⟩
  · show workKept s (write64 f 0x25408 v.toNat v.toNat s)
    rw [row]
    split <;> exact ⟨rfl, rfl, rfl, rfl, rfl, rfl⟩
  · show (write64 f 0x25408 v.toNat v.toNat s).pw.pwrCap = _
    rw [row]
    split <;> rfl

theorem writes_thermCfg (v : W64) : ∃ t, exec (.registerWrite f 0x25400#24 8 v) s = .next t ∧ workKept s t
    ∧ (700 ≤ bfld v 0 16 → bfld v 0 16 ≤ 950 → bfld t.pw.thermCfg 0 16 = bfld v 0 16)
    ∧ (bfld v 0 16 < 700 ∨ 950 < bfld v 0 16 → bfld t.pw.thermCfg 0 16 = bfld s.pw.thermCfg 0 16) := by
  refine ⟨_, exec_registerWrite_64 link up page v (by decide), ⟨rfl, rfl, rfl, rfl, rfl, rfl⟩, ?_⟩
  have field : bfld (keepQueue s (write64 f 0x25400 v.toNat v.toNat s)).pw.thermCfg 0 16 = thermField (bfld s.pw.thermCfg 0 16) (bfld v 0 16) :=
    bfld_thermCfg (thermField_lt (Nat.mod_lt _ (by decide)))
  refine ⟨fun low high => field.trans (if_pos ⟨low, high⟩), fun out => field.trans (if_neg ?_)⟩
  omega

theorem writes_pwrEvents (v : W64) : ∃ t, exec (.registerWrite f 0x29010#24 8 v) s = .next t ∧ workKept s t
    ∧ t.fl.pwrEvents = s.fl.pwrEvents &&& ~~~v := by
  refine ⟨_, exec_registerWrite_64 link up page v (by decide), ⟨rfl, rfl, rfl, rfl, rfl, rfl⟩, ?_⟩
  show s.fl.pwrEvents &&& ~~~(BitVec.ofNat 64 v.toNat) = _
  rw [BitVec.ofNat_toNat, BitVec.setWidth_eq]

theorem writes_waitDl (v : W64) : ∃ t, exec (.registerWrite f 0x80028#24 8 v) s = .next t ∧ workKept s t
    ∧ t.fr.waitDl = if 100 ≤ v.toNat ∧ v.toNat ≤ 600000 then v.toNat else s.fr.waitDl := by
  have row : write64 f 0x80028 v.toNat v.toNat s =
      if 100 ≤ v.toNat ∧ v.toNat ≤ 600000 then { s with fr := { s.fr with waitDl := v.toNat } } else s := rfl
  refine ⟨_, exec_registerWrite_64 link up page v (by decide), ?_, ?_⟩
  · show workKept s (write64 f 0x80028 v.toNat v.toNat s)
    rw [row]
    split <;> exact ⟨rfl, rfl, rfl, rfl, rfl, rfl⟩
  · show (write64 f 0x80028 v.toNat v.toNat s).fr.waitDl = _
    rw [row]
    split <;> rfl

theorem writes_deadlineInit (v : W64) : ∃ t, exec (.registerWrite f 0x21000#24 4 v) s = .next t ∧ t.mem = s.mem ∧ t.fe = s.fe
    ∧ t.rx.deadlineInit = if v.toNat % 2 ^ 32 = 0 then s.rx.deadlineInit else v.toNat % 2 ^ 32 := by
  have row : hostWrite f 0x21000 4 v.toNat s =
      if v.toNat % 2 ^ 32 = 0 then s else { s with rx := { s.rx with deadlineInit := v.toNat % 2 ^ 32 } } := rfl
  refine ⟨_, exec_registerWrite link up page v (by decide), ?_⟩
  show (hostWrite f 0x21000 4 v.toNat s).mem = s.mem ∧ (hostWrite f 0x21000 4 v.toNat s).fe = s.fe
    ∧ (hostWrite f 0x21000 4 v.toNat s).rx.deadlineInit = _
  rw [row]
  split <;> exact ⟨rfl, rfl, rfl⟩

theorem writes_negHostFeatures (v : W64) : ∃ t, exec (.registerWrite f 0x18#24 8 v) s = .next t
    ∧ (getFn t f).negAgreed = agree v ∧ workKept s t := by
  have row : hostWrite f 0x18 8 v.toNat s = negSet f v s := by
    show negSet f (BitVec.ofNat 64 v.toNat) s = _
    rw [BitVec.ofNat_toNat, BitVec.setWidth_eq]
  obtain ⟨agreement, kept⟩ := negSet_effect f v s
  refine ⟨_, exec_registerWrite link up page v (by decide), ?_, ?_⟩
  · rw [getFn_keepQueue]
    exact (congrArg (fun t => (getFn t f).negAgreed) row).trans agreement
  · show workKept s (hostWrite f 0x18 8 v.toNat s)
    rw [row]
    exact kept

theorem writes_hdmCfg (v : W64) (hdm : agreed s f 18 = true) (uncommitted : s.hs.hdmLocked = false) :
    ∃ t, exec (.registerWrite f 0x20098#24 8 v) s = .next t
      ∧ t.hs.hdmSize = bfld v 0 10 ∧ t.hs.hdmBase = bfld v 16 16 ∧ workKept s t := by
  have row : hostWrite f 0x20098 8 v.toNat s = hdmCfgSet f v s := by
    show hdmCfgSet f (BitVec.ofNat 64 v.toNat) s = _
    rw [BitVec.ofNat_toNat, BitVec.setWidth_eq]
  refine ⟨_, exec_registerWrite link up page v (by decide), ?_⟩
  show (hostWrite f 0x20098 8 v.toNat s).hs.hdmSize = _ ∧ (hostWrite f 0x20098 8 v.toNat s).hs.hdmBase = _ ∧ workKept s (hostWrite f 0x20098 8 v.toNat s)
  rw [row, hdmCfgSet, if_neg (by simp [hdm, uncommitted]), checkHdm]
  split <;> exact ⟨rfl, rfl, rfl, rfl, rfl, rfl, rfl, rfl⟩

end Written

/-- While the Drone is down a Drone-served register keeps its value (R236). -/
theorem registerWrite_down {f : Bool} {s : State} (down : droneUp s = false) {off : BitVec 24} (served : hubServed off.toNat = false)
    (size : Nat) (v : W64) : exec (.registerWrite f off size v) s = .next s := by
  show execRegisterWrite f off size v s = _
  unfold execRegisterWrite
  dsimp only
  rw [if_neg (by simp [down, served])]
  simp [keepQueue]

/-- Settles O39: one lemma for each register, in the order of the statement. -/
theorem hostRegisterWrites : Obligations.HostRegisterWrites := by
  intro f v s link page
  refine ⟨fun down off served => registerWrite_down down served 8 v, fun up => ?_⟩
  exact ⟨writes_grace link up page v, writes_adminRing_high link up page v, writes_pwrCap link up page v, writes_thermCfg link up page v,
    writes_pwrEvents link up page v, writes_waitDl link up page v, writes_deadlineInit link up page v, writes_negHostFeatures link up page v,
    fun hdm uncommitted => writes_hdmCfg link up page v hdm uncommitted⟩
end Sys2Proof.Machine
end

section
/-! SUPPORT. The HDM window: the home of a line and of the bytes next to it, a write line by line, and a read that meets the errors of its line (R233, R234, R94). -/

namespace Sys2Proof.Machine

/-! ### Homes within a line -/

/-- A window moved on by a few bytes within its lines. -/
theorem window_shift {p q : Prop} [Decidable p] [Decidable q] (x k : Nat) (same : p ↔ q) :
    (if p then some (x + k) else none) = (if q then some x else none).map (· + k) := by
  by_cases h : q
  · rw [if_pos h, if_pos (same.2 h)]
    rfl
  · rw [if_neg h, if_neg (fun g => h (same.1 g))]
    rfl

/-- Addresses of one line have homes in one line (Table 05-5). -/
theorem homeOf_line (cnt l : Nat) {k : Nat} (near : k < 64) : homeOf cnt (64 * l + k) = (homeOf cnt (64 * l)).map (· + k) := by
  have chestAt : chestBase = 0x0A0000000000 := rfl
  have coreAt : coreBase = 0x0B0000000000 := rfl
  unfold homeOf
  dsimp only
  by_cases hbm : 64 * l < 0x010000000000
  · rw [if_pos hbm, if_pos (by omega)]
    exact window_shift _ _ (by omega)
  rw [if_neg hbm, if_neg (by omega)]
  by_cases inter : 64 * l < 0x090000000000
  · rw [if_pos inter, if_pos (by omega)]
    have view : (64 * l + k) / 2 ^ 40 = 64 * l / 2 ^ 40 := by omega
    have place : (64 * l + k) % 2 ^ 40 = 64 * l % 2 ^ 40 + k := by omega
    have page : (64 * l % 2 ^ 40 + k) / 4096 = 64 * l % 2 ^ 40 / 4096 := by omega
    have low : (64 * l % 2 ^ 40 + k) % 4096 = 64 * l % 2 ^ 40 % 4096 + k := by omega
    have aligned : 64 * l % 2 ^ 40 % 64 = 0 := by omega
    rw [view, place, page, low, ← Nat.add_assoc]
    exact window_shift _ _ (by omega)
  rw [if_neg inter, if_neg (by omega)]
  by_cases chest : chestBase ≤ 64 * l ∧ 64 * l < chestBase + 16 * 2 ^ 30
  · rw [if_pos chest, if_pos (by omega)]
    exact window_shift _ _ (by omega)
  rw [if_neg chest, if_neg (by omega)]
  by_cases core : coreBase ≤ 64 * l ∧ 64 * l < coreBase + 2048 * 2 ^ 22
  · rw [if_pos core, if_pos (by omega)]
    exact window_shift _ _ (by omega)
  · rw [if_neg core, if_neg (by omega)]
    rfl

/-- Bytes that one line holds have consecutive homes. -/
theorem homeOf_near (cnt pa : Nat) {i : Nat} (near : pa % 64 + i < 64) : homeOf cnt (pa + i) = (homeOf cnt pa).map (· + i) := by
  have first : homeOf cnt pa = (homeOf cnt (64 * (pa / 64))).map (· + pa % 64) := by
    rw [← homeOf_line cnt _ (Nat.mod_lt pa (by decide)), Nat.div_add_mod]
  have this : pa + i = 64 * (pa / 64) + (pa % 64 + i) := by omega
  rw [this, homeOf_line cnt _ near, first, Option.map_map]
  congr 1
  funext x
  exact (Nat.add_assoc ..).symm

/-- The bytes of one line lie in one core memory or in none. -/
theorem coreClosed_near (s : State) {h i : Nat} (near : h % 64 + i < 64) : coreClosed s (h + i) = coreClosed s h := by
  have aligned : h / 128 * 128 % 128 = 0 := by omega
  have far : h + i = h / 128 * 128 + (h % 128 + i) := by omega
  have own : h = h / 128 * 128 + h % 128 := by omega
  rw [far, coreClosed_line aligned (by omega)]
  conv_rhs => rw [own, coreClosed_line aligned (by omega)]

/-! ### A store at a home -/

/-- What no store to device memory touches. -/
theorem storeAt_home_keep {β : Type} (f : State → β) (mem : ∀ (t : State) (m : Mem), f { t with mem := m } = f t)
    (absorbed : ∀ (t : State) (n : Nat), f { t with fr := { t.fr with absReq := n } } = f t)
    (rx : ∀ (t : State) (x : Rx), f { t with rx := x } = f t) (free : ∀ (t : State) (n : Nat), f { t with free := n } = f t)
    (waits : ∀ (t : State) (ws : List Waiter), f { t with fe := { t.fe with waiters := ws } } = f t) {h : Nat} (device : isHost h = false)
    (cause : Nat) (bs : List Byte) (s : State) : f (storeAt cause h bs s) = f s := by
  rw [storeAt, changed_keep f rx free waits, locStore, if_neg (by simp [device])]
  split
  · exact absorbed ..
  · exact mem ..

theorem home_device {cnt pa h : Nat} (home : homeOf cnt pa = some h) : isHost h = false := by
  have low := homeOf_lt home
  have below : ¬hostBit ≤ h := by
    simp only [hostBit]
    omega
  simpa [isHost] using below

/-- A store at a home leaves its bytes there, unless a reset domain absorbs it, and no other. -/
theorem stored_home {cnt pa h : Nat} (home : homeOf cnt pa = some h) {s : State} (opened : coreClosed s h = false) (cause : Nat) {bs : List Byte}
    (size : bs.length ≤ 64) : stored s (storeAt cause h bs s) h bs := by
  refine stored_of_same (stored_locStore opened fun _ => ?_) ⟨rfl, rfl⟩ ⟨by rw [storeAt, changed_mem], by rw [storeAt, changed_hs]⟩
  have := homeOf_lt home
  simp only [hostBit]
  omega

theorem locByte_absorbed {h : Nat} {s : State} (closed : coreClosed s h = true) (cause : Nat) (bs : List Byte) (a : Nat) :
    locByte (storeAt cause h bs s) a = locByte s a := by
  refine locByte_of_same ⟨?_, ?_⟩ a
  all_goals
    have device : isHost h = false := by
      simp only [coreClosed, Bool.and_eq_true, Bool.not_eq_true'] at closed
      tauto
    simp only [storeAt, changed_mem, changed_hs, locStore, device, closed]
    rfl

/-! ### One piece of a write through the window -/

/-- The bytes of one line, stored at their home where they have one. -/
def hdmPiece (pa : Nat) (bs : List Byte) (s : State) : State :=
  match homeOf (partCount s) pa with
  | some h => storeAt causeHost h bs s
  | none => s

theorem hdmStore_cons (pa n : Nat) (cs : List (Nat × Nat)) (bs : List Byte) (s : State) :
    hdmStore ((pa, n) :: cs) bs s = hdmStore cs (bs.drop n) (hdmPiece pa (bs.take n) s) := rfl

section Keep
variable {β : Type} {f : State → β} (mem : ∀ (t : State) (m : Mem), f { t with mem := m } = f t)
  (absorbed : ∀ (t : State) (n : Nat), f { t with fr := { t.fr with absReq := n } } = f t)
  (rx : ∀ (t : State) (x : Rx), f { t with rx := x } = f t) (free : ∀ (t : State) (n : Nat), f { t with free := n } = f t)
  (waits : ∀ (t : State) (ws : List Waiter), f { t with fe := { t.fe with waiters := ws } } = f t)
include mem absorbed rx free waits

theorem hdmPiece_keep (pa : Nat) (bs : List Byte) (s : State) : f (hdmPiece pa bs s) = f s := by
  unfold hdmPiece
  split
  · exact storeAt_home_keep f mem absorbed rx free waits (home_device ‹_›) ..
  · rfl

theorem hdmStore_keep (cs : List (Nat × Nat)) (bs : List Byte) (s : State) : f (hdmStore cs bs s) = f s := by
  induction cs generalizing bs s with
  | nil => rfl
  | cons c cs ih => rw [hdmStore_cons, ih, hdmPiece_keep mem absorbed rx free waits]

end Keep

theorem partCount_hdmPiece (pa : Nat) (bs : List Byte) (s : State) : partCount (hdmPiece pa bs s) = partCount s :=
  hdmPiece_keep (fun _ _ => rfl) (fun _ _ => rfl) (fun _ _ => rfl) (fun _ _ => rfl) (fun _ _ => rfl) ..

theorem coreClosed_hdmPiece (pa : Nat) (bs : List Byte) (s : State) (a : Nat) : coreClosed (hdmPiece pa bs s) a = coreClosed s a :=
  hdmPiece_keep (f := (coreClosed · a)) (fun _ _ => rfl) (fun _ _ => rfl) (fun _ _ => rfl) (fun _ _ => rfl) (fun _ _ => rfl) ..

/-- No byte of `n` from a physical address has this home. -/
def Homeless (cnt pa n a : Nat) : Prop := ∀ i, i < n → homeOf cnt (pa + i) ≠ some a

theorem homeless_split {cnt pa n m a : Nat} (within : m ≤ n) (h : Homeless cnt pa n a) :
    Homeless cnt pa m a ∧ Homeless cnt (pa + m) (n - m) a :=
  ⟨fun i hi => h i (by omega), fun i hi => by rw [Nat.add_assoc]; exact h (m + i) (by omega)⟩

section Piece
variable {s : State} {pa : Nat} {bs : List Byte} (line : pa % 64 + bs.length ≤ 64)
include line

/-- A piece leaves every byte that is the home of none of its own. -/
theorem locByte_hdmPiece_out {a : Nat} (apart : Homeless (partCount s) pa bs.length a) : locByte (hdmPiece pa bs s) a = locByte s a := by
  unfold hdmPiece
  split
  · rename_i h home
    by_cases closed : coreClosed s h = true
    · exact locByte_absorbed closed ..
    · refine (stored_home home (by simpa using closed) causeHost (by omega)).2 a ?_
      by_contra inside
      refine apart (a - h) (by omega) ?_
      rw [homeOf_near _ _ (by omega), home, Option.map_some, Option.some_inj]
      omega
  · rfl

/-- A piece stores each of its bytes at its home. -/
theorem locByte_hdmPiece_in {i h : Nat} (inside : i < bs.length) (home : homeOf (partCount s) (pa + i) = some h)
    (opened : coreClosed s h = false) : locByte (hdmPiece pa bs s) h = bs[i] := by
  rw [homeOf_near _ _ (by omega)] at home
  obtain ⟨h0, first, rfl⟩ := Option.map_eq_some_iff.1 home
  have low : h0 % 64 = pa % 64 := by
    have := homeOf_mod first
    omega
  rw [coreClosed_near s (by omega)] at opened
  obtain ⟨bytes, -⟩ := stored_home first opened causeHost (bs := bs) (by omega)
  unfold hdmPiece
  rw [first]
  have at_ := getElem_locBytes (storeAt causeHost h0 bs s) h0 bs.length i (by rw [bytes]; exact inside)
  rw [← at_]
  simp only [bytes]

end Piece

/-! ### A write through the window, line by line -/

/-- The pieces of bytes that one line does not hold: its own, then those of the rest. -/
theorem lineChunks_cons {va n : Nat} (far : 64 < va % 64 + n) :
    lineChunks va n = (va, 64 - va % 64) :: lineChunks (va + (64 - va % 64)) (n - (64 - va % 64)) := by
  obtain ⟨k, count⟩ : ∃ k, (va % 64 + n + 63) / 64 = k + 1 := ⟨(va % 64 + n + 63) / 64 - 1, by omega⟩
  have rest : ((va + (64 - va % 64)) % 64 + (n - (64 - va % 64)) + 63) / 64 = k := by omega
  rw [lineChunks, lineChunks, count, rest, upto, upto, List.range_succ_eq_map, List.map_cons, List.map_map]
  congr 1
  · rw [Prod.mk.injEq]
    omega
  · refine List.map_congr_left fun i _ => ?_
    simp only [Function.comp_apply, Prod.mk.injEq]
    omega

/-- The pieces of bytes that one line holds: one, or none where there is no byte and the line begins here. -/
theorem lineChunks_near {va n : Nat} (near : va % 64 + n ≤ 64) : lineChunks va n = [(va, n)] ∨ (n = 0 ∧ lineChunks va n = []) := by
  by_cases some_ : 0 < n
  · exact .inl (lineChunks_of_line some_ near)
  · obtain rfl : n = 0 := by omega
    by_cases start : va % 64 = 0
    · exact .inr ⟨rfl, by simp [lineChunks, upto, start]⟩
    · have one : (va % 64 + 0 + 63) / 64 = 1 := by omega
      refine .inl ?_
      rw [lineChunks, one]
      simp only [upto, List.range_one, List.map_cons, List.map_nil]
      congr 2 <;> omega

/-- A write of one line is one piece. -/
theorem hdmStore_near {s : State} {pa : Nat} {bs : List Byte} (near : pa % 64 + bs.length ≤ 64) :
    hdmStore (lineChunks pa bs.length) bs s = hdmPiece pa bs s ∨ bs = [] ∧ hdmStore (lineChunks pa bs.length) bs s = s := by
  obtain one | ⟨none_, empty⟩ := lineChunks_near near
  · refine .inl ?_
    rw [one, hdmStore_cons, List.take_length]
    rfl
  · exact .inr ⟨List.length_eq_zero_iff.1 none_, by rw [empty]; rfl⟩

/-- A longer write: the piece of its first line, then the rest. -/
theorem hdmStore_far {s : State} {pa : Nat} {bs : List Byte} (far : 64 < pa % 64 + bs.length) :
    hdmStore (lineChunks pa bs.length) bs s =
      hdmStore (lineChunks (pa + (64 - pa % 64)) (bs.drop (64 - pa % 64)).length) (bs.drop (64 - pa % 64))
        (hdmPiece pa (bs.take (64 - pa % 64)) s) := by
  rw [lineChunks_cons far, hdmStore_cons, List.length_drop]

/-- Every byte that is the home of none that is written reads as before. -/
theorem locByte_hdmStore_out {bs : List Byte} {pa a : Nat} {s : State} (apart : Homeless (partCount s) pa bs.length a) :
    locByte (hdmStore (lineChunks pa bs.length) bs s) a = locByte s a := by
  by_cases near : pa % 64 + bs.length ≤ 64
  · obtain one | ⟨-, empty⟩ := hdmStore_near (s := s) near
    · rw [one, locByte_hdmPiece_out near apart]
    · rw [empty]
  · obtain ⟨first, rest⟩ := homeless_split (m := 64 - pa % 64) (by omega) apart
    rw [hdmStore_far (by omega), locByte_hdmStore_out, locByte_hdmPiece_out]
    · rw [List.length_take]
      omega
    · rwa [List.length_take, Nat.min_eq_left (by omega)]
    · rwa [partCount_hdmPiece, List.length_drop]
termination_by bs.length
decreasing_by simp only [List.length_drop]; omega

/-- Each byte stands at its home where no later byte of the write has the same. -/
theorem locByte_hdmStore_in {bs : List Byte} {pa i h : Nat} {s : State} (inside : i < bs.length) (home : homeOf (partCount s) (pa + i) = some h)
    (opened : coreClosed s h = false) (last : ∀ j, i < j → j < bs.length → homeOf (partCount s) (pa + j) ≠ some h) :
    locByte (hdmStore (lineChunks pa bs.length) bs s) h = bs[i] := by
  by_cases near : pa % 64 + bs.length ≤ 64
  · obtain one | ⟨rfl, -⟩ := hdmStore_near (s := s) near
    · rw [one, locByte_hdmPiece_in near inside home opened]
    · simp at inside
  · have size : (bs.take (64 - pa % 64)).length = 64 - pa % 64 := by
      rw [List.length_take]
      omega
    rw [hdmStore_far (by omega)]
    by_cases first : i < 64 - pa % 64
    · rw [locByte_hdmStore_out, locByte_hdmPiece_in (i := i) (by omega) (by omega) home opened, List.getElem_take]
      intro j hj
      rw [partCount_hdmPiece, Nat.add_assoc]
      rw [List.length_drop] at hj
      exact last _ (by omega) (by omega)
    · have later : pa + (64 - pa % 64) + (i - (64 - pa % 64)) = pa + i := by omega
      rw [locByte_hdmStore_in (i := i - (64 - pa % 64)) (by rw [List.length_drop]; omega)
        (by rw [partCount_hdmPiece, later, home]) (by rw [coreClosed_hdmPiece, opened]), List.getElem_drop]
      · congr 1
        omega
      · intro j after hj
        rw [partCount_hdmPiece, Nat.add_assoc]
        rw [List.length_drop] at hj
        exact last _ (by omega) (by omega)
termination_by bs.length
decreasing_by simp only [List.length_drop]; omega

/-! ### HDM_READ and HDM_WRITE -/

theorem memBytes_of_cells {m n : Mem} (same : n.cells = m.cells) (a k : Nat) : memBytes n a k = memBytes m a k := by
  induction k generalizing a with
  | zero => rfl
  | succ k ih => rw [memBytes, memBytes, ih, memByte, memByte, same]

theorem readLine_scrub (l : Nat) (m : Mem) : (readLine l m).scrub = m.scrub := by
  show (sansErrors (readLine l m)).scrub = (sansErrors m).scrub
  rw [readLine_sans]

theorem onlyWork_hs_of_same {s t : State} (same : t.hs = s.hs) : (onlyWork s t).hs = s.hs := by
  simp [onlyWork, keepRegs, keepQueue, keepFn, same]

section Window
variable {s : State} {addr : W64} {bytes : List Byte} {pa h : Nat}

/-- A read of a backed line: it meets the line's errors, and its host holds the line. -/
theorem hdmRead_line (target : hdmTarget s addr 1 = some pa) (fits : s.hs.hdmBad = false) (home : homeOf (partCount s) (pa / 64 * 64) = some h) :
    ∃ t, exec (.hdmRead addr) s = .next t ∧ t.mem = readLine (h / 64) s.mem ∧ t.mem.cells = s.mem.cells
      ∧ t.out = s.out ++ [.hdmData addr (memBytes s.mem h 64) (poisoned t.mem (h / 64))]
      ∧ mget false t.hs.hdmHolds (h / 64) = true ∧ t.fe = s.fe ∧ t.en = s.en ∧ t.ax = s.ax ∧ t.rx = s.rx := by
  have read : exec (.hdmRead addr) s = .next (onlyWork s (emit (.hdmData addr (memBytes (readLine (h / 64) s.mem) h 64) (poisoned (readLine (h / 64) s.mem) (h / 64)))
      { s with mem := readLine (h / 64) s.mem, hs := { s.hs with hdmHolds := mset false s.hs.hdmHolds (h / 64) true } })) := by
    show execHdmRead addr s = _
    simp only [execHdmRead, target, fits, Bool.false_eq_true, if_false, home]
  have mem : { readLine (h / 64) s.mem with scrub := s.mem.scrub } = readLine (h / 64) s.mem := by rw [← readLine_scrub (h / 64) s.mem]
  refine ⟨_, read, mem, readLine_cells .., ?_, mget_mset_self false s.hs.hdmHolds (h / 64) true, rfl, rfl, rfl, rfl⟩
  rw [memBytes_of_cells (readLine_cells (h / 64) s.mem)]
  exact congrArg (fun m => s.out ++ [Output.hdmData addr (memBytes s.mem h 64) (poisoned m (h / 64))]) mem.symm

/-- A window that does not fit, or a line with no home, reads as poison. -/
theorem hdmRead_poison (target : hdmTarget s addr 1 = some pa) (bad : s.hs.hdmBad = true ∨ homeOf (partCount s) (pa / 64 * 64) = none) :
    ∃ t, exec (.hdmRead addr) s = .next t ∧ t.out = s.out ++ [.hdmData addr [] true] ∧ t.hs = s.hs ∧ workKept s t := by
  have read : exec (.hdmRead addr) s = .next (onlyWork s (emit (.hdmData addr [] true) s)) := by
    show execHdmRead addr s = _
    cases fits : s.hs.hdmBad with
    | true => simp only [execHdmRead, target, fits, if_true]
    | false =>
      have home := bad.resolve_left (by simp [fits])
      simp only [execHdmRead, target, fits, Bool.false_eq_true, if_false, home]
  exact ⟨_, read, rfl, rfl, rfl, rfl, rfl, rfl, rfl, rfl⟩

theorem exec_hdmWrite (target : hdmTarget s addr bytes.length = some pa) (fits : s.hs.hdmBad = false) :
    exec (.hdmWrite addr bytes) s = .next (onlyWork s (hdmStore (lineChunks pa bytes.length) bytes s)) := by
  show execHdmWrite addr bytes s = _
  simp only [execHdmWrite, target, fits, Bool.false_eq_true, if_false]

theorem locByte_onlyWork (s t : State) (a : Nat) : locByte (onlyWork s t) a = locByte t a := locByte_of_same ⟨rfl, rfl⟩ a

/-- A write stores each of its bytes at the home of its own address, and no other byte. -/
theorem hdmWrite_stores (target : hdmTarget s addr bytes.length = some pa) (fits : s.hs.hdmBad = false) :
    ∃ t, exec (.hdmWrite addr bytes) s = .next t ∧ t.hs = s.hs ∧ t.en = s.en ∧ t.ax = s.ax ∧ boardKept s t
      ∧ (∀ i h, i < bytes.length → homeOf (partCount s) (pa + i) = some h → coreClosed s h = false →
          (∀ j, i < j → j < bytes.length → homeOf (partCount s) (pa + j) ≠ some h) → some (locByte t h) = bytes[i]?)
      ∧ (∀ a, (∀ i, i < bytes.length → homeOf (partCount s) (pa + i) ≠ some a) → locByte t a = locByte s a)
      ∧ (∀ h, pa % 64 + bytes.length ≤ 64 → bytes ≠ [] → homeOf (partCount s) pa = some h → coreClosed s h = false → stored s t h bytes) := by
  have kept : ∀ {β : Type} (f : State → β), (∀ (t : State) (m : Mem), f { t with mem := m } = f t) →
      (∀ (t : State) (n : Nat), f { t with fr := { t.fr with absReq := n } } = f t) → (∀ (t : State) (x : Rx), f { t with rx := x } = f t) →
      (∀ (t : State) (n : Nat), f { t with free := n } = f t) →
      (∀ (t : State) (ws : List Waiter), f { t with fe := { t.fe with waiters := ws } } = f t) →
      f (hdmStore (lineChunks pa bytes.length) bytes s) = f s := fun f h1 h2 h3 h4 h5 => hdmStore_keep h1 h2 h3 h4 h5 ..
  have hs : (hdmStore (lineChunks pa bytes.length) bytes s).hs = s.hs :=
    kept (·.hs) (fun _ _ => rfl) (fun _ _ => rfl) (fun _ _ => rfl) (fun _ _ => rfl) (fun _ _ => rfl)
  have bytesIn : ∀ i h, (inside : i < bytes.length) → homeOf (partCount s) (pa + i) = some h → coreClosed s h = false →
      (∀ j, i < j → j < bytes.length → homeOf (partCount s) (pa + j) ≠ some h) →
      locByte (onlyWork s (hdmStore (lineChunks pa bytes.length) bytes s)) h = bytes[i] := fun i h inside home opened last => by
    rw [locByte_onlyWork, locByte_hdmStore_in inside home opened last]
  have bytesOut : ∀ a, (∀ i, i < bytes.length → homeOf (partCount s) (pa + i) ≠ some a) →
      locByte (onlyWork s (hdmStore (lineChunks pa bytes.length) bytes s)) a = locByte s a := fun a apart => by
    rw [locByte_onlyWork, locByte_hdmStore_out apart]
  refine ⟨_, exec_hdmWrite target fits, onlyWork_hs_of_same hs, kept (·.en) (fun _ _ => rfl) (fun _ _ => rfl) (fun _ _ => rfl) (fun _ _ => rfl) (fun _ _ => rfl),
    kept (·.ax) (fun _ _ => rfl) (fun _ _ => rfl) (fun _ _ => rfl) (fun _ _ => rfl) (fun _ _ => rfl), ⟨rfl, onlyWork_fl .., rfl, rfl, rfl⟩,
    fun i h inside home opened last => ?_, bytesOut, fun h near some_ home opened => ⟨?_, fun a ha => ?_⟩⟩
  · rw [bytesIn i h inside home opened last, List.getElem?_eq_getElem inside]
  · have low := homeOf_mod home
    refine locBytes_eq fun i inside => bytesIn i (h + i) inside ?_ ?_ fun j after hj => ?_
    · rw [homeOf_near _ _ (by omega), home, Option.map_some]
    · rw [coreClosed_near s (by omega), opened]
    · rw [homeOf_near _ _ (by omega), home, Option.map_some]
      simp only [ne_eq, Option.some.injEq]
      omega
  · refine bytesOut a fun i inside => ?_
    rw [homeOf_near _ _ (by omega), home, Option.map_some]
    simp only [ne_eq, Option.some.injEq]
    omega

theorem hdmWrite_discards (target : hdmTarget s addr bytes.length = some pa) (bad : s.hs.hdmBad = true) :
    exec (.hdmWrite addr bytes) s = .next s := by
  have none_ : exec (.hdmWrite addr bytes) s = .next (onlyWork s s) := by
    show execHdmWrite addr bytes s = _
    simp only [execHdmWrite, target, bad, if_true]
  rw [none_, onlyWork_self]

end Window

/-- Settles O35: reads by whether their line has a home behind a window that fits, writes by the lines that their bytes lie in. -/
theorem hostWindowReadsAndWrites : Obligations.HostWindowReadsAndWrites :=
  fun _ _ _ => ⟨fun _ _ target fits home => hdmRead_line target fits home, fun _ target bad => hdmRead_poison target bad,
    fun _ target fits => hdmWrite_stores target fits, fun _ target bad => hdmWrite_discards target bad⟩

end Sys2Proof.Machine
end

section
/-! SUPPORT. The states of a host: heartbeats, the grace time and the quiesce of a function (R260, Table 12-17). -/

namespace Sys2Proof.Machine

/-! ### What a management event keeps and takes -/

theorem getFn_onlyMgmt (s t : State) (f : Bool) : getFn (onlyMgmt s t) f = keepFn (getFn s f) (getFn t f) := by cases f <;> rfl

theorem workKept_onlyMgmt {s t : State} (h : workKept s t) : workKept s (onlyMgmt s t) := by
  obtain ⟨-, fe, -, -, ob, et⟩ := h
  refine ⟨rfl, fe, rfl, rfl, ?_, et⟩
  simp [onlyMgmt, keepRegs, keepQueue, ob]

/-! ### A host state moves (R260) -/

section Attach
variable {f : Bool} {s : State}

theorem hasHost_of (on : s.pw.powered = true) (trained : (getFn s f).trainedEver = true) : hasHost s f = true := by simp [hasHost, on, trained]

theorem getFn_setAttach (f : Bool) (a : Nat) (s : State) (k : Bool) :
    getFn (setAttach f a s) k = if k = f then { getFn s f with attach := a } else getFn s k := by
  rw [setAttach, getFn_droneLog, getFn_modFn]

theorem workKept_setAttach (f : Bool) (a : Nat) (s : State) : workKept s (setAttach f a s) :=
  workKept_trans (workKept_modFn ..) (workKept_droneLog ..)

/-- The move is logged wherever what follows it leaves the log alone. -/
theorem logged_setAttach {t : State} (a : Nat) (kept : logParts t.fr = logParts (setAttach f a s).fr) :
    logged s t (droneIsland s) 1 0x0604 (b01 f) a := by
  have fr : (modFn f (fun v => { v with attach := a }) s).fr = s.fr := modFn_keep (·.fr) (fun _ _ => rfl) ..
  have up : droneUp (modFn f (fun v => { v with attach := a }) s) = droneUp s := modFn_keep droneUp (fun _ _ => rfl) ..
  have island : droneIsland (modFn f (fun v => { v with attach := a }) s) = droneIsland s := modFn_keep droneIsland (fun _ _ => rfl) ..
  rw [setAttach, droneLog, island] at kept
  exact logged_of_addLog fr up kept

/-- A heartbeat attaches its function (R260). -/
theorem hostHeartbeat_attaches (on : s.pw.powered = true) (trained : (getFn s f).trainedEver = true) (link : (getFn s f).linkUp = true) :
    ∃ t, exec (.hostHeartbeat f) s = .next t ∧ (getFn t f).attach = 0 ∧ getFn t (!f) = getFn s (!f) ∧ workKept s t
      ∧ ((getFn s f).attach ≠ 0 → logged s t (droneIsland s) 1 0x0604 (b01 f) 0) := by
  have run : exec (.hostHeartbeat f) s = .next (onlyMgmt s (heartbeat f s)) := by
    show execHostHeartbeat f s = _
    rw [execHostHeartbeat, if_pos link]
  refine ⟨_, run, ?_⟩
  rw [heartbeat, hasHost_of on trained, getFn_onlyMgmt, getFn_onlyMgmt]
  by_cases attached : (getFn s f).attach = 0
  · rw [if_neg (by simp [attached])]
    exact ⟨attached, rfl, workKept_onlyMgmt ⟨rfl, rfl, rfl, rfl, rfl, rfl⟩, fun h => absurd attached h⟩
  · rw [if_pos (by simp [attached]), getFn_setAttach, getFn_setAttach, if_pos rfl, if_neg (by simp)]
    exact ⟨rfl, rfl, workKept_onlyMgmt (workKept_setAttach ..), fun _ => logged_setAttach 0 rfl⟩

/-- Without a heartbeat the function is absent, and nothing is agreed with it (R260, R289). -/
theorem heartbeatTimeout_leaves (on : s.pw.powered = true) (trained : (getFn s f).trainedEver = true) (attached : (getFn s f).attach = 0) :
    ∃ t, exec (.heartbeatTimeout f) s = .next t ∧ (getFn t f).attach = 1 ∧ (getFn t f).negAgreed = 0
      ∧ logged s t (droneIsland s) 1 0x0604 (b01 f) 1 ∧ getFn t (!f) = getFn s (!f) ∧ workKept s t := by
  have run : exec (.heartbeatTimeout f) s = .next (onlyMgmt s (modFn f (fun v => { v with negAgreed := 0 }) (setAttach f 1 s))) := by
    show execHeartbeatTimeout f s = _
    rw [execHeartbeatTimeout, if_pos (by simp [hasHost_of on trained, attached])]
  refine ⟨_, run, ?_, ?_, ?_, ?_, workKept_onlyMgmt (workKept_trans (workKept_setAttach ..) (workKept_modFn ..))⟩
  · rw [getFn_onlyMgmt, getFn_modFn_self, getFn_setAttach, if_pos rfl]
    rfl
  · rw [getFn_onlyMgmt, getFn_modFn_self]
    rfl
  · have fr := modFn_keep (·.fr) (fun _ _ => rfl) f (fun v => { v with negAgreed := 0 }) (setAttach f 1 s)
    exact logged_setAttach 1 (show logParts (modFn f _ _).fr = _ by rw [fr])
  · rw [getFn_onlyMgmt, getFn_modFn_not, getFn_setAttach, if_neg (by simp), keepFn_self]

/-! ### The end of the grace time, and of the quiesce -/

theorem getQ_beginQuiesce (f : Bool) (s : State) (q : Nat) : getQ (beginQuiesce f s) q =
    if (getQ s q).live ∧ (getQ s q).owner = f then { getQ s q with sinkBad := true } else getQ s q := by
  have queues : (modFn f (fun v => { v with quiescing := true }) s).fe.queues = s.fe.queues := modFn_keep (·.fe.queues) (fun _ _ => rfl) ..
  have each : (fun e : Nat × Queue => if e.2.live ∧ e.2.owner = f then (e.1, { e.2 with sinkBad := true }) else e) =
      fun e => (e.1, if e.2.live ∧ e.2.owner = f then { e.2 with sinkBad := true } else e.2) := by
    funext e
    exact (apply_ite (Prod.mk e.1) _ _ e.2).symm
  rw [getQ, beginQuiesce]
  dsimp only
  rw [queues, each]
  exact mget_map {} (fun v => if v.live ∧ v.owner = f then { v with sinkBad := true } else v) rfl s.fe.queues q

theorem orphanGraceExpiry_orphans (on : s.pw.powered = true) (trained : (getFn s f).trainedEver = true) (absent : (getFn s f).attach = 1) :
    ∃ t, exec (.orphanGraceExpiry f) s = .next t ∧ (getFn t f).attach = 2 ∧ logged s t (droneIsland s) 1 0x0604 (b01 f) 2
      ∧ (droneUp s = true → (getFn t f).quiescing = true ∧ ∀ q, (getQ s q).live = true → (getQ s q).owner = f → (getQ t q).sinkBad = true)
      ∧ t.mem = s.mem ∧ t.ax = s.ax ∧ t.fe.ctxs = s.fe.ctxs := by
  have run : exec (.orphanGraceExpiry f) s =
      .next (onlyMgmt s (if droneUp s then beginQuiesce f (setAttach f 2 s) else setAttach f 2 s)) := by
    show execOrphanGraceExpiry f s = _
    rw [execOrphanGraceExpiry, if_pos (by simp [hasHost_of on trained, absent])]
  obtain ⟨-, fe, -⟩ := workKept_setAttach f 2 s
  refine ⟨_, run, ?_⟩
  rw [getFn_onlyMgmt]
  by_cases up : droneUp s = true
  · have fn : getFn (beginQuiesce f (setAttach f 2 s)) f = { getFn s f with attach := 2, quiescing := true } := by
      show getFn (modFn f _ (setAttach f 2 s)) f = _
      rw [getFn_modFn_self, getFn_setAttach, if_pos rfl]
    have fr : (beginQuiesce f (setAttach f 2 s)).fr = (setAttach f 2 s).fr :=
      modFn_keep (·.fr) (fun _ _ => rfl) f (fun v => { v with quiescing := true }) (setAttach f 2 s)
    have ctxs : (beginQuiesce f (setAttach f 2 s)).fe.ctxs = (setAttach f 2 s).fe.ctxs :=
      modFn_keep (·.fe.ctxs) (fun _ _ => rfl) f (fun v => { v with quiescing := true }) (setAttach f 2 s)
    rw [if_pos up, fn]
    refine ⟨rfl, logged_setAttach 2 (show logParts (beginQuiesce f _).fr = _ by rw [fr]), fun _ => ⟨rfl, fun q live owner => ?_⟩,
      rfl, rfl, ctxs.trans (congrArg Fe.ctxs fe)⟩
    have same : getQ (setAttach f 2 s) q = getQ s q := by rw [getQ, fe, getQ]
    show (getQ (beginQuiesce f (setAttach f 2 s)) q).sinkBad = true
    rw [getQ_beginQuiesce, same, if_pos ⟨live, owner⟩]
  · rw [if_neg up, getFn_setAttach, if_pos rfl]
    exact ⟨rfl, logged_setAttach 2 rfl, fun h => absurd h up, rfl, rfl, congrArg Fe.ctxs fe⟩

end Attach

theorem mem_queuesWhere {s : State} {test : Nat → Queue → Bool} {q : Nat} :
    q ∈ queuesWhere s test ↔ (getQ s q).live = true ∧ test q (getQ s q) = true := by
  unfold queuesWhere
  simp only [List.mem_filter, Bool.and_eq_true]
  refine ⟨And.right, fun h => ⟨?_, h⟩⟩
  by_contra absent
  have live := h.1
  rw [getQ, mget_of_not_listed absent] at live
  cases live

/-- A change of each listed queue that is the same once as twice. -/
theorem getQ_foldl_modQ {g : Queue → Queue} (once : ∀ v, g (g v) = g v) (qs : List Nat) (s : State) (k : Nat) :
    getQ (qs.foldl (fun t q => modQ q g t) s) k = if k ∈ qs then g (getQ s k) else getQ s k := by
  induction qs generalizing s with
  | nil => rfl
  | cons q qs ih =>
    rw [List.foldl_cons, ih, getQ_modQ]
    by_cases here : k = q <;> by_cases later : k ∈ qs <;> simp [here, later, once]

/-- The same for contexts. -/
theorem getCtx_foldl_setCtx {g : Ctx → Ctx} (once : ∀ x, g (g x) = g x) (cs : List Nat) (s : State) (k : Nat) :
    getCtx (cs.foldl (fun t c => setCtx c (g (getCtx t c)) t) s) k = if k ∈ cs then g (getCtx s k) else getCtx s k := by
  induction cs generalizing s with
  | nil => rfl
  | cons c cs ih =>
    rw [List.foldl_cons, ih, getCtx_setCtx]
    by_cases here : k = c <;> by_cases later : k ∈ cs <;> simp [here, later, once]

/-- A context after the quiesce of its function: one under reset takes the state when the reset ends (Table 12-15). -/
def quiesced (x : Ctx) : Ctx := if x.state = ctxResetting then { x with prior := ctxQuiesced } else { x with state := ctxQuiesced }

theorem quiesced_once (x : Ctx) : quiesced (quiesced x) = quiesced x := by
  unfold quiesced
  split
  · simp_all
  · simp [ctxQuiesced, ctxResetting]

/-- What the end of the quiesce makes of the queues and contexts of a function. -/
def quiesceAll (f : Bool) (s : State) : State :=
  (ownedCtxs s f).foldl (fun t c => setCtx c (quiesced (getCtx t c)) t)
    ((queuesWhere s fun _ v => v.owner == f).foldl (fun t q => modQ q (fun v => { v with state := qHalted }) t) s)

section QuiesceAll
variable (f : Bool) (s : State)

theorem foldl_keep {α β : Type} (p : State → β) {step : State → α → State} (each : ∀ t x, p (step t x) = p t) (xs : List α) (s : State) :
    p (xs.foldl step s) = p s := by
  induction xs generalizing s with
  | nil => rfl
  | cons x xs ih => rw [List.foldl_cons, ih, each]

theorem getCtx_quiesceAll (c : Nat) :
    getCtx (quiesceAll f s) c = if (getCtx s c).state ≠ ctxFree ∧ (getCtx s c).owner = f then quiesced (getCtx s c) else getCtx s c := by
  have kept := foldl_keep (getCtx · c) (step := fun t q => modQ q (fun v => { v with state := qHalted }) t) (fun _ _ => rfl)
    (queuesWhere s fun _ v => v.owner == f) s
  simp only [quiesceAll, getCtx_foldl_setCtx quiesced_once, mem_ownedCtxs, kept]

theorem getQ_quiesceAll (q : Nat) :
    getQ (quiesceAll f s) q = if (getQ s q).live = true ∧ (getQ s q).owner = f then { getQ s q with state := qHalted } else getQ s q := by
  have halted := getQ_foldl_modQ (g := fun v => { v with state := qHalted }) (fun _ => rfl) (queuesWhere s fun _ v => v.owner == f) s q
  simp only [mem_queuesWhere, beq_iff_eq] at halted
  exact (foldl_keep (getQ · q) (step := fun t c => setCtx c (quiesced (getCtx t c)) t) (fun _ _ => rfl) ..).trans halted

end QuiesceAll

/-- The end of the quiesce of an orphaned function (R260). -/
theorem exec_quiesceComplete {f : Bool} {s : State} (orphaned : (getFn s f).attach = 2) (quiescing : (getFn s f).quiescing = true)
    (done : ∀ q, (getQ s q).live = true → (getQ s q).owner = f → ∀ x ∈ (getQ s q).inflight, settled s q x = true) :
    exec (.quiesceComplete f) s = .next (onlyMgmt s (setAttach f 3
      (modFn f (fun v => { v with quiescing := false, adminCfg := v.adminCfg &&& 0x3FF#64 }) (quiesceAll f s)))) := by
  have all_ : ((queuesWhere s fun _ v => v.owner == f).all fun q => (getQ s q).inflight.all (settled s q)) = true := by
    simp only [List.all_eq_true, mem_queuesWhere, beq_iff_eq, and_imp]
    exact done
  show execQuiesceComplete f s = _
  simp only [execQuiesceComplete, quiescing, all_, Bool.and_self, if_true, if_pos orphaned]
  rfl

theorem quiesceComplete_quiesces {f : Bool} {s : State} (orphaned : (getFn s f).attach = 2) (quiescing : (getFn s f).quiescing = true)
    (done : ∀ q, (getQ s q).live = true → (getQ s q).owner = f → ∀ x ∈ (getQ s q).inflight, settled s q x = true) :
    ∃ t, exec (.quiesceComplete f) s = .next t ∧ (getFn t f).attach = 3 ∧ (getFn t f).quiescing = false
      ∧ (getFn t f).adminCfg.getLsbD 63 = false
      ∧ (∀ c, (getCtx s c).state ≠ ctxFree → (getCtx s c).owner = f →
          getCtx t c = if (getCtx s c).state = ctxResetting then { getCtx s c with prior := ctxQuiesced } else { getCtx s c with state := ctxQuiesced })
      ∧ (∀ q, (getQ s q).live = true → (getQ s q).owner = f → (getQ t q).state = qHalted)
      ∧ t.mem = s.mem := by
  refine ⟨_, exec_quiesceComplete orphaned quiescing done, ?_⟩
  obtain ⟨-, fe, -⟩ := workKept_trans (workKept_modFn f (fun v => { v with quiescing := false, adminCfg := v.adminCfg &&& 0x3FF#64 }) (quiesceAll f s))
    (workKept_setAttach f 3 _)
  rw [getFn_onlyMgmt, getFn_setAttach, if_pos rfl, getFn_modFn_self]
  refine ⟨rfl, rfl, ?_, fun c busy own => ?_, fun q live own => ?_, rfl⟩
  · simp [keepFn]
  · show mget {} (setAttach f 3 _).fe.ctxs c = _
    rw [fe]
    exact (getCtx_quiesceAll f s c).trans (if_pos ⟨busy, own⟩)
  · show (mget {} (setAttach f 3 _).fe.queues q).state = _
    rw [fe]
    exact congrArg Queue.state ((getQ_quiesceAll f s q).trans (if_pos ⟨live, own⟩))

/-- Settles O36: one lemma for each event, in the order of the statement. -/
theorem hostStatesMove : Obligations.HostStatesMove :=
  fun _ _ on trained => ⟨hostHeartbeat_attaches on trained, heartbeatTimeout_leaves on trained, orphanGraceExpiry_orphans on trained,
    quiesceComplete_quiesces⟩

end Sys2Proof.Machine
end

section
/-! SUPPORT. Context control: what reset, resume and the translation invalidation of one context leave alone (R254, Table 12-15). -/

namespace Sys2Proof.Machine

/-! ### The end of a control command -/

theorem getCtx_onlyWork (s t : State) (k : Nat) : getCtx (onlyWork s t) k = getCtx t k := rfl

theorem getFn_of_hs {s t : State} (hs : t.hs = s.hs) (f : Bool) : getFn t f = getFn s f := by
  unfold getFn
  rw [hs]

section ControlEnd
variable {f : Bool} {op : Nat} {e : Entry} {s u : State}

theorem adminBusy_of_adminCmd (cmd : adminCmd s f op = some e) : ∃ b, (getFn s f).adminBusy = some b ∧ b.entry = e := by
  unfold adminCmd at cmd
  split at cmd
  · split at cmd
    · exact ⟨_, ‹_›, Option.some.inj cmd⟩
    · cases cmd
  · cases cmd

/-- The end of a control command sets its function's admin command, and records a fault where it did not end with DONE. -/
theorem ctlEnd_keep {β : Type} (p : State → β) (fn : ∀ f x t, p (setFn f x t) = p t) (record : ∀ r t, p (addFault r true t) = p t)
    (f : Bool) (st cls reason a0 a1 : Nat) (s : State) : p (ctlEnd f st cls reason a0 a1 s) = p s := by
  unfold ctlEnd
  dsimp only
  split
  · rfl
  · split
    · exact fn ..
    · exact (record ..).trans (fn ..)

theorem setFn_mem (f : Bool) (x : Fn) (s : State) : (setFn f x s).mem = s.mem := by cases f <;> rfl
theorem setFn_fe (f : Bool) (x : Fn) (s : State) : (setFn f x s).fe = s.fe := by cases f <;> rfl
theorem setFn_fr (f : Bool) (x : Fn) (s : State) : (setFn f x s).fr = s.fr := by cases f <;> rfl
theorem setFn_en (f : Bool) (x : Fn) (s : State) : (setFn f x s).en = s.en := by cases f <;> rfl
theorem setFn_hostMem (f : Bool) (x : Fn) (s : State) : (setFn f x s).hs.hostMem = s.hs.hostMem := by cases f <;> rfl
theorem setFn_hostPoison (f : Bool) (x : Fn) (s : State) : (setFn f x s).hs.hostPoison = s.hs.hostPoison := by cases f <;> rfl

section Keep
variable (f : Bool) (st cls reason a0 a1 : Nat) (s : State)

@[simp] theorem ctlEnd_mem : (ctlEnd f st cls reason a0 a1 s).mem = s.mem := ctlEnd_keep (·.mem) setFn_mem (fun _ _ => addFault_mem ..) ..
@[simp] theorem ctlEnd_fe : (ctlEnd f st cls reason a0 a1 s).fe = s.fe := ctlEnd_keep (·.fe) setFn_fe (fun _ _ => addFault_fe ..) ..
@[simp] theorem ctlEnd_hostMem : (ctlEnd f st cls reason a0 a1 s).hs.hostMem = s.hs.hostMem :=
  ctlEnd_keep (·.hs.hostMem) setFn_hostMem (fun _ _ => congrArg Hs.hostMem (addFault_hs ..)) ..
@[simp] theorem ctlEnd_hostPoison : (ctlEnd f st cls reason a0 a1 s).hs.hostPoison = s.hs.hostPoison :=
  ctlEnd_keep (·.hs.hostPoison) setFn_hostPoison (fun _ _ => congrArg Hs.hostPoison (addFault_hs ..)) ..
@[simp] theorem getQc_ctlEnd (k : Nat) : getQc (ctlEnd f st cls reason a0 a1 s) k = getQc s k :=
  ctlEnd_keep (getQc · k) (fun f _ _ => by cases f <;> rfl) (fun _ _ => getQc_addFault ..) ..
@[simp] theorem getQ_ctlEnd (k : Nat) : getQ (ctlEnd f st cls reason a0 a1 s) k = getQ s k := by rw [getQ, ctlEnd_fe, getQ]
@[simp] theorem getCtx_ctlEnd (k : Nat) : getCtx (ctlEnd f st cls reason a0 a1 s) k = getCtx s k := by rw [getCtx, ctlEnd_fe, getCtx]
@[simp] theorem getGraph_ctlEnd (k : Nat) : getGraph (ctlEnd f st cls reason a0 a1 s) k = getGraph s k := by rw [getGraph, ctlEnd_fe, getGraph]

end Keep

/-- A command that ends with DONE leaves no record. -/
theorem ctlEnd_done_keep {β : Type} (p : State → β) (fn : ∀ f x t, p (setFn f x t) = p t) (f : Bool) (s : State) :
    p (ctlEnd f 0 0 0 0 0 s) = p s := by
  unfold ctlEnd
  dsimp only
  split
  · rfl
  · exact fn ..

theorem ctlEnd_done_en (f : Bool) (s : State) : (ctlEnd f 0 0 0 0 0 s).en = s.en := ctlEnd_done_keep (·.en) setFn_en ..

theorem getFn_ctlEnd (f : Bool) (st cls reason a0 a1 : Nat) (s : State) :
    (getFn (ctlEnd f st cls reason a0 a1 s) f).adminBusy = (getFn s f).adminBusy.map fun b => { b with result := some st } := by
  have set_ : ∀ x t, getFn (setFn f x t) f = x := fun x t => by cases f <;> rfl
  unfold ctlEnd
  dsimp only
  cases busy : (getFn s f).adminBusy with
  | none => exact busy
  | some b =>
    dsimp only
    split
    · rw [set_]
      rfl
    · rw [getFn, addFault_hs, ← getFn, set_]
      rfl

theorem adminBusy_onlyWork (s t : State) (f : Bool) : (getFn (onlyWork s t) f).adminBusy = (getFn t f).adminBusy := by cases f <;> rfl

theorem adminEnded_ctlEnd (busy : (getFn u f).adminBusy = (getFn s f).adminBusy) (st cls reason a0 a1 : Nat) :
    adminEnded s (onlyWork s (ctlEnd f st cls reason a0 a1 u)) f st := by
  intro b was
  rw [adminBusy_onlyWork, getFn_ctlEnd, busy, was]
  rfl

theorem bytesKept_of_onlyWork {t : State} (kept : bytesKept u t) : bytesKept u (onlyWork s t) := kept

theorem bytesKept_ctlEnd (f : Bool) (st cls reason a0 a1 : Nat) (u : State) : bytesKept u (ctlEnd f st cls reason a0 a1 u) := by
  refine ⟨⟨?_, ?_⟩, ?_, ?_, ?_⟩ <;> simp

/-- A command that does not end with DONE leaves one record. -/
theorem faultAdded_ctlEnd (cmd : adminCmd s f op = some e) (busy : (getFn u f).adminBusy = (getFn s f).adminBusy)
    (count : u.fr.faultCount = s.fr.faultCount) {st : Nat} (failed : st ≠ stDone) (cls reason a0 a1 : Nat) :
    faultAdded s (onlyWork s (ctlEnd f st cls reason a0 a1 u)) cls st reason := by
  obtain ⟨b, was, -⟩ := adminBusy_of_adminCmd cmd
  unfold ctlEnd
  dsimp only
  rw [busy, was]
  dsimp only
  rw [if_neg failed]
  have added := faultAdded_addFault (s := u) (setFn_fr f { getFn u f with adminBusy := some { b with result := some st } } u)
    (ctlRec (setFn f { getFn u f with adminBusy := some { b with result := some st } } u) f b.entry.seq cls st reason a0 a1) true
  exact faultAdded_of_same (faultAdded_since count added) rfl rfl

end ControlEnd

/-! ### What the end of a context's work leaves of its queue contexts -/

theorem getQc_endChunk_ne {q k : Nat} (other : k ≠ q) (st : Nat) (s : State) : getQc (endChunk st q s) k = getQc s k := by
  unfold endChunk
  dsimp only
  split
  · rw [getQc_traceEng, getQc_setEng]
  · rw [getQc_modQc, if_neg other]
  · rfl

/-- The queue context whose work ends holds no command. -/
theorem endQc_idle (st q : Nat) (s : State) : (getQc (endQc st q s) q).cmd = none := by
  unfold endQc
  dsimp only
  rw [getQc_setQc, if_pos rfl]
  rfl

theorem getQc_endQc_ne {q k : Nat} (other : k ≠ q) (st : Nat) (s : State) : getQc (endQc st q s) k = getQc s k := by
  unfold endQc
  extract_lets s0 s1 qc j s2 s3
  have ended : getQc s1 k = getQc s k := by
    show getQc (if _ then _ else _) k = _
    split
    · rw [getQc_cmdEnds, getQc_endChunk_ne other]
    · rw [getQc_endChunk_ne other]
  rw [getQc_setQc, if_neg other, getQc_leaveEng, ← ended]
  show getQc (if _ then _ else _) k = _
  split <;> rfl

/-- One whose work ends, or that held no command, holds none. -/
theorem foldl_endQc_idle {k : Nat} (st : Nat) (qs : List Nat) (s : State) (h : k ∈ qs ∨ (getQc s k).cmd = none) :
    (getQc (qs.foldl (fun t q => endQc st q t) s) k).cmd = none := by
  induction qs generalizing s with
  | nil => exact h.resolve_left List.not_mem_nil
  | cons q qs ih =>
    refine ih _ ?_
    by_cases here : k = q
    · exact .inr (here ▸ endQc_idle ..)
    · rw [getQc_endQc_ne here]
      exact h.imp_left fun inside => (List.mem_cons.1 inside).resolve_left here

theorem mem_qcsWhere {s : State} {test : Nat → QCtx → Bool} {q : Nat} :
    q ∈ qcsWhere s test ↔ (getQc s q).live = true ∧ test q (getQc s q) = true := by
  unfold qcsWhere
  simp only [List.mem_filter, Bool.and_eq_true]
  refine ⟨And.right, fun h => ⟨?_, h⟩⟩
  by_contra absent
  have live := h.1
  rw [getQc, mget_of_not_listed absent] at live
  cases live

theorem getQc_modPart (p : Nat) (g : AxPart → AxPart) (s : State) (k : Nat) : getQc (modPart p g s) k = getQc s k := rfl
theorem getQc_addReset (r : RunReset) (s : State) (k : Nat) : getQc (addReset r s) k = getQc s k := rfl

theorem getQc_axShadows (p st : Nat) (sel : AxCmd → Bool) (s : State) (k : Nat) : getQc (axShadows p st sel s) k = getQc s k :=
  foldl_keep (getQc · k) (step := fun t c => axShadow p c st c.nums t) (fun t c => by unfold axShadow; rw [getQc_traceEng, getQc_modPart]) _ s

/-- The VX, DM and AX queue contexts of a context whose work ends hold no command. -/
theorem endCtxWork_idle {c q : Nat} {s : State} (live : (getQc s q).live = true) (of : (getQc s q).ctx = c) (kind : qKind q ≤ kAX)
    (st : Nat) (fabric : Bool) : (getQc (endCtxWork c st fabric s) q).cmd = none := by
  unfold endCtxWork
  extract_lets cx s0 s1 fe1 s2 qs s3 s4 fe4 s5 s6 s7
  have same : getQc s2 q = getQc s q := by
    show getQc s1 q = _
    have first : getQc s0 q = getQc s q := by
      show getQc (if _ then _ else _) q = _
      split <;> rfl
    rw [← first]
    show getQc (if _ then _ else _) q = _
    split <;> rfl
  have idle : (getQc s3 q).cmd = none := foldl_endQc_idle st qs s2 (.inl (mem_qcsWhere.2 (by simp [same, live, of, kind])))
  have arrays : getQc s6 q = getQc s5 q := foldl_keep (getQc · q) (fun t p => getQc_axShadows p st _ t q) _ s5
  show (getQc s6 q).cmd = none
  rw [arrays]
  exact idle

/-! ### Contexts -/

/-- A new context, in reset where its partition is (R240). -/
def ctxMade (c : Nat) (x : Ctx) (hold : Bool) (s : State) : State :=
  let s1 := enterState c ctxActive (setCtx c x s)
  if hold then setCtx c { x with state := ctxResetting, prior := ctxActive } s1 else s1

theorem enterState_keep {β : Type} (p : State → β) (ctx : ∀ c x t, p (setCtx c x t) = p t)
    (fr : ∀ (t : State) (x : Fr), p { t with fr := x } = p t) (c st : Nat) (s : State) : p (enterState c st s) = p s := by
  unfold enterState
  dsimp only
  split
  · exact (fr ..).trans (ctx ..)
  · exact ctx ..

theorem ctxMade_keep {β : Type} (p : State → β) (ctx : ∀ c x t, p (setCtx c x t) = p t)
    (fr : ∀ (t : State) (x : Fr), p { t with fr := x } = p t) (c : Nat) (x : Ctx) (hold : Bool) (s : State) : p (ctxMade c x hold s) = p s := by
  unfold ctxMade
  dsimp only
  split
  · exact (ctx ..).trans ((enterState_keep p ctx fr ..).trans (ctx ..))
  · exact (enterState_keep p ctx fr ..).trans (ctx ..)

theorem ctxMade_mem (c : Nat) (x : Ctx) (hold : Bool) (s : State) : (ctxMade c x hold s).mem = s.mem :=
  ctxMade_keep (·.mem) (fun _ _ _ => rfl) (fun _ _ => rfl) ..
theorem ctxMade_hs (c : Nat) (x : Ctx) (hold : Bool) (s : State) : (ctxMade c x hold s).hs = s.hs :=
  ctxMade_keep (·.hs) (fun _ _ _ => rfl) (fun _ _ => rfl) ..
theorem ctxMade_en (c : Nat) (x : Ctx) (hold : Bool) (s : State) : (ctxMade c x hold s).en = s.en :=
  ctxMade_keep (·.en) (fun _ _ _ => rfl) (fun _ _ => rfl) ..

theorem getCtx_ctxMade {c : Nat} {x : Ctx} (active : x.state = ctxActive) (hold : Bool) (s : State) (k : Nat) :
    getCtx (ctxMade c x hold s) k =
      if k = c then (if hold then { x with state := ctxResetting, prior := ctxActive } else x) else getCtx s k := by
  have same : { x with state := ctxActive } = x := by rw [← active]
  have entered : getCtx (enterState c ctxActive (setCtx c x s)) k = if k = c then x else getCtx s k := by
    show getCtx (setCtx c _ (setCtx c x s)) k = _
    rw [getCtx_setCtx, getCtx_setCtx, getCtx_setCtx, if_pos rfl, same]
    split <;> rfl
  unfold ctxMade
  cases hold with
  | false => exact entered
  | true =>
    show getCtx (setCtx c _ _) k = _
    rw [getCtx_setCtx, entered]
    split <;> rfl

section Contexts
variable {f : Bool} {s : State} {e : Entry}

theorem ownsCtx_iff {c : Nat} : ownsCtx s f c = true ↔ (getCtx s c).state ≠ ctxFree ∧ (getCtx s c).owner = f := by
  simp [ownsCtx]

/-- The bytes and marks are memory's and the hosts' alone. -/
theorem bytesKept_of_mem {s t : State} (cells : t.mem.cells = s.mem.cells) (marks : t.mem.marks = s.mem.marks)
    (chest : t.mem.chestPoison = s.mem.chestPoison) (hs : t.hs = s.hs) : bytesKept s t :=
  ⟨⟨cells, congrArg Hs.hostMem hs⟩, marks, chest, congrArg Hs.hostPoison hs⟩

theorem bytesKept_ctxReset (c st : Nat) (fabric : Bool) (s : State) : bytesKept s (ctxReset c st fabric s) := by
  have same := ctxReset_sansCtxs_any c st fabric s
  exact bytesKept_of_mem (congrArg (·.mem.cells) same :) (congrArg (·.mem.marks) same :) (congrArg (·.mem.chestPoison) same :)
    (congrArg (·.hs) same :)

/-- What a command's reset asks of the resets that run is that of the reset of its context. -/
theorem mem_ctlReset {c : Nat} {fabric free : Bool} {r : RunReset} (runs : r ∈ (ctxReset c stCtxReset fabric s).fr.resets)
    (dom : r.dom = .context c) : { r with thenFree := r.thenFree || free, ctl := some f } ∈ (ctlReset f c fabric free s).fr.resets :=
  List.mem_map.2 ⟨r, runs, if_pos dom⟩

theorem getCtx_ctxReset_ne {c k : Nat} (other : k ≠ c) (st : Nat) (fabric : Bool) (s : State) : getCtx (ctxReset c st fabric s) k = getCtx s k :=
  (getCtx_ctxReset_any c st fabric s k).resolve_right fun h => other h.1

/-- A context that is not free is under reset once its reset has been asked for with its fabric work. -/
theorem ctxReset_runs {c : Nat} (busy : (getCtx s c).state ≠ ctxFree) (st : Nat) :
    (getCtx (ctxReset c st true s) c).state = ctxResetting ∧ ∃ r ∈ (ctxReset c st true s).fr.resets, r.dom = .context c := by
  refine ⟨?_, ?_⟩
  · rw [getCtx_ctxReset, if_pos rfl, toReset]
    split
    · exact (‹_ ∨ _›).resolve_left busy
    · rfl
  · by_cases runs : ctxResetRuns s c = true
    · obtain ⟨r, inside, dom⟩ := List.any_eq_true.1 runs
      obtain ⟨rs, resets, -⟩ := ctxReset_resets c st true s
      rw [resets]
      exact ⟨r, List.mem_append_left _ inside, by simpa using dom⟩
    · unfold ctxReset
      rw [if_neg busy]
      dsimp only
      rw [if_neg runs]
      exact ⟨_, List.mem_append_right _ (List.mem_singleton.2 rfl), rfl⟩

/-- CTX_DESTROY (R254, R308). -/
theorem exec_ctxDestroy_resets (cmd : adminCmd s f 0x21 = some e) (range : cmdArg e.cmd 0 < 256) (a1 : cmdArg e.cmd 1 = 0) (a2 : cmdArg e.cmd 2 = 0)
    (own : ownsCtx s f (cmdArg e.cmd 0) = true) :
    ∃ t, exec (.ctxDestroy f) s = .next t ∧ (getCtx t (cmdArg e.cmd 0)).state = ctxResetting
      ∧ (∃ r ∈ t.fr.resets, r.dom = .context (cmdArg e.cmd 0) ∧ r.thenFree = true ∧ r.ctl = some f)
      ∧ (∀ k, k ≠ cmdArg e.cmd 0 → getCtx t k = getCtx s k) ∧ bytesKept s t := by
  have run : exec (.ctxDestroy f) s = .next (onlyWork s (ctlReset f (cmdArg e.cmd 0) true true s)) := by
    show execCtxDestroy f s = _
    simp only [execCtxDestroy, cmd]
    rw [if_neg (by simp [a1, a2, own]; omega)]
  obtain ⟨state, r, runs, dom⟩ := ctxReset_runs (ownsCtx_iff.1 own).1 stCtxReset
  exact ⟨_, run, state, ⟨_, mem_ctlReset runs dom, dom, Bool.or_true _, rfl⟩, fun _ other => getCtx_ctxReset_ne other stCtxReset true s,
    bytesKept_of_onlyWork (bytesKept_ctxReset (cmdArg e.cmd 0) stCtxReset true s)⟩

/-- CTX_RESET (R308). -/
theorem exec_ctxReset_resets (cmd : adminCmd s f 0x22 = some e) (range : cmdArg e.cmd 0 < 256) (a1 : cmdArg e.cmd 1 ≤ 1) (a2 : cmdArg e.cmd 2 = 0)
    (own : ownsCtx s f (cmdArg e.cmd 0) = true) (fresh : ctxResetRuns s (cmdArg e.cmd 0) = false) (alone : largerRuns s (cmdArg e.cmd 0) = false) :
    ∃ t, exec (.ctxReset f) s = .next t ∧ (getCtx t (cmdArg e.cmd 0)).state = ctxResetting
      ∧ (∃ r ∈ t.fr.resets, r.dom = .context (cmdArg e.cmd 0) ∧ r.fabric = decide (cmdArg e.cmd 1 = 1) ∧ r.thenFree = false ∧ r.ctl = some f)
      ∧ (∀ q, (getQc s q).live = true → (getQc s q).ctx = cmdArg e.cmd 0 → qKind q ≤ kAX → (getQc t q).cmd = none)
      ∧ (∀ k, k ≠ cmdArg e.cmd 0 → getCtx t k = getCtx s k) ∧ bytesKept s t := by
  have run : exec (.ctxReset f) s = .next (onlyWork s (ctlReset f (cmdArg e.cmd 0) (cmdArg e.cmd 1 == 1) false s)) := by
    show execCtxReset f s = _
    simp only [execCtxReset, cmd]
    rw [if_neg (by simp [a2, own]; omega)]
  have busy := (ownsCtx_iff.1 own).1
  obtain ⟨fr, -, -, -, -, state⟩ := ctxReset_begun (st := stCtxReset) (fabric := cmdArg e.cmd 1 == 1) busy fresh alone
  have runs : { dom := .context (cmdArg e.cmd 0), status := stCtxReset, fabric := cmdArg e.cmd 1 == 1 }
      ∈ (ctxReset (cmdArg e.cmd 0) stCtxReset (cmdArg e.cmd 1 == 1) s).fr.resets := by
    rw [fr]
    exact List.mem_append_right _ (List.mem_singleton.2 rfl)
  refine ⟨_, run, state, ⟨_, mem_ctlReset runs rfl, rfl, rfl, rfl, rfl⟩, fun q live of kind => ?_, fun _ other => getCtx_ctxReset_ne other stCtxReset _ s,
    bytesKept_of_onlyWork (bytesKept_ctxReset (cmdArg e.cmd 0) stCtxReset _ s)⟩
  show (getQc (ctxReset _ _ _ s) q).cmd = none
  rw [ctxReset_new busy fresh alone, getQc_addReset]
  exact endCtxWork_idle live of kind ..

/-- CTX_RESUME (R260). -/
theorem exec_ctxResume_activates (cmd : adminCmd s f 0x23 = some e) (range : cmdArg e.cmd 0 < 256) (a1 : cmdArg e.cmd 1 = 0) (a2 : cmdArg e.cmd 2 = 0)
    (own : ownsCtx s f (cmdArg e.cmd 0) = true) (quiesced : (getCtx s (cmdArg e.cmd 0)).state = ctxQuiesced) (agreed : (getFn s f).negAgreed ≠ 0)
    (good : anySinkBad s (cmdArg e.cmd 0) = false) :
    ∃ u, exec (.ctxResume f) s = .next (onlyWork s (ctlEnd f 0 0 0 0 0 (resumeQueues (cmdArg e.cmd 0) u)))
      ∧ (getCtx u (cmdArg e.cmd 0)).state = ctxActive ∧ (∀ k, k ≠ cmdArg e.cmd 0 → getCtx u k = getCtx s k)
      ∧ u.fe.queues = s.fe.queues ∧ bytesKept s u := by
  have run : exec (.ctxResume f) s =
      .next (onlyWork s (ctlEnd f 0 0 0 0 0 (resumeQueues (cmdArg e.cmd 0) (enterState (cmdArg e.cmd 0) ctxActive s)))) := by
    show execCtxResume f s = _
    simp only [execCtxResume, cmd]
    rw [if_neg (by simp [a1, a2, own]; omega), if_neg (by simp [inSinkLost, quiesced, ctxSinkLost, ctxQuiesced]),
      if_neg (by rintro (h | h | h); exacts [h quiesced, agreed h, by simp [good] at h])]
    rfl
  have ctx : ∀ k, getCtx (enterState (cmdArg e.cmd 0) ctxActive s) k =
      if k = cmdArg e.cmd 0 then { getCtx s (cmdArg e.cmd 0) with state := ctxActive } else getCtx s k := fun k => getCtx_setCtx ..
  refine ⟨_, run, ?_, fun k other => ?_, rfl, ⟨rfl, rfl⟩, rfl, rfl, rfl⟩
  · rw [ctx, if_pos rfl]
  · rw [ctx, if_neg other]

/-- XLAT_INVAL of a context, or of pages of it, ends once it has dropped them (R92, Table 12-15). -/
theorem exec_xlatInval (cmd : adminCmd s f 0x28 = some e) (range : cmdArg e.cmd 0 < 256) (a1 : cmdArg e.cmd 1 % 2 ^ 21 = 0)
    (a2 : cmdArg e.cmd 2 % 2 ^ 21 = 0) (ranges : cmdArg e.cmd 2 = 0 ∨ agreed s f 20 = true) (own : ownsCtx s f (cmdArg e.cmd 0) = true)
    (found : inSinkLost s (cmdArg e.cmd 0) = false) :
    exec (.xlatInval f) s = .next (onlyWork s (ctlEnd f 0 0 0 0 0 (if cmdArg e.cmd 2 = 0 then dropXlat (cmdArg e.cmd 0) s
      else dropXlatRange (cmdArg e.cmd 0) (cmdArg e.cmd 1) (cmdArg e.cmd 2) s))) := by
  show execXlatInval f s = _
  simp only [execXlatInval, cmd]
  have sound : ¬(256 ≤ cmdArg e.cmd 0 ∨ cmdArg e.cmd 1 % 2 ^ 21 ≠ 0 ∨ cmdArg e.cmd 2 % 2 ^ 21 ≠ 0 ∨
      (cmdArg e.cmd 2 ≠ 0 ∧ (!agreed s f 20) = true) ∨ (!ownsCtx s f (cmdArg e.cmd 0)) = true) := by
    rintro (h | h | h | ⟨some_, off⟩ | h)
    · omega
    · exact h a1
    · exact h a2
    · simp [ranges.resolve_left some_] at off
    · simp [own] at h
  rw [if_neg sound, if_neg (by simp [found])]
  rfl

theorem xlatInval_context (cmd : adminCmd s f 0x28 = some e) (range : cmdArg e.cmd 0 < 256) (a1 : cmdArg e.cmd 1 % 2 ^ 21 = 0)
    (a2 : cmdArg e.cmd 2 = 0) (own : ownsCtx s f (cmdArg e.cmd 0) = true) (found : inSinkLost s (cmdArg e.cmd 0) = false) :
    ∃ t, exec (.xlatInval f) s = .next t ∧ adminEnded s t f 0 ∧ (∀ k, k / 2 ^ 36 = cmdArg e.cmd 0 → mget {} t.mem.xcache k = {})
      ∧ (∀ k, k / 2 ^ 36 ≠ cmdArg e.cmd 0 → mget {} t.mem.xcache k = mget {} s.mem.xcache k) ∧ bytesKept s t ∧ t.fe = s.fe := by
  have run := exec_xlatInval cmd range a1 (by rw [a2]; rfl) (.inl a2) own found
  rw [if_pos a2] at run
  have cache : ∀ k, mget {} (onlyWork s (ctlEnd f 0 0 0 0 0 (dropXlat (cmdArg e.cmd 0) s))).mem.xcache k =
      if (k / 2 ^ 36 == cmdArg e.cmd 0) = true then {} else mget {} s.mem.xcache k := fun k => by
    show mget {} (ctlEnd _ _ _ _ _ _ _).mem.xcache k = _
    rw [ctlEnd_mem]
    exact mget_mdrop ..
  refine ⟨_, run, adminEnded_ctlEnd (u := dropXlat (cmdArg e.cmd 0) s) (congrArg Fn.adminBusy (getFn_of_hs rfl f)) 0 0 0 0 0,
    fun k here => ?_, fun k other => ?_, bytesKept_of_onlyWork (bytesKept_ctlEnd f 0 0 0 0 0 _), ctlEnd_fe ..⟩
  · rw [cache, if_pos (by simpa using here)]
  · rw [cache, if_neg (by simpa using other)]

theorem xlatInval_range (cmd : adminCmd s f 0x28 = some e) (range : cmdArg e.cmd 0 < 256) (a1 : cmdArg e.cmd 1 % 2 ^ 21 = 0)
    (a2 : cmdArg e.cmd 2 % 2 ^ 21 = 0) (some_ : cmdArg e.cmd 2 ≠ 0) (ranges : agreed s f 20 = true) (own : ownsCtx s f (cmdArg e.cmd 0) = true)
    (found : inSinkLost s (cmdArg e.cmd 0) = false) :
    ∃ t, exec (.xlatInval f) s = .next t ∧ adminEnded s t f 0 ∧ bytesKept s t ∧ t.fe = s.fe
      ∧ ∀ k, mget {} t.mem.xcache k = if k / 2 ^ 36 = cmdArg e.cmd 0 ∧ cmdArg e.cmd 1 / 2 ^ 21 ≤ k % 2 ^ 36
          ∧ k % 2 ^ 36 < (cmdArg e.cmd 1 + cmdArg e.cmd 2) / 2 ^ 21 then {} else mget {} s.mem.xcache k := by
  have run := exec_xlatInval cmd range a1 a2 (.inr ranges) own found
  rw [if_neg some_] at run
  refine ⟨_, run, adminEnded_ctlEnd (u := dropXlatRange (cmdArg e.cmd 0) (cmdArg e.cmd 1) (cmdArg e.cmd 2) s) (congrArg Fn.adminBusy (getFn_of_hs rfl f)) 0 0 0 0 0,
    bytesKept_of_onlyWork (bytesKept_ctlEnd f 0 0 0 0 0 _), ctlEnd_fe .., fun k => ?_⟩
  show mget {} (ctlEnd _ _ _ _ _ _ _).mem.xcache k = _
  rw [ctlEnd_mem, dropXlatRange, mget_mdrop]
  simp only [Bool.and_eq_true, beq_iff_eq, decide_eq_true_eq, and_assoc]

/-- CTX_CREATE (R240): the context, in reset where its partition is. -/
theorem exec_ctxCreate_activates {h : Nat} (cmd : adminCmd s f 0x20 = some e) (range : cmdArg e.cmd 0 < 2 ^ 11) (a2 : cmdArg e.cmd 2 = 0)
    (part : fld (cmdArg e.cmd 0) 8 3 < partCount s) (free : (getCtx s (fld (cmdArg e.cmd 0) 0 8)).state = ctxFree)
    (home : homeOf (partCount s) (ctxEntryPa s (fld (cmdArg e.cmd 0) 0 8)) = some h) (sound : poisoned (readLoc h s).mem (h / 64) = false)
    (valid : fld (memNat s.mem h 16) 0 1 = 1) (low : fld (memNat s.mem h 16) 2 10 = 0) (mid : fld (memNat s.mem h 16) 48 16 = 0)
    (high : fld (memNat s.mem h 16) 84 44 = 0) {x : Ctx}
    (new : x = { state := ctxActive, owner := f, part := fld (cmdArg e.cmd 0) 8 3, seed := BitVec.ofNat 64 (cmdArg e.cmd 1) }) :
    ∃ t, exec (.ctxCreate f) s = .next t
      ∧ getCtx t (fld (cmdArg e.cmd 0) 0 8) =
          (if partInReset s (fld (cmdArg e.cmd 0) 8 3) then { x with state := ctxResetting, prior := ctxActive } else x)
      ∧ (∀ k, k ≠ fld (cmdArg e.cmd 0) 0 8 → getCtx t k = getCtx s k) ∧ adminEnded s t f 0 ∧ bytesSame s t ∧ t.en = s.en := by
  have sans := readLoc_sans h s
  have entry : memNat (readLoc h s).mem h 16 = memNat s.mem h 16 := by rw [memNat, memBytes_of_cells (sans_cells sans), memNat]
  have reset : partInReset (readLoc h s) (fld (cmdArg e.cmd 0) 8 3) = partInReset s (fld (cmdArg e.cmd 0) 8 3) := by
    rw [partInReset, sans_fr sans, partInReset]
  have run : exec (.ctxCreate f) s = .next (onlyWork s (ctlEnd f 0 0 0 0 0
      (ctxMade (fld (cmdArg e.cmd 0) 0 8) x (partInReset s (fld (cmdArg e.cmd 0) 8 3)) (readLoc h s)))) := by
    show execCtxCreate f s = _
    simp only [execCtxCreate, cmd]
    rw [if_neg (by simp [a2, free]; omega), home]
    simp only [entry, sound, valid, low, mid, high, reset]
    simp only [Bool.false_eq_true, if_false, ne_eq, not_true_eq_false, or_self, one_ne_zero]
    rw [new]
    rfl
  have ctxs : ∀ k, getCtx (readLoc h s) k = getCtx s k := fun k => by rw [getCtx, sans_fe sans, getCtx]
  have made := getCtx_ctxMade (c := fld (cmdArg e.cmd 0) 0 8) (x := x) (by rw [new]) (partInReset s (fld (cmdArg e.cmd 0) 8 3)) (readLoc h s)
  have busy : (getFn (ctxMade (fld (cmdArg e.cmd 0) 0 8) x (partInReset s (fld (cmdArg e.cmd 0) 8 3)) (readLoc h s)) f).adminBusy =
      (getFn s f).adminBusy := congrArg Fn.adminBusy (getFn_of_hs ((ctxMade_hs ..).trans (sans_hs sans)) f)
  refine ⟨_, run, ?_, fun k other => ?_, adminEnded_ctlEnd busy 0 0 0 0 0, ⟨?_, ?_⟩, ?_⟩
  · rw [getCtx_onlyWork, getCtx_ctlEnd, made, if_pos rfl]
  · rw [getCtx_onlyWork, getCtx_ctlEnd, made, if_neg other, ctxs]
  · show (ctlEnd _ _ _ _ _ _ _).mem.cells = _
    rw [ctlEnd_mem, ctxMade_mem, sans_cells sans]
  · show (ctlEnd _ _ _ _ _ _ _).hs.hostMem = _
    rw [ctlEnd_hostMem, ctxMade_hs, sans_hs sans]
  · show (ctlEnd _ _ _ _ _ _ _).en = _
    rw [ctlEnd_done_en, ctxMade_en, sans_en sans]

end Contexts

/-- Settles O49: one lemma for each command, in the order of the statement. -/
theorem contextControlCommands : Obligations.ContextControlCommands :=
  fun _ _ _ => ⟨fun _ cmd range a2 part free home sound valid low mid high =>
      exec_ctxCreate_activates cmd range a2 part free home sound valid low mid high rfl,
    exec_ctxDestroy_resets, exec_ctxReset_resets, exec_ctxResume_activates,
    fun cmd range a1 a2 own found => xlatInval_context cmd range a1 a2 own found,
    fun cmd range a1 a2 some_ ranges own found => xlatInval_range cmd range a1 a2 some_ ranges own found⟩

end Sys2Proof.Machine
end

section
/-! SUPPORT. Commands of the front end: flow control, calls and launches (R244 to R251). -/

namespace Sys2Proof.Machine

/-! ### The queue's next command, and commands in flight -/

section Flight
variable {q op t : Nat} {e : Entry} {s u : State}

theorem headCmd_spec (head : headCmd s q op = some e) :
    (getQ s q).cur = some e ∧ mayFetch s q = true ∧ (getQ s q).state = qActive ∧ cmdOp e.cmd = op := by
  unfold headCmd at head
  dsimp only at head
  split at head
  · split at head
    · rename_i ready
      simp only [Bool.and_eq_true, beq_iff_eq] at ready
      obtain ⟨⟨⟨fetch, active⟩, opcode⟩, -⟩ := ready
      cases head
      exact ⟨‹_›, fetch, active, opcode⟩
    · cases head
  · cases head

theorem getQ_of_fe {s t : State} (same : t.fe = s.fe) (k : Nat) : getQ t k = getQ s k := by rw [getQ, same, getQ]

theorem getQ_pushFlight_of (t : Nat) (r : Option Nat) (g : Bool) (k : Nat) : getQ (pushFlight q e t r g u) k =
    if k = q then { getQ u q with
      cur := none, waitDone := false, chainOpen := cmdChainEn e.cmd && r.getD 0 == 0
      inflight := (getQ u q).inflight ++ [{ entry := e, result := r, inGraph := g, target := t, id := (getQ u q).dispatched }]
      dispatched := (getQ u q).dispatched + 1 } else getQ u k := getQ_modQ ..

theorem pushFlight_keep {β : Type} (p : State → β) (queue : ∀ q v t, p (setQ q v t) = p t)
    (waits : ∀ (t : State) (ws : List Waiter), p { t with fe := { t.fe with waiters := ws } } = p t) (q : Nat) (e : Entry) (t : Nat)
    (r : Option Nat) (g : Bool) (s : State) : p (pushFlight q e t r g s) = p s := (queue ..).trans (waits ..)

/-- A command put in flight where the queue is as it was. -/
theorem inFlightNow_pushFlight (same : getQ u q = getQ s q) (t : Nat) (r : Option Nat) (g : Bool) :
    inFlightNow s (pushFlight q e t r g u) q e t r := by
  unfold inFlightNow
  rw [getQ_pushFlight_of, if_pos rfl, same]
  exact ⟨rfl, rfl, g, rfl⟩

theorem inFlightNow_of_queue {w : State} {r : Option Nat} (h : inFlightNow s u q e t r) (cur : (getQ w q).cur = (getQ u q).cur)
    (count : (getQ w q).dispatched = (getQ u q).dispatched) (flight : (getQ w q).inflight = (getQ u q).inflight) : inFlightNow s w q e t r := by
  unfold inFlightNow at *
  rwa [cur, count, flight]

theorem bytesKept_refl (s : State) : bytesKept s s := ⟨⟨rfl, rfl⟩, rfl, rfl, rfl⟩

theorem bytesKept_pushFlight (q : Nat) (e : Entry) (t : Nat) (r : Option Nat) (g : Bool) (s : State) : bytesKept s (pushFlight q e t r g s) := bytesKept_refl s

theorem bytesKept_of_memHs {s t : State} (mem : t.mem = s.mem) (hs : t.hs = s.hs) : bytesKept s t := by
  rw [bytesKept, bytesSame, mem, hs]
  exact ⟨⟨rfl, rfl⟩, rfl, rfl, rfl⟩

/-! ### A command that ends before an engine sees it, with a record -/

theorem inFlightNow_feEnd (cls st reason a0 a1 : Nat) : inFlightNow s (feEnd q e cls st reason a0 a1 s) q e (qcKey 7 0 0) (some st) :=
  inFlightNow_pushFlight (getQ_addFault ..) ..

theorem frames_feEnd (cls st reason a0 a1 : Nat) : (getQ (feEnd q e cls st reason a0 a1 s) q).frames = (getQ s q).frames := by
  rw [feEnd, getQ_pushFlight_of, if_pos rfl, getQ_addFault]

theorem faultAdded_feEnd (cls st reason a0 a1 : Nat) : faultAdded s (feEnd q e cls st reason a0 a1 s) cls st reason :=
  faultAdded_of_same (faultAdded_addFault (s := s) (t := s) rfl (feRec s q e.seq cls st reason 0 a0 a1 q) false) rfl rfl

theorem bytesKept_feEnd (cls st reason a0 a1 : Nat) : bytesKept s (feEnd q e cls st reason a0 a1 s) := by
  refine bytesKept_of_memHs ?_ ?_
  · exact (pushFlight_keep (·.mem) (fun _ _ _ => rfl) (fun _ _ => rfl) ..).trans (addFault_mem ..)
  · exact (pushFlight_keep (·.hs) (fun _ _ _ => rfl) (fun _ _ => rfl) ..).trans (addFault_hs ..)

/-! ### A command that runs a buffer (R250) -/

/-- Where the queue's frames are fewer than 8, the buffer runs as a new frame. -/
theorem runBuffer_runs (same : getQ u q = getQ s q) (room : (getQ s q).frames.length < 8) (kind count idx : Nat) :
    inFlightNow s (runBuffer q e kind count idx u) q e (qcKey 7 0 0) none
      ∧ (∃ f : Frame, (getQ (runBuffer q e kind count idx u) q).frames = f :: (getQ s q).frames ∧ f.kind = kind ∧ f.id = (getQ s q).dispatched
          ∧ f.left = count ∧ f.next.toNat = cmdArg e.cmd 2)
      ∧ bytesKept u (runBuffer q e kind count idx u) := by
  have runs : ∃ f : Frame, runBuffer q e kind count idx u =
      modQ q (fun w => { w with frames := f :: w.frames }) (pushFlight q e (qcKey 7 0 0) none (inGraphNow (getQ u q)) u)
      ∧ f.kind = kind ∧ f.id = (getQ s q).dispatched ∧ f.left = count ∧ f.next.toNat = cmdArg e.cmd 2 := by
    unfold runBuffer
    dsimp only
    rw [if_neg (by rw [same, maxDepth]; omega)]
    exact ⟨_, rfl, rfl, by rw [same], rfl, toNat_cmdArg ..⟩
  obtain ⟨f, run, kind_, id, left, next⟩ := runs
  have queue : getQ (runBuffer q e kind count idx u) q =
      { getQ (pushFlight q e (qcKey 7 0 0) none (inGraphNow (getQ u q)) u) q with
        frames := f :: (getQ (pushFlight q e (qcKey 7 0 0) none (inGraphNow (getQ u q)) u) q).frames } := by
    rw [run, getQ_modQ, if_pos rfl]
  refine ⟨inFlightNow_of_queue (inFlightNow_pushFlight same (qcKey 7 0 0) none (inGraphNow (getQ u q))) ?_ ?_ ?_,
    ⟨f, ?_, kind_, id, left, next⟩, ?_⟩
  · rw [queue]
  · rw [queue]
  · rw [queue]
  · rw [queue, getQ_pushFlight_of, if_pos rfl, same]
  · rw [run]
    exact bytesKept_refl u

/-- At depth 8 it is illegal and runs nothing. -/
theorem runBuffer_deep (deep : 8 ≤ (getQ s q).frames.length) (kind count idx : Nat) : runBuffer q e kind count idx s = feIllegal q e rCommand s :=
  if_pos deep

end Flight

/-! ### A write of bytes that lie in one line -/

section Line
variable {s s1 : State} {ctx va loc : Nat} {who : Who} {bs : List Byte}

theorem writeVa_line (reach : translate s ctx va accWrite who = (.ok loc, s1)) (some_ : bs ≠ []) (inside : va % 64 + bs.length ≤ 64) (cause : Nat) :
    writeVa s ctx va bs cause who = (none, storeAt cause loc bs s1) := by
  rw [writeVa, lineChunks_of_line (List.length_pos_iff.2 some_) inside, writeChunks, reach]
  dsimp only
  rw [List.take_length]
  rfl

/-- An aligned doubleword lies in one line. -/
theorem writeVa_word (reach : translate s ctx va accWrite who = (.ok loc, s1)) (aligned : va % 8 = 0) (v cause : Nat) :
    writeVa s ctx va (leBytes 8 v) cause who = (none, storeAt cause loc (leBytes 8 v) s1) :=
  writeVa_line reach (by simp [leBytes]) (by rw [length_leBytes]; omega) cause

theorem getQ_storeAt (cause loc : Nat) (bs : List Byte) (s : State) (q : Nat) : getQ (storeAt cause loc bs s) q = getQ s q := by
  rw [storeAt, changed_keep (getQ · q) (fun _ _ => rfl) (fun _ _ => rfl) (fun _ _ => rfl), locStore]
  split
  · rfl
  · split <;> rfl

theorem stored_word {u : State} (reach : translate s ctx va accWrite who = (.ok loc, s1)) (opened : coreClosed s loc = false) (v cause : Nat)
    (after : bytesSame (storeAt cause loc (leBytes 8 v) s1) u) : stored s u loc (leBytes 8 v) :=
  stored_storeAt_behind (k := 0) reach (by rw [Nat.add_zero, coreClosed_sans (translate_ok_sans reach), opened]) (by rw [length_leBytes]; omega) after

end Line

/-! ### The commands of the front end -/

section Commands
variable {qid : BitVec 20} {s : State} {e : Entry}

/-- The dispatch of a command is traced, where its queue is tiered, and nothing else. -/
theorem bytesKept_traceDispatch (q : Nat) (s : State) : bytesKept s (traceDispatch q s) :=
  bytesKept_of_memHs (traceDispatch_keep q s (·.mem) (fun _ _ => rfl) (fun _ _ => rfl) (fun _ _ _ => rfl) (fun _ _ => rfl))
    (traceDispatch_keep q s (·.hs) (fun _ _ => rfl) (fun _ _ => rfl) (fun _ _ _ => rfl) (fun _ _ => rfl))

theorem nop_tiered (head : headCmd s qid.toNat 0x01 = some e) (tiered : qKind qid.toNat = 7) :
    ∃ u, thenNext (.nop (.queue qid)) s qid.toNat u ∧ inFlightNow s u qid.toNat e (qcKey 7 0 0) (some 0) ∧ bytesKept s u
      ∧ u.en.qcs = s.en.qcs ∧ u.ax = s.ax := by
  refine ⟨pushFlight qid.toNat e (qcKey 7 0 0) (some stDone) (inGraphNow (getQ s qid.toNat)) (traceDispatch qid.toNat s), ?_,
    inFlightNow_pushFlight (getQ_traceDispatch ..) .., bytesKept_trans (bytesKept_traceDispatch qid.toNat s) (bytesKept_pushFlight ..), ?_, ?_⟩
  · show execNop (.queue qid) s = _
    simp only [execNop, head]
    rw [if_pos tiered]
  · exact (pushFlight_keep (·.en.qcs) (fun _ _ _ => rfl) (fun _ _ => rfl) ..).trans
      (traceDispatch_keep _ s (·.en.qcs) (fun _ _ => rfl) (fun _ _ => rfl) (fun _ _ _ => rfl) (fun _ _ => rfl))
  · exact (pushFlight_keep (·.ax) (fun _ _ _ => rfl) (fun _ _ => rfl) ..).trans
      (traceDispatch_keep _ s (·.ax) (fun _ _ => rfl) (fun _ _ => rfl) (fun _ _ _ => rfl) (fun _ _ => rfl))

theorem nop_admin {f : Bool} {b : InFlight} (busy : (getFn s f).adminBusy = some b) (runs : b.result = none) (op : cmdOp b.entry.cmd = 1)
    (on : adminOn s f = true) : ∃ t, exec (.nop (.admin f)) s = .next t ∧ adminEnded s t f 0 ∧ bytesKept s t ∧ t.fe = s.fe := by
  have run : exec (.nop (.admin f)) s = .next (onlyWork s (ctlEnd f 0 0 0 0 0 s)) := by
    show execNop (.admin f) s = _
    simp only [execNop, busy]
    rw [if_pos (by simp [runs, op, on])]
    rfl
  exact ⟨_, run, adminEnded_ctlEnd (u := s) rfl 0 0 0 0 0, bytesKept_of_onlyWork (bytesKept_ctlEnd f 0 0 0 0 0 s), ctlEnd_fe ..⟩

theorem ifCmd_fails {bs : List Byte} {s1 : State} (head : headCmd s qid.toNat 0x10 = some e)
    (read : readVa s (getQ s qid.toNat).ctx (cmdArg e.cmd 0) 8 accRead .other = (.ok bs, s1))
    (holds : ifHolds (cmdCmp e.cmd) (leNat bs) (cmdArg e.cmd 1) = false) :
    ∃ u, thenNext (.ifCmd qid) s qid.toNat u ∧ inFlightNow s u qid.toNat e (qcKey 7 0 0) (some 0)
      ∧ (getQ u qid.toNat).frames = (getQ s qid.toNat).frames := by
  have same := getQ_of_fe (sans_fe (sans_of_readVa read)) qid.toNat
  refine ⟨pushFlight qid.toNat e (qcKey 7 0 0) (some stDone) (inGraphNow (getQ s qid.toNat)) s1, ?_, inFlightNow_pushFlight same .., ?_⟩
  · show execIfCmd qid s = _
    simp only [execIfCmd, head, read, holds]
    rfl
  · rw [getQ_pushFlight_of, if_pos rfl, same]

theorem ifCmd_runs {bs : List Byte} {s1 : State} (head : headCmd s qid.toNat 0x10 = some e)
    (read : readVa s (getQ s qid.toNat).ctx (cmdArg e.cmd 0) 8 accRead .other = (.ok bs, s1))
    (holds : ifHolds (cmdCmp e.cmd) (leNat bs) (cmdArg e.cmd 1) = true) (room : (getQ s qid.toNat).frames.length < 8) :
    ∃ u, thenNext (.ifCmd qid) s qid.toNat u ∧ inFlightNow s u qid.toNat e (qcKey 7 0 0) none
      ∧ ∃ f : Frame, (getQ u qid.toNat).frames = f :: (getQ s qid.toNat).frames ∧ f.kind = 0 ∧ f.id = (getQ s qid.toNat).dispatched ∧ f.left = 1
        ∧ f.next.toNat = cmdArg e.cmd 2 := by
  obtain ⟨flight, frame, -⟩ := runBuffer_runs (e := e) (getQ_of_fe (sans_fe (sans_of_readVa read)) qid.toNat) room 0 1 0
  refine ⟨runBuffer qid.toNat e 0 1 0 s1, ?_, flight, frame⟩
  show execIfCmd qid s = _
  simp only [execIfCmd, head, read, holds]
  rfl

theorem loopCmd_zero (head : headCmd s qid.toNat 0x11 = some e) (count : cmdArg e.cmd 0 = 0) :
    ∃ u, thenNext (.loopCmd qid) s qid.toNat u ∧ inFlightNow s u qid.toNat e (qcKey 7 0 0) (some 0) ∧ bytesKept s u := by
  refine ⟨pushFlight qid.toNat e (qcKey 7 0 0) (some stDone) (inGraphNow (getQ s qid.toNat)) s, ?_, inFlightNow_pushFlight rfl .., bytesKept_pushFlight ..⟩
  show execLoopCmd qid s = _
  simp only [execLoopCmd, head]
  rw [if_pos count]

theorem loopCmd_runs {loc : Nat} {s1 : State} (head : headCmd s qid.toNat 0x11 = some e) (count : cmdArg e.cmd 0 ≠ 0)
    (room : (getQ s qid.toNat).frames.length < 8) (idx : cmdArg e.cmd 1 ≠ 0) (aligned : cmdArg e.cmd 1 % 8 = 0)
    (reach : translate s (getQ s qid.toNat).ctx (cmdArg e.cmd 1) accWrite .other = (.ok loc, s1)) (opened : coreClosed s loc = false) :
    ∃ u, thenNext (.loopCmd qid) s qid.toNat u ∧ inFlightNow s u qid.toNat e (qcKey 7 0 0) none ∧ stored s u loc (leBytes 8 0)
      ∧ ∃ f : Frame, (getQ u qid.toNat).frames = f :: (getQ s qid.toNat).frames ∧ f.kind = 1 ∧ f.left = cmdArg e.cmd 0 ∧ f.next.toNat = cmdArg e.cmd 2 := by
  have same : getQ (storeAt causeEngine loc (leBytes 8 0) s1) qid.toNat = getQ s qid.toNat :=
    (getQ_storeAt ..).trans (getQ_of_fe (sans_fe (translate_ok_sans reach)) qid.toNat)
  obtain ⟨flight, ⟨f, frames, kind, -, left, next⟩, bytes⟩ := runBuffer_runs (e := e) same room 1 (cmdArg e.cmd 0) (cmdArg e.cmd 1)
  refine ⟨_, ?_, flight, stored_word reach opened 0 causeEngine bytes.1, f, frames, kind, left, next⟩
  show execLoopCmd qid s = _
  simp only [execLoopCmd, head]
  rw [if_neg count, if_neg (by rw [maxDepth]; omega), writeIndex, if_neg idx, writeVa_word reach aligned]

theorem callCmd_runs (head : headCmd s qid.toNat 0x12 = some e) (room : (getQ s qid.toNat).frames.length < 8) :
    ∃ u, thenNext (.callCmd qid) s qid.toNat u ∧ inFlightNow s u qid.toNat e (qcKey 7 0 0) none ∧ bytesKept s u
      ∧ ∃ f : Frame, (getQ u qid.toNat).frames = f :: (getQ s qid.toNat).frames ∧ f.kind = 2 ∧ f.left = 1 ∧ f.next.toNat = cmdArg e.cmd 2 := by
  obtain ⟨flight, ⟨f, frames, kind, -, left, next⟩, bytes⟩ := runBuffer_runs (e := e) (s := s) rfl room 2 1 0
  refine ⟨_, ?_, flight, bytes, f, frames, kind, left, next⟩
  show execCallCmd qid s = _
  simp only [execCallCmd, head]

/-- The last run of a frame that a command opened: the frame goes, and the command is DONE. -/
def runEnded (q : Nat) (f : Frame) (fs : List Frame) (s : State) : State := setResult q f.id stDone (modQ q (fun v => { v with frames := fs }) s)

theorem endRun_last {q : Nat} {f : Frame} (kind : f.kind ≠ 3) (left : f.left ≤ 1) (fs : List Frame) (s : State) :
    endRun q f fs s = runEnded q f fs s := by
  rw [endRun, if_neg kind, if_neg (by omega), runEnded]

theorem getQ_runEnded (q : Nat) (f : Frame) (fs : List Frame) (s : State) : getQ (runEnded q f fs s) q = { getQ s q with
    frames := fs
    inflight := (getQ s q).inflight.map fun x => if x.id = f.id ∧ x.result = none then { x with result := some stDone } else x } := by
  rw [runEnded, setResult, getQ_modQ, if_pos rfl, getQ_modQ, if_pos rfl]

theorem bytesKept_runEnded (q : Nat) (f : Frame) (fs : List Frame) (s : State) : bytesKept s (runEnded q f fs s) := bytesKept_refl s

/-- RET ends its frame, and the command that ran it is DONE. -/
theorem retCmd_ends {f : Frame} {fs : List Frame} (head : headCmd s qid.toNat 0x13 = some e) (frames : (getQ s qid.toNat).frames = f :: fs)
    (kind : f.kind ≠ 3) (left : f.left ≤ 1) :
    ∃ u, thenNext (.retCmd qid) s qid.toNat u ∧ (getQ u qid.toNat).frames = fs ∧ bytesKept s u ∧ (getQ u qid.toNat).cur = none
      ∧ (∀ x ∈ (getQ s qid.toNat).inflight, x.id = f.id → x.result = none → { x with result := some 0 } ∈ (getQ u qid.toNat).inflight) := by
  refine ⟨runEnded qid.toNat f fs (pushFlight qid.toNat e (qcKey 7 0 0) (some stDone) (inGraphNow (getQ s qid.toNat)) s), ?_, ?_,
    bytesKept_trans (bytesKept_pushFlight ..) (bytesKept_runEnded ..), ?_, fun x listed own waits => ?_⟩
  · show execRetCmd qid s = _
    simp only [execRetCmd, head, frames]
    rw [endRun_last kind left]
  · rw [getQ_runEnded]
  · rw [getQ_runEnded, getQ_pushFlight_of, if_pos rfl]
  · rw [getQ_runEnded, getQ_pushFlight_of, if_pos rfl]
    exact List.mem_map.2 ⟨x, List.mem_append_left _ listed, if_pos ⟨own, waits⟩⟩

/-- LAUNCH runs the version that it bound (R251). -/
theorem launch_runs {ver : Nat} (head : headCmd s qid.toNat 0x14 = some e) (bound : e.bound = some (ver, (getQ s qid.toNat).ctx)) :
    ∃ u, thenNext (.launch qid) s qid.toNat u ∧ (getQ u qid.toNat).launch = some e ∧ (getQ u qid.toNat).cur = none ∧ bytesKept s u
      ∧ ∃ f : Frame, (getQ u qid.toNat).frames = [f] ∧ f.kind = 3 ∧ f.graph = some (fld (cmdArg e.cmd 0) 0 12, ver) ∧ f.next = 0 := by
  let f : Frame := { graph := some (fld (cmdArg e.cmd 0) 0 12, ver), left := 1, kind := 3, seq := e.seq }
  let u := modQ qid.toNat (fun w => { w with cur := none, waitDone := false, launch := some e, launchFail := 0, launchEnded := false, frames := [f] })
    (dropWaits (isQueueWait qid.toNat) s)
  have queue : getQ u qid.toNat = { getQ s qid.toNat with
      cur := none, waitDone := false, launch := some e, launchFail := 0, launchEnded := false, frames := [f] } := (getQ_modQ ..).trans (if_pos rfl)
  refine ⟨u, ?_, by rw [queue], by rw [queue], bytesKept_refl s, f, by rw [queue], rfl, rfl, rfl⟩
  show execLaunch qid s = _
  simp only [execLaunch, head, bound]
  rw [if_neg (by simp)]

/-- A ring entry becomes the queue's next command: it takes the next number, and a LAUNCH binds the version that is current (R247, R251). -/
theorem takeNext_entry {q : Nat} {x : Entry} {xs : List Entry} (cur : (getQ s q).cur = none) (chain : (getQ s q).chainFrom = none)
    (back : (getQ s q).back = []) (frames : (getQ s q).frames = []) (launch : (getQ s q).launch = none) (entries : (getQ s q).entries = x :: xs) :
    ∃ y : Entry, (getQ (takeNext q s) q).cur = some y ∧ y.cmd = x.cmd ∧ y.seq = (getQ s q).nextSeq ∧ (getQ (takeNext q s) q).entries = xs
      ∧ (getQ (takeNext q s) q).nextSeq = (getQ s q).nextSeq + 1
      ∧ (cmdOp x.cmd = 0x14 → y.bound = (getGraph s (fld (cmdArg x.cmd 0) 0 12)).current.map
          (fun ver => (ver, (getGraph s (fld (cmdArg x.cmd 0) 0 12)).owner))) := by
  have taken : takeNext q s = modQ q (fun w =>
      { w with cur := some (bindLaunch s { x with seq := (getQ s q).nextSeq }), entries := xs, nextSeq := (getQ s q).nextSeq + 1 }) s := by
    simp only [takeNext, cur, chain, back, frames, launch, takeEntry, entries]
  rw [taken, getQ_modQ, if_pos rfl]
  refine ⟨_, rfl, ?_, ?_, rfl, rfl, fun op => ?_⟩
  · unfold bindLaunch
    split <;> rfl
  · unfold bindLaunch
    split <;> rfl
  · unfold bindLaunch
    rw [if_pos op]
    rfl

end Commands

end Sys2Proof.Machine
end

section
/-! SUPPORT. A NOP of a direct queue: its start, and its end at once (R247). -/

namespace Sys2Proof.Machine

/-! ### A NOP of a direct queue is a command of its queue context (R247) -/

section Direct
variable {q t : Nat} {e : Entry} {prog : Bool} {s : State}

theorem startCmd_rest (q cause word : Nat) (s : State) : restView (startCmd q cause word s) = restView s := by
  unfold startCmd
  dsimp only
  rw [traceEng_rest]
  refine (setEng_rest ?_).trans ((setQc_rest ..).trans (tickEng_rest ..))
  exact endIdle_resets ..

/-- The start of a command is no matter of the service of engines and queues. -/
theorem service_startCmd (q cause word : Nat) (s : State) : service (startCmd q cause word s) = service s := by
  have rest := startCmd_rest q cause word s
  have stop : (startCmd q cause word s).ob.stopState = s.ob.stopState := congrArg (fun x => x.1.stopState) rest
  have frozen : (startCmd q cause word s).ob.frozen = s.ob.frozen := congrArg (fun x => x.1.frozen) rest
  have others := startCmd_keep q cause word s (fun t => { service t with ob := {} }) (fun _ _ => rfl) (fun _ _ => rfl) (fun _ _ _ => rfl)
    (fun _ _ => rfl) (fun _ _ _ => rfl)
  show { ({ service (startCmd q cause word s) with ob := {} } : State) with
    ob := { stopState := (startCmd q cause word s).ob.stopState, frozen := (startCmd q cause word s).ob.frozen } } = _
  rw [others, stop, frozen]
  rfl

/-- The engine runs a command that has started at once. -/
theorem canRun_handOver (e : Entry) (prog : Bool) (rest : atRest (bindTarget q t s) t) :
    canRun (handOver q t e prog (traceDispatch q s)) t anyKind = true := by
  obtain ⟨cmd, started, running, -⟩ := startedAt_handOver e prog rest
  have own := getQc_handOver e prog rest
  have serves : service (handOver q t e prog (traceDispatch q s)) = service (bindTarget q t s) := by
    rw [handOver_starts e prog rest, service_startCmd, service_given_traced]
  have arrays : (handOver q t e prog (traceDispatch q s)).ax = (bindTarget q t s).ax := by
    rw [handOver_starts e prog rest, startCmd_keep _ _ _ _ (·.ax) (fun _ _ => rfl) (fun _ _ => rfl) (fun _ _ _ => rfl) (fun _ _ => rfl) (fun _ _ _ => rfl),
      given_keep (·.ax) (fun _ _ _ => rfl) (fun _ _ _ => rfl) (fun _ _ => rfl) (fun _ _ => rfl),
      traceDispatch_keep _ _ (·.ax) (fun _ _ => rfl) (fun _ _ => rfl) (fun _ _ _ => rfl) (fun _ _ => rfl),
      bindTarget_keep (·.ax) (fun _ _ _ => rfl) (fun _ _ => rfl)]
  obtain ⟨live, -, -, awake, noAdd, noEnd, noChunk, noAx, runs, up, -, -⟩ := rest
  have kept := begunCtx_keep (fun c => (c.live, c.blocked, c.heldAdd, c.heldEnd, c.chunk, c.ctx)) (fun _ _ => rfl) (fun _ _ => rfl) e
    (q, (getQ s q).dispatched, prog) (getQc (bindTarget q t s) t)
  simp only [Prod.mk.injEq] at kept
  obtain ⟨live', awake', noAdd', noEnd', noChunk', ctx⟩ := kept
  have waits : axWaits (handOver q t e prog (traceDispatch q s)) t = false := by
    rw [← noAx]
    simp only [axWaits, getPart, arrays]
  have goes : runsOn (handOver q t e prog (traceDispatch q s)) t (getQc (handOver q t e prog (traceDispatch q s)) t) = true := by
    rw [runsOn_of_service serves, own, ← runs, runsOn, runsOn]
    simp only [startedCtx, ctx]
  simp only [canRun, cmd, started, running, goes, waits, engUp_of_service serves, up, anyKind]
  rw [own]
  simp [startedCtx, live', awake', noAdd', noEnd', noChunk', live, awake, noAdd, noEnd, noChunk]

theorem curFlight_handOver (e : Entry) (prog : Bool) (rest : atRest (bindTarget q t s) t) :
    ∃ f, curFlight (handOver q t e prog (traceDispatch q s)) t = some f ∧ f.entry = e := by
  obtain ⟨cmd, -⟩ := startedAt_handOver e prog rest
  obtain ⟨-, -, g, inflight⟩ := inFlightNow_handOver e prog rest
  refine ⟨{ entry := e, result := none, inGraph := g, target := t, id := (getQ s q).dispatched }, ?_, rfl⟩
  unfold curFlight
  rw [cmd]
  dsimp only
  rw [inflight]
  simp

/-- An instruction command gives its queue's command its status. -/
theorem getQ_finishCmd_insn {qu id : Nat} (cmd : (getQc s t).cmd = some (qu, id, false)) (st : Nat) :
    getQ (finishCmd t st s) qu = getQ (setResult qu id st s) qu := by
  unfold finishCmd
  dsimp only
  rw [cmd]
  dsimp only
  rw [if_neg (by simp)]
  refine getQ_setResult_same ?_
  rw [endTurn_keep (getQ · qu) (fun _ _ _ => rfl), getQ_modQc,
    cmdEnds_keep (getQ · qu) (fun _ _ => rfl) (fun _ _ => rfl) (fun _ _ _ => rfl) (fun _ _ => rfl) (fun _ => rfl)]

theorem nop_direct {qid : BitVec 20} (head : headCmd s qid.toNat 0x01 = some e) (direct : qKind qid.toNat ≠ 7) (rest : atRest s qid.toNat) :
    ∃ u, thenNext (.nop (.queue qid)) s qid.toNat u ∧ (getQ u qid.toNat).cur = none
      ∧ (∃ x ∈ (getQ u qid.toNat).inflight, x.entry = e ∧ x.id = (getQ s qid.toNat).dispatched ∧ x.target = qid.toNat ∧ x.result = some 0)
      ∧ (getQc u qid.toNat).seq = (getQc s qid.toNat).nextSeq ∧ (getQc u qid.toNat).nextSeq = (getQc s qid.toNat).nextSeq + 1
      ∧ (getQc u qid.toNat).cmd = none ∧ bytesKept s u := by
  obtain ⟨-, -, -, opcode⟩ := headCmd_spec head
  have untraced : traceDispatch qid.toNat s = s := if_neg direct
  have unbound : bindTarget qid.toNat qid.toNat s = s := if_pos (.inl direct)
  have bound : atRest (bindTarget qid.toNat qid.toNat s) qid.toNat := by rwa [unbound]
  have runs := canRun_handOver e false bound
  have flight := inFlightNow_handOver e false bound
  have start := startedAt_handOver e false bound
  have bytes := bytesKept_handOver e false bound
  obtain ⟨f, current, own⟩ := curFlight_handOver e false bound
  rw [untraced] at runs flight start bytes current
  generalize handed : handOver qid.toNat qid.toNat e false s = w at runs flight start bytes current
  obtain ⟨cur, -, g, inflight⟩ := flight
  obtain ⟨cmd, -, -, seq, nextSeq, -⟩ := start
  rw [unbound] at seq nextSeq
  have insn : isProg (getQc w qid.toNat) = false := by rw [isProg, cmd]
  have steps : runSteps qid.toNat 1 w = finishCmd qid.toNat stDone w := by
    show runOne qid.toNat w = _
    rw [runOne, runs, insn, current]
    dsimp only
    rw [own, if_neg (by simp), if_neg (by simp), if_pos opcode]
  have ctx : getQc (finishCmd qid.toNat stDone w) qid.toNat = idleCtx (getQc w qid.toNat) := by
    rw [getQc_finishCmd, if_pos rfl, finCtx_insn (by rw [cmd]; rfl) insn]
  obtain ⟨-, idle, -, -, -, -, -, -, -, up, -⟩ := rest
  refine ⟨finishCmd qid.toNat stDone w, ?_, ?_, ?_, ?_, ?_, ?_, bytesKept_trans bytes (bytesKept_of_memHs (finishCmd_mem ..) (finishCmd_hs ..))⟩
  · show execNop (.queue qid) s = _
    simp only [execNop, head]
    rw [if_neg direct, if_neg (by simp [dispatchWaits, direct, up, idle]), handed, steps]
  · rw [getQ_finishCmd_insn cmd, setResult, getQ_modQ, if_pos rfl, cur]
  · rw [getQ_finishCmd_insn cmd, setResult, getQ_modQ, if_pos rfl]
    refine ⟨{ entry := e, result := some stDone, inGraph := g, target := qid.toNat, id := (getQ s qid.toNat).dispatched }, ?_, rfl, rfl, rfl, rfl⟩
    rw [inflight]
    exact List.mem_map.2 ⟨_, List.mem_append_right _ (List.mem_singleton.2 rfl), if_pos ⟨rfl, rfl⟩⟩
  · rw [ctx]
    exact seq
  · rw [ctx]
    exact nextSeq
  · rw [ctx]
    rfl

end Direct

/-- Settles O45: one lemma for each command and form, in the order of the statement. -/
theorem frontEndCommands : Obligations.FrontEndCommands :=
  fun _ _ _ => ⟨nop_tiered, nop_direct, fun _ _ => nop_admin,
    fun _ _ head read => ⟨ifCmd_fails head read, ifCmd_runs head read⟩, loopCmd_zero,
    fun _ _ head count room idx aligned reach _ opened => loopCmd_runs head count room idx aligned reach opened, callCmd_runs,
    fun _ _ head frames kind left => retCmd_ends head frames kind left, fun _ => launch_runs,
    fun _ _ cur chain back frames launch entries => takeNext_entry cur chain back frames launch entries⟩

end Sys2Proof.Machine
end

section
/-! SUPPORT. Stored graphs and buffers: the ninth buffer, an unstored graph, and a patched version (R250 to R252). -/

namespace Sys2Proof.Machine

/-! ### The pages of stored graphs -/

section Pages
variable {β : Type} (p : State → β) (mem : ∀ (t : State) (m : Mem), p { t with mem := m } = p t)
  (absorbed : ∀ (t : State) (n : Nat), p { t with fr := { t.fr with absReq := n } } = p t)
  (rx : ∀ (t : State) (x : Rx), p { t with rx := x } = p t) (free : ∀ (t : State) (n : Nat), p { t with free := n } = p t)
  (waits : ∀ (t : State) (ws : List Waiter), p { t with fe := { t.fe with waiters := ws } } = p t)
include mem

theorem readLoc_keep (l : Nat) (s : State) : p (readLoc l s) = p s := by
  unfold readLoc
  split
  · rfl
  · exact mem ..

include absorbed rx free waits

theorem pageWrite_keep (page slot : Nat) (bs : List Byte) (s : State) : p (pageWrite page slot bs s) = p s := by
  unfold pageWrite
  split
  · exact storeAt_home_keep p mem absorbed rx free waits (home_device ‹_›) ..
  · rfl

theorem pageCopy_keep (src dst : Nat) (s : State) : p (pageCopy src dst s) = p s := by
  refine foldl_keep p (fun t i => ?_) ..
  split
  · exact (mem ..).trans ((storeAt_home_keep p mem absorbed rx free waits (home_device ‹_›) ..).trans (readLoc_keep p mem ..))
  · rfl

theorem applyPatches_keep (pages is : List Nat) (bs : List Byte) (s : State) : p (applyPatches pages is bs s) = p s := by
  induction is generalizing bs s with
  | nil => rfl
  | cons i is ih => rw [applyPatches, ih, pageWrite_keep p mem absorbed rx free waits]

end Pages

/-! ### Stored graphs -/

section Graphs
variable {qid : BitVec 20} {s : State} {e : Entry}

theorem getGraph_setGraph (g : Nat) (v : Graph) (s : State) (k : Nat) : getGraph (setGraph g v s) k = if k = g then v else getGraph s k :=
  mget_mset ..

/-- A CALL at depth 8 is illegal (R250). -/
theorem callCmd_deep (head : headCmd s qid.toNat 0x12 = some e) (deep : 8 ≤ (getQ s qid.toNat).frames.length) :
    ∃ u, thenNext (.callCmd qid) s qid.toNat u ∧ inFlightNow s u qid.toNat e (qcKey 7 0 0) (some 0x11)
      ∧ (getQ u qid.toNat).frames = (getQ s qid.toNat).frames ∧ faultAdded s u 1 0x11 8 ∧ bytesKept s u := by
  refine ⟨feIllegal qid.toNat e rCommand s, ?_, inFlightNow_feEnd .., frames_feEnd .., faultAdded_feEnd .., bytesKept_feEnd ..⟩
  show execCallCmd qid s = _
  simp only [execCallCmd, head, runBuffer_deep deep]

/-- A LAUNCH that found no stored graph is an invalid descriptor (R251). -/
theorem launch_unstored (head : headCmd s qid.toNat 0x14 = some e) (unbound : e.bound = none) :
    ∃ u, thenNext (.launch qid) s qid.toNat u ∧ inFlightNow s u qid.toNat e (qcKey 7 0 0) (some 0x12) ∧ faultAdded s u 2 0x12 0 ∧ bytesKept s u := by
  refine ⟨feDescriptor qid.toNat e (fld (cmdArg e.cmd 0) 0 12) s, ?_, inFlightNow_feEnd .., faultAdded_feEnd .., bytesKept_feEnd ..⟩
  show execLaunch qid s = _
  simp only [execLaunch, head, unbound]

/-- A graph with a patched copy of version `ver` as its current version. -/
def patchedGraph (gr : Graph) (ver : Nat) (pages : List Nat) : Graph :=
  { gr with versions := minsert gr.nextVersion pages gr.versions, lengths := mset 0 gr.lengths gr.nextVersion (mget 0 gr.lengths ver)
            current := some gr.nextVersion, nextVersion := gr.nextVersion + 1 }

/-- The pool once the touched pages are copied and the patches applied. -/
def patchedPool (touched is old pages : List Nat) (cb : List Byte) (s : State) : State :=
  applyPatches pages is cb (touched.foldl (fun t k => pageCopy (old.getD k 0) (pages.getD k 0) t) s)

theorem getQ_patchedPool (touched is old pages : List Nat) (cb : List Byte) (s : State) (q : Nat) :
    getQ (patchedPool touched is old pages cb s) q = getQ s q := by
  rw [patchedPool, applyPatches_keep (getQ · q) (fun _ _ => rfl) (fun _ _ => rfl) (fun _ _ => rfl) (fun _ _ => rfl) (fun _ _ => rfl)]
  exact foldl_keep (getQ · q) (step := fun t k => pageCopy (old.getD k 0) (pages.getD k 0) t)
    (fun _ _ => pageCopy_keep (getQ · q) (fun _ _ => rfl) (fun _ _ => rfl) (fun _ _ => rfl) (fun _ _ => rfl) (fun _ _ => rfl) ..) ..

section Patch
variable {ver g n : Nat} {ib cb : List Byte} {s1 s2 : State} {fresh : List Nat} {gr : Graph}

/-- PATCHGRAPH (R252): the patched copy is the current version. -/
theorem patchgraph_patches (head : headCmd s qid.toNat 0x15 = some e) (settled_ : freeVersions s = s) (graph : g = fld (cmdArg e.cmd 0) 0 12)
    (count : n = fld (cmdArg e.cmd 0) 16 16) (stored_ : gr = getGraph s g) (current : gr.current = some ver) (own : gr.owner = (getQ s qid.toNat).ctx)
    (list : readVa s (getQ s qid.toNat).ctx (cmdArg e.cmd 1) (4 * n) accRead .other = (.ok ib, s1))
    (cmds : readVa s1 (getQ s qid.toNat).ctx (cmdArg e.cmd 2) (64 * n) accRead .other = (.ok cb, s2))
    (inside : ∀ i ∈ indices n ib, i < mget 0 gr.lengths ver) (room : gr.versions.length < 4)
    (pages : allocPages s2 ((indices n ib).map (· / 64)).dedup.length = some fresh) (old : ver ≠ gr.nextVersion) :
    ∃ u, exec (.patchgraph qid) s = .next (onlyWork s (settleQ qid.toNat (freeVersions u))) ∧ inFlightNow s u qid.toNat e (qcKey 7 0 0) (some 0)
      ∧ (getGraph u g).current = some gr.nextVersion ∧ (getGraph u g).nextVersion = gr.nextVersion + 1
      ∧ mget 0 (getGraph u g).lengths gr.nextVersion = mget 0 gr.lengths ver
      ∧ mget [] (getGraph u g).versions gr.nextVersion = freshPages ((indices n ib).map (· / 64)).dedup fresh (mget [] gr.versions ver)
      ∧ mget [] (getGraph u g).versions ver = mget [] gr.versions ver := by
  let touched := ((indices n ib).map (· / 64)).dedup
  let was := mget [] gr.versions ver
  let now := freshPages touched fresh was
  let w := setGraph g (patchedGraph gr ver now) (patchedPool touched (indices n ib) was now cb s2)
  have queue : getQ w qid.toNat = getQ s qid.toNat :=
    (getQ_patchedPool ..).trans (getQ_of_fe ((sans_fe (sans_of_readVa cmds)).trans (sans_fe (sans_of_readVa list))) _)
  have graphs : getGraph (pushFlight qid.toNat e (qcKey 7 0 0) (some stDone) false w) g = patchedGraph gr ver now := by
    rw [pushFlight_keep (getGraph · g) (fun _ _ _ => rfl) (fun _ _ => rfl)]
    exact (getGraph_setGraph ..).trans (if_pos rfl)
  have within : ¬((indices n ib).any fun i => decide (mget 0 gr.lengths ver ≤ i)) = true := by
    simp only [List.any_eq_true, decide_eq_true_eq, not_exists, not_and, not_le]
    exact inside
  refine ⟨pushFlight qid.toNat e (qcKey 7 0 0) (some stDone) false w, ?_, inFlightNow_pushFlight queue .., ?_⟩
  · show execPatchgraph qid s = _
    simp only [execPatchgraph, head, patchGraph, settled_, ← graph, ← count, ← stored_, current]
    rw [if_neg (by simp [own])]
    simp only [list, cmds, pages]
    rw [if_neg within, if_neg (by omega)]
    rfl
  · rw [graphs]
    refine ⟨rfl, rfl, mget_mset_self .., ?_, ?_⟩
    · exact (mget_minsert ..).trans (if_pos rfl)
    · exact (mget_minsert ..).trans (if_neg old)

end Patch

end Graphs

/-- Settles O46: one lemma for each command, in the order of the statement. -/
theorem buffersAndStoredGraphs : Obligations.BuffersAndStoredGraphs :=
  fun _ _ _ => ⟨callCmd_deep, launch_unstored,
    fun _ _ _ _ _ _ head settled_ current own list cmds inside room pages _ old =>
      patchgraph_patches head settled_ rfl rfl rfl current own list cmds inside room pages old⟩

end Sys2Proof.Machine
end

section
/-! SUPPORT. Fetching: what a producer index brings in, and the limits of what is fetched ahead (R242, R243). -/

namespace Sys2Proof.Machine

/-! ### What a fetch takes from the ring (R242) -/

section Fetch
variable {q : Nat} {s : State}

/-- A queue with more of its ring taken, or one whose sink is lost, is otherwise as it was. -/
def Fetching (v w : Queue) (n : Nat) : Prop :=
  w.fetched ≤ v.fetched + n ∧ w.entries.length ≤ v.entries.length + n ∧ w.nextSeq = v.nextSeq ∧ w.cur = v.cur

theorem Fetching.trans {v w x : Queue} {m n : Nat} (h : Fetching v w m) (k : Fetching w x n) : Fetching v x (m + n) := by
  obtain ⟨fetched, entries, seq, cur⟩ := h
  obtain ⟨fetched', entries', seq', cur'⟩ := k
  exact ⟨by omega, by omega, seq'.trans seq, cur'.trans cur⟩

theorem takeRing_fetching (n : Nat) (s : State) : Fetching (getQ s q) (getQ (takeRing q n s) q) n := by
  induction n generalizing s with
  | zero => exact ⟨Nat.le_refl _, Nat.le_refl _, rfl, rfl⟩
  | succ n ih =>
    rw [takeRing, Nat.add_comm]
    dsimp only
    split
    · rename_i read
      refine Fetching.trans ?_ (ih _)
      rw [getQ_modQ, if_pos rfl, getQ_of_fe (sans_fe (sans_of_readVa read))]
      exact ⟨Nat.le_refl _, by simp, rfl, rfl⟩
    · exact ⟨by omega, by omega, rfl, rfl⟩

theorem getQ_writeChunks (ctx cause : Nat) (who : Who) (cs : List (Nat × Nat)) (bs : List Byte) (s : State) :
    getQ (writeChunks ctx cause who cs bs s).2 q = getQ s q := by
  induction cs generalizing bs s with
  | nil => rfl
  | cons c cs ih =>
    obtain ⟨va, n⟩ := c
    rw [writeChunks]
    split
    · rw [ih, getQ_storeAt, getQ_of_fe (sans_fe (translate_ok_sans ‹_›))]
    · exact getQ_of_fe (sans_fe (translate_ok_sans ‹_›)) q

theorem getQ_sinkLost (c : Nat) (s : State) (k : Nat) :
    getQ (sinkLost c s) k = if (getQ s k).live ∧ (getQ s k).ctx = c then loseSink (getQ s k) else getQ s k := by
  have each : (fun e : Nat × Queue => if e.2.live ∧ e.2.ctx = c then (e.1, loseSink e.2) else e) =
      fun e => (e.1, if e.2.live ∧ e.2.ctx = c then loseSink e.2 else e.2) := by
    funext e
    exact (apply_ite (Prod.mk e.1) _ _ e.2).symm
  have queues : ∀ x : Ctx, (setCtx c x s).fe.queues = s.fe.queues := fun _ => rfl
  unfold sinkLost
  dsimp only
  rw [getQ, each, mget_map {} (fun v => if v.live ∧ v.ctx = c then loseSink v else v) rfl]
  split
  · rfl
  · split <;> rfl

theorem fetching_sinkLost (c : Nat) (s : State) : Fetching (getQ s q) (getQ (sinkLost c s) q) 0 := by
  rw [getQ_sinkLost]
  split <;> exact ⟨Nat.le_refl _, Nat.le_refl _, rfl, rfl⟩

theorem fetching_writeCi (s : State) : Fetching (getQ s q) (getQ (writeCi q s) q) 0 := by
  have written := getQ_writeChunks (q := q) (getQ s q).ctx causeEngine .other
    (lineChunks (getQ s q).ciAddr.toNat (leBytes 8 (getQ s q).fetched).length) (leBytes 8 (getQ s q).fetched) s
  unfold writeCi writeVa
  dsimp only
  split
  · exact ⟨Nat.le_refl _, Nat.le_refl _, rfl, rfl⟩
  · split
    · rename_i run
      rw [run] at written
      rw [written]
      exact ⟨Nat.le_refl _, Nat.le_refl _, rfl, rfl⟩
    · rename_i run
      rw [run] at written
      rw [← written]
      exact fetching_sinkLost ..

/-- No more is fetched than the producer index and the limit of 64 allow. -/
theorem refill_bounds (q : Nat) (s : State) : (getQ (refill q s) q).fetched ≤ max (getQ s q).fetched (getQ s q).pi
    ∧ (getQ (refill q s) q).entries.length ≤ max 64 (getQ s q).entries.length
    ∧ (getQ (refill q s) q).nextSeq = (getQ s q).nextSeq ∧ (getQ (refill q s) q).cur = (getQ s q).cur := by
  obtain ⟨fetched, entries, seq, cur⟩ := (takeRing_fetching (q := q)
    (min ((getQ s q).pi - (getQ s q).fetched) (64 - (getQ s q).entries.length)) s).trans (fetching_writeCi _)
  have traced : ∀ i t, getQ (if qKind q = 7 then fwPoint i 1 q t else t) q = getQ t q := fun i t => by
    split
    · exact fwPoint_keep (getQ · q) (fun _ _ => rfl) (fun _ _ => rfl) (fun _ _ _ => rfl) (fun _ _ => rfl) ..
    · rfl
  unfold refill
  dsimp only
  split
  · exact ⟨by omega, by omega, rfl, rfl⟩
  · rw [traced]
    exact ⟨by omega, by omega, seq, cur⟩

theorem takeRing_step (n : Nat) {bs : List Byte} {s1 : State} (read : readVa s (getQ s q).ctx (ringAt (getQ s q)) 64 accRead .other = (.ok bs, s1)) :
    ∃ t, takeRing q (n + 1) s = takeRing q n t ∧ (getQ t q).fetched = (getQ s q).fetched + 1 ∧ bytesSame s t
      ∧ ∃ x : Entry, (getQ t q).entries = (getQ s q).entries ++ [x] ∧ x.cmd = BitVec.ofNat 512 (leNat bs)
        ∧ x.addr = BitVec.ofNat 64 (ringAt (getQ s q)) ∧ x.chained = false := by
  have sans := sans_of_readVa read
  have same := getQ_of_fe (sans_fe sans) q
  rw [takeRing]
  simp only [read]
  refine ⟨_, rfl, ?_, ⟨(sans_cells sans :), congrArg Hs.hostMem (sans_hs sans :)⟩, ?_⟩
  · rw [getQ_modQ, if_pos rfl, same]
  · rw [getQ_modQ, if_pos rfl, same]
    exact ⟨_, rfl, rfl, rfl, rfl⟩

/-- A producer index that is read (R242, R243). -/
theorem fetchQ_reads {bs : List Byte} {s1 : State} (may : mayFetch s q = true) (kept : (getQ s q).destroying = false)
    (stopped : (getQ s q).state ≠ qStopped) (halted : (getQ s q).state ≠ qHalted)
    (read : readVa s (getQ s q).ctx (getQ s q).piAddr.toNat 8 accRead .other = (.ok bs, s1)) :
    ∃ u, (getQ u q).pi = leNat bs ∧ (getQ u q).fetched = (getQ s q).fetched ∧ (getQ u q).entries = (getQ s q).entries ∧ bytesSame s u
      ∧ fetchQ q s = settleQ q (refill q u) := by
  have sans := sans_of_readVa read
  have same := getQ_of_fe (sans_fe sans) q
  have queue : getQ (modQ q (fun w => { w with pi := leNat bs }) s1) q = { getQ s q with pi := leNat bs } := by
    rw [getQ_modQ, if_pos rfl, same]
  refine ⟨modQ q (fun w => { w with pi := leNat bs }) s1, by rw [queue], by rw [queue], by rw [queue],
    ⟨(sans_cells sans :), congrArg Hs.hostMem (sans_hs sans :)⟩, ?_⟩
  unfold fetchQ
  dsimp only
  rw [if_neg (by simp [may, kept, stopped, halted]), read]

end Fetch

section Index
variable {qid : BitVec 20} {s : State} {h : HostDelta}

/-- A polled index is read once the host's stores are visible. -/
theorem producerIndexPoll_reads {bs : List Byte} {s1 : State} (on : s.pw.powered = true)
    (only : queuesWhere (applyDelta h s) (fun _ x => x.polled) = [qid.toNat]) (may : mayFetch (applyDelta h s) qid.toNat = true)
    (kept : (getQ (applyDelta h s) qid.toNat).destroying = false) (stopped : (getQ (applyDelta h s) qid.toNat).state ≠ qStopped)
    (halted : (getQ (applyDelta h s) qid.toNat).state ≠ qHalted)
    (read : readVa (applyDelta h s) (getQ (applyDelta h s) qid.toNat).ctx (getQ (applyDelta h s) qid.toNat).piAddr.toNat 8 accRead .other = (.ok bs, s1)) :
    (applyDelta h s).hs.hostMem = h.stores.foldl (fun m x => mset 0 m x.1 x.2) s.hs.hostMem
    ∧ ∃ u, (getQ u qid.toNat).pi = leNat bs ∧ (getQ u qid.toNat).fetched = (getQ (applyDelta h s) qid.toNat).fetched
      ∧ (getQ u qid.toNat).entries = (getQ (applyDelta h s) qid.toNat).entries ∧ bytesSame (applyDelta h s) u
      ∧ exec (.producerIndexPoll h) s = .next (onlyWork s
          (fns.foldl (fun t f => if adminWatched t f then t else fetchAdmin f t) (settleQ qid.toNat (refill qid.toNat u)))) := by
  obtain ⟨u, pi, fetched, entries, bytes, run⟩ := fetchQ_reads may kept stopped halted read
  refine ⟨congrArg Hs.hostMem (changed_hs ..), u, pi, fetched, entries, bytes, ?_⟩
  show execProducerIndexPoll h s = _
  unfold execProducerIndexPoll
  rw [if_neg (by simp [on])]
  dsimp only
  rw [only, ← run]
  rfl

/-- A watched index is read when its line changes, and no admin ring's unless it lies there too. -/
theorem producerIndexWatch_reads {line : W64} (on : s.pw.powered = true)
    (only : queuesWhere (applyDelta h s) (fun k x => !x.polled && (getFn (applyDelta h s) x.owner).linkUp && indexInLine (applyDelta h s) k line.toNat)
      = [qid.toNat])
    (apart : ∀ x, (getFn (fetchQ qid.toNat (applyDelta h s)) x).adminPi.toNat / 64 ≠ line.toNat / 64) :
    exec (.producerIndexWatch line h) s = .next (onlyWork s (fetchQ qid.toNat (applyDelta h s))) := by
  show execProducerIndexWatch line h s = _
  unfold execProducerIndexWatch
  rw [if_neg (by simp [on])]
  dsimp only
  rw [only]
  simp [fns, apart]

end Index

end Sys2Proof.Machine
end

section
/-! SUPPORT. Command waits and completion words, to the sink or to the shadow (R245, R255 to R259). -/

namespace Sys2Proof.Machine

/-! ### Command waits and completion words (R245, R255 to R259) -/

section Completion
variable {qid : BitVec 20} {s : State}

/-- A released wait readies its queue's command (R245, R259). -/
theorem commandWaitRelease_readies (live : (getQ s qid.toNat).live = true) (waiting : (getQ s qid.toNat).state = qWaiting)
    (released : waitReleased s qid.toNat = true) :
    ∃ t, exec (.commandWaitRelease qid) s = .next t ∧ (getQ t qid.toNat).waitDone = true
      ∧ (getQ t qid.toNat).state = (if sinkHeld s (getQ s qid.toNat) then qHalted else qActive)
      ∧ (getQ t qid.toNat).cur = (getQ s qid.toNat).cur ∧ (∀ k, k ≠ qid.toNat → getQ t k = getQ s k) ∧ bytesKept s t ∧ t.en = s.en := by
  have run : exec (.commandWaitRelease qid) s = .next (onlyWork s (modQ qid.toNat (fun w =>
      { w with waitDone := true, state := if sinkHeld s (getQ s qid.toNat) then qHalted else qActive }) s)) := by
    show execCommandWaitRelease qid s = _
    unfold execCommandWaitRelease
    dsimp only
    rw [if_pos (by simp [live, waiting, released])]
  refine ⟨_, run, ?_, ?_, ?_, fun k other => ?_, ⟨⟨rfl, rfl⟩, rfl, rfl, rfl⟩, rfl⟩
  · rw [getQ_onlyWork, getQ_modQ, if_pos rfl]
  · rw [getQ_onlyWork, getQ_modQ, if_pos rfl]
  · rw [getQ_onlyWork, getQ_modQ, if_pos rfl]
  · rw [getQ_onlyWork, getQ_modQ, if_neg other]

theorem exec_commandCompletion {f : InFlight}
    (oldest : (getQ s qid.toNat).inflight.find? (fun x => x.result.isSome && x.entry.seq == f.entry.seq) = some f) :
    exec (.commandCompletion (.queue qid) f.entry.seq) s = .next (onlyWork s (freeVersions (publish qid.toNat f s))) := by
  show execCommandCompletion (.queue qid) f.entry.seq s = _
  simp only [execCommandCompletion, oldest]

/-- The queue without a command that is published. -/
def unflown (q id : Nat) (s : State) : State := modQ q (fun w => { w with inflight := w.inflight.filter (fun y => y.id != id) }) s

theorem getQ_unflown (q id : Nat) (s : State) :
    getQ (unflown q id s) q = { getQ s q with inflight := (getQ s q).inflight.filter (fun y => y.id != id) } := (getQ_modQ ..).trans (if_pos rfl)

section Word
variable {q : Nat} {f : InFlight}

/-- A DONE command with nothing but CW: its word, and the next command. -/
theorem publish_word (done : f.result = some 0) (ring : f.inGraph = false) (sig : cmdSig f.entry.cmd = false) (cw : cmdCw f.entry.cmd = true)
    (irq : cmdIrq f.entry.cmd = false) (chain : cmdChainEn f.entry.cmd = false) (s : State) :
    publish q f s = finishDestroy q (settleQ q (writeWord q 0 f.entry.seq (unflown q f.id s))) := by
  simp [publish, done, stDone, sigAdd, sig, cw, irq, afterWord, ring, chain, unflown]

/-- One that did not end with DONE: its word, and the stop of its queue. -/
theorem publish_failed {st : Nat} (ended : f.result = some st) (failed : st ≠ 0) (ring : f.inGraph = false) (irq : cmdIrq f.entry.cmd = false)
    (s : State) (runs : (getQ (writeWord q st f.entry.seq (unflown q f.id s)) q).state ≠ qStopped) :
    publish q f s = finishDestroy q (settleQ q (stopQ q st f.entry (writeWord q st f.entry.seq (unflown q f.id s)))) := by
  unfold unflown at runs ⊢
  simp [publish, ended, failed, stDone, irq, afterWord, ring, runs]

/-- The queue with a word in its shadow (R259). -/
def shadowWord (q st : Nat) (seq : BitVec 56) (s : State) : State := modQ q (fun v => { v with
    shadowFirst := if v.shadowHeld then v.shadowFirst else BitVec.ofNat 64 (completionWord st seq)
    shadowHeld := true, shadowLast := BitVec.ofNat 64 (completionWord st seq), shadowCount := satAdd max32 v.shadowCount 1 }) s

theorem writeWord_shadow (bad : (getQ s q).sinkBad = true) (st : Nat) (seq : BitVec 56) : writeWord q st seq s = shadowWord q st seq s := by
  simp only [writeWord, bad, if_true]
  rfl

theorem writeWord_stores {loc st : Nat} {seq : BitVec 56} {s1 : State} (good : (getQ s q).sinkBad = false) (aligned : (getQ s q).cq.toNat % 8 = 0)
    (reach : translate s (getQ s q).ctx ((getQ s q).cq.toNat + 8 * (seq.toNat % 2 ^ (getQ s q).cqLog2)) accWrite .other = (.ok loc, s1)) :
    writeWord q st seq s = storeAt causeEngine loc (leBytes 8 (completionWord st seq)) s1 := by
  simp only [writeWord, good, Bool.false_eq_true, if_false]
  rw [writeVa_word reach (by omega)]

end Word

theorem commandCompletion_word {f : InFlight} {loc : Nat} {s1 : State}
    (oldest : (getQ s qid.toNat).inflight.find? (fun x => x.result.isSome && x.entry.seq == f.entry.seq) = some f) (done : f.result = some 0)
    (ring : f.inGraph = false) (sig : cmdSig f.entry.cmd = false) (cw : cmdCw f.entry.cmd = true) (irq : cmdIrq f.entry.cmd = false)
    (chain : cmdChainEn f.entry.cmd = false) (good : (getQ s qid.toNat).sinkBad = false)
    (reach : translate (unflown qid.toNat f.id s) (getQ s qid.toNat).ctx
      ((getQ s qid.toNat).cq.toNat + 8 * (f.entry.seq.toNat % 2 ^ (getQ s qid.toNat).cqLog2)) accWrite .other = (.ok loc, s1))
    (aligned : (getQ s qid.toNat).cq.toNat % 8 = 0) (opened : coreClosed s loc = false) :
    ∃ u, exec (.commandCompletion (.queue qid) f.entry.seq) s = .next (onlyWork s (freeVersions (finishDestroy qid.toNat (settleQ qid.toNat u))))
      ∧ (getQ u qid.toNat).inflight = (getQ s qid.toNat).inflight.filter (fun x => x.id != f.id) ∧ stored s u loc (leBytes 8 f.entry.seq.toNat) := by
  have queue := getQ_unflown qid.toNat f.id s
  have word : completionWord 0 f.entry.seq = f.entry.seq.toNat := by simp [completionWord]
  have written : writeWord qid.toNat 0 f.entry.seq (unflown qid.toNat f.id s) = storeAt causeEngine loc (leBytes 8 f.entry.seq.toNat) s1 := by
    rw [writeWord_stores (by rw [queue, good]) (by rw [queue, aligned]) (by rw [queue]; exact reach), word]
  have bytes : stored (unflown qid.toNat f.id s) (storeAt causeEngine loc (leBytes 8 f.entry.seq.toNat) s1) loc (leBytes 8 f.entry.seq.toNat) :=
    stored_word reach opened _ causeEngine ⟨rfl, rfl⟩
  refine ⟨_, ?_, ?_, stored_of_same bytes ⟨rfl, rfl⟩ ⟨rfl, rfl⟩⟩
  · rw [exec_commandCompletion oldest, publish_word done ring sig cw irq chain, written]
  · rw [getQ_storeAt, getQ_of_fe (sans_fe (translate_ok_sans reach)), queue]

theorem commandCompletion_failed {f : InFlight} {st : Nat}
    (oldest : (getQ s qid.toNat).inflight.find? (fun x => x.result.isSome && x.entry.seq == f.entry.seq) = some f) (ended : f.result = some st)
    (failed : st ≠ 0) (ring : f.inGraph = false) (irq : cmdIrq f.entry.cmd = false) (bad : (getQ s qid.toNat).sinkBad = true)
    (runs : (getQ s qid.toNat).state ≠ qStopped) :
    ∃ u, exec (.commandCompletion (.queue qid) f.entry.seq) s = .next (onlyWork s (freeVersions (finishDestroy qid.toNat (settleQ qid.toNat u))))
      ∧ (getQ u qid.toNat).inflight = (getQ s qid.toNat).inflight.filter (fun x => x.id != f.id) ∧ (getQ u qid.toNat).state = qStopped
      ∧ (getQ u qid.toNat).stopStatus = st ∧ (getQ u qid.toNat).shadowLast = BitVec.ofNat 64 (st * 2 ^ 56 + f.entry.seq.toNat)
      ∧ (getQ u qid.toNat).shadowCount = satAdd max32 (getQ s qid.toNat).shadowCount 1 ∧ bytesKept s u := by
  have shadow : writeWord qid.toNat st f.entry.seq (unflown qid.toNat f.id s) = shadowWord qid.toNat st f.entry.seq (unflown qid.toNat f.id s) :=
    writeWord_shadow (by rw [getQ_unflown, bad]) ..
  have queue : ∀ t e, getQ (stopQ qid.toNat st e t) qid.toNat =
      { getQ t qid.toNat with state := qStopped, stopStatus := st, stopped := some e, chainOpen := false, waitDone := false } := fun t e =>
    (getQ_modQ ..).trans (if_pos rfl)
  have word : getQ (shadowWord qid.toNat st f.entry.seq (unflown qid.toNat f.id s)) qid.toNat = { getQ (unflown qid.toNat f.id s) qid.toNat with
      shadowFirst := if (getQ (unflown qid.toNat f.id s) qid.toNat).shadowHeld then (getQ (unflown qid.toNat f.id s) qid.toNat).shadowFirst
        else BitVec.ofNat 64 (completionWord st f.entry.seq)
      shadowHeld := true, shadowLast := BitVec.ofNat 64 (completionWord st f.entry.seq)
      shadowCount := satAdd max32 (getQ (unflown qid.toNat f.id s) qid.toNat).shadowCount 1 } := (getQ_modQ ..).trans (if_pos rfl)
  refine ⟨stopQ qid.toNat st f.entry (shadowWord qid.toNat st f.entry.seq (unflown qid.toNat f.id s)), ?_, ?_, ?_, ?_, ?_, ?_, ⟨⟨rfl, rfl⟩, rfl, rfl, rfl⟩⟩
  · rw [exec_commandCompletion oldest, publish_failed ended failed ring irq s (by rw [shadow, word, getQ_unflown]; exact runs), shadow]
  · rw [queue, word, getQ_unflown]
  · rw [queue]
  · rw [queue]
  · rw [queue, word]
    rfl
  · rw [queue, word, getQ_unflown]

end Completion

/-- Settles O48: one lemma for each event, in the order of the statement. -/
theorem fetchWaitAndCompletion : Obligations.FetchWaitAndCompletion :=
  fun _ _ => ⟨fun _ _ _ on only may kept stopped halted read => producerIndexPoll_reads on only may kept stopped halted read,
    fun _ _ on only apart => producerIndexWatch_reads on only apart, refill_bounds _ _, fun n _ _ read => takeRing_step n read,
    commandWaitRelease_readies,
    fun _ _ _ oldest done ring sig cw irq chain good reach aligned _ opened =>
      commandCompletion_word oldest done ring sig cw irq chain good reach aligned opened,
    fun _ _ oldest ended failed ring irq bad _ runs => commandCompletion_failed oldest ended failed ring irq bad runs⟩

end Sys2Proof.Machine
end

section
/-! SUPPORT. The count of entries that Q_DESTROY dropped, and the end of a Q_DESTROY (R254). -/

namespace Sys2Proof.Machine

/-! ### What leaves the count of entries that Q_DESTROY dropped alone -/

/-- The entries that Q_DESTROY dropped. -/
def dropCount (s : State) : Nat := s.fr.qDrop

section View
variable (q : Nat) (s : State)

theorem dropCount_of_sans {s t : State} (same : sansCache t = sansCache s) : dropCount t = dropCount s := by
  rw [dropCount, dropCount, sans_fr same]

theorem dropCount_addFault (r : FaultRec) (ctl : Bool) : dropCount (addFault r ctl s) = dropCount s :=
  congrArg (·.fr.qDrop) (addFault_sansFault r ctl s)

theorem dropCount_ctxReset (c st : Nat) (fabric : Bool) : dropCount (ctxReset c st fabric s) = dropCount s :=
  (congrArg dropCount (ctxReset_sansCtxs_any c st fabric s) :)

theorem dropCount_storeAt (cause loc : Nat) (bs : List Byte) : dropCount (storeAt cause loc bs s) = dropCount s := by
  rw [storeAt, changed_keep dropCount (fun _ _ => rfl) (fun _ _ => rfl) (fun _ _ => rfl), locStore]
  split
  · rfl
  · split <;> rfl

theorem dropCount_writeChunks (ctx cause : Nat) (who : Who) (cs : List (Nat × Nat)) (bs : List Byte) :
    dropCount (writeChunks ctx cause who cs bs s).2 = dropCount s := by
  induction cs generalizing bs s with
  | nil => rfl
  | cons c cs ih =>
    obtain ⟨va, n⟩ := c
    rw [writeChunks]
    split
    · rw [ih, dropCount_storeAt, dropCount_of_sans (translate_ok_sans ‹_›)]
    · exact dropCount_of_sans (translate_ok_sans ‹_›)

theorem dropCount_sinkLost (c : Nat) : dropCount (sinkLost c s) = dropCount s := by
  unfold sinkLost
  dsimp only
  split
  · rfl
  · split <;> rfl

theorem dropCount_writeCi : dropCount (writeCi q s) = dropCount s := by
  have written := dropCount_writeChunks s (getQ s q).ctx causeEngine .other (lineChunks (getQ s q).ciAddr.toNat (leBytes 8 (getQ s q).fetched).length)
    (leBytes 8 (getQ s q).fetched)
  unfold writeCi writeVa
  dsimp only
  split
  · rfl
  · split
    · rename_i run
      rwa [run] at written
    · rename_i run
      rw [run] at written
      rw [dropCount_sinkLost, ← written]

theorem dropCount_feAccess (seq : BitVec 56) (va acc : Nat) (o : XOut) : dropCount (feAccess q seq va acc o s) = dropCount s := by
  unfold feAccess
  dsimp only
  split
  · rfl
  · rw [dropCount_ctxReset, dropCount_addFault]
  · rw [dropCount_ctxReset, dropCount_addFault]

theorem dropCount_pushFlight (e : Entry) (t : Nat) (r : Option Nat) (g : Bool) : dropCount (pushFlight q e t r g s) = dropCount s := rfl
theorem dropCount_modQ (f : Queue → Queue) : dropCount (modQ q f s) = dropCount s := rfl

theorem dropCount_feFail (e : Entry) (va acc : Nat) (o : XOut) : dropCount (feFail q e va acc o s) = dropCount s := by
  rw [feFail, dropCount_feAccess, dropCount_pushFlight]

theorem dropCount_feIllegal (e : Entry) (reason : Nat) : dropCount (feIllegal q e reason s) = dropCount s := by
  rw [feIllegal, feEnd, dropCount_pushFlight, dropCount_addFault]

theorem dropCount_takeRing (n : Nat) : dropCount (takeRing q n s) = dropCount s := by
  induction n generalizing s with
  | zero => rfl
  | succ n ih =>
    rw [takeRing]
    dsimp only
    split
    · rw [ih, dropCount_modQ, dropCount_of_sans (sans_of_readVa ‹_›)]
    · rfl

theorem dropCount_fwPoint (i code arg : Nat) : dropCount (fwPoint i code arg s) = dropCount s :=
  fwPoint_keep dropCount (fun _ _ => rfl) (fun _ _ => rfl) (fun _ _ _ => rfl) (fun _ _ => rfl) ..

theorem dropCount_refill : dropCount (refill q s) = dropCount s := by
  unfold refill
  dsimp only
  split
  · rfl
  · split
    · rw [dropCount_fwPoint, dropCount_writeCi, dropCount_takeRing]
    · rw [dropCount_writeCi, dropCount_takeRing]

/-! ### The next command, taken and readied -/

theorem dropCount_takeAt (va : Nat) (seq : BitVec 56) (chained : Bool) : dropCount (takeAt q va seq chained s) = dropCount s := by
  unfold takeAt
  dsimp only
  split
  · rw [dropCount_modQ, dropCount_of_sans (sans_of_readVa ‹_›)]
  · rw [dropCount_feFail, dropCount_of_sans (sans_of_readVa ‹_›)]

theorem dropCount_takeGraph (g ver i : Nat) (seq : BitVec 56) : dropCount (takeGraph q g ver i seq s) = dropCount s := by
  unfold takeGraph
  dsimp only
  split
  · exact dropCount_feIllegal ..
  · split
    · exact dropCount_feIllegal ..
    · split
      · rw [dropCount_feFail, dropCount_of_sans (readLoc_sans ..)]
      · rw [dropCount_modQ, dropCount_of_sans (readLoc_sans ..)]

theorem dropCount_takeFrame (f : Frame) (fs : List Frame) : dropCount (takeFrame q f fs s) = dropCount s := by
  unfold takeFrame
  split
  · rw [dropCount_takeGraph, dropCount_modQ]
  · rw [dropCount_takeAt, dropCount_modQ]

theorem dropCount_takeChain (a : Nat) : dropCount (takeChain q a s) = dropCount s := by
  unfold takeChain
  dsimp only
  split
  · split
    · rw [dropCount_takeGraph, dropCount_modQ]
    · rw [dropCount_takeAt, dropCount_modQ]
  · rw [dropCount_takeAt, dropCount_modQ, dropCount_modQ]

theorem dropCount_takeEntry : dropCount (takeEntry q s) = dropCount s := by
  unfold takeEntry
  dsimp only
  split
  · rw [dropCount_modQ]
  · split
    · rfl
    · split
      · rfl
      · rw [dropCount_feFail, dropCount_modQ, dropCount_of_sans (sans_of_readVa ‹_›)]

theorem dropCount_takeNext : dropCount (takeNext q s) = dropCount s := by
  unfold takeNext
  dsimp only
  split
  · rfl
  · exact dropCount_takeChain ..
  · exact dropCount_modQ ..
  · exact dropCount_takeFrame ..
  · rfl
  · exact dropCount_takeEntry ..

theorem dropCount_armCur : dropCount (armCur q s) = dropCount s := by
  unfold armCur
  dsimp only
  split
  · split
    · exact dropCount_modQ ..
    · rfl
  · split
    · exact dropCount_feIllegal ..
    · split
      · exact dropCount_modQ ..
      · split
        · split
          · split
            · rw [dropCount_feFail, dropCount_of_sans (translate_ok_sans ‹_›)]
            · rename_i reach _
              have same := dropCount_of_sans (translate_ok_sans reach)
              exact same
          · rw [dropCount_feFail, dropCount_of_sans (translate_ok_sans ‹_›)]
        · exact dropCount_modQ ..

theorem dropCount_settleQ : dropCount (settleQ q s) = dropCount s := by
  unfold settleQ
  dsimp only
  split
  · rw [dropCount_armCur, dropCount_takeNext, dropCount_refill]
  · rfl

theorem dropCount_fetchQ : dropCount (fetchQ q s) = dropCount s := by
  unfold fetchQ
  dsimp only
  split
  · rfl
  · split
    · rw [dropCount_feAccess, dropCount_modQ, dropCount_of_sans (sans_of_readVa ‹_›)]
    · rw [dropCount_settleQ, dropCount_refill, dropCount_modQ, dropCount_of_sans (sans_of_readVa ‹_›)]

theorem dropCount_resumeQueues (c : Nat) : dropCount (resumeQueues c s) = dropCount s :=
  foldl_keep dropCount (fun t q => (dropCount_fetchQ q _).trans (dropCount_modQ q t _)) ..

theorem dropCount_enterState (c st : Nat) : dropCount (enterState c st s) = dropCount s := by
  unfold enterState
  dsimp only
  split <;> rfl

theorem dropCount_sinkFound (c : Nat) : dropCount (sinkFound c s) = dropCount s := by
  unfold sinkFound
  split
  · rfl
  · split
    · rw [dropCount_resumeQueues, dropCount_enterState]
    · rfl

theorem dropCount_removeQ : dropCount (removeQ q s) = dropCount s := by
  unfold removeQ
  dsimp only
  rw [dropCount_sinkFound]
  split <;> rfl

theorem dropCount_ctlEnd (f : Bool) (st cls reason a0 a1 : Nat) : dropCount (ctlEnd f st cls reason a0 a1 s) = dropCount s :=
  ctlEnd_keep dropCount (fun _ _ _ => congrArg Fr.qDrop (setFn_fr ..)) (fun _ _ => dropCount_addFault ..) ..

end View

/-! ### The end of a Q_DESTROY -/

/-- The function's admin command ends where it is the Q_DESTROY of this queue. -/
def endDestroy (q : Nat) (t : State) (f : Bool) : State :=
  match (getFn t f).adminBusy with
  | some b => if b.result.isNone && cmdOp b.entry.cmd == 0x25 && cmdArg b.entry.cmd 0 == q then ctlEnd f stDone 0 0 0 0 t else t
  | none => t

theorem endDestroy_cases (q : Nat) (t : State) (f : Bool) : endDestroy q t f = t ∨ endDestroy q t f = ctlEnd f 0 0 0 0 0 t := by
  unfold endDestroy
  split
  · split
    · exact .inr rfl
    · exact .inl rfl
  · exact .inl rfl

theorem endDestroy_keep {β : Type} (p : State → β) (ends : ∀ f t, p (ctlEnd f 0 0 0 0 0 t) = p t) (q : Nat) (t : State) (f : Bool) :
    p (endDestroy q t f) = p t := by
  obtain same | same := endDestroy_cases q t f
  · rw [same]
  · rw [same, ends]

theorem getFn_ctlEnd_not (f : Bool) (s : State) : getFn (ctlEnd f 0 0 0 0 0 s) (!f) = getFn s (!f) := by
  unfold ctlEnd
  dsimp only
  split
  · rfl
  · cases f <;> rfl

theorem getFn_endDestroy_not (q : Nat) (t : State) (f : Bool) : getFn (endDestroy q t f) (!f) = getFn t (!f) := by
  obtain same | same := endDestroy_cases q t f
  · rw [same]
  · rw [same, getFn_ctlEnd_not]

/-- Both functions' admin commands, each where it is the Q_DESTROY of this queue. -/
def endDestroys (q : Nat) (s : State) : State := endDestroy q (endDestroy q s false) true

/-- The function's own Q_DESTROY ends. -/
theorem getFn_endDestroys {q : Nat} {f : Bool} {b : InFlight} {s : State} (busy : (getFn s f).adminBusy = some b) (runs : b.result = none)
    (op : cmdOp b.entry.cmd = 0x25) (own : cmdArg b.entry.cmd 0 = q) :
    (getFn (endDestroys q s) f).adminBusy = some { b with result := some 0 } := by
  have ended : ∀ t, (getFn t f).adminBusy = some b → (getFn (endDestroy q t f) f).adminBusy = some { b with result := some 0 } := fun t h => by
    unfold endDestroy
    rw [h]
    dsimp only
    rw [if_pos (by simp [runs, op, own]), getFn_ctlEnd, h]
    rfl
  cases f with
  | false =>
    have last : getFn (endDestroys q s) false = getFn (endDestroy q s false) false := getFn_endDestroy_not q _ true
    rw [last]
    exact ended s busy
  | true =>
    have first : getFn (endDestroy q s false) true = getFn s true := getFn_endDestroy_not q s false
    exact ended _ (first ▸ busy)

theorem endDestroys_keep {β : Type} (p : State → β) (ends : ∀ f t, p (ctlEnd f 0 0 0 0 0 t) = p t) (q : Nat) (s : State) :
    p (endDestroys q s) = p s := (endDestroy_keep p ends ..).trans (endDestroy_keep p ends ..)

theorem dropCount_finishDestroy (q : Nat) (s : State) : dropCount (finishDestroy q s) = dropCount s := by
  unfold finishDestroy
  dsimp only
  split
  · rfl
  · split
    · exact (endDestroys_keep dropCount (fun _ _ => dropCount_ctlEnd ..) q _).trans (dropCount_removeQ ..)
    · rfl

end Sys2Proof.Machine
end

section
/-! SUPPORT. Q_CREATE and Q_DESTROY: the queue of a record, and a queue that goes (R240, R241, R254, Table 12-12). -/

namespace Sys2Proof.Machine

section Commands
variable {f : Bool} {s : State} {e : Entry}

theorem bfld_toNat_ofNat {k lo w : Nat} (x : BitVec k) : (BitVec.ofNat w (bfld x lo w)).toNat = bfld x lo w := by
  have low : bfld x lo w < 2 ^ w := Nat.mod_lt _ (Nat.two_pow_pos w)
  rw [BitVec.toNat_ofNat, Nat.mod_eq_of_lt low]

theorem getQ_dropWaits (w : Waiter → Bool) (s : State) (k : Nat) : getQ (dropWaits w s) k = getQ s k := rfl

theorem dropCount_onlyWork (s t : State) : dropCount (onlyWork s t) = dropCount t := rfl

theorem ownsQueue_iff {q : Nat} : ownsQueue s f q = true ↔ (getQ s q).live = true ∧ (getQ s q).owner = f ∧ (getQ s q).destroying = false := by
  simp [ownsQueue, and_assoc]

/-! ### Q_CREATE -/

/-- The queue of a record, and the engine's queue context of a direct one (R104, R241, R247). -/
theorem makeQueue_makes (f : Bool) (r : W512) (s : State) : ∃ w : Queue,
    (∀ k, getQ (makeQueue f r s) k = if k = bfld r 0 20 then w else getQ s k) ∧ w.live = true ∧ w.state = qIdle ∧ w.owner = f ∧ w.ctx = bfld r 20 8
      ∧ w.fetched = 0 ∧ w.ring.toNat = bfld r 64 57 ∧ w.cq.toNat = bfld r 256 57 ∧ w.nextSeq.toNat = bfld r 320 56
      ∧ (qKind (bfld r 0 20) ≠ 7 → ∃ seq : BitVec 56,
          getQc (makeQueue f r s) (bfld r 0 20) = { live := true, ctx := bfld r 20 8, seq := seq, nextSeq := seq })
      ∧ (makeQueue f r s).mem = s.mem ∧ (makeQueue f r s).hs = s.hs := by
  have narrow : ∀ lo, (BitVec.ofNat 64 (bfld r lo 57)).toNat = bfld r lo 57 := fun lo => by
    have := Nat.mod_lt (r.toNat / 2 ^ lo) (Nat.two_pow_pos 57)
    rw [BitVec.toNat_ofNat, Nat.mod_eq_of_lt]
    simp only [bfld, fld]
    omega
  unfold makeQueue
  extract_lets q c seq0 v s1
  have queues : ∀ k, getQ (if qKind q = 7 then s1 else setQc q { live := true, ctx := c, seq := seq0, nextSeq := seq0 } s1) k =
      if k = q then { v with watchLine := indexLine (setQ q v s) q } else getQ s k := fun k => by
    rw [apply_ite (getQ · k), getQ_setQc, ite_self]
    exact getQ_setQ ..
  refine ⟨_, queues, rfl, rfl, rfl, rfl, rfl, narrow 64, narrow 256, bfld_toNat_ofNat r, fun direct => ⟨seq0, ?_⟩, ?_, ?_⟩
  · rw [if_neg direct, getQc_setQc, if_pos rfl]
  · split <;> rfl
  · split <;> rfl

theorem exec_qCreate {bs : List Byte} (cmd : adminCmd s f 0x24 = some e) (a1 : cmdArg e.cmd 1 = 0) (a2 : cmdArg e.cmd 2 = 0)
    (record : hostBytes s (cmdArg e.cmd 0) 64 = some bs) {r : W512} (of : r = BitVec.ofNat 512 (leNat bs)) (sound : recordOk r = true)
    (own : ownsCtx s f (bfld r 20 8) = true) (found : inSinkLost s (bfld r 20 8) = false) (present : kindAbsent s (bfld r 0 20) = false)
    (allowed : queueAllowed s f (bfld r 0 20) (bfld r 20 8) = true) :
    exec (.qCreate f) s = .next (onlyWork s (ctlEnd f 0 0 0 0 0 (makeQueue f r s))) := by
  subst of
  show execQCreate f s = _
  simp only [execQCreate, cmd]
  rw [if_neg (by simp [a1, a2]), record]
  dsimp only
  rw [if_neg (by simp [sound, own]), if_neg (by simp [found]), if_neg (by simp [present]), if_neg (by simp [allowed])]
  rfl

theorem qCreate_makes {bs : List Byte} (cmd : adminCmd s f 0x24 = some e) (a1 : cmdArg e.cmd 1 = 0) (a2 : cmdArg e.cmd 2 = 0)
    (record : hostBytes s (cmdArg e.cmd 0) 64 = some bs) {r : W512} (of : r = BitVec.ofNat 512 (leNat bs)) (sound : recordOk r = true)
    (own : ownsCtx s f (bfld r 20 8) = true) (found : inSinkLost s (bfld r 20 8) = false) (present : kindAbsent s (bfld r 0 20) = false)
    (allowed : queueAllowed s f (bfld r 0 20) (bfld r 20 8) = true) :
    ∃ t, exec (.qCreate f) s = .next t ∧ adminEnded s t f 0 ∧ bytesKept s t
      ∧ (getQ t (bfld r 0 20)).live = true ∧ (getQ t (bfld r 0 20)).state = qIdle ∧ (getQ t (bfld r 0 20)).owner = f
      ∧ (getQ t (bfld r 0 20)).ctx = bfld r 20 8 ∧ (getQ t (bfld r 0 20)).fetched = 0
      ∧ (getQ t (bfld r 0 20)).ring.toNat = bfld r 64 57 ∧ (getQ t (bfld r 0 20)).cq.toNat = bfld r 256 57
      ∧ (getQ t (bfld r 0 20)).nextSeq.toNat = bfld r 320 56
      ∧ (qKind (bfld r 0 20) ≠ 7 → (getQc t (bfld r 0 20)).live = true ∧ (getQc t (bfld r 0 20)).ctx = bfld r 20 8
          ∧ (getQc t (bfld r 0 20)).cmd = none ∧ ∀ g, rdG (getQc t (bfld r 0 20)) g = 0)
      ∧ (∀ k, k ≠ bfld r 0 20 → getQ t k = getQ s k) := by
  obtain ⟨w, queues, live, state, owner, ctx, fetched, ring, cq, seq, context, mem, hs⟩ := makeQueue_makes f r s
  have queue : ∀ k, getQ (onlyWork s (ctlEnd f 0 0 0 0 0 (makeQueue f r s))) k = if k = bfld r 0 20 then w else getQ s k := fun k => by
    rw [getQ_onlyWork, getQ_ctlEnd, queues]
  have here := (queue (bfld r 0 20)).trans (if_pos rfl)
  refine ⟨_, exec_qCreate cmd a1 a2 record of sound own found present allowed, adminEnded_ctlEnd (congrArg Fn.adminBusy (getFn_of_hs hs f)) 0 0 0 0 0,
    bytesKept_of_onlyWork (bytesKept_trans (bytesKept_of_memHs mem hs) (bytesKept_ctlEnd ..)), ?_⟩
  rw [here]
  refine ⟨live, state, owner, ctx, fetched, ring, cq, seq, fun direct => ?_, fun k other => (queue k).trans (if_neg other)⟩
  obtain ⟨seq0, made⟩ := context direct
  rw [getQc_onlyWork, getQc_ctlEnd, made]
  refine ⟨rfl, rfl, rfl, fun g => ?_⟩
  unfold rdG
  split <;> rfl

/-! ### Q_DESTROY -/

/-- A queue under Q_DESTROY: what it has not dispatched at the top level is dropped (R254). -/
def condemned (v : Queue) : Queue :=
  let top := v.frames.isEmpty && v.launch.isNone
  { v with destroying := true, entries := [], back := [], cur := if top then none else v.cur, waitDone := !top && v.waitDone
           chainFrom := if top then none else v.chainFrom
           state := if top && v.state == qWaiting then qActive else v.state }

/-- Q_DESTROY before the queue goes: the dropped entries are counted. -/
def condemnQ (q : Nat) (s : State) : State :=
  let v := getQ s q
  let s1 := if v.frames.isEmpty && v.launch.isNone then dropWaits (isQueueWait q) s else s
  { setQ q (condemned v) s1 with fr := { s1.fr with qDrop := satAdd max48 s1.fr.qDrop (droppedEntries v) } }

theorem condemnQ_keep {β : Type} (p : State → β) (queue : ∀ q v t, p (setQ q v t) = p t)
    (waits : ∀ (t : State) (ws : List Waiter), p { t with fe := { t.fe with waiters := ws } } = p t)
    (fr : ∀ (t : State) (x : Fr), p { t with fr := x } = p t) (q : Nat) (s : State) : p (condemnQ q s) = p s := by
  unfold condemnQ
  dsimp only
  split
  · exact (fr ..).trans ((queue ..).trans (waits ..))
  · exact (fr ..).trans (queue ..)

theorem dropCount_condemnQ (q : Nat) (s : State) : dropCount (condemnQ q s) = satAdd max48 s.fr.qDrop (droppedEntries (getQ s q)) := by
  unfold condemnQ
  dsimp only
  split <;> rfl

theorem getQ_condemnQ (q : Nat) (s : State) (k : Nat) : getQ (condemnQ q s) k = if k = q then condemned (getQ s q) else getQ s k := by
  unfold condemnQ
  dsimp only
  split <;> exact getQ_setQ ..

theorem exec_qDestroy (cmd : adminCmd s f 0x25 = some e) (range : cmdArg e.cmd 0 < 2 ^ 20) (a1 : cmdArg e.cmd 1 = 0) (a2 : cmdArg e.cmd 2 = 0)
    (own : ownsQueue s f (cmdArg e.cmd 0) = true) :
    exec (.qDestroy f) s = .next (onlyWork s (finishDestroy (cmdArg e.cmd 0) (condemnQ (cmdArg e.cmd 0) s))) := by
  obtain ⟨-, -, kept⟩ := ownsQueue_iff.1 own
  show execQDestroy f s = _
  simp only [execQDestroy, cmd]
  rw [if_neg (by simp [a1, a2]; omega), if_neg (by simp [kept]), if_neg (by simp [own])]
  rfl

theorem bytesKept_endDestroys (q : Nat) (s : State) : bytesKept s (endDestroys q s) := by
  have ended : ∀ t f, bytesKept t (endDestroy q t f) := fun t f => by
    obtain same | same := endDestroy_cases q t f
    · rw [same]
      exact bytesKept_refl t
    · rw [same]
      exact bytesKept_ctlEnd ..
  exact bytesKept_trans (ended s false) (ended _ true)

/-- A queue that may go, and what stays of the rest (R254). -/
theorem removeQ_keep {β : Type} (p : State → β) (queue : ∀ q v t, p (setQ q v t) = p t) (ctx : ∀ q v t, p (setQc q v t) = p t)
    (waits : ∀ (t : State) (ws : List Waiter), p { t with fe := { t.fe with waiters := ws } } = p t) (q : Nat) (s : State)
    (found : (getCtx s (getQ s q).ctx).state ≠ ctxSinkLost) : p (removeQ q s) = p s ∧ ∀ k, getQ (removeQ q s) k = if k = q then {} else getQ s k := by
  have plain : removeQ q s = (if qKind q = 7 then dropWaits (fun w => w.key == q && (w.isQueue || qKind q != 7)) (setQ q {} s)
      else setQc q {} (dropWaits (fun w => w.key == q && (w.isQueue || qKind q != 7)) (setQ q {} s))) := by
    have ctxs : ∀ c, getCtx (if qKind q = 7 then dropWaits (fun w => w.key == q && (w.isQueue || qKind q != 7)) (setQ q {} s)
        else setQc q {} (dropWaits (fun w => w.key == q && (w.isQueue || qKind q != 7)) (setQ q {} s))) c = getCtx s c := fun c => by
      split <;> rfl
    unfold removeQ sinkFound
    dsimp only
    rw [ctxs, if_neg found, ite_self]
  rw [plain]
  refine ⟨?_, fun k => ?_⟩
  · split
    · exact (waits ..).trans (queue ..)
    · exact (ctx ..).trans ((waits ..).trans (queue ..))
  · have set_ : getQ (dropWaits (fun w => w.key == q && (w.isQueue || qKind q != 7)) (setQ q {} s)) k = if k = q then {} else getQ s k 
        := (getQ_dropWaits ..).trans (getQ_setQ ..)
    split
    · exact set_
    · rw [getQ_setQc, set_]

/-- A condemned queue without work in progress runs on until what is in flight has completed, and goes at once where nothing is. -/
theorem finishDestroy_condemned {q : Nat} {u : State} (queue : getQ u q = condemned (getQ s q)) (live : (getQ s q).live = true)
    (stopped : (getQ s q).state ≠ qStopped) (halted : (getQ s q).state ≠ qHalted) (frames : (getQ s q).frames = []) (launch : (getQ s q).launch = none) :
    finishDestroy q u = if (getQ s q).inflight = [] then endDestroys q (removeQ q u) else setQ q (getQ u q) u := by
  have state : (condemned (getQ s q)).state ≠ qStopped ∧ (condemned (getQ s q)).state ≠ qHalted := by
    unfold condemned
    dsimp only
    split
    · exact ⟨by decide, by decide⟩
    · exact ⟨stopped, halted⟩
  have same : trimStopped (getQ u q) = condemned (getQ s q) := by
    rw [queue, trimStopped, if_neg (by simp [state])]
  have empty : (condemned (getQ s q)).back = [] ∧ (condemned (getQ s q)).cur = none ∧ (condemned (getQ s q)).chainFrom = none := by
    simp [condemned, frames, launch]
  obtain ⟨back, cur, chain⟩ := empty
  have kept : (condemned (getQ s q)).live = true ∧ (condemned (getQ s q)).frames = [] ∧ (condemned (getQ s q)).launch = none :=
    ⟨live, frames, launch⟩
  obtain ⟨live', frames', launch'⟩ := kept
  unfold finishDestroy
  rw [same]
  dsimp only
  have condemned_ : (condemned (getQ s q)).destroying = true := rfl
  rw [if_neg (by simp [live', condemned_]), back, cur, chain, frames', launch']
  by_cases idle : (getQ s q).inflight = []
  · rw [if_pos idle, if_pos (by simp [condemned, idle])]
    rfl
  · rw [if_neg idle, if_neg (by simp [condemned, idle]), queue]

theorem qDestroy_drops (cmd : adminCmd s f 0x25 = some e) (range : cmdArg e.cmd 0 < 2 ^ 20) (a1 : cmdArg e.cmd 1 = 0) (a2 : cmdArg e.cmd 2 = 0)
    (own : ownsQueue s f (cmdArg e.cmd 0) = true) :
    ∃ t, exec (.qDestroy f) s = .next t ∧ t.fr.qDrop = satAdd max48 s.fr.qDrop (droppedEntries (getQ s (cmdArg e.cmd 0)))
      ∧ (inSinkLost s (getQ s (cmdArg e.cmd 0)).ctx = false → (getQ s (cmdArg e.cmd 0)).state ≠ qStopped → (getQ s (cmdArg e.cmd 0)).state ≠ qHalted →
        (getQ s (cmdArg e.cmd 0)).frames = [] → (getQ s (cmdArg e.cmd 0)).launch = none →
          bytesKept s t ∧ (∀ k, k ≠ cmdArg e.cmd 0 → getQ t k = getQ s k)
          ∧ ((getQ s (cmdArg e.cmd 0)).inflight = [] → getQ t (cmdArg e.cmd 0) = {} ∧ adminEnded s t f 0)
          ∧ ((getQ s (cmdArg e.cmd 0)).inflight ≠ [] → (getQ t (cmdArg e.cmd 0)).destroying = true ∧ (getQ t (cmdArg e.cmd 0)).entries = []
              ∧ (getQ t (cmdArg e.cmd 0)).cur = none ∧ (getQ t (cmdArg e.cmd 0)).inflight = (getQ s (cmdArg e.cmd 0)).inflight)) := by
  generalize at_ : cmdArg e.cmd 0 = q
  rw [at_] at range own
  have run := exec_qDestroy cmd (by rwa [at_]) a1 a2 (by rwa [at_])
  rw [at_] at run
  refine ⟨_, run, (dropCount_onlyWork ..).trans ((dropCount_finishDestroy ..).trans (dropCount_condemnQ ..)), fun found stopped halted frames launch => ?_⟩
  obtain ⟨live, -, -⟩ := ownsQueue_iff.1 own
  have queue : getQ (condemnQ q s) q = condemned (getQ s q) := (getQ_condemnQ ..).trans (if_pos rfl)
  have finish := finishDestroy_condemned queue live stopped halted frames launch
  have bytes := condemnQ_keep (fun t => (t.mem, t.hs)) (fun _ _ _ => rfl) (fun _ _ => rfl) (fun _ _ => rfl) q s
  by_cases idle : (getQ s q).inflight = []
  · rw [if_pos idle] at finish
    have lost : (getCtx (condemnQ q s) (getQ (condemnQ q s) q).ctx).state ≠ ctxSinkLost := by
      rw [condemnQ_keep (fun t => getCtx t) (fun _ _ _ => rfl) (fun _ _ => rfl) (fun _ _ => rfl), queue]
      have ctx : (condemned (getQ s q)).ctx = (getQ s q).ctx := rfl
      rw [ctx]
      simpa [inSinkLost] using found
    obtain ⟨removed, queues⟩ := removeQ_keep (fun t => (t.mem, t.hs)) (fun _ _ _ => rfl) (fun _ _ _ => rfl) (fun _ _ => rfl) q (condemnQ q s) lost
    obtain ⟨mem, hs⟩ := Prod.mk.inj (removed.trans bytes)
    have after : ∀ k, getQ (onlyWork s (finishDestroy q (condemnQ q s))) k = if k = q then {} else getQ (condemnQ q s) k := fun k => by
      rw [getQ_onlyWork, finish, endDestroys_keep (getQ · k) (fun _ _ => getQ_ctlEnd ..), queues]
    refine ⟨?_, fun k other => ?_, fun _ => ⟨?_, fun b busy => ?_⟩, fun busy => absurd idle busy⟩
    · refine bytesKept_of_onlyWork (bytesKept_trans (bytesKept_of_memHs mem hs) ?_)
      rw [finish]
      exact bytesKept_endDestroys ..
    · rw [after, if_neg other, getQ_condemnQ, if_neg other]
    · rw [after, if_pos rfl]
    · obtain ⟨b', busy', entry⟩ := adminBusy_of_adminCmd cmd
      obtain rfl : b = b' := Option.some.inj (busy.symm.trans busy')
      have spec : b.result = none ∧ cmdOp b.entry.cmd = 0x25 := by
        rw [adminCmd, busy] at cmd
        dsimp only at cmd
        split at cmd
        · rename_i ok
          simp only [Bool.and_eq_true, Option.isNone_iff_eq_none, beq_iff_eq] at ok
          exact ⟨ok.1.2, ok.2⟩
        · cases cmd
      rw [adminBusy_onlyWork, finish]
      exact getFn_endDestroys (by rw [getFn_of_hs hs, busy]) spec.1 spec.2 (by rw [entry, at_])
  · rw [if_neg idle] at finish
    obtain ⟨mem, hs⟩ := Prod.mk.inj bytes
    have after : ∀ k, getQ (onlyWork s (finishDestroy q (condemnQ q s))) k = getQ (condemnQ q s) k := fun k => by
      rw [getQ_onlyWork, finish, getQ_setQ]
      split
      · rename_i here
        rw [here]
      · rfl
    refine ⟨?_, fun k other => ?_, fun h => absurd h idle, fun _ => ?_⟩
    · refine bytesKept_of_onlyWork ?_
      rw [finish]
      exact bytesKept_of_memHs mem hs
    · rw [after, getQ_condemnQ, if_neg other]
    · rw [after, queue]
      exact ⟨rfl, rfl, by simp [condemned, frames, launch], rfl⟩

end Commands

end Sys2Proof.Machine
end

section
/-! SUPPORT. Q_RESTART, SINK_SET, GRAPH_STORE and GRAPH_FREE, and a command on a context that the function does not own (R251, R254, R255, R258, R373). -/

namespace Sys2Proof.Machine

section Restart
variable {f : Bool} {s : State} {e : Entry} {q : Nat}

/-! ### Q_RESTART (R254, R255) -/

/-- The command that stopped a queue, or that a halted one holds. -/
def stopperOf (v : Queue) : Option Entry := if v.state = qHalted ∧ v.stopStatus = 0 then v.cur else v.stopped

/-- A queue that leaves STOPPED or HALTED. -/
def restartedQueue (v : Queue) : Queue :=
  { v with state := qIdle, stopStatus := 0, stopped := none, cur := none, waitDone := false
           back := match v.cur with | some e => if v.state = qHalted ∧ v.stopStatus = 0 then v.back else e :: v.back | none => v.back }

/-- The queue before it takes its next command: behind the stopping one, or at it again. -/
def restarted (q : Nat) (retry : Bool) (s : State) : State :=
  let s1 := setQ q (restartedQueue (getQ s q)) (dropWaits (isQueueWait q) s)
  match stopperOf (getQ s q) with
  | some e => if retry then restartRetry q e s1 else restartSkip q e s1
  | none => s1

theorem getQ_restartedQueue (q : Nat) (s : State) :
    getQ (setQ q (restartedQueue (getQ s q)) (dropWaits (isQueueWait q) s)) q = restartedQueue (getQ s q) := (getQ_setQ ..).trans (if_pos rfl)

theorem exec_qRestart (cmd : adminCmd s f 0x26 = some e) (range : cmdArg e.cmd 0 < 2 ^ 20) (a1 : cmdArg e.cmd 1 ≤ 1) (a2 : cmdArg e.cmd 2 = 0)
    (own : ownsQueue s f (cmdArg e.cmd 0) = true) (found : inSinkLost s (getQ s (cmdArg e.cmd 0)).ctx = false)
    (stopped : (getQ s (cmdArg e.cmd 0)).state = qStopped ∨ (getQ s (cmdArg e.cmd 0)).state = qHalted) :
    exec (.qRestart f) s = .next (onlyWork s (ctlEnd f 0 0 0 0 0 (settleQ (cmdArg e.cmd 0)
      (fetchQ (cmdArg e.cmd 0) (restarted (cmdArg e.cmd 0) (cmdArg e.cmd 1 == 1) s))))) := by
  show execQRestart f s = _
  simp only [execQRestart, cmd]
  rw [if_neg (by simp [a2, own]; omega), if_neg (by simp [found]), if_neg (by tauto)]
  rfl

theorem restarted_none (none_ : stopperOf (getQ s q) = none) (retry : Bool) :
    restarted q retry s = setQ q (restartedQueue (getQ s q)) (dropWaits (isQueueWait q) s) := by
  simp only [restarted, none_]

theorem restarted_skip {x : Entry} (stopper : stopperOf (getQ s q) = some x) (chain : cmdChainEn x.cmd = false) :
    restarted q false s = setQ q (restartedQueue (getQ s q)) (dropWaits (isQueueWait q) s) := by
  simp [restarted, stopper, restartSkip, chain]

/-- A retried command is fetched again, under its own number. -/
theorem restarted_retry {x : Entry} {bs : List Byte} {s1 : State} (stopper : stopperOf (getQ s q) = some x)
    (read : readVa (setQ q (restartedQueue (getQ s q)) (dropWaits (isQueueWait q) s)) (getQ s q).ctx x.addr.toNat 64 accRead .other = (.ok bs, s1)) :
    (getQ (restarted q true s) q).state = qIdle ∧ ∃ y, (getQ (restarted q true s) q).cur = some y ∧ y.cmd = BitVec.ofNat 512 (leNat bs) ∧ y.seq = x.seq := by
  have ctx : (restartedQueue (getQ s q)).ctx = (getQ s q).ctx := rfl
  have taken : restarted q true s =
      modQ q (fun w => { w with cur := some (bindLaunch s1 (entryOf bs x.seq x.addr.toNat x.chained false)) }) s1 := by
    simp only [restarted, stopper, if_true, restartRetry, takeAt, getQ_restartedQueue, ctx, read]
  have queue := (getQ_of_fe (sans_fe (sans_of_readVa read)) q).trans (getQ_restartedQueue q s)
  rw [taken, getQ_modQ, if_pos rfl, queue]
  refine ⟨rfl, _, rfl, ?_, ?_⟩
  · unfold bindLaunch
    split <;> rfl
  · unfold bindLaunch
    split <;> rfl

theorem qRestart_restarts (cmd : adminCmd s f 0x26 = some e) (range : cmdArg e.cmd 0 < 2 ^ 20) (a1 : cmdArg e.cmd 1 ≤ 1) (a2 : cmdArg e.cmd 2 = 0)
    (own : ownsQueue s f (cmdArg e.cmd 0) = true) (found : inSinkLost s (getQ s (cmdArg e.cmd 0)).ctx = false)
    (stopped : (getQ s (cmdArg e.cmd 0)).state = qStopped ∨ (getQ s (cmdArg e.cmd 0)).state = qHalted) :
    ∃ u, exec (.qRestart f) s = .next (onlyWork s (ctlEnd f 0 0 0 0 0 (settleQ (cmdArg e.cmd 0) (fetchQ (cmdArg e.cmd 0) u))))
      ∧ (stopperOf (getQ s (cmdArg e.cmd 0)) = none → (getQ u (cmdArg e.cmd 0)).state = qIdle ∧ (getQ u (cmdArg e.cmd 0)).stopStatus = 0
          ∧ (getQ u (cmdArg e.cmd 0)).cur = none ∧ bytesKept s u)
      ∧ (∀ x bs, stopperOf (getQ s (cmdArg e.cmd 0)) = some x → cmdArg e.cmd 1 = 1 →
          (∀ w, ∃ s1, readVa (setQ (cmdArg e.cmd 0) w (dropWaits (isQueueWait (cmdArg e.cmd 0)) s)) (getQ s (cmdArg e.cmd 0)).ctx x.addr.toNat 64 accRead .other
            = (.ok bs, s1)) →
          (getQ u (cmdArg e.cmd 0)).state = qIdle ∧ (∃ y, (getQ u (cmdArg e.cmd 0)).cur = some y ∧ y.cmd = BitVec.ofNat 512 (leNat bs) ∧ y.seq = x.seq))
      ∧ (∀ x, stopperOf (getQ s (cmdArg e.cmd 0)) = some x → cmdArg e.cmd 1 = 0 → cmdChainEn x.cmd = false →
          (getQ u (cmdArg e.cmd 0)).state = qIdle ∧ (getQ u (cmdArg e.cmd 0)).cur = none
          ∧ (getQ u (cmdArg e.cmd 0)).nextSeq = (getQ s (cmdArg e.cmd 0)).nextSeq ∧ bytesKept s u) := by
  refine ⟨_, exec_qRestart cmd range a1 a2 own found stopped, fun none_ => ?_, fun x bs stopper retry read => ?_, fun x stopper skip chain => ?_⟩
  · rw [restarted_none none_, getQ_restartedQueue]
    exact ⟨rfl, rfl, rfl, bytesKept_refl s⟩
  · obtain ⟨s1, read⟩ := read (restartedQueue (getQ s (cmdArg e.cmd 0)))
    rw [retry]
    exact restarted_retry stopper read
  · rw [skip]
    show (getQ (restarted _ false s) _).state = _ ∧ (getQ (restarted _ false s) _).cur = _ ∧ (getQ (restarted _ false s) _).nextSeq = _
      ∧ bytesKept s (restarted _ false s)
    rw [restarted_skip stopper chain, getQ_restartedQueue]
    exact ⟨rfl, rfl, rfl, bytesKept_refl s⟩

/-! ### SINK_SET (R258, R259) -/

theorem sinkSet_sets (cmd : adminCmd s f 0x27 = some e) (range : cmdArg e.cmd 0 < 2 ^ 20) (aligned : cmdArg e.cmd 1 % 64 = 0)
    (narrow : cmdArg e.cmd 1 < 2 ^ 57) (low : 6 ≤ cmdArg e.cmd 2) (high : cmdArg e.cmd 2 ≤ 20) (sinks : agreed s f 17 = true)
    (own : ownsQueue s f (cmdArg e.cmd 0) = true) :
    ∃ u, exec (.sinkSet f) s = .next (onlyWork s (ctlEnd f 0 0 0 0 0 (sinkFound (getQ s (cmdArg e.cmd 0)).ctx u)))
      ∧ (getQ u (cmdArg e.cmd 0)).cq.toNat = cmdArg e.cmd 1 ∧ (getQ u (cmdArg e.cmd 0)).cqLog2 = cmdArg e.cmd 2
      ∧ (getQ u (cmdArg e.cmd 0)).sinkBad = false ∧ (∀ k, k ≠ cmdArg e.cmd 0 → getQ u k = getQ s k) ∧ bytesKept s u
      ∧ (anySinkBad u (getQ s (cmdArg e.cmd 0)).ctx = true → sinkFound (getQ s (cmdArg e.cmd 0)).ctx u = u) := by
  have queue : ∀ k, getQ (setQ (cmdArg e.cmd 0) { getQ s (cmdArg e.cmd 0) with
      cq := BitVec.ofNat 64 (cmdArg e.cmd 1), cqLog2 := cmdArg e.cmd 2, sinkBad := false, shadowHeld := false, shadowFirst := 0 } s) k =
      if k = cmdArg e.cmd 0 then { getQ s (cmdArg e.cmd 0) with
        cq := BitVec.ofNat 64 (cmdArg e.cmd 1), cqLog2 := cmdArg e.cmd 2, sinkBad := false, shadowHeld := false, shadowFirst := 0 } else getQ s k :=
    fun _ => getQ_setQ ..
  refine ⟨_, ?_, ?_, ?_, ?_, fun k other => (queue k).trans (if_neg other), bytesKept_refl s, fun bad => if_pos bad⟩
  · show execSinkSet f s = _
    simp only [execSinkSet, cmd]
    rw [if_neg (by simp [sinks, own]; omega)]
    rfl
  · rw [queue, if_pos rfl]
    exact toNat_cmdArg ..
  · rw [queue, if_pos rfl]
  · rw [queue, if_pos rfl]

end Restart

/-! ### GRAPH_STORE (R251) -/

section Store
variable {f : Bool} {s : State} {e : Entry}

theorem writeCommands_keep {β : Type} (p : State → β) (mem : ∀ (t : State) (m : Mem), p { t with mem := m } = p t)
    (absorbed : ∀ (t : State) (n : Nat), p { t with fr := { t.fr with absReq := n } } = p t)
    (rx : ∀ (t : State) (x : Rx), p { t with rx := x } = p t) (free : ∀ (t : State) (n : Nat), p { t with free := n } = p t)
    (waits : ∀ (t : State) (ws : List Waiter), p { t with fe := { t.fe with waiters := ws } } = p t) (pages : List Nat) (n : Nat) (bs : List Byte)
    (i : Nat) (s : State) : p (writeCommands pages n bs i s) = p s := by
  induction n generalizing bs i s with
  | zero => rfl
  | succ n ih => rw [writeCommands, ih, pageWrite_keep p mem absorbed rx free waits]

theorem getGraph_onlyWork (s t : State) (g : Nat) : getGraph (onlyWork s t) g = getGraph t g := rfl

/-- Allocated pages are free ones of the pool. -/
theorem allocPages_free {n : Nat} {ps : List Nat} (taken : allocPages s n = some ps) : ∀ p ∈ ps, p ∉ usedPages s ∧ p < poolPages s := by
  unfold allocPages at taken
  dsimp only at taken
  split at taken
  · cases taken
  · cases taken
    intro p inside
    have listed := List.mem_of_mem_take inside
    simp only [List.mem_filter, upto, List.mem_range, Bool.not_eq_true', List.contains_eq_mem, decide_eq_false_iff_not] at listed
    obtain ⟨low, unused⟩ := listed
    exact ⟨unused, by omega⟩

theorem graphStore_stores {bs : List Byte} {ps : List Nat} {g c n : Nat} (cmd : adminCmd s f 0x29 = some e) (graph : g = fld (cmdArg e.cmd 0) 0 12)
    (context : c = fld (cmdArg e.cmd 0) 12 8) (count : n = cmdArg e.cmd 2) (range : cmdArg e.cmd 0 < 2 ^ 20) (some_ : n ≠ 0) (small : n ≤ 65536)
    (graphs : agreed s f 16 = true) (own : ownsCtx s f c = true) (unused : (getGraph s g).stored = false) (found : inSinkLost s c = false)
    (fits : (n + 63) / 64 ≤ poolPages s) (settled_ : freeVersions s = s) (pages : allocPages s ((n + 63) / 64) = some ps)
    (source : hostBytes s (cmdArg e.cmd 1) (64 * n) = some bs) :
    ∃ t, exec (.graphStore f) s = .next t ∧ adminEnded s t f 0 ∧ (getGraph t g).stored = true ∧ (getGraph t g).owner = c
      ∧ (getGraph t g).current = some (getGraph s g).nextVersion ∧ mget [] (getGraph t g).versions (getGraph s g).nextVersion = ps
      ∧ mget 0 (getGraph t g).lengths (getGraph s g).nextVersion = n ∧ (∀ p ∈ ps, p ∉ usedPages s ∧ p < poolPages s) ∧ t.hs.hostMem = s.hs.hostMem := by
  let gr : Graph := { stored := true, owner := c, versions := minsert (getGraph s g).nextVersion ps (getGraph s g).versions
                      lengths := mset 0 (getGraph s g).lengths (getGraph s g).nextVersion n
                      current := some (getGraph s g).nextVersion, nextVersion := (getGraph s g).nextVersion + 1 }
  have hs : (setGraph g gr (writeCommands ps n bs 0 s)).hs = s.hs :=
    writeCommands_keep (·.hs) (fun _ _ => rfl) (fun _ _ => rfl) (fun _ _ => rfl) (fun _ _ => rfl) (fun _ _ => rfl) ..
  have run : exec (.graphStore f) s = .next (onlyWork s (ctlEnd f 0 0 0 0 0 (setGraph g gr (writeCommands ps n bs 0 s)))) := by
    show execGraphStore f s = _
    simp only [execGraphStore, cmd, settled_, ← graph, ← context, ← count]
    rw [if_neg (by simp [some_, graphs, own, unused]; omega), if_neg (by simp [found]), if_neg (by omega), pages]
    dsimp only
    rw [source]
    rfl
  have made : getGraph (onlyWork s (ctlEnd f 0 0 0 0 0 (setGraph g gr (writeCommands ps n bs 0 s)))) g = gr := by
    rw [getGraph_onlyWork, getGraph_ctlEnd, getGraph_setGraph, if_pos rfl]
  refine ⟨_, run, adminEnded_ctlEnd (congrArg Fn.adminBusy (getFn_of_hs hs f)) 0 0 0 0 0, ?_⟩
  rw [made]
  refine ⟨rfl, rfl, rfl, (mget_minsert ..).trans (if_pos rfl), mget_mset_self .., allocPages_free pages, ?_⟩
  rw [onlyWork_hostMem, ctlEnd_hostMem, hs]

/-! ### GRAPH_FREE: versions go but for those that a launch has bound (R251, R252) -/

/-- A graph with the versions alone that its current pointer or a bound launch refers to. -/
def trimGraph (bound : Nat → Bool) (v : Graph) : Graph :=
  let keep := v.versions.filter fun x => v.current == some x.1 || bound x.1
  if keep.isEmpty && !v.stored then {} else { v with versions := keep, lengths := v.lengths.filter fun x => keep.any fun y => y.1 == x.1 }

/-- A graph that is no longer stored, but for versions that may be bound. -/
def Freed (v : Graph) : Prop := v.stored = false ∧ v.current = none

/-- Every version of the graph is one that a launch has bound. -/
def OnlyBound (bound : Nat → Bool) (v : Graph) : Prop := ∀ x ∈ v.versions, bound x.1 = true

theorem trimGraph_freed (bound : Nat → Bool) {v : Graph} (freed : Freed v) : Freed (trimGraph bound v) ∧ OnlyBound bound (trimGraph bound v) := by
  obtain ⟨stored, current⟩ := freed
  unfold trimGraph
  dsimp only
  split
  · exact ⟨⟨rfl, rfl⟩, fun x hx => absurd hx List.not_mem_nil⟩
  · refine ⟨⟨stored, current⟩, fun x hx => ?_⟩
    have kept := (List.mem_filter.1 hx).2
    simpa [current] using kept

/-- One graph's versions are freed. -/
def trimAt (t : State) (e : Nat × Graph) : State := setGraph e.1 (trimGraph (versionBound t e.1) (getGraph t e.1)) t

theorem freeVersions_eq (s : State) : freeVersions s = s.fe.graphs.foldl trimAt s := rfl

theorem trimAt_keep {β : Type} (p : State → β) (graph : ∀ g v t, p (setGraph g v t) = p t) (t : State) (e : Nat × Graph) : p (trimAt t e) = p t :=
  graph ..

/-- What no stored graph belongs to is kept. -/
theorem freeVersions_keep {β : Type} (p : State → β) (graph : ∀ g v t, p (setGraph g v t) = p t) (s : State) : p (freeVersions s) = p s :=
  foldl_keep p (trimAt_keep p graph) ..

/-- Of a graph that is no longer stored, versions that no launch has bound go. -/
theorem foldl_trimAt_freed {g : Nat} (es : List (Nat × Graph)) (t : State) (freed : Freed (getGraph t g))
    (bound : OnlyBound (versionBound t g) (getGraph t g) ∨ g ∈ es.map Prod.fst) :
    Freed (getGraph (es.foldl trimAt t) g) ∧ OnlyBound (versionBound t g) (getGraph (es.foldl trimAt t) g) := by
  induction es generalizing t with
  | nil => exact ⟨freed, bound.resolve_right (by simp)⟩
  | cons e es ih =>
    have graph : getGraph (trimAt t e) g = if g = e.1 then trimGraph (versionBound t e.1) (getGraph t e.1) else getGraph t g := getGraph_setGraph ..
    have kept : versionBound (trimAt t e) g = versionBound t g := rfl
    rw [List.foldl_cons, ← kept]
    by_cases here : g = e.1
    · obtain ⟨freed', bound'⟩ := trimGraph_freed (versionBound t g) freed
      rw [if_pos here, ← here] at graph
      exact ih _ (graph ▸ freed') (.inl (kept ▸ graph ▸ bound'))
    · rw [if_neg here] at graph
      refine ih _ (graph ▸ freed) (bound.imp (fun b => kept ▸ graph ▸ b) fun listed => ?_)
      exact (List.mem_cons.1 (by simpa using listed)).resolve_left here

theorem freeVersions_freed {g : Nat} {t : State} (freed : Freed (getGraph t g)) :
    Freed (getGraph (freeVersions t) g) ∧ OnlyBound (versionBound t g) (getGraph (freeVersions t) g) := by
  rw [freeVersions_eq]
  refine foldl_trimAt_freed t.fe.graphs t freed ?_
  by_cases listed : g ∈ t.fe.graphs.map Prod.fst
  · exact .inr listed
  · refine .inl fun x hx => ?_
    rw [getGraph, mget_of_not_listed listed] at hx
    exact absurd hx List.not_mem_nil

theorem graphFree_frees (cmd : adminCmd s f 0x2A = some e) (range : cmdArg e.cmd 0 < 4096) (a1 : cmdArg e.cmd 1 = 0) (a2 : cmdArg e.cmd 2 = 0)
    (graphs : agreed s f 16 = true) (stored_ : (getGraph s (cmdArg e.cmd 0)).stored = true)
    (own : ownsCtx s f (getGraph s (cmdArg e.cmd 0)).owner = true) (found : inSinkLost s (getGraph s (cmdArg e.cmd 0)).owner = false) :
    ∃ t, exec (.graphFree f) s = .next t ∧ adminEnded s t f 0 ∧ (getGraph t (cmdArg e.cmd 0)).stored = false
      ∧ (getGraph t (cmdArg e.cmd 0)).current = none ∧ (∀ x ∈ (getGraph t (cmdArg e.cmd 0)).versions, versionBound s (cmdArg e.cmd 0) x.1 = true)
      ∧ bytesKept s t ∧ t.fe.queues = s.fe.queues := by
  let u := setGraph (cmdArg e.cmd 0) { getGraph s (cmdArg e.cmd 0) with stored := false, current := none } s
  have run : exec (.graphFree f) s = .next (onlyWork s (ctlEnd f 0 0 0 0 0 (freeVersions u))) := by
    show execGraphFree f s = _
    simp only [execGraphFree, cmd]
    rw [if_neg (by simp [a1, a2, graphs, stored_, own]; omega), if_neg (by simp [found])]
    rfl
  have freed : Freed (getGraph u (cmdArg e.cmd 0)) := by
    rw [show u = setGraph _ _ s from rfl, getGraph_setGraph, if_pos rfl]
    exact ⟨rfl, rfl⟩
  obtain ⟨⟨gone, current⟩, bound⟩ := freeVersions_freed freed
  have mem : (freeVersions u).mem = s.mem := freeVersions_keep (·.mem) (fun _ _ _ => rfl) u
  have hs : (freeVersions u).hs = s.hs := freeVersions_keep (·.hs) (fun _ _ _ => rfl) u
  have queues : (freeVersions u).fe.queues = s.fe.queues := freeVersions_keep (·.fe.queues) (fun _ _ _ => rfl) u
  refine ⟨_, run, adminEnded_ctlEnd (congrArg Fn.adminBusy (getFn_of_hs hs f)) 0 0 0 0 0, ?_⟩
  rw [getGraph_onlyWork, getGraph_ctlEnd]
  refine ⟨gone, current, bound, bytesKept_of_onlyWork (bytesKept_trans (bytesKept_of_memHs mem hs) (bytesKept_ctlEnd ..)), ?_⟩
  rw [onlyWork_fe, ctlEnd_fe, queues]

end Store

/-! ### A command on a context that the function does not own (R373) -/

section Foreign
variable {f : Bool} {s : State} {e : Entry}

theorem foreign_illegal {op : Nat} (cmd : adminCmd s f op = some e) :
    adminEnded s (onlyWork s (ctlIllegal f e s)) f 0x11 ∧ faultAdded s (onlyWork s (ctlIllegal f e s)) 1 0x11 9
      ∧ bytesKept s (onlyWork s (ctlIllegal f e s)) ∧ (onlyWork s (ctlIllegal f e s)).fe = s.fe :=
  ⟨adminEnded_ctlEnd (u := s) rfl stIllegal cIllegal rControl _ _, faultAdded_ctlEnd cmd rfl rfl (by decide) cIllegal rControl _ _,
    bytesKept_of_onlyWork (bytesKept_ctlEnd ..), ctlEnd_fe ..⟩

variable (foreign : 256 ≤ cmdArg e.cmd 0 ∨ ownsCtx s f (cmdArg e.cmd 0) = false)
include foreign

theorem exec_ctxDestroy_foreign (cmd : adminCmd s f 0x21 = some e) : exec (.ctxDestroy f) s = .next (onlyWork s (ctlIllegal f e s)) := by
  show execCtxDestroy f s = _
  simp only [execCtxDestroy, cmd]
  rw [if_pos (by simp only [Bool.not_eq_true']; tauto)]

theorem exec_ctxReset_foreign (cmd : adminCmd s f 0x22 = some e) : exec (.ctxReset f) s = .next (onlyWork s (ctlIllegal f e s)) := by
  show execCtxReset f s = _
  simp only [execCtxReset, cmd]
  rw [if_pos (by simp only [Bool.not_eq_true']; tauto)]

theorem exec_ctxResume_foreign (cmd : adminCmd s f 0x23 = some e) : exec (.ctxResume f) s = .next (onlyWork s (ctlIllegal f e s)) := by
  show execCtxResume f s = _
  simp only [execCtxResume, cmd]
  rw [if_pos (by simp only [Bool.not_eq_true']; tauto)]

theorem exec_xlatInval_foreign (cmd : adminCmd s f 0x28 = some e) : exec (.xlatInval f) s = .next (onlyWork s (ctlIllegal f e s)) := by
  show execXlatInval f s = _
  simp only [execXlatInval, cmd]
  rw [if_pos (by simp only [Bool.not_eq_true']; tauto)]

/-- Each of the four, by its opcode. -/
theorem exec_foreign {op : Nat} (cmd : adminCmd s f op = some e) {c : Nat × Instr}
    (listed : c ∈ ([(0x21, .ctxDestroy f), (0x22, .ctxReset f), (0x23, .ctxResume f), (0x28, .xlatInval f)] : List (Nat × Instr))) (same : c.1 = op) :
    exec c.2 s = .next (onlyWork s (ctlIllegal f e s)) := by
  subst same
  simp only [List.mem_cons, List.not_mem_nil, or_false] at listed
  obtain rfl | rfl | rfl | rfl := listed
  · exact exec_ctxDestroy_foreign foreign cmd
  · exact exec_ctxReset_foreign foreign cmd
  · exact exec_ctxResume_foreign foreign cmd
  · exact exec_xlatInval_foreign foreign cmd

end Foreign

/-- Settles O50: one lemma for each command, in the order of the statement. -/
theorem queueAndGraphControlCommands : Obligations.QueueAndGraphControlCommands :=
  fun _ _ _ => ⟨fun _ cmd a1 a2 record sound own found present allowed => qCreate_makes cmd a1 a2 record rfl sound own found present allowed,
    qDestroy_drops, fun cmd range a1 a2 own found stopped => qRestart_restarts cmd range a1 a2 own found stopped, sinkSet_sets,
    fun _ _ cmd range some_ small graphs own unused found fits settled_ pages source =>
      graphStore_stores cmd rfl rfl rfl range some_ small graphs own unused found fits settled_ pages source,
    graphFree_frees, fun _ cmd _ foreign _ listed same => ⟨_, exec_foreign foreign cmd listed same, foreign_illegal cmd⟩⟩

end Sys2Proof.Machine
end
